-- ==== Sys2Proof/Word.lean ====
section
/-! DEFINITION. The word types of the A480 and the sparse-store type that every file and memory of the machine uses
(spec 00 R3-R5, 01 R15-R16). -/

namespace Sys2Proof

/-- A 64-bit value, the width every move carries (02 R41). -/
abbrev Word := BitVec 64

/-- One byte (00 R4). -/
abbrev Byte := BitVec 8

/-- A 24-bit slot word of a bundle (02 R34). -/
abbrev Slot := BitVec 24

/-- A 1024-byte row of the operand file or the main file (01 R15); byte `i` is bits `8i+7 … 8i`. -/
abbrev Row := BitVec 8192

/-- A lane mask register, bits m0 to m2047 (07 R131). -/
abbrev Mask := BitVec 2048

/-- A sparse store in canonical form: keys strictly rising, and no entry equal to what an unlisted key reads as.
With `α = Byte` it is a list of `Host.Cell`. -/
abbrev Store (α : Type) := List (Nat × α)

end Sys2Proof
end

