-- ==== Sys2Proof/Config.lean ====
section
/-! DEFINITION. What the spec leaves to the implementation or names by a published standard only: the cryptographic
functions (18 R340-R353, R366) and the free values. None but slhVerify has a body: nothing can be proved of their values. -/

namespace Sys2Proof.Config

/-- SHAKE256 of a byte string, n bytes (18 R352). Log: DESIGN CHOICE 6. -/
opaque shake256 : List Byte → Nat → List Byte

/-- The keystream of AES-256-GCM, which is a counter mode: key, IV, number of bytes. Log: DESIGN CHOICE 6. -/
opaque gcmStream : List Byte → List Byte → Nat → List Byte

/-- The GCM tag: key, IV, associated data, ciphertext; 16 bytes. -/
opaque gcmTag : List Byte → List Byte → List Byte → List Byte → List Byte

/-- ML-KEM-1024 decapsulation of a ciphertext under the device's ephemeral key (18 R352, R366). -/
opaque mlkemDecap : List Byte → List Byte

/-- The device's ephemeral ML-KEM-1024 encapsulation key (18 R366). Log: DESIGN CHOICE 6. -/
opaque ephemeralKey : List Byte

/-- The device's ML-KEM-1024 encapsulation to a peer: the ciphertext and the shared secret. -/
opaque mlkemEncap : List Byte → List Byte × List Byte

/-- SLH-DSA-SHAKE-256s signing under a named key; 29,792 bytes. -/
opaque slhSign : List Byte → List Byte → List Byte

/-- Another signature than the one that slhSign answers, accepted: SLH-DSA-SHAKE-256s signs with a random value, so that a message has
many signatures. -/
opaque slhOther : List Byte → List Byte → List Byte → Bool

/-- SLH-DSA-SHAKE-256s verification: key name, message, signature. What has been signed verifies. Log: DESIGN CHOICE 6. -/
def slhVerify (key msg sig : List Byte) : Bool := sig == slhSign key msg || slhOther key msg sig

/-- Unwrapping of a 96-byte key blob under a partition's wrapping key; none where it fails (18 R362). -/
opaque unwrapKey : List Byte → List Byte → Option (List Byte)

/-- The code that the negative smallest magnitude takes in a nan-negzero format without zero, from its exponent width, mantissa
width and bias: the spec states none (05 R96). Log: DESIGN CHOICE 139. -/
opaque negSmallest : Nat → Nat → Int → BitVec 8

/-- The wrapping key of an SPDM session, from its secret (18 R362). Log: DESIGN CHOICE 6. -/
opaque wrapKey : List Byte → List Byte

/-- AES-256 of one 16-byte block under a key (18 R341). Log: DESIGN CHOICE 6. -/
opaque aesBlock : List Byte → List Byte → List Byte

/-- GMAC: key, nonce, message; 16 bytes (18 R341). Log: DESIGN CHOICE 6. -/
opaque gmac : List Byte → List Byte → List Byte → List Byte

/-- The MAC of a tree node: the counter that keys it, the node's bytes; 8 bytes (18 R342). Log: DESIGN CHOICE 6. -/
opaque nodeMac : Nat → List Byte → List Byte

/-- Ascon-XOF128: n bytes of keystream under a key (18 R340). Log: DESIGN CHOICE 6. -/
opaque asconXof : List Byte → Nat → List Byte

/-- The stack link key of a boot: the boot nonce, the stack (18 R352). Log: DESIGN CHOICE 126. -/
opaque linkKey : Nat → Nat → List Byte

/-- The fused device secret and the boot-stage measurements (18 R352). Log: DESIGN CHOICE 7. -/
opaque deviceSecret : List Byte
opaque bootMeasurements : List Byte

/-- The name of a stream in the derivation of its keys: kind 0 cellar, 1 UCIe, 2 fabric with its handle (18 R352).
Log: DESIGN CHOICE 126. -/
opaque streamName : Nat → Nat → List Byte

/-- The address of a node of a stack's counter tree in its reserved area: stack, level, node (18 R342). Log: DESIGN CHOICE 126. -/
opaque nodeAddr : Nat → Nat → Nat → Nat

/-- The cellar address of the layby (13 R258). Log: DESIGN CHOICE 78. -/
opaque laybyBase : Nat

/-- The 16-byte device serial (18 R367). Log: DESIGN CHOICE 7. -/
opaque deviceSerial : List Byte

/-- The certificate chain in boot flash (18 R352, R353). Log: DESIGN CHOICE 7. -/
opaque certChain : List Byte

/-- The free values of the model, numbered by State.freeCtr. Log: DESIGN CHOICE 5. -/
opaque freeValue : Nat → Word

end Sys2Proof.Config
end

