-- ==== Sys2Proof/Syntax.lean ====
section
/-! DEFINITION. The instruction type: one constructor per row of spec/opcode_table.json (02 R34-R56 for what a slot
carries; spec/95 for the steps that are events). Slot operations carry their move's guard and source; wide operations
carry their extension word (02 R45). Events carry what the outside party or the untimed engine decides. -/

namespace Sys2Proof

/-- The special sources 0x048-0x05D of 02 R41. -/
inductive Special where
  | tick | rcyc | coreid | tile | part | lanes32 | lanes16 | lanes8 | lanes4
  | li0 | li1 | li2 | li3 | rotb | sbbase | sblen | sbfill | pc | mode | pace | reachix | reachtick
  deriving DecidableEq, Repr

/-- A source of a move (02 R41, R44). -/
inductive Src where
  /-- x0-x63, codes 0x000-0x03F. -/
  | x (n : BitVec 6)
  /-- p0-p7, codes 0x040-0x047. -/
  | p (n : BitVec 3)
  /-- A special source, codes 0x048-0x05D. -/
  | special (k : Special)
  /-- Output port k of unit u at 0x060 + 4u + k. -/
  | out (n : Fin 48)
  /-- The head of hardware queue i, 0x090-0x097. -/
  | queue (n : BitVec 3)
  /-- Long immediate of 24 bits, code 0x0A0, one extension slot. -/
  | imm24 (v : BitVec 24)
  /-- Long immediate of 48 bits, code 0x0A1, two extension slots. -/
  | imm48 (v : BitVec 48)
  /-- Short immediate of 9 bits, codes 0x200-0x3FF. -/
  | short (v : BitVec 9)
  deriving DecidableEq, Repr

/-- What every move slot carries besides its destination: guard and source (02 R39). -/
structure Head where
  /-- 1: the guard is the inverse of the named predicate. -/
  inv : Bool
  /-- The guard predicate. -/
  pred : BitVec 3
  src : Src
  deriving DecidableEq, Repr

/-- The destinations of a plain move (02 R42): all but queue pushes, the stream reset and triggers, which are
constructors of their own. -/
inductive Dest where
  | x (n : BitVec 6)
  | p (n : BitVec 3)
  /-- Loop count, 0x048. -/
  | lcount
  /-- Rotation base, 0x049. -/
  | rotb
  /-- Stream buffer base, 0x04A. -/
  | sbbase
  /-- Stream buffer length, 0x04B. -/
  | sblen
  /-- Input port k of unit u at 0x050 + 14u + k. -/
  | inp (n : Fin 168)
  deriving DecidableEq, Repr

/-- The extension word of a wide operation (02 R45). -/
structure Ext where
  d : BitVec 5
  aLast : Bool
  a : BitVec 4
  bLast : Bool
  b : BitVec 4
  ty : BitVec 4
  mask : BitVec 3
  rnd : BitVec 2
  deriving DecidableEq, Repr

/-- How a control register is written (18 R357): csrw, csrs or csrc. -/
inductive CsrKind where
  | w | s | c
  deriving DecidableEq, Repr

/-- What the environment contributes to one engine access: writes the host made visible before it, a CXL completion
with an error status (12 R227), or a cellar line whose check fails (18 R345). -/
structure LineEnv where
  hostWrites : List (Nat × Byte)
  hostError : Bool
  macFail : Bool
  /-- Host lines that the coherence cache has given up before it (01 R26). -/
  drops : List Nat
  deriving DecidableEq, Repr

/-- What the environment contributes to the end of an untimed system operation (18 R361-R367): an abort reply or a
failed line, and how many bytes were done before it. -/
structure SysEnv where
  pageAbort : Bool
  integrity : Bool
  bytes : Nat
  deriving DecidableEq, Repr

/-- The phases of a page migration (12 R238). -/
inductive MigPhase where
  | start | copy | round | freeze | finish
  deriving DecidableEq, Repr

/-- A key stream of a partition (18 R346). -/
inductive KeyStream where
  | cellar
  | ucie (dir : Bool)
  /-- The stream of a handle: false for what this package sends, true for what it receives. -/
  | fabric (handle : Nat) (recv : Bool)
  | bottle
  deriving DecidableEq, Repr

/-- The fields of a queue page that a host write names (16 R303). -/
inductive QueueField where
  | base | size | cls
  deriving DecidableEq, Repr

/-- What the keeper places a hold for (14 R284, 20 R390). -/
inductive HoldReason where
  | voltage | preempt | reload | bottle
  deriving DecidableEq, Repr

/-- The sources the health monitor counts (20 R386). -/
inductive HealthSrc where
  | cellar | lane | droop | temperature
  deriving DecidableEq, Repr

/-- What the health monitor takes in (20 R386): an event that it counts, or the junction temperature of a basin in °C. -/
inductive HealthInput where
  | cellar | lane | droop
  | temperature (celsius : Nat)
  deriving DecidableEq, Repr

/-- A cellar page that the keeper evicts (19 R382): its address, the host address its sealed copy goes to, and the suspended context
whose page it is, or the running one. -/
structure EvictTo where
  pa : Nat
  host : Nat
  ctx : Option Nat
  deriving DecidableEq, Repr

/-- The layby that a relayed transfer departs (13 R258): this package's own, by the place of the item in it; or that of the intermediate of
a transfer that this package sent, by core and send id. -/
inductive Relay where
  | here (idx : Nat)
  | away (core : Nat) (send : Nat)
  deriving DecidableEq, Repr

/-- The steps of a keeper bottle (20 R390): quiesce and open, seal one shard, seal the manifest. -/
inductive BottlePhase where
  | start | shard | manifest
  deriving DecidableEq, Repr

/-- A signed remote command (19 R383); `sig` is its 29,792-byte signature. -/
structure Command where
  op : Nat
  target : Nat
  flags : Nat
  reserved : Nat
  counter : Nat
  sig : List Byte
  /-- The new counter can be written to the boot flash and read back. -/
  counterKept : Bool
  deriving DecidableEq, Repr

/-- A firmware image: its measurement, security version, the state-table version it accepts (19 R379), and the bundles it
loads into the cores that run it (01 R25). -/
structure Firmware where
  measurement : List Byte
  secver : Nat
  tableVersion : Nat
  image : List Byte
  deriving DecidableEq, Repr

/-- A transfer as it reaches a receiving package (13 R256, R262): plaintext payload, with what the flits showed. -/
structure Transfer where
  /-- Sending position, and the sending core and send id (own package only: a loop-back). -/
  src : Nat
  srcCore : Nat
  sendId : Nat
  /-- Destination position. -/
  dst : Nat
  /-- The position whose layby it came through, if it was relayed. -/
  via : Option Nat
  loopback : Bool
  /-- Stream-key handle and sending partition. -/
  handle : Nat
  srcPart : Nat
  /-- Receiving partition and the peer-window index named by the transmit entry. -/
  dstPart : Nat
  window : Nat
  lpol : Nat
  offset : Nat
  data : List Byte
  /-- One label per 64-byte line, for lpol 1 and 2. -/
  labels : List (BitVec 16)
  /-- Sixteen scale bytes per line, for lpol 2. -/
  scales : List Byte
  /-- The key phase its flits carry (18 R346). -/
  phase : Nat
  /-- The tick at which it departed from its sender, which orders the transfers of one path (10 R198). -/
  depart : Nat
  /-- Every flit passes its GCM tag. -/
  tagOk : Bool
  /-- A tail of it spilled (13 R251). -/
  late : Bool
  deriving DecidableEq, Repr

/-- A message of the fbind exchange from the peer (18 R366). -/
inductive FbindMsg where
  /-- The peer's mirrored request: its nonce, its ephemeral key and the options of its record. -/
  | request (nonce : List Byte) (ephemeral : List Byte) (opts : Nat)
  /-- The peer's attestation evidence: a report of 18 R367 with its signature. -/
  | evidence (report : List Byte)
  /-- The peer accepted this side's evidence. -/
  | accept
  /-- The peer rejected this side's evidence. -/
  | reject
  /-- The peer's encapsulation, window base and the layby credit it grants. -/
  | key (cipher : List Byte) (wbase : Nat) (credit : Nat)
  /-- The peer's bottle key under the stream key, with the IV that sealed it, and its vintage. -/
  | bottleKey (iv : List Byte) (sealed : List Byte) (vintage : Nat)
  deriving DecidableEq, Repr

/-- Why an interface enters ERROR (18 R345, R354): a failed node of a stack's counter tree, by level (0 a leaf) and index, an IDE
failure on CCL, or a key-store fault. -/
inductive TdiCause where
  | tree (stack : Nat) (level : Nat) (idx : Nat)
  | ide
  | keyStore
  deriving DecidableEq, Repr

/-- A fault of the device interface of a partition (18 R354). -/
structure TdiFault where
  part : Nat
  cause : TdiCause
  deriving DecidableEq, Repr

/-- What a VENDOR_DEFINED_REQUEST carries (18 R352-R354): TDISP, IDE_KM, or the encapsulated tenant secret. -/
inductive VendorReq where
  | lockInterface (part : Nat)
  | startInterface (part : Nat)
  | stopInterface (part : Nat)
  | interfaceReport (part : Nat)
  | ideKey (part : Nat) (key : List Byte)
  | tenantSecret (part : Nat) (cipher : List Byte)
  deriving DecidableEq, Repr

/-- The instructions and steps of the A480: one constructor per row of spec/opcode_table.json. -/
inductive Instr where
  /-- R59: A stream issues a 32-byte bundle: it is decoded and checked in full, its sources are read at T and its moves take effect, or it raises a precise fault and has no effect. -/
  | bundleIssue (core : Nat) (motor : Bool)
  /-- R42: A guarded move copies a 64-bit source value to a register, predicate, special destination or input port. -/
  | move (h : Head) (d : Dest)
  /-- R40: The canonical no-op move, with guard never, source x0 and destination x0. -/
  | nop
  /-- R54: A move to a queue destination adds its value at the tail of hardware queue i at the end of cycle T. -/
  | queuePush (h : Head) (q : BitVec 3)
  /-- R42: A move to the stream-reset destination empties the stream buffer, setting head and fill to 0. -/
  | streamReset (h : Head)
  /-- R173: sa delivers the trigger operand on o0 at T+1. -/
  | saMov (h : Head)
  /-- R173: sa delivers wrap(a + b, 64) on o0 at T+1. -/
  | saAdd (h : Head)
  /-- R173: sa delivers wrap(a − b, 64) on o0 at T+1. -/
  | saSub (h : Head)
  /-- R173: sa delivers a and b on o0 at T+1. -/
  | saAnd (h : Head)
  /-- R173: sa delivers a or b on o0 at T+1. -/
  | saOr (h : Head)
  /-- R173: sa delivers a xor b on o0 at T+1. -/
  | saXor (h : Head)
  /-- R173: sa delivers a and not b on o0 at T+1. -/
  | saAndn (h : Head)
  /-- R173: sa delivers a or not b on o0 at T+1. -/
  | saOrn (h : Head)
  /-- R174: sa shifts a left by n(b), giving 0 for counts of 64 or more. -/
  | saShl (h : Head)
  /-- R174: sa shifts a right logically by n(b). -/
  | saShr (h : Head)
  /-- R174: sa shifts a right arithmetically by n(b). -/
  | saSar (h : Head)
  /-- R174: sa rotates a left by n(b) mod 64. -/
  | saRol (h : Head)
  /-- R173: sa delivers the signed lesser of a and b. -/
  | saMin (h : Head)
  /-- R173: sa delivers the signed greater of a and b. -/
  | saMax (h : Head)
  /-- R173: sa delivers the unsigned lesser of a and b. -/
  | saMinu (h : Head)
  /-- R173: sa delivers the unsigned greater of a and b. -/
  | saMaxu (h : Head)
  /-- R173: sa delivers 1 if a = b, and 0 otherwise. -/
  | saSeq (h : Head)
  /-- R173: sa delivers 1 if a ≠ b, and 0 otherwise. -/
  | saSne (h : Head)
  /-- R173: sa delivers 1 if s(a) < s(b), and 0 otherwise. -/
  | saSlt (h : Head)
  /-- R173: sa delivers 1 if n(a) < n(b), and 0 otherwise. -/
  | saSltu (h : Head)
  /-- R173: sa delivers 1 if s(a) ≤ s(b), and 0 otherwise. -/
  | saSle (h : Head)
  /-- R173: sa delivers 1 if n(a) ≤ n(b), and 0 otherwise. -/
  | saSleu (h : Head)
  /-- R176: sa writes a = b to the predicate named by bits 2:0 of i1. -/
  | saPeq (h : Head)
  /-- R176: sa writes a ≠ b to the predicate named by bits 2:0 of i1. -/
  | saPne (h : Head)
  /-- R176: sa writes s(a) < s(b) to the named predicate. -/
  | saPlt (h : Head)
  /-- R176: sa writes n(a) < n(b) to the named predicate. -/
  | saPltu (h : Head)
  /-- R176: sa writes s(a) ≥ s(b) to the named predicate. -/
  | saPge (h : Head)
  /-- R176: sa writes n(a) ≥ n(b) to the named predicate. -/
  | saPgeu (h : Head)
  /-- R173: sa delivers the count of leading zero bits of b, 64 for b = 0. -/
  | saClz (h : Head)
  /-- R173: sa delivers the count of trailing zero bits of b, 64 for b = 0. -/
  | saCtz (h : Head)
  /-- R173: sa delivers the count of one bits of b. -/
  | saPopc (h : Head)
  /-- R175: sa sign-extends a from width n(b). -/
  | saSext (h : Head)
  /-- R175: sa zero-extends a from width n(b). -/
  | saZext (h : Head)
  /-- R175: sa extracts the bit field of a that the descriptor in b describes. -/
  | saBfx (h : Head)
  /-- R175: sa inserts c into the bit field of a that b describes. -/
  | saBfi (h : Head)
  /-- R173: sa delivers the 32-bit sum of a and b, sign-extended to 64 bits. -/
  | saAddw (h : Head)
  /-- R173: sb delivers the trigger operand on o0 at T+1. -/
  | sbMov (h : Head)
  /-- R173: sb delivers wrap(a + b, 64) on o0 at T+1. -/
  | sbAdd (h : Head)
  /-- R173: sb delivers wrap(a − b, 64) on o0 at T+1. -/
  | sbSub (h : Head)
  /-- R173: sb delivers a and b. -/
  | sbAnd (h : Head)
  /-- R173: sb delivers a or b. -/
  | sbOr (h : Head)
  /-- R173: sb delivers a xor b. -/
  | sbXor (h : Head)
  /-- R173: sb delivers a and not b. -/
  | sbAndn (h : Head)
  /-- R173: sb delivers a or not b. -/
  | sbOrn (h : Head)
  /-- R174: sb shifts a left by n(b). -/
  | sbShl (h : Head)
  /-- R174: sb shifts a right logically by n(b). -/
  | sbShr (h : Head)
  /-- R174: sb shifts a right arithmetically by n(b). -/
  | sbSar (h : Head)
  /-- R174: sb rotates a left by n(b) mod 64. -/
  | sbRol (h : Head)
  /-- R173: sb delivers the signed lesser of a and b. -/
  | sbMin (h : Head)
  /-- R173: sb delivers the signed greater of a and b. -/
  | sbMax (h : Head)
  /-- R173: sb delivers the unsigned lesser of a and b. -/
  | sbMinu (h : Head)
  /-- R173: sb delivers the unsigned greater of a and b. -/
  | sbMaxu (h : Head)
  /-- R173: sb delivers 1 if a = b. -/
  | sbSeq (h : Head)
  /-- R173: sb delivers 1 if a ≠ b. -/
  | sbSne (h : Head)
  /-- R173: sb delivers 1 if s(a) < s(b). -/
  | sbSlt (h : Head)
  /-- R173: sb delivers 1 if n(a) < n(b). -/
  | sbSltu (h : Head)
  /-- R173: sb delivers 1 if s(a) ≤ s(b). -/
  | sbSle (h : Head)
  /-- R173: sb delivers 1 if n(a) ≤ n(b). -/
  | sbSleu (h : Head)
  /-- R176: sb writes a = b to the named predicate. -/
  | sbPeq (h : Head)
  /-- R176: sb writes a ≠ b to the named predicate. -/
  | sbPne (h : Head)
  /-- R176: sb writes s(a) < s(b) to the named predicate. -/
  | sbPlt (h : Head)
  /-- R176: sb writes n(a) < n(b) to the named predicate. -/
  | sbPltu (h : Head)
  /-- R176: sb writes s(a) ≥ s(b) to the named predicate. -/
  | sbPge (h : Head)
  /-- R176: sb writes n(a) ≥ n(b) to the named predicate. -/
  | sbPgeu (h : Head)
  /-- R173: sb delivers the count of leading zero bits of b. -/
  | sbClz (h : Head)
  /-- R173: sb delivers the count of trailing zero bits of b. -/
  | sbCtz (h : Head)
  /-- R173: sb delivers the count of one bits of b. -/
  | sbPopc (h : Head)
  /-- R175: sb sign-extends a from width n(b). -/
  | sbSext (h : Head)
  /-- R175: sb zero-extends a from width n(b). -/
  | sbZext (h : Head)
  /-- R175: sb extracts a bit field of a. -/
  | sbBfx (h : Head)
  /-- R175: sb inserts c into a bit field of a. -/
  | sbBfi (h : Head)
  /-- R173: sb delivers the 32-bit sum of a and b, sign-extended. -/
  | sbAddw (h : Head)
  /-- R177: sb delivers the low 64 bits of a × b on o1 at T+3. -/
  | sbMul (h : Head)
  /-- R177: sb delivers the high 64 bits of the signed product on o1 at T+3. -/
  | sbMulh (h : Head)
  /-- R177: sb delivers the high 64 bits of the unsigned product on o1 at T+3. -/
  | sbMulhu (h : Head)
  /-- R178: sb delivers the signed quotient, truncated toward zero, on o2 at T+24; all ones when dividing by zero. -/
  | sbDiv (h : Head)
  /-- R178: sb delivers the unsigned quotient on o2 at T+24. -/
  | sbDivu (h : Head)
  /-- R178: sb delivers the signed remainder on o2 at T+24; the dividend when dividing by zero. -/
  | sbRem (h : Head)
  /-- R178: sb delivers the unsigned remainder on o2 at T+24. -/
  | sbRemu (h : Head)
  /-- R291: A conditional relative branch on i0 ≠ 0 that takes effect after two delay bundles. -/
  | ctBr (h : Head)
  /-- R291: A jump to a bundle index after two delay bundles. -/
  | ctJmp (h : Head)
  /-- R291: Pushes a return frame, sets aside cbase and the loop stack, and jumps after two delay bundles. -/
  | ctCall (h : Head)
  /-- R291: Pops a frame, restoring its cbase and loops, and returns after two delay bundles. -/
  | ctRet (h : Head)
  /-- R293: Starts a hardware loop with the count held in lcount, S stages and optional rotation. -/
  | ctLoop (h : Head)
  /-- R297: Rotates v8–v15 and p4–p7 at bundle end. -/
  | ctRot (h : Head)
  /-- R298: A motor stream arrives at a group lock with up to four flag conditions; a butty stream joins the task's next lock. -/
  | ctLock (h : Head)
  /-- R299: Ends the task at bundle end, or only the butty stream when issued there. -/
  | ctEndtask (h : Head)
  /-- R300: A precise trap at bundle end that sends a record to the keeper or towpath. -/
  | ctTrap (h : Head)
  /-- R301: A debug stop when DBGCTL.enable is set, and otherwise nothing. -/
  | ctBrk (h : Head)
  /-- R201: Loads a sign-extended byte through a capability onto o0. -/
  | lsLd8 (h : Head)
  /-- R201: Loads a zero-extended byte onto o0. -/
  | lsLd8z (h : Head)
  /-- R201: Loads a sign-extended 16-bit value onto o0. -/
  | lsLd16 (h : Head)
  /-- R201: Loads a zero-extended 16-bit value onto o0. -/
  | lsLd16z (h : Head)
  /-- R201: Loads a sign-extended 32-bit value onto o0. -/
  | lsLd32 (h : Head)
  /-- R201: Loads a zero-extended 32-bit value onto o0. -/
  | lsLd32z (h : Head)
  /-- R201: Loads a 64-bit value onto o0. -/
  | lsLd64 (h : Head)
  /-- R201: Stores a byte of i1 through a capability, performing at T+4, or at T+16 for a peer. -/
  | lsSt8 (h : Head)
  /-- R201: Stores 16 bits of i1. -/
  | lsSt16 (h : Head)
  /-- R201: Stores 32 bits of i1. -/
  | lsSt32 (h : Head)
  /-- R201: Stores the 64 bits of i1. -/
  | lsSt64 (h : Head)
  /-- R203: Reads a line's 16-bit label onto o0. -/
  | lsLdlab (h : Head)
  /-- R203: Writes a line's label and clears the tags of its granules. -/
  | lsStlab (h : Head)
  /-- R333: Loads a 16-byte granule and its tag into a capability register. -/
  | lsLdcap (h : Head)
  /-- R333: Stores a capability register and its tag to a granule. -/
  | lsStcap (h : Head)
  /-- R334: Narrows a capability's bounds, or derives a window entry capability from a space 5 root. -/
  | lsCbound (h : Head)
  /-- R335: Moves a capability to a new holder, clearing the source's tag. -/
  | lsCmove (h : Head)
  /-- R336: Reduces a capability's permissions by a mask. -/
  | lsCperm (h : Head)
  /-- R336: Delivers a capability's base on o0. -/
  | lsCbase (h : Head)
  /-- R336: Delivers a capability's length on o0. -/
  | lsClen (h : Head)
  /-- R336: Delivers a capability's space, perm, holder, kind and tag on o0. -/
  | lsCinfo (h : Head)
  /-- R336: Copies a capability, tag included, subject to derive. -/
  | lsCcopy (h : Head)
  /-- R336: Clears a capability register and its tag. -/
  | lsCclear (h : Head)
  /-- R339: Hands whole scratchpad lines to a new holder through the owner's hand table, taking effect at T+2. -/
  | lsHand (h : Head)
  /-- R135: Adds the lanes of a and b into d at T+3. -/
  | vaAdd (h : Head) (e : Ext)
  /-- R135: Subtracts lanes into d at T+3. -/
  | vaSub (h : Head) (e : Ext)
  /-- R135: Multiplies lanes into d at T+3. -/
  | vaMul (h : Head) (e : Ext)
  /-- R135: Computes d + a × b, rounded once, at T+5. -/
  | vaFma (h : Head) (e : Ext)
  /-- R135: Computes d − a × b, rounded once, at T+5. -/
  | vaFms (h : Head) (e : Ext)
  /-- R135: Computes the negation of d + a × b after rounding, at T+5. -/
  | vaNfma (h : Head) (e : Ext)
  /-- R136: Delivers the lanewise minimum. -/
  | vaMin (h : Head) (e : Ext)
  /-- R136: Delivers the lanewise maximum. -/
  | vaMax (h : Head) (e : Ext)
  /-- R136: Delivers the lanewise absolute value. -/
  | vaAbs (h : Head) (e : Ext)
  /-- R136: Delivers the lanewise negation. -/
  | vaNeg (h : Head) (e : Ext)
  /-- R137: Delivers the bitwise and of integer lanes. -/
  | vaAnd (h : Head) (e : Ext)
  /-- R137: Delivers the bitwise or of integer lanes. -/
  | vaOr (h : Head) (e : Ext)
  /-- R137: Delivers the bitwise xor of integer lanes. -/
  | vaXor (h : Head) (e : Ext)
  /-- R137: Delivers the bitwise complement of integer lanes. -/
  | vaNot (h : Head) (e : Ext)
  /-- R137: Shifts integer lanes left by the count in b. -/
  | vaShl (h : Head) (e : Ext)
  /-- R137: Shifts integer lanes right logically. -/
  | vaShr (h : Head) (e : Ext)
  /-- R137: Shifts integer lanes right arithmetically. -/
  | vaSar (h : Head) (e : Ext)
  /-- R138: Compares lanes under a condition code and writes a mask register at T+3. -/
  | vaCmp (h : Head) (e : Ext)
  /-- R139: Selects each lane from a or b by a mask. -/
  | vaSel (h : Head) (e : Ext)
  /-- R140: Reduces the selected lanes to a sum in lane 0 of d and on o0 at T+8. -/
  | vaSum (h : Head) (e : Ext)
  /-- R140: Reduces the selected lanes to their maximum. -/
  | vaRmax (h : Head) (e : Ext)
  /-- R140: Reduces the selected lanes to their minimum. -/
  | vaRmin (h : Head) (e : Ext)
  /-- R141: Forms 32-bit four-term dot products accumulated into d at T+5. -/
  | vaDot4 (h : Head) (e : Ext)
  /-- R142: Multiplies the lanes by an fp32 tensor scale. -/
  | vaScale (h : Head) (e : Ext)
  /-- R143: Clamps d between the bounds a and b. -/
  | vaClamp (h : Head) (e : Ext)
  /-- R143: Adds integer lanes with saturation. -/
  | vaAddsat (h : Head) (e : Ext)
  /-- R143: Subtracts integer lanes with saturation. -/
  | vaSubsat (h : Head) (e : Ext)
  /-- R154: Loads a 1024-byte row into the selected lanes of d at T+6. -/
  | vmLd (h : Head) (e : Ext)
  /-- R154: Stores the selected lanes of a row, performing at T+4. -/
  | vmSt (h : Head) (e : Ext)
  /-- R155: Gathers lanes by index at T+10. -/
  | vmLdx (h : Head) (e : Ext)
  /-- R155: Scatters lanes by index, performing at T+8. -/
  | vmStx (h : Head) (e : Ext)
  /-- R156: Copies a row between operand registers and lent main-file rows. -/
  | vmMov (h : Head) (e : Ext)
  /-- R157: Broadcasts the scalar into the selected lanes of d. -/
  | vmBcast (h : Head) (e : Ext)
  /-- R158: Reads one lane onto o0, or writes one lane of d from vm.i1. -/
  | vmLane (h : Head) (e : Ext)
  /-- R159: Permutes the lanes of a by the indices in b. -/
  | vmPerm (h : Head) (e : Ext)
  /-- R160: Rearranges lanes by a fixed zip, unzip, reverse, rotate or splat pattern. -/
  | vmShuf (h : Head) (e : Ext)
  /-- R162: Converts lanes between types of equal lane count. -/
  | vmCvt (h : Head) (e : Ext)
  /-- R162: Converts and packs two registers into part p of a narrower row. -/
  | vmPack (h : Head) (e : Ext)
  /-- R162: Converts part p of a row into a wider type. -/
  | vmUnpack (h : Head) (e : Ext)
  /-- R164: Decodes labelled or raw lines, with their scales, into register values at T+6. -/
  | vmDecode (h : Head) (e : Ext)
  /-- R165: Encodes register values into lines, labels and scale bytes, performing at T+6. -/
  | vmEncode (h : Head) (e : Ext)
  /-- R168: Compacts the selected lanes into the stream buffer ring. -/
  | vmPush (h : Head) (e : Ext)
  /-- R168: Expands bytes from the stream buffer into the selected lanes. -/
  | vmPop (h : Head) (e : Ext)
  /-- R169: Ands two mask registers. -/
  | vmMand (h : Head) (e : Ext)
  /-- R169: Ors two mask registers. -/
  | vmMor (h : Head) (e : Ext)
  /-- R169: Complements a mask register. -/
  | vmMnot (h : Head) (e : Ext)
  /-- R169: Counts the lanes a mask selects onto o0. -/
  | vmMcount (h : Head) (e : Ext)
  /-- R170: Lends an accumulator tile to the vector unit. -/
  | vmLend (h : Head) (e : Ext)
  /-- R170: Returns a lent tile to the press. -/
  | vmReclaim (h : Head) (e : Ext)
  /-- R171: Writes a descriptor into a format register at T+1. -/
  | vmSetfmt (h : Head) (e : Ext)
  /-- R146: Evaluates 2^x, correctly rounded, at T+12. -/
  | sfExp2 (h : Head) (e : Ext)
  /-- R146: Evaluates log2 x. -/
  | sfLog2 (h : Head) (e : Ext)
  /-- R146: Evaluates 1/x. -/
  | sfRcp (h : Head) (e : Ext)
  /-- R146: Evaluates 1/√x. -/
  | sfRsqrt (h : Head) (e : Ext)
  /-- R146: Evaluates √x. -/
  | sfSqrt (h : Head) (e : Ext)
  /-- R146: Evaluates tanh x. -/
  | sfTanh (h : Head) (e : Ext)
  /-- R146: Evaluates the logistic sigmoid. -/
  | sfSigm (h : Head) (e : Ext)
  /-- R146: Evaluates sin x. -/
  | sfSin (h : Head) (e : Ext)
  /-- R146: Evaluates cos x. -/
  | sfCos (h : Head) (e : Ext)
  /-- R146: Evaluates erf x. -/
  | sfErf (h : Head) (e : Ext)
  /-- R121: Loads a cask's codes and scale plane from scratchpad columns; the cask load is busy until T+136. -/
  | prCask (h : Head)
  /-- R124: A matrix pass that streams A rows through a cask and accumulates into a tile. -/
  | prMm (h : Head)
  /-- R124: As pr.mm, with each written element starting from +0. -/
  | prMmz (h : Head)
  /-- R126: Zeroes a tile, which is busy until T+8. -/
  | prZero (h : Head)
  /-- R126: Sets the accumulator mode. -/
  | prMode (h : Head)
  /-- R126: Sets the A and B operand formats. -/
  | prFmt (h : Head)
  /-- R127: Delivers the press busy and lent word on o0. -/
  | prBusy (h : Head)
  /-- R229: Accepts an untimed copy between scratchpad, cellar and host memory, reporting acceptance on o0. -/
  | rkRack (h : Head)
  /-- R229: Accepts an untimed fill of a range with a 64-bit pattern. -/
  | rkFill (h : Head)
  /-- R229: Accepts an indexed gather into scratchpad. -/
  | rkGather (h : Head)
  /-- R229: Accepts an indexed scatter to cellar or host memory. -/
  | rkScatter (h : Head)
  /-- R229: Accepts an elementwise reducing copy. -/
  | rkReduce (h : Head)
  /-- R229: Accepts a copy to one to four replicas. -/
  | rkMcast (h : Head)
  /-- R230: Delivers a rack's state, outcome and bytes left on o0. -/
  | rkProbe (h : Head)
  /-- R231: Cancels an outstanding rack at its next line boundary. -/
  | rkCancel (h : Head)
  /-- R233: Arms an address monitor on a cellar or host line. -/
  | rkWaitaddr (h : Head)
  /-- R232: Makes earlier host writes visible, then writes 8 bytes with release semantics. -/
  | rkRel (h : Head)
  /-- R232: Reads 8 host bytes with acquire semantics into scratchpad. -/
  | rkAcq (h : Head)
  /-- R256: Books flits to send window bytes directly to a peer package in a named slot and port. -/
  | fbSend (h : Head)
  /-- R256: Books a relayed send through an intermediate package's layby. -/
  | fbSendr (h : Head)
  /-- R259: Accepts a fence that adds to a flag once the receipts of all earlier sends have returned. -/
  | fbRfence (h : Head)
  /-- R260: Delivers the calendar entry of a slot and port on o0. -/
  | fbSlot (h : Head)
  /-- R261: Delivers a window entry's status on o0. -/
  | fbWstat (h : Head)
  /-- R212: Sets a flag atomically at T+2. -/
  | fgFset (h : Head)
  /-- R212: Adds to a flag atomically at T+2. -/
  | fgFadd (h : Head)
  /-- R212: Compares and swaps a flag, delivering the old value. -/
  | fgFcas (h : Head)
  /-- R212: Reads a flag onto o0. -/
  | fgFget (h : Head)
  /-- R213: Tests a flag condition into o0 and a predicate. -/
  | fgFtest (h : Head)
  /-- R214: Halts the butty stream until a flag condition holds or a limit expires. -/
  | fgFwait (h : Head)
  /-- R212: Clears the masked bits of a flag. -/
  | fgFclr (h : Head)
  /-- R219: Arrives at a group in garrive mode, naming a flag to increment at completion. -/
  | fgGarrive (h : Head)
  /-- R220: Casts an addend to a cast flag of every member of a group. -/
  | fgGcast (h : Head)
  /-- R221: Delivers a group's state word on o0. -/
  | fgGinfo (h : Head)
  /-- R357: Reads a control register onto o0. -/
  | syCsrr (h : Head)
  /-- R357: Writes a control register atomically, returning the old value. -/
  | syCsrw (h : Head)
  /-- R357: Sets bits of a control register's RW fields. -/
  | syCsrs (h : Head)
  /-- R357: Clears bits of a control register's RW fields. -/
  | syCsrc (h : Head)
  /-- R358: Sends a service-call record to the receiver's trap queue; a butty stream halts until the reply. -/
  | syEcall (h : Head)
  /-- R359: Returns from a handler after two delay bundles, restoring any pending transfer. -/
  | syTret (h : Head)
  /-- R362: Unwraps a key blob into a stream's pending slot. -/
  | syKeyld (h : Head)
  /-- R363: Promotes a pending key for the cellar or a fabric stream. -/
  | syKeyrot (h : Head)
  /-- R394: Seals an object into a shard, or finalises a manifest. -/
  | sySeal (h : Head)
  /-- R394: Opens a bottle, pours a shard into an object, or closes the bottle. -/
  | syDecant (h : Head)
  /-- R365: Scrubs a scratchpad, cellar or press-state object. -/
  | syScrub (h : Head)
  /-- R366: Binds the partition to a peer partition by an attested key exchange. -/
  | syFbind (h : Head)
  /-- R367: Writes a signed attestation report. -/
  | syAttest (h : Head)
  /-- R360: Stops a keeper or control core at bundle end. -/
  | syHalt (h : Head)
  /-- R51: A timed unit result, or a timed state change such as a hand or an ownership change, is written at the end of cycle T+n−1. -/
  | resultDelivery (core : Nat)
  /-- R182: A timed read or write, including press row and cask column reads, performs at its boundary. -/
  | timedAccessPerform (core : Nat) (reads : Bool)
  /-- R117: A press, sf or tile busy count expires and the resource frees. -/
  | resourceFree (core : Nat)
  /-- R274: The reach counter reaches the reach length without an end bundle, and TIMING_FAULT is raised. -/
  | reachOverrun (core : Nat)
  /-- R279: A group lock opens at the first boundary where every member has arrived, every condition holds and no hold is in place. -/
  | lockOpen (part : Nat) (group : Nat)
  /-- R280: At the re-base tick all members begin the next reach, the generation completes and joined butty streams resume. -/
  | lockRebase (part : Nat) (group : Nat)
  /-- R282: A lock's deadline passes without opening; the keeper may pre-empt at group 0, and otherwise the timetable stops. -/
  | lockTimeout (part : Nat) (group : Nat)
  /-- R283: The hardware proves that a lock can never open, and stops the timetable with DRY_LOCK. -/
  | dryLock (part : Nat) (group : Nat)
  /-- R219: A garrive is recorded at the later of T+2 and the perform point of the core's earlier stores. -/
  | garriveRecorded (part : Nat) (group : Nat) (core : Nat)
  /-- R219: After a garrive generation completes, each member's named flag receives +1 as a release. -/
  | groupFlagIncrement (part : Nat) (idx : Nat)
  /-- R220: A cast's addend lands on a member's cast flag as a release. -/
  | gcastIncrement (part : Nat) (idx : Nat)
  /-- R214: A waiting fwait finds its condition holding; o0 takes the flag and the butty stream resumes with an acquire. -/
  | fwaitSatisfied (core : Nat)
  /-- R214: An fwait's limit expires; o0 takes bit 63 and the flag, and the butty stream resumes. -/
  | fwaitTimeout (core : Nat)
  /-- R229: The racking engine translates and moves the next part of an outstanding rack. -/
  | rackLineTransfer (core : Nat) (rack : Nat) (env : LineEnv)
  /-- R227: A rack ends with an outcome, releases its guards and increments its flag. -/
  | rackComplete (core : Nat) (rack : Nat)
  /-- R237: The keeper replies resume, and the rack re-translates from its faulting line. -/
  | faultReplyResume (core : Nat) (mon : Bool) (idx : Nat)
  /-- R237: The keeper replies abort, and the rack ends with PAGE_ABORT. -/
  | faultReplyAbort (core : Nat) (mon : Bool) (idx : Nat)
  /-- R233: A monitored line becomes held in the coherence cache, and the monitor is armed. -/
  | monitorArmed (core : Nat) (mon : Nat)
  /-- R197: Another agent writes a monitored line; the monitor increments its flag and disarms. -/
  | monitorFire (core : Nat) (mon : Nat)
  /-- R238: The keeper migrates a 64 KiB page with copy rounds, a freeze and a leaf rewrite. -/
  | pageMigration (part : Nat) (va : Nat) (frame : Nat) (phase : MigPhase)
  /-- R236: A write of busy = 1 to TLBINV starts an invalidation of the scope. -/
  | tlbinvWrite (core : Nat) (kind : CsrKind) (v : Word)
  /-- R236: An invalidation finishes and busy reads 0. -/
  | tlbinvComplete (part : Nat)
  /-- R246: In each guard interval a port exchanges an identity beacon with its matched peer. -/
  | slotBeacon (port : Nat) (named : Option Nat)
  /-- R250: A send's booked flits depart at their pitch in the booked slot. -/
  | sendDeparture (core : Nat) (send : Nat)
  /-- R247: A lane degrades and the port falls to a lower state. -/
  | portFallback (port : Nat) (st : Nat)
  /-- R247: The towpath orders a port to retrain to a higher state between timetables. -/
  | portRetrain (port : Nat) (st : Nat)
  /-- R262: A transfer arrives, is checked whole, lands or is refused, and increments its arrival flag. -/
  | arrival (tr : Transfer)
  /-- R258: A relayed transfer departs an intermediate's layby to its destination. -/
  | laybyRelay (r : Relay)
  /-- R263: A receipt returns to the sender, freeing the send id and guard and updating the transmit entry. -/
  | receipt (core : Nat) (send : Nat) (status : Nat)
  /-- R259: All earlier receipts have returned, and the fence adds its increment to the flag. -/
  | fenceComplete (core : Nat)
  /-- R361: An untimed system operation ends, writes its result record and adds its flag. -/
  | systemOpComplete (core : Nat) (idx : Nat) (env : SysEnv)
  /-- R366: An fbind exchange message from the peer arrives in control flits. -/
  | fbindExchange (core : Nat) (idx : Nat) (msg : FbindMsg)
  /-- R366: No mirrored request or answer arrives within 10 ms, and fbind ends PEER_UNREACHABLE. -/
  | fbindTimeout (core : Nat) (idx : Nat)
  /-- R348: At boundary P, pending becomes active, active becomes retiring and the phase flips. -/
  | keyPromotion (part : Nat) (stream : KeyStream)
  /-- R349: Each stack's walker rewrites blocks that carry the retiring phase. -/
  | cellarKeyWalk (part : Nat) (block : Nat)
  /-- R348: The retiring key is destroyed once nothing needs it any longer. -/
  | retiringKeyDestroyed (part : Nat) (stream : KeyStream)
  /-- R347: With pending and retiring empty, the keeper derives the next vintage into pending. -/
  | pendingKeyDerive (part : Nat) (stream : KeyStream)
  /-- R304: A host notify write sets a queue's latched tail and kick bit, or sets err = 1 on overrun. -/
  | hostQueueNotify (part : Nat) (q : Nat) (tail : BitVec 16) (writes : List (Nat × Byte))
  /-- R303: A host write of enable enables a queue, or sets err = 2 for an invalid base, size or class. -/
  | queueEnableWrite (part : Nat) (q : Nat) (v : Byte)
  /-- R303: A host writes 0 to a queue's err field to clear it. -/
  | queueErrClear (part : Nat) (q : Nat)
  /-- R303: A host write of base, size or class, accepted only while the queue is disabled. -/
  | queuePageWrite (part : Nat) (q : Nat) (field : QueueField) (v : Word)
  /-- R307: The keeper selects the next pending queue or eligible context by class and turn, and takes an entry. -/
  | selectTimetable (part : Nat)
  /-- R266: The last core reports its segments loaded, and the keeper computes T0 and arms every task. -/
  | launchCommit (part : Nat) (when : Option Nat)
  /-- R269: At its armed tick a task begins reach 0 with the task-start state. -/
  | taskStart (core : Nat)
  /-- R299: Every task and its operations have ended; receive entries are freed and the completion record is written. -/
  | timetableComplete (part : Nat)
  /-- R374: A stopping event halts issue, cancels racks, withdraws sends and writes a STOPPED completion. -/
  | timetableStop (part : Nat) (status : Nat)
  /-- R284: The keeper places a hold at a group 0 lock, halting butty streams. -/
  | keeperHold (part : Nat) (why : HoldReason)
  /-- R284: The keeper releases a hold, which becomes an opening event for the lock. -/
  | keeperHoldRelease (part : Nat)
  /-- R314: The keeper sets a timetable aside at a group 0 lock, quiescing and saving context frames. -/
  | preempt (part : Nat) (stepNo : Nat)
  /-- R316: A context suspended at timeout becomes eligible after rdelay ticks. -/
  | contextEligible (part : Nat) (slot : Nat)
  /-- R316: The keeper restores a suspended context from its frames, applies its journal and releases the hold. -/
  | restore (part : Nat) (slot : Nat)
  /-- R311: At each 100 µs boundary every meter repays debt and refills its balance. -/
  | budgetPeriod
  /-- R359: A keeper or control core takes a record, saves TEPC and continues at TVEC. -/
  | trapHandlerEntry (core : Nat)
  /-- R358: The receiver replies to an ecall record; a butty stream reads the value and resumes, and the reply flag increments. -/
  | ecallReply (core : Nat) (recId : Nat) (v : Word)
  /-- R373: The keeper resumes a halted butty stream at the halted bundle. -/
  | buttyResumeAt (core : Nat)
  /-- R373: The keeper resumes a halted butty stream at the next bundle. -/
  | buttyResumeNext (core : Nat)
  /-- R373: The keeper ends a halted butty stream. -/
  | buttyEnd (core : Nat)
  /-- R377: The active keeper misses its heartbeat for 30,000 ticks, starting a take-over. -/
  | keeperHeartbeatTimeout (basin : Nat)
  /-- R377: The shadow keeper replays the journal, re-scans the queues, releases held items and becomes active. -/
  | keeperTakeover (basin : Nat) (selfTest : Bool)
  /-- R380: The standby complex takes over after a halt or a 10 ms heartbeat miss. -/
  | towpathFailover
  /-- R380: The active complex writes its state table every 1 ms. -/
  | stateTableWrite
  /-- R383: A signed command reloads both keeper cores and stops the running timetable. -/
  | keeperReset (cmd : Command)
  /-- R383: A signed command stops the timetable, scrubs the partition and clears trips and halts. -/
  | partitionReset (cmd : Command)
  /-- R383: A signed command warm-resets the whole package. -/
  | packageReset (cmd : Command)
  /-- R379: A signed command boots staged firmware on the standby complex and hands over custody. -/
  | liveUpdate (cmd : Command) (accepts : Bool)
  /-- R382: A signed migrate request is refused MIGRATE_BLOCKED or, with cancel, forces lock timeouts. -/
  | migrate (cmd : Command) (setv : List Nat)
  /-- R381: A function-level reset of a VF stops its timetable and scrubs the partition. -/
  | flr (part : Nat)
  /-- R382: The keeper evicts a cellar page to host memory with a version number. -/
  | pageEviction (part : Nat) (page : EvictTo)
  /-- R382: An evicted page returns and is checked, or is written back poisoned. -/
  | pageReturn (part : Nat) (pa : Nat) (version : Nat) (macOk : Bool)
  /-- R20: The towpath creates a partition of idle scrubbed basins, or refuses with PARTITION_BUSY. -/
  | partitionCreate (basins : List Nat)
  /-- R20: The towpath dissolves a partition of idle, scrubbed basins. -/
  | partitionDissolve (part : Nat)
  /-- R24: Cold reset zeroes the time base and boots towpath complex A, or B on a failed measurement. -/
  | coldReset (okA : Bool) (okB : Bool)
  /-- R27: An IEEE 1588 message is time-stamped and steers the servo. -/
  | ptpMessage (state : Nat) (terr : Nat) (taiNum : Nat)
  /-- R27: A PPS edge is sampled against the time base. -/
  | ppsPulse (edge : Nat)
  /-- R28: Input outside 40–60 V holds the package in reset and is logged. -/
  | inputVoltage (mV : Nat)
  /-- R30: The board controller asserts a power limit: pace 1 launches are refused and voltage drops at the next lock. -/
  | powerLimitAssert (islands : List Nat)
  /-- R30: The board controller clears the power limit. -/
  | powerLimitClear
  /-- R31: At 105 °C a basin's clocks stop and its timetables end THERMAL_TRIP. -/
  | thermalTrip (basin : Nat)
  /-- R386: A health count or temperature reaches its threshold, and warn is set for the affected partitions. -/
  | failureWarning (src : HealthSrc) (idx : Nat)
  /-- R386: A 1 s counting window ends and the health counts restart. -/
  | healthWindowEnd
  /-- R390: On a warning, the keeper bottles declared state at the next group 0 lock under a hold. -/
  | keeperBottling (part : Nat) (phase : BottlePhase)
  /-- R354: The TDISP request moves the interface to CONFIG_LOCKED. -/
  | lockInterfaceRequest (part : Nat)
  /-- R354: The TDISP request moves the interface to RUN. -/
  | startInterfaceRequest (part : Nat)
  /-- R355: The TDISP request leaves RUN or ERROR, stops work, destroys keys and scrubs the partition. -/
  | stopInterfaceRequest (part : Nat)
  /-- R354: Returns the attestation report with a zero nonce. -/
  | getDeviceInterfaceReport (part : Nat)
  /-- R354: A tree failure, CCL IDE failure or key-store fault moves the interface to ERROR. -/
  | tdiError (f : TdiFault)
  /-- R353: The SPDM responder answers GET_VERSION. -/
  | getVersion
  /-- R353: The SPDM responder answers GET_CAPABILITIES. -/
  | getCapabilities
  /-- R353: The SPDM responder negotiates SLH-DSA, ML-KEM and SHAKE256. -/
  | negotiateAlgorithms (algs : List Nat)
  /-- R353: The SPDM responder returns certificate digests. -/
  | getDigests
  /-- R353: The SPDM responder returns a certificate chain. -/
  | getCertificate (offset : Nat) (len : Nat)
  /-- R353: The SPDM responder answers a challenge with a signature. -/
  | challenge (nonce : List Byte)
  /-- R353: The SPDM responder returns signed measurements. -/
  | getMeasurements (nonce : List Byte) (signed : Bool)
  /-- R353: Begins an SPDM session key exchange. -/
  | keyExchange (sess : Nat) (psk : Bool) (exchange : List Byte)
  /-- R353: Completes the SPDM mutual-authentication handshake. -/
  | finish (sess : Nat) (verified : Bool)
  /-- R353: Updates the SPDM session keys. -/
  | keyUpdate (sess : Nat)
  /-- R353: An SPDM session heartbeat. -/
  | heartbeat (sess : Nat)
  /-- R353: Ends an SPDM session. -/
  | endSession (sess : Nat)
  /-- R353: Carries TDISP and IDE_KM messages. -/
  | vendorDefinedRequest (sess : Nat) (req : VendorReq)
  /-- R107: A write to ARITH keeps a reserved drnd value unchanged and reseeds the generators when the seed changes. -/
  | arithWrite (core : Nat) (kind : CsrKind) (v : Word)
  /-- R109: A write to ASTAT takes the written value ORed with the bits set in the same cycle. -/
  | astatWrite (core : Nat) (kind : CsrKind) (v : Word)
  /-- R240: A write that changes CFOLD.mask is refused and sets refused unless the cellar is scrubbed. -/
  | cfoldWrite (core : Nat) (kind : CsrKind) (v : Word)
  /-- R245: A write to FORIGIN is ignored and logged while any send is outstanding. -/
  | foriginWrite (core : Nat) (kind : CsrKind) (v : Word)
  /-- R249: A write of a port share is refused when the port's total would pass 496. -/
  | fshareWrite (core : Nat) (port : Nat) (kind : CsrKind) (v : Word)
  /-- R310: A write of HBUDGET or LBUDGET is refused when the package's allot sum would be exceeded. -/
  | budgetWrite (core : Nat) (layby : Bool) (kind : CsrKind) (v : Word)
  /-- R252: A write of FWIN with a count above 1024 leaves count unchanged. -/
  | fwinWrite (core : Nat) (kind : CsrKind) (v : Word)
  /-- R275: A write of 0 is ignored; other writes take effect from the next launch. -/
  | reachlimWrite (core : Nat) (kind : CsrKind) (v : Word)
  /-- R281: A write of LPATIENCE; a value of 0 leaves it unchanged. -/
  | lpatienceWrite (core : Nat) (kind : CsrKind) (v : Word)
  /-- R323: A write of TASKCAP takes effect from the next launch or restore. -/
  | taskcapWrite (core : Nat) (kind : CsrKind) (v : Word)
  /-- R387: A write of HTHRESH; a temperature outside 70–95 leaves that field unchanged. -/
  | hthreshWrite (core : Nat) (kind : CsrKind) (v : Word)
  /-- R321: A write to any control register without a row of its own changes each field as its view's access allows. -/
  | registerWrite (core : Nat) (num : Nat) (kind : CsrKind) (v : Word)
  /-- R268: The 1588 servo loses its time messages and leaves locked for holdover, changing TSTAT.state. -/
  | holdover (terr : Nat)
  /-- R384: Link training completes and the device passes from reduced to full service between timetables, setting SVCSTAT. -/
  | fullService (portMask : Nat) (stackMask : Nat) (basinMask : Nat)
  /-- R242: A cellar channel whose link degrades retrains at 6 Gb/s, or its stack is marked unavailable when it cannot. -/
  | cellarChannelDegrade (stack : Nat) (holds6 : Bool)
  /-- R33: A tile core found faulty in service is marked unavailable in the keeper's availability map. -/
  | tileCoreUnavailable (core : Nat)
  /-- R386: A correctable cellar error, lane error or supply droop event occurs and is counted, advancing FPORT.lerr for lane errors. -/
  | healthEvent (src : HealthInput) (idx : Nat)
  /-- R258: The first hop of a relayed transfer lands in the intermediate's layby in its cellar, where it lies over. -/
  | laybyLanding (tr : Transfer)
  /-- R233: The host writes cellar lines or page-table entries over CXL.mem. -/
  | hostCxlMemWrite (pa : Nat) (data : List Byte)
  /-- R379: The board controller stages a firmware image into the boot flash's inactive bank through PLDM for Firmware Update. -/
  | pldmFirmwareUpdate (img : Firmware)
  deriving DecidableEq, Repr

end Sys2Proof
end

