-- ==== Sys2Proof/WellFormed.lean ====
section
/-! DEFINITION. Well-formed instructions: the operand ranges that the types of Sys2Proof/Syntax.lean leave open
(02 R40, R45, R46; the numbering of cores, partitions, ports, stacks and basins of 01 R11-R21). -/

namespace Sys2Proof

/-- A core id as the coreid source numbers them: 256 tile cores, 8 keeper cores, 8 control cores (09 R181). -/
def coreOk (c : Nat) : Bool := c < 272

/-- A partition number, 1-4 (01 R21). -/
def partOk (p : Nat) : Bool := 1 ≤ p && p ≤ 4

/-- Codes 16-31 of d are illegal in every wide operation, and type code 15 is illegal everywhere; codes 11-14 are for
the conversion operations of vm only (02 R45, R46). -/
def extOk (conv : Bool) (e : Ext) : Bool :=
  e.d < 16 && e.ty < (if conv then 15 else 11)

/-- A plain move other than the canonical no-op, which is an instruction of its own (02 R40). -/
def moveOk (h : Head) (d : Dest) : Bool :=
  !(h == Head.mk true 0 (.x 0) && d == .x 0)

/-- The words of an instruction name things that exist. -/
def WellFormed : Instr → Bool
  | .move h d => moveOk h d
  | .nop => true
  | .queuePush _ _
  | .streamReset _
  | .saMov _
  | .saAdd _
  | .saSub _
  | .saAnd _
  | .saOr _
  | .saXor _
  | .saAndn _
  | .saOrn _
  | .saShl _
  | .saShr _
  | .saSar _
  | .saRol _
  | .saMin _
  | .saMax _
  | .saMinu _
  | .saMaxu _
  | .saSeq _
  | .saSne _
  | .saSlt _
  | .saSltu _
  | .saSle _
  | .saSleu _
  | .saPeq _
  | .saPne _
  | .saPlt _
  | .saPltu _
  | .saPge _
  | .saPgeu _
  | .saClz _
  | .saCtz _
  | .saPopc _
  | .saSext _
  | .saZext _
  | .saBfx _
  | .saBfi _
  | .saAddw _
  | .sbMov _
  | .sbAdd _
  | .sbSub _
  | .sbAnd _
  | .sbOr _
  | .sbXor _
  | .sbAndn _
  | .sbOrn _
  | .sbShl _
  | .sbShr _
  | .sbSar _
  | .sbRol _
  | .sbMin _
  | .sbMax _
  | .sbMinu _
  | .sbMaxu _
  | .sbSeq _
  | .sbSne _
  | .sbSlt _
  | .sbSltu _
  | .sbSle _
  | .sbSleu _
  | .sbPeq _
  | .sbPne _
  | .sbPlt _
  | .sbPltu _
  | .sbPge _
  | .sbPgeu _
  | .sbClz _
  | .sbCtz _
  | .sbPopc _
  | .sbSext _
  | .sbZext _
  | .sbBfx _
  | .sbBfi _
  | .sbAddw _
  | .sbMul _
  | .sbMulh _
  | .sbMulhu _
  | .sbDiv _
  | .sbDivu _
  | .sbRem _
  | .sbRemu _
  | .ctBr _
  | .ctJmp _
  | .ctCall _
  | .ctRet _
  | .ctLoop _
  | .ctRot _
  | .ctLock _
  | .ctEndtask _
  | .ctTrap _
  | .ctBrk _
  | .lsLd8 _
  | .lsLd8z _
  | .lsLd16 _
  | .lsLd16z _
  | .lsLd32 _
  | .lsLd32z _
  | .lsLd64 _
  | .lsSt8 _
  | .lsSt16 _
  | .lsSt32 _
  | .lsSt64 _
  | .lsLdlab _
  | .lsStlab _
  | .lsLdcap _
  | .lsStcap _
  | .lsCbound _
  | .lsCmove _
  | .lsCperm _
  | .lsCbase _
  | .lsClen _
  | .lsCinfo _
  | .lsCcopy _
  | .lsCclear _
  | .lsHand _
  | .prCask _
  | .prMm _
  | .prMmz _
  | .prZero _
  | .prMode _
  | .prFmt _
  | .prBusy _
  | .rkRack _
  | .rkFill _
  | .rkGather _
  | .rkScatter _
  | .rkReduce _
  | .rkMcast _
  | .rkProbe _
  | .rkCancel _
  | .rkWaitaddr _
  | .rkRel _
  | .rkAcq _
  | .fbSend _
  | .fbSendr _
  | .fbRfence _
  | .fbSlot _
  | .fbWstat _
  | .fgFset _
  | .fgFadd _
  | .fgFcas _
  | .fgFget _
  | .fgFtest _
  | .fgFwait _
  | .fgFclr _
  | .fgGarrive _
  | .fgGcast _
  | .fgGinfo _
  | .syCsrr _
  | .syCsrw _
  | .syCsrs _
  | .syCsrc _
  | .syEcall _
  | .syTret _
  | .syKeyld _
  | .syKeyrot _
  | .sySeal _
  | .syDecant _
  | .syScrub _
  | .syFbind _
  | .syAttest _
  | .syHalt _ => true
  | .vmCvt _ e
  | .vmPack _ e
  | .vmUnpack _ e
  | .vmDecode _ e
  | .vmEncode _ e => extOk true e
  | .vaAdd _ e
  | .vaSub _ e
  | .vaMul _ e
  | .vaFma _ e
  | .vaFms _ e
  | .vaNfma _ e
  | .vaMin _ e
  | .vaMax _ e
  | .vaAbs _ e
  | .vaNeg _ e
  | .vaAnd _ e
  | .vaOr _ e
  | .vaXor _ e
  | .vaNot _ e
  | .vaShl _ e
  | .vaShr _ e
  | .vaSar _ e
  | .vaCmp _ e
  | .vaSel _ e
  | .vaSum _ e
  | .vaRmax _ e
  | .vaRmin _ e
  | .vaDot4 _ e
  | .vaScale _ e
  | .vaClamp _ e
  | .vaAddsat _ e
  | .vaSubsat _ e
  | .vmLd _ e
  | .vmSt _ e
  | .vmLdx _ e
  | .vmStx _ e
  | .vmMov _ e
  | .vmBcast _ e
  | .vmLane _ e
  | .vmPerm _ e
  | .vmShuf _ e
  | .vmPush _ e
  | .vmPop _ e
  | .vmMand _ e
  | .vmMor _ e
  | .vmMnot _ e
  | .vmMcount _ e
  | .vmLend _ e
  | .vmReclaim _ e
  | .vmSetfmt _ e
  | .sfExp2 _ e
  | .sfLog2 _ e
  | .sfRcp _ e
  | .sfRsqrt _ e
  | .sfSqrt _ e
  | .sfTanh _ e
  | .sfSigm _ e
  | .sfSin _ e
  | .sfCos _ e
  | .sfErf _ e => extOk false e
  | .bundleIssue core _ => coreOk core
  | .resultDelivery core => coreOk core
  | .timedAccessPerform core _ => coreOk core
  | .resourceFree core => coreOk core
  | .reachOverrun core => coreOk core
  | .lockOpen part group => partOk part && decide (group < 256)
  | .lockRebase part group => partOk part && decide (group < 256)
  | .lockTimeout part group => partOk part && decide (group < 256)
  | .dryLock part group => partOk part && decide (group < 256)
  | .garriveRecorded part group core => partOk part && decide (group < 256) && coreOk core
  | .groupFlagIncrement part _ => partOk part
  | .gcastIncrement part _ => partOk part
  | .fwaitSatisfied core => coreOk core
  | .fwaitTimeout core => coreOk core
  | .rackLineTransfer core rack _ => coreOk core && decide (rack < 64)
  | .rackComplete core rack => coreOk core && decide (rack < 64)
  | .faultReplyResume core _ _ => coreOk core
  | .faultReplyAbort core _ _ => coreOk core
  | .monitorArmed core _ => coreOk core
  | .monitorFire core _ => coreOk core
  | .pageMigration part _ _ _ => partOk part
  | .tlbinvWrite core _ _ => coreOk core
  | .tlbinvComplete part => partOk part
  | .slotBeacon port named => decide (port < 32) && named.all (· < 256)
  | .sendDeparture core send => coreOk core && decide (send < 32)
  | .portFallback port _ => decide (port < 32)
  | .portRetrain port _ => decide (port < 32)
  | .arrival _ => true
  | .laybyRelay _ => true
  | .receipt core send _ => coreOk core && decide (send < 32)
  | .fenceComplete core => coreOk core
  | .systemOpComplete core _ _ => coreOk core
  | .fbindExchange core _ _ => coreOk core
  | .fbindTimeout core _ => coreOk core
  | .keyPromotion part _ => partOk part
  | .cellarKeyWalk part _ => partOk part
  | .retiringKeyDestroyed part _ => partOk part
  | .pendingKeyDerive part _ => partOk part
  | .hostQueueNotify part q _ _ => partOk part && decide (q < 16)
  | .queueEnableWrite part q _ => partOk part && decide (q < 16)
  | .queueErrClear part q => partOk part && decide (q < 16)
  | .queuePageWrite part q _ _ => partOk part && decide (q < 16)
  | .selectTimetable part => partOk part
  | .launchCommit part _ => partOk part
  | .taskStart core => coreOk core
  | .timetableComplete part => partOk part
  | .timetableStop part _ => partOk part
  | .keeperHold part _ => partOk part
  | .keeperHoldRelease part => partOk part
  | .preempt part _ => partOk part
  | .contextEligible part slot => partOk part && decide (slot < 4)
  | .restore part slot => partOk part && decide (slot < 4)
  | .budgetPeriod => true
  | .trapHandlerEntry core => coreOk core
  | .ecallReply core _ _ => coreOk core
  | .buttyResumeAt core => coreOk core
  | .buttyResumeNext core => coreOk core
  | .buttyEnd core => coreOk core
  | .keeperHeartbeatTimeout basin => decide (basin < 4)
  | .keeperTakeover basin _ => decide (basin < 4)
  | .towpathFailover => true
  | .stateTableWrite => true
  | .keeperReset _ => true
  | .partitionReset _ => true
  | .packageReset _ => true
  | .liveUpdate _ _ => true
  | .migrate _ _ => true
  | .flr part => partOk part
  | .pageEviction part _ => partOk part
  | .pageReturn part _ _ _ => partOk part
  | .partitionCreate basins => basins.all (· < 4)
  | .partitionDissolve part => partOk part
  | .coldReset _ _ => true
  | .ptpMessage _ _ _ => true
  | .ppsPulse _ => true
  | .inputVoltage _ => true
  | .powerLimitAssert islands => islands.all (· < 32)
  | .powerLimitClear => true
  | .thermalTrip basin => decide (basin < 4)
  | .failureWarning _ _ => true
  | .healthWindowEnd => true
  | .keeperBottling part _ => partOk part
  | .lockInterfaceRequest part => partOk part
  | .startInterfaceRequest part => partOk part
  | .stopInterfaceRequest part => partOk part
  | .getDeviceInterfaceReport part => partOk part
  | .tdiError f => partOk f.part
  | .getVersion => true
  | .getCapabilities => true
  | .negotiateAlgorithms _ => true
  | .getDigests => true
  | .getCertificate _ _ => true
  | .challenge _ => true
  | .getMeasurements _ _ => true
  | .keyExchange _ _ _ => true
  | .finish _ _ => true
  | .keyUpdate _ => true
  | .heartbeat _ => true
  | .endSession _ => true
  | .vendorDefinedRequest _ _ => true
  | .arithWrite core _ _ => coreOk core
  | .astatWrite core _ _ => coreOk core
  | .cfoldWrite core _ _ => coreOk core
  | .foriginWrite core _ _ => coreOk core
  | .fshareWrite core port _ _ => coreOk core && decide (port < 32)
  | .budgetWrite core _ _ _ => coreOk core
  | .fwinWrite core _ _ => coreOk core
  | .reachlimWrite core _ _ => coreOk core
  | .lpatienceWrite core _ _ => coreOk core
  | .taskcapWrite core _ _ => coreOk core
  | .hthreshWrite core _ _ => coreOk core
  | .registerWrite core num _ _ => coreOk core && decide (num < 4096)
  | .holdover _ => true
  | .fullService _ _ _ => true
  | .cellarChannelDegrade stack _ => decide (stack < 8)
  | .tileCoreUnavailable core => coreOk core
  | .healthEvent _ _ => true
  | .laybyLanding _ => true
  | .hostCxlMemWrite _ _ => true
  | .pldmFirmwareUpdate _ => true

end Sys2Proof
end

