-- ==== Sys2Proof/Decode.lean ====
section
/-! DEFINITION. Bits to instructions and back (02 R39-R45, R56): the bit-field helpers the whole model uses, the
decoder of one move slot with its extension slots, the encoder, and the host's decodeTableWord. -/

namespace Sys2Proof

/-! Bit-field helpers (00 R10). -/

/-- The unsigned integer held in bits hi:lo of a natural number (00 R10). -/
def bitsOf (v hi lo : Nat) : Nat := v / 2 ^ lo % 2 ^ (hi + 1 - lo)

/-- The unsigned integer held in bits hi:lo of a 64-bit value (00 R10). -/
def bits (v : Word) (hi lo : Nat) : Nat := bitsOf v.toNat hi lo

/-- wrap(v, 64) of an exact integer (00 R10). -/
def wrap64 (v : Int) : Word := BitVec.ofInt 64 v

/-- sext(v, n) as an exact integer, of the low n bits of a natural number (00 R10). -/
def sextOf (v n : Nat) : Int :=
  let m := v % 2 ^ n
  if 2 * m < 2 ^ n then (m : Int) else (m : Int) - (2 ^ n : Nat)

/-- Bit k of a natural number. -/
def bitOf (v k : Nat) : Bool := v / 2 ^ k % 2 == 1

/-- 0 or 1. -/
def b2n (b : Bool) : Nat := if b then 1 else 0

/-- 0 or 1 as a 64-bit value. -/
def b2w (b : Bool) : Word := if b then 1 else 0

/-- n bytes of a natural number, least significant first (00 R4). -/
def toBytes : Nat → Nat → List Byte
  | 0, _ => []
  | n + 1, v => BitVec.ofNat 8 v :: toBytes n (v / 256)

/-- A little-endian number from its bytes (00 R4). -/
def ofBytes : List Byte → Nat
  | [] => 0
  | b :: bs => b.toNat + 256 * ofBytes bs

/-! Decoding. -/

/-- Why a slot does not decode (02 R59, orders 1 to 4). -/
inductive DecodeError where
  /-- A required extension slot is missing (02 R43). -/
  | format
  /-- A reserved source code (02 R41). -/
  | source
  /-- A reserved destination code (02 R42). -/
  | destination
  /-- An unused opcode (02 R56). -/
  | operation
  deriving DecidableEq, Repr

/-- The special source of codes 0x048-0x05D (02 R41). -/
def decodeSpecial (code : Nat) : Option Special :=
  match code with
  | 0x048 => some .tick
  | 0x049 => some .rcyc
  | 0x04A => some .coreid
  | 0x04B => some .tile
  | 0x04C => some .part
  | 0x04D => some .lanes32
  | 0x04E => some .lanes16
  | 0x04F => some .lanes8
  | 0x050 => some .lanes4
  | 0x051 => some .li0
  | 0x052 => some .li1
  | 0x053 => some .li2
  | 0x054 => some .li3
  | 0x055 => some .rotb
  | 0x056 => some .sbbase
  | 0x057 => some .sblen
  | 0x058 => some .sbfill
  | 0x059 => some .pc
  | 0x05A => some .mode
  | 0x05B => some .pace
  | 0x05C => some .reachix
  | 0x05D => some .reachtick
  | _ => none

/-- Its code (02 R41). -/
def encodeSpecial : Special → Nat
  | .tick => 0x048
  | .rcyc => 0x049
  | .coreid => 0x04A
  | .tile => 0x04B
  | .part => 0x04C
  | .lanes32 => 0x04D
  | .lanes16 => 0x04E
  | .lanes8 => 0x04F
  | .lanes4 => 0x050
  | .li0 => 0x051
  | .li1 => 0x052
  | .li2 => 0x053
  | .li3 => 0x054
  | .rotb => 0x055
  | .sbbase => 0x056
  | .sblen => 0x057
  | .sbfill => 0x058
  | .pc => 0x059
  | .mode => 0x05A
  | .pace => 0x05B
  | .reachix => 0x05C
  | .reachtick => 0x05D

/-- How many extension slots the immediate of a source code takes (02 R43). -/
def immSlots (code : BitVec 10) : Nat :=
  if code = 0x0A0 then 1 else if code = 0x0A1 then 2 else 0

/-- The source a code names; its immediate's slots stand first in the list (02 R41, R44). -/
def decodeSrc (code : BitVec 10) (imm : List Slot) : Except DecodeError (Src × List Slot) :=
  let n := code.toNat
  if n < 0x040 then .ok (.x (code.setWidth 6), imm)
  else if n < 0x048 then .ok (.p (code.setWidth 3), imm)
  else if n < 0x060 then
    match decodeSpecial n with
    | some k => .ok (.special k, imm)
    | none => .error .source
  else if n < 0x090 then .ok (.out (Fin.ofNat 48 (n - 0x060)), imm)
  else if n < 0x098 then .ok (.queue (code.setWidth 3), imm)
  else if n = 0x0A0 then
    match imm with
    | a :: rest => .ok (.imm24 a, rest)
    | [] => .error .format
  else if n = 0x0A1 then
    match imm with
    | a :: b :: rest => .ok (.imm48 (b ++ a), rest)
    | _ => .error .format
  else if 0x200 ≤ n then .ok (.short (code.setWidth 9), imm)
  else .error .source

/-- The code of a source (02 R41). -/
def encodeSrc : Src → BitVec 10
  | .x n => n.setWidth 10
  | .p n => 0x040 + n.setWidth 10
  | .special k => BitVec.ofNat 10 (encodeSpecial k)
  | .out n => BitVec.ofNat 10 (0x060 + n.val)
  | .queue n => 0x090 + n.setWidth 10
  | .imm24 _ => 0x0A0
  | .imm48 _ => 0x0A1
  | .short v => 0x200 + v.setWidth 10

/-- The extension slots a long immediate takes (02 R44). -/
def encodeImm : Src → List Slot
  | .imm24 v => [v]
  | .imm48 v => [v.setWidth 24, (v >>> 24).setWidth 24]
  | _ => []

/-- The extension word of a wide operation (02 R45). -/
def decodeExt (w : Slot) : Ext where
  d := w.extractLsb' 19 5
  aLast := w.getLsbD 18
  a := w.extractLsb' 14 4
  bLast := w.getLsbD 13
  b := w.extractLsb' 9 4
  ty := w.extractLsb' 5 4
  mask := w.extractLsb' 2 3
  rnd := w.extractLsb' 0 2

/-- The extension word of a wide operation (02 R45). -/
def encodeExt (e : Ext) : Slot :=
  e.d ++ BitVec.ofBool e.aLast ++ e.a ++ BitVec.ofBool e.bLast ++ e.b ++ e.ty ++ e.mask ++ e.rnd

/-- A destination code below the triggers (02 R42), with the head its move carries. -/
def decodeDest (h : Head) (n : Nat) : Except DecodeError Instr :=
  if n < 0x040 then .ok (.move h (.x (BitVec.ofNat 6 n)))
  else if n < 0x048 then .ok (.move h (.p (BitVec.ofNat 3 n)))
  else if n = 0x048 then .ok (.move h .lcount)
  else if n = 0x049 then .ok (.move h .rotb)
  else if n = 0x04A then .ok (.move h .sbbase)
  else if n = 0x04B then .ok (.move h .sblen)
  else if n = 0x04C then .ok (.streamReset h)
  else if n < 0x050 then .error .destination
  else if n < 0x0F8 then .ok (.move h (.inp (Fin.ofNat 168 (n - 0x050))))
  else .ok (.queuePush h (BitVec.ofNat 3 n))

/-- The operations of sa (02 R56). -/
def decodeSa (h : Head) (k : Nat) : Option Instr :=
  match k with
  | 0 => some (.saMov h)
  | 1 => some (.saAdd h)
  | 2 => some (.saSub h)
  | 3 => some (.saAnd h)
  | 4 => some (.saOr h)
  | 5 => some (.saXor h)
  | 6 => some (.saAndn h)
  | 7 => some (.saOrn h)
  | 8 => some (.saShl h)
  | 9 => some (.saShr h)
  | 10 => some (.saSar h)
  | 11 => some (.saRol h)
  | 12 => some (.saMin h)
  | 13 => some (.saMax h)
  | 14 => some (.saMinu h)
  | 15 => some (.saMaxu h)
  | 16 => some (.saSeq h)
  | 17 => some (.saSne h)
  | 18 => some (.saSlt h)
  | 19 => some (.saSltu h)
  | 20 => some (.saSle h)
  | 21 => some (.saSleu h)
  | 22 => some (.saPeq h)
  | 23 => some (.saPne h)
  | 24 => some (.saPlt h)
  | 25 => some (.saPltu h)
  | 26 => some (.saPge h)
  | 27 => some (.saPgeu h)
  | 28 => some (.saClz h)
  | 29 => some (.saCtz h)
  | 30 => some (.saPopc h)
  | 31 => some (.saSext h)
  | 32 => some (.saZext h)
  | 33 => some (.saBfx h)
  | 34 => some (.saBfi h)
  | 35 => some (.saAddw h)
  | _ => none

/-- The operations of sb (02 R56). -/
def decodeSb (h : Head) (k : Nat) : Option Instr :=
  match k with
  | 0 => some (.sbMov h)
  | 1 => some (.sbAdd h)
  | 2 => some (.sbSub h)
  | 3 => some (.sbAnd h)
  | 4 => some (.sbOr h)
  | 5 => some (.sbXor h)
  | 6 => some (.sbAndn h)
  | 7 => some (.sbOrn h)
  | 8 => some (.sbShl h)
  | 9 => some (.sbShr h)
  | 10 => some (.sbSar h)
  | 11 => some (.sbRol h)
  | 12 => some (.sbMin h)
  | 13 => some (.sbMax h)
  | 14 => some (.sbMinu h)
  | 15 => some (.sbMaxu h)
  | 16 => some (.sbSeq h)
  | 17 => some (.sbSne h)
  | 18 => some (.sbSlt h)
  | 19 => some (.sbSltu h)
  | 20 => some (.sbSle h)
  | 21 => some (.sbSleu h)
  | 22 => some (.sbPeq h)
  | 23 => some (.sbPne h)
  | 24 => some (.sbPlt h)
  | 25 => some (.sbPltu h)
  | 26 => some (.sbPge h)
  | 27 => some (.sbPgeu h)
  | 28 => some (.sbClz h)
  | 29 => some (.sbCtz h)
  | 30 => some (.sbPopc h)
  | 31 => some (.sbSext h)
  | 32 => some (.sbZext h)
  | 33 => some (.sbBfx h)
  | 34 => some (.sbBfi h)
  | 35 => some (.sbAddw h)
  | 36 => some (.sbMul h)
  | 37 => some (.sbMulh h)
  | 38 => some (.sbMulhu h)
  | 39 => some (.sbDiv h)
  | 40 => some (.sbDivu h)
  | 41 => some (.sbRem h)
  | 42 => some (.sbRemu h)
  | _ => none

/-- The operations of ct (02 R56). -/
def decodeCt (h : Head) (k : Nat) : Option Instr :=
  match k with
  | 0 => some (.ctBr h)
  | 1 => some (.ctJmp h)
  | 2 => some (.ctCall h)
  | 3 => some (.ctRet h)
  | 4 => some (.ctLoop h)
  | 5 => some (.ctRot h)
  | 6 => some (.ctLock h)
  | 7 => some (.ctEndtask h)
  | 8 => some (.ctTrap h)
  | 9 => some (.ctBrk h)
  | _ => none

/-- The operations of ls (02 R56). -/
def decodeLs (h : Head) (k : Nat) : Option Instr :=
  match k with
  | 0 => some (.lsLd8 h)
  | 1 => some (.lsLd8z h)
  | 2 => some (.lsLd16 h)
  | 3 => some (.lsLd16z h)
  | 4 => some (.lsLd32 h)
  | 5 => some (.lsLd32z h)
  | 6 => some (.lsLd64 h)
  | 7 => some (.lsSt8 h)
  | 8 => some (.lsSt16 h)
  | 9 => some (.lsSt32 h)
  | 10 => some (.lsSt64 h)
  | 11 => some (.lsLdlab h)
  | 12 => some (.lsStlab h)
  | 13 => some (.lsLdcap h)
  | 14 => some (.lsStcap h)
  | 15 => some (.lsCbound h)
  | 16 => some (.lsCmove h)
  | 17 => some (.lsCperm h)
  | 18 => some (.lsCbase h)
  | 19 => some (.lsClen h)
  | 20 => some (.lsCinfo h)
  | 21 => some (.lsCcopy h)
  | 22 => some (.lsCclear h)
  | 23 => some (.lsHand h)
  | _ => none

/-- The operations of va (02 R56). -/
def decodeVa (h : Head) (e : Ext) (k : Nat) : Option Instr :=
  match k with
  | 0 => some (.vaAdd h e)
  | 1 => some (.vaSub h e)
  | 2 => some (.vaMul h e)
  | 3 => some (.vaFma h e)
  | 4 => some (.vaFms h e)
  | 5 => some (.vaNfma h e)
  | 6 => some (.vaMin h e)
  | 7 => some (.vaMax h e)
  | 8 => some (.vaAbs h e)
  | 9 => some (.vaNeg h e)
  | 10 => some (.vaAnd h e)
  | 11 => some (.vaOr h e)
  | 12 => some (.vaXor h e)
  | 13 => some (.vaNot h e)
  | 14 => some (.vaShl h e)
  | 15 => some (.vaShr h e)
  | 16 => some (.vaSar h e)
  | 17 => some (.vaCmp h e)
  | 18 => some (.vaSel h e)
  | 19 => some (.vaSum h e)
  | 20 => some (.vaRmax h e)
  | 21 => some (.vaRmin h e)
  | 22 => some (.vaDot4 h e)
  | 23 => some (.vaScale h e)
  | 24 => some (.vaClamp h e)
  | 25 => some (.vaAddsat h e)
  | 26 => some (.vaSubsat h e)
  | _ => none

/-- The operations of vm (02 R56). -/
def decodeVm (h : Head) (e : Ext) (k : Nat) : Option Instr :=
  match k with
  | 0 => some (.vmLd h e)
  | 1 => some (.vmSt h e)
  | 2 => some (.vmLdx h e)
  | 3 => some (.vmStx h e)
  | 4 => some (.vmMov h e)
  | 5 => some (.vmBcast h e)
  | 6 => some (.vmLane h e)
  | 7 => some (.vmPerm h e)
  | 8 => some (.vmShuf h e)
  | 9 => some (.vmCvt h e)
  | 10 => some (.vmPack h e)
  | 11 => some (.vmUnpack h e)
  | 12 => some (.vmDecode h e)
  | 13 => some (.vmEncode h e)
  | 14 => some (.vmPush h e)
  | 15 => some (.vmPop h e)
  | 16 => some (.vmMand h e)
  | 17 => some (.vmMor h e)
  | 18 => some (.vmMnot h e)
  | 19 => some (.vmMcount h e)
  | 20 => some (.vmLend h e)
  | 21 => some (.vmReclaim h e)
  | 22 => some (.vmSetfmt h e)
  | _ => none

/-- The operations of sf (02 R56). -/
def decodeSf (h : Head) (e : Ext) (k : Nat) : Option Instr :=
  match k with
  | 0 => some (.sfExp2 h e)
  | 1 => some (.sfLog2 h e)
  | 2 => some (.sfRcp h e)
  | 3 => some (.sfRsqrt h e)
  | 4 => some (.sfSqrt h e)
  | 5 => some (.sfTanh h e)
  | 6 => some (.sfSigm h e)
  | 7 => some (.sfSin h e)
  | 8 => some (.sfCos h e)
  | 9 => some (.sfErf h e)
  | _ => none

/-- The operations of pr (02 R56). -/
def decodePr (h : Head) (k : Nat) : Option Instr :=
  match k with
  | 0 => some (.prCask h)
  | 1 => some (.prMm h)
  | 2 => some (.prMmz h)
  | 3 => some (.prZero h)
  | 4 => some (.prMode h)
  | 5 => some (.prFmt h)
  | 6 => some (.prBusy h)
  | _ => none

/-- The operations of rk (02 R56). -/
def decodeRk (h : Head) (k : Nat) : Option Instr :=
  match k with
  | 0 => some (.rkRack h)
  | 1 => some (.rkFill h)
  | 2 => some (.rkGather h)
  | 3 => some (.rkScatter h)
  | 4 => some (.rkReduce h)
  | 5 => some (.rkMcast h)
  | 6 => some (.rkProbe h)
  | 7 => some (.rkCancel h)
  | 8 => some (.rkWaitaddr h)
  | 9 => some (.rkRel h)
  | 10 => some (.rkAcq h)
  | _ => none

/-- The operations of fb (02 R56). -/
def decodeFb (h : Head) (k : Nat) : Option Instr :=
  match k with
  | 0 => some (.fbSend h)
  | 1 => some (.fbSendr h)
  | 2 => some (.fbRfence h)
  | 3 => some (.fbSlot h)
  | 4 => some (.fbWstat h)
  | _ => none

/-- The operations of fg (02 R56). -/
def decodeFg (h : Head) (k : Nat) : Option Instr :=
  match k with
  | 0 => some (.fgFset h)
  | 1 => some (.fgFadd h)
  | 2 => some (.fgFcas h)
  | 3 => some (.fgFget h)
  | 4 => some (.fgFtest h)
  | 5 => some (.fgFwait h)
  | 6 => some (.fgFclr h)
  | 7 => some (.fgGarrive h)
  | 8 => some (.fgGcast h)
  | 9 => some (.fgGinfo h)
  | _ => none

/-- The operations of sy (02 R56). -/
def decodeSy (h : Head) (k : Nat) : Option Instr :=
  match k with
  | 0 => some (.syCsrr h)
  | 1 => some (.syCsrw h)
  | 2 => some (.syCsrs h)
  | 3 => some (.syCsrc h)
  | 4 => some (.syEcall h)
  | 5 => some (.syTret h)
  | 6 => some (.syKeyld h)
  | 7 => some (.syKeyrot h)
  | 8 => some (.sySeal h)
  | 9 => some (.syDecant h)
  | 10 => some (.syScrub h)
  | 11 => some (.syFbind h)
  | 12 => some (.syAttest h)
  | 13 => some (.syHalt h)
  | _ => none

/-- Units whose triggers take an extension word: va, vm and sf (02 R43). -/
def isWideUnit (u : Nat) : Bool := u == 4 || u == 5 || u == 6

/-- The unit a destination code triggers (02 R56). -/
def trigUnit (dst : BitVec 10) : Option Nat :=
  if dst.toNat < 0x100 then none else some ((dst.toNat - 0x100) / 64)

/-- How many extension slots a move slot requires (02 R43). -/
def extNeed (w : Slot) : Nat :=
  (match trigUnit (w.extractLsb' 0 10) with
   | some u => if isWideUnit u then 1 else 0
   | none => 0) + immSlots (w.extractLsb' 10 10)

/-- A trigger that carries no extension word (02 R56). -/
def decodeTrigger (h : Head) (u k : Nat) : Option Instr :=
  match u with
  | 0 => decodeSa h k
  | 1 => decodeSb h k
  | 2 => decodeCt h k
  | 3 => decodeLs h k
  | 7 => decodePr h k
  | 8 => decodeRk h k
  | 9 => decodeFb h k
  | 10 => decodeFg h k
  | 11 => decodeSy h k
  | _ => none

/-- A trigger of a wide unit (02 R45, R56). -/
def decodeWide (h : Head) (e : Ext) (u k : Nat) : Option Instr :=
  match u with
  | 4 => decodeVa h e k
  | 5 => decodeVm h e k
  | 6 => decodeSf h e k
  | _ => none

/-- The extension word and what follows it, where the destination requires one (02 R43). -/
def takeExt (dst : BitVec 10) (rest : List Slot) : Except DecodeError (Option Ext × List Slot) :=
  match trigUnit dst with
  | none => .ok (none, rest)
  | some u =>
    if isWideUnit u then
      match rest with
      | [] => .error .format
      | e :: rest' => .ok (some (decodeExt e), rest')
    else .ok (none, rest)

/-- The instruction of a destination code, with the head and the extension word of its move (02 R42, R56). -/
def decodeBody (h : Head) (dst : BitVec 10) (e : Option Ext) : Except DecodeError Instr :=
  match trigUnit dst with
  | none => decodeDest h dst.toNat
  | some u =>
    match (match e with
           | some e => decodeWide h e u (dst.toNat % 64)
           | none => decodeTrigger h u (dst.toNat % 64)) with
    | some i => .ok i
    | none => .error .operation

/-- One move slot and its extension slots: the instruction and the slots after it. The extension word of a wide
operation comes first, then the immediate (02 R43). -/
def decode : List Slot → Except DecodeError (Instr × List Slot)
  | [] => .error .format
  | w :: rest =>
    if w = 0x800000 then .ok (.nop, rest)
    else
      match takeExt (w.extractLsb' 0 10) rest with
      | .error e => .error e
      | .ok (ext, rest1) =>
        match decodeSrc (w.extractLsb' 10 10) rest1 with
        | .error e => .error e
        | .ok (src, rest2) =>
          match decodeBody (Head.mk (w.getLsbD 23) (w.extractLsb' 20 3) src) (w.extractLsb' 0 10) ext with
          | .error e => .error e
          | .ok i => .ok (i, rest2)

/-! Encoding. -/

/-- The destination code of a plain move (02 R42). -/
def encodeDest : Dest → BitVec 10
  | .x n => n.setWidth 10
  | .p n => 0x040 + n.setWidth 10
  | .lcount => 0x048
  | .rotb => 0x049
  | .sbbase => 0x04A
  | .sblen => 0x04B
  | .inp n => BitVec.ofNat 10 (0x050 + n.val)

/-- The trigger code of opcode k of unit u (02 R56). -/
def trig (u k : Nat) : BitVec 10 := BitVec.ofNat 10 (0x100 + 64 * u + k)

/-- Head, destination code and extension word of an instruction that a slot can hold; none for an event. -/
def slotParts : Instr → Option (Head × BitVec 10 × Option Ext)
  | .nop => some (Head.mk true 0 (.x 0), 0, none)
  | .move h d => some (h, encodeDest d, none)
  | .queuePush h q => some (h, 0x0F8 + q.setWidth 10, none)
  | .streamReset h => some (h, 0x04C, none)
  | .saMov h => some (h, trig 0 0, none)
  | .saAdd h => some (h, trig 0 1, none)
  | .saSub h => some (h, trig 0 2, none)
  | .saAnd h => some (h, trig 0 3, none)
  | .saOr h => some (h, trig 0 4, none)
  | .saXor h => some (h, trig 0 5, none)
  | .saAndn h => some (h, trig 0 6, none)
  | .saOrn h => some (h, trig 0 7, none)
  | .saShl h => some (h, trig 0 8, none)
  | .saShr h => some (h, trig 0 9, none)
  | .saSar h => some (h, trig 0 10, none)
  | .saRol h => some (h, trig 0 11, none)
  | .saMin h => some (h, trig 0 12, none)
  | .saMax h => some (h, trig 0 13, none)
  | .saMinu h => some (h, trig 0 14, none)
  | .saMaxu h => some (h, trig 0 15, none)
  | .saSeq h => some (h, trig 0 16, none)
  | .saSne h => some (h, trig 0 17, none)
  | .saSlt h => some (h, trig 0 18, none)
  | .saSltu h => some (h, trig 0 19, none)
  | .saSle h => some (h, trig 0 20, none)
  | .saSleu h => some (h, trig 0 21, none)
  | .saPeq h => some (h, trig 0 22, none)
  | .saPne h => some (h, trig 0 23, none)
  | .saPlt h => some (h, trig 0 24, none)
  | .saPltu h => some (h, trig 0 25, none)
  | .saPge h => some (h, trig 0 26, none)
  | .saPgeu h => some (h, trig 0 27, none)
  | .saClz h => some (h, trig 0 28, none)
  | .saCtz h => some (h, trig 0 29, none)
  | .saPopc h => some (h, trig 0 30, none)
  | .saSext h => some (h, trig 0 31, none)
  | .saZext h => some (h, trig 0 32, none)
  | .saBfx h => some (h, trig 0 33, none)
  | .saBfi h => some (h, trig 0 34, none)
  | .saAddw h => some (h, trig 0 35, none)
  | .sbMov h => some (h, trig 1 0, none)
  | .sbAdd h => some (h, trig 1 1, none)
  | .sbSub h => some (h, trig 1 2, none)
  | .sbAnd h => some (h, trig 1 3, none)
  | .sbOr h => some (h, trig 1 4, none)
  | .sbXor h => some (h, trig 1 5, none)
  | .sbAndn h => some (h, trig 1 6, none)
  | .sbOrn h => some (h, trig 1 7, none)
  | .sbShl h => some (h, trig 1 8, none)
  | .sbShr h => some (h, trig 1 9, none)
  | .sbSar h => some (h, trig 1 10, none)
  | .sbRol h => some (h, trig 1 11, none)
  | .sbMin h => some (h, trig 1 12, none)
  | .sbMax h => some (h, trig 1 13, none)
  | .sbMinu h => some (h, trig 1 14, none)
  | .sbMaxu h => some (h, trig 1 15, none)
  | .sbSeq h => some (h, trig 1 16, none)
  | .sbSne h => some (h, trig 1 17, none)
  | .sbSlt h => some (h, trig 1 18, none)
  | .sbSltu h => some (h, trig 1 19, none)
  | .sbSle h => some (h, trig 1 20, none)
  | .sbSleu h => some (h, trig 1 21, none)
  | .sbPeq h => some (h, trig 1 22, none)
  | .sbPne h => some (h, trig 1 23, none)
  | .sbPlt h => some (h, trig 1 24, none)
  | .sbPltu h => some (h, trig 1 25, none)
  | .sbPge h => some (h, trig 1 26, none)
  | .sbPgeu h => some (h, trig 1 27, none)
  | .sbClz h => some (h, trig 1 28, none)
  | .sbCtz h => some (h, trig 1 29, none)
  | .sbPopc h => some (h, trig 1 30, none)
  | .sbSext h => some (h, trig 1 31, none)
  | .sbZext h => some (h, trig 1 32, none)
  | .sbBfx h => some (h, trig 1 33, none)
  | .sbBfi h => some (h, trig 1 34, none)
  | .sbAddw h => some (h, trig 1 35, none)
  | .sbMul h => some (h, trig 1 36, none)
  | .sbMulh h => some (h, trig 1 37, none)
  | .sbMulhu h => some (h, trig 1 38, none)
  | .sbDiv h => some (h, trig 1 39, none)
  | .sbDivu h => some (h, trig 1 40, none)
  | .sbRem h => some (h, trig 1 41, none)
  | .sbRemu h => some (h, trig 1 42, none)
  | .ctBr h => some (h, trig 2 0, none)
  | .ctJmp h => some (h, trig 2 1, none)
  | .ctCall h => some (h, trig 2 2, none)
  | .ctRet h => some (h, trig 2 3, none)
  | .ctLoop h => some (h, trig 2 4, none)
  | .ctRot h => some (h, trig 2 5, none)
  | .ctLock h => some (h, trig 2 6, none)
  | .ctEndtask h => some (h, trig 2 7, none)
  | .ctTrap h => some (h, trig 2 8, none)
  | .ctBrk h => some (h, trig 2 9, none)
  | .lsLd8 h => some (h, trig 3 0, none)
  | .lsLd8z h => some (h, trig 3 1, none)
  | .lsLd16 h => some (h, trig 3 2, none)
  | .lsLd16z h => some (h, trig 3 3, none)
  | .lsLd32 h => some (h, trig 3 4, none)
  | .lsLd32z h => some (h, trig 3 5, none)
  | .lsLd64 h => some (h, trig 3 6, none)
  | .lsSt8 h => some (h, trig 3 7, none)
  | .lsSt16 h => some (h, trig 3 8, none)
  | .lsSt32 h => some (h, trig 3 9, none)
  | .lsSt64 h => some (h, trig 3 10, none)
  | .lsLdlab h => some (h, trig 3 11, none)
  | .lsStlab h => some (h, trig 3 12, none)
  | .lsLdcap h => some (h, trig 3 13, none)
  | .lsStcap h => some (h, trig 3 14, none)
  | .lsCbound h => some (h, trig 3 15, none)
  | .lsCmove h => some (h, trig 3 16, none)
  | .lsCperm h => some (h, trig 3 17, none)
  | .lsCbase h => some (h, trig 3 18, none)
  | .lsClen h => some (h, trig 3 19, none)
  | .lsCinfo h => some (h, trig 3 20, none)
  | .lsCcopy h => some (h, trig 3 21, none)
  | .lsCclear h => some (h, trig 3 22, none)
  | .lsHand h => some (h, trig 3 23, none)
  | .vaAdd h e => some (h, trig 4 0, some e)
  | .vaSub h e => some (h, trig 4 1, some e)
  | .vaMul h e => some (h, trig 4 2, some e)
  | .vaFma h e => some (h, trig 4 3, some e)
  | .vaFms h e => some (h, trig 4 4, some e)
  | .vaNfma h e => some (h, trig 4 5, some e)
  | .vaMin h e => some (h, trig 4 6, some e)
  | .vaMax h e => some (h, trig 4 7, some e)
  | .vaAbs h e => some (h, trig 4 8, some e)
  | .vaNeg h e => some (h, trig 4 9, some e)
  | .vaAnd h e => some (h, trig 4 10, some e)
  | .vaOr h e => some (h, trig 4 11, some e)
  | .vaXor h e => some (h, trig 4 12, some e)
  | .vaNot h e => some (h, trig 4 13, some e)
  | .vaShl h e => some (h, trig 4 14, some e)
  | .vaShr h e => some (h, trig 4 15, some e)
  | .vaSar h e => some (h, trig 4 16, some e)
  | .vaCmp h e => some (h, trig 4 17, some e)
  | .vaSel h e => some (h, trig 4 18, some e)
  | .vaSum h e => some (h, trig 4 19, some e)
  | .vaRmax h e => some (h, trig 4 20, some e)
  | .vaRmin h e => some (h, trig 4 21, some e)
  | .vaDot4 h e => some (h, trig 4 22, some e)
  | .vaScale h e => some (h, trig 4 23, some e)
  | .vaClamp h e => some (h, trig 4 24, some e)
  | .vaAddsat h e => some (h, trig 4 25, some e)
  | .vaSubsat h e => some (h, trig 4 26, some e)
  | .vmLd h e => some (h, trig 5 0, some e)
  | .vmSt h e => some (h, trig 5 1, some e)
  | .vmLdx h e => some (h, trig 5 2, some e)
  | .vmStx h e => some (h, trig 5 3, some e)
  | .vmMov h e => some (h, trig 5 4, some e)
  | .vmBcast h e => some (h, trig 5 5, some e)
  | .vmLane h e => some (h, trig 5 6, some e)
  | .vmPerm h e => some (h, trig 5 7, some e)
  | .vmShuf h e => some (h, trig 5 8, some e)
  | .vmCvt h e => some (h, trig 5 9, some e)
  | .vmPack h e => some (h, trig 5 10, some e)
  | .vmUnpack h e => some (h, trig 5 11, some e)
  | .vmDecode h e => some (h, trig 5 12, some e)
  | .vmEncode h e => some (h, trig 5 13, some e)
  | .vmPush h e => some (h, trig 5 14, some e)
  | .vmPop h e => some (h, trig 5 15, some e)
  | .vmMand h e => some (h, trig 5 16, some e)
  | .vmMor h e => some (h, trig 5 17, some e)
  | .vmMnot h e => some (h, trig 5 18, some e)
  | .vmMcount h e => some (h, trig 5 19, some e)
  | .vmLend h e => some (h, trig 5 20, some e)
  | .vmReclaim h e => some (h, trig 5 21, some e)
  | .vmSetfmt h e => some (h, trig 5 22, some e)
  | .sfExp2 h e => some (h, trig 6 0, some e)
  | .sfLog2 h e => some (h, trig 6 1, some e)
  | .sfRcp h e => some (h, trig 6 2, some e)
  | .sfRsqrt h e => some (h, trig 6 3, some e)
  | .sfSqrt h e => some (h, trig 6 4, some e)
  | .sfTanh h e => some (h, trig 6 5, some e)
  | .sfSigm h e => some (h, trig 6 6, some e)
  | .sfSin h e => some (h, trig 6 7, some e)
  | .sfCos h e => some (h, trig 6 8, some e)
  | .sfErf h e => some (h, trig 6 9, some e)
  | .prCask h => some (h, trig 7 0, none)
  | .prMm h => some (h, trig 7 1, none)
  | .prMmz h => some (h, trig 7 2, none)
  | .prZero h => some (h, trig 7 3, none)
  | .prMode h => some (h, trig 7 4, none)
  | .prFmt h => some (h, trig 7 5, none)
  | .prBusy h => some (h, trig 7 6, none)
  | .rkRack h => some (h, trig 8 0, none)
  | .rkFill h => some (h, trig 8 1, none)
  | .rkGather h => some (h, trig 8 2, none)
  | .rkScatter h => some (h, trig 8 3, none)
  | .rkReduce h => some (h, trig 8 4, none)
  | .rkMcast h => some (h, trig 8 5, none)
  | .rkProbe h => some (h, trig 8 6, none)
  | .rkCancel h => some (h, trig 8 7, none)
  | .rkWaitaddr h => some (h, trig 8 8, none)
  | .rkRel h => some (h, trig 8 9, none)
  | .rkAcq h => some (h, trig 8 10, none)
  | .fbSend h => some (h, trig 9 0, none)
  | .fbSendr h => some (h, trig 9 1, none)
  | .fbRfence h => some (h, trig 9 2, none)
  | .fbSlot h => some (h, trig 9 3, none)
  | .fbWstat h => some (h, trig 9 4, none)
  | .fgFset h => some (h, trig 10 0, none)
  | .fgFadd h => some (h, trig 10 1, none)
  | .fgFcas h => some (h, trig 10 2, none)
  | .fgFget h => some (h, trig 10 3, none)
  | .fgFtest h => some (h, trig 10 4, none)
  | .fgFwait h => some (h, trig 10 5, none)
  | .fgFclr h => some (h, trig 10 6, none)
  | .fgGarrive h => some (h, trig 10 7, none)
  | .fgGcast h => some (h, trig 10 8, none)
  | .fgGinfo h => some (h, trig 10 9, none)
  | .syCsrr h => some (h, trig 11 0, none)
  | .syCsrw h => some (h, trig 11 1, none)
  | .syCsrs h => some (h, trig 11 2, none)
  | .syCsrc h => some (h, trig 11 3, none)
  | .syEcall h => some (h, trig 11 4, none)
  | .syTret h => some (h, trig 11 5, none)
  | .syKeyld h => some (h, trig 11 6, none)
  | .syKeyrot h => some (h, trig 11 7, none)
  | .sySeal h => some (h, trig 11 8, none)
  | .syDecant h => some (h, trig 11 9, none)
  | .syScrub h => some (h, trig 11 10, none)
  | .syFbind h => some (h, trig 11 11, none)
  | .syAttest h => some (h, trig 11 12, none)
  | .syHalt h => some (h, trig 11 13, none)
  | _ => none

/-- The word of a move slot (02 R39). -/
def encodeWord (h : Head) (dst : BitVec 10) : Slot :=
  BitVec.ofBool h.inv ++ h.pred ++ encodeSrc h.src ++ dst

/-- The words of an instruction that a slot can hold (02 R39, R43); none for an event. -/
def encode (i : Instr) : Option (List Slot) :=
  match slotParts i with
  | none => none
  | some (h, dst, e) => some (encodeWord h dst :: ((e.map encodeExt).toList ++ encodeImm h.src))

/-! The host's reading of a table word. -/

/-- The four 24-bit words of a number of the opcode table: the longest instruction is a trigger word with its
extension word and a 48-bit immediate (02 R43). -/
def tableWords (nbits w : Nat) : List Slot :=
  let v := w % 2 ^ nbits
  [BitVec.ofNat 24 v, BitVec.ofNat 24 (v / 2 ^ 24), BitVec.ofNat 24 (v / 2 ^ 48), BitVec.ofNat 24 (v / 2 ^ 72)]

/-- The instruction the decoder reads from the words of an opcode-table number. -/
def decodeTableWord (nbits w : Nat) : Option Instr :=
  match decode (tableWords nbits w) with
  | .ok (i, _) => some i
  | .error _ => none

end Sys2Proof
end

