-- ==== Sys2Proof/Machine/Store.lean ====
section
/-! DEFINITION. The sparse store every file and memory of the machine is held in: one read, one write that keeps the
canonical form, and byte runs over them (00 R4: little-endian). -/

namespace Sys2Proof.Machine

/-- The value at a key; `d` is what an unlisted key reads as. Log: DESIGN CHOICE 9. -/
def sget {α : Type} (d : α) : Store α → Nat → α
  | [], _ => d
  | (k, v) :: rest, n => if n = k then v else sget d rest n

/-- Puts a value at a key, before the first greater one. -/
def sins {α : Type} : Store α → Nat → α → Store α
  | [], n, v => [(n, v)]
  | (k, w) :: rest, n, v =>
    if n < k then (n, v) :: (k, w) :: rest
    else if n = k then (n, v) :: rest
    else (k, w) :: sins rest n v

/-- Removes a key. -/
def sdel {α : Type} : Store α → Nat → Store α
  | [], _ => []
  | (k, w) :: rest, n => if n = k then sdel rest n else (k, w) :: sdel rest n

/-- Puts a value at a key, in canonical form: a value equal to `d` leaves no entry. Log: DESIGN CHOICE 16. -/
def sput {α : Type} [DecidableEq α] (d : α) (m : Store α) (n : Nat) (v : α) : Store α :=
  if v = d then sdel m n else sins m n v

/-- Keys at or above `lo`, strictly rising, and no entry holds `d`. -/
def swfFrom {α : Type} [DecidableEq α] (d : α) : Nat → Store α → Bool
  | _, [] => true
  | lo, (k, v) :: rest => decide (lo ≤ k) && decide (v ≠ d) && swfFrom d (k + 1) rest

/-- The canonical form of a store. Log: DESIGN CHOICE 16. -/
def swf {α : Type} [DecidableEq α] (d : α) (s : Store α) : Bool := swfFrom d 0 s

/-- The canonical form of a byte memory whose unlisted bytes read 0. Log: DESIGN CHOICE 16. -/
abbrev Memory.wf (m : Store Byte) : Bool := swf (0 : Byte) m

/-- One byte of a memory (unlisted bytes read 0). Log: DESIGN CHOICE 9. -/
def readByte (m : Store Byte) (a : Nat) : Byte := sget 0 m a

/-- Writes one byte of a memory. -/
def writeByte (m : Store Byte) (a : Nat) (v : Byte) : Store Byte := sput 0 m a v

/-- n bytes from address a. -/
def readBytes (m : Store Byte) (a : Nat) : Nat → List Byte
  | 0 => []
  | n + 1 => readByte m a :: readBytes m (a + 1) n

/-- Writes a run of bytes from address a. -/
def writeBytes (m : Store Byte) (a : Nat) : List Byte → Store Byte
  | [] => m
  | b :: bs => writeBytes (writeByte m a b) (a + 1) bs

/-- n bytes from address a as a little-endian number (00 R4). -/
def readNat (m : Store Byte) (a n : Nat) : Nat := ofBytes (readBytes m a n)

/-- The low n bytes of a number to address a, little-endian (00 R4). -/
def writeNat (m : Store Byte) (a n v : Nat) : Store Byte := writeBytes m a (toBytes n v)

/-- Every key of a range that a predicate accepts is put to a value. -/
def sfill {α : Type} [DecidableEq α] (d v : α) (s : Store α) (lo : Nat) : Nat → Store α
  | 0 => s
  | n + 1 => sfill d v (sput d s lo v) (lo + 1) n

/-- The entries outside lo … lo+n−1: the range reads as `d` again. -/
def sclear {α : Type} (s : Store α) (lo n : Nat) : Store α :=
  s.filter (fun p => p.1 < lo || lo + n ≤ p.1)

end Sys2Proof.Machine
end

