-- ==== Sys2Proof/Machine/Operands.lean ====
section
/-! DEFINITION. Operand forms of the vector and press units: element formats (04 R73-R82), exact values, lanes of rows
and lane masks (07 R130-R134). Nothing here reads the state. -/

namespace Sys2Proof.Machine

/-! Formats. -/

/-- The policy of special codes (04 R80). -/
inductive Policy where
  | finite | nanMax | ieee | nanNegzero
  deriving DecidableEq, Repr

/-- A float format: sign, exponent and mantissa widths, bias, subnormal switch and policy (04 R77). fp32, bf16 and fp16
are formats of this family with policy ieee (04 R75). -/
structure Fmt where
  sign : Bool
  e : Nat
  m : Nat
  bias : Int
  sub : Bool
  policy : Policy
  deriving DecidableEq, Repr

/-- w, the width of a code (04 R78). -/
def Fmt.w (f : Fmt) : Nat := b2n f.sign + f.e + f.m

/-- The container of a code: 4 or 8 bits for the free-split types, the width itself for 16 and 32 (04 R73). -/
def Fmt.cont (f : Fmt) : Nat :=
  if f.w ≤ 4 then 4 else if f.w ≤ 8 then 8 else if f.w ≤ 16 then 16 else 32

/-- binary32 (04 R75). -/
def fp32 : Fmt := Fmt.mk true 8 23 127 true .ieee
/-- bfloat16 (04 R75). -/
def bf16 : Fmt := Fmt.mk true 8 7 127 true .ieee
/-- binary16 (04 R75). -/
def fp16 : Fmt := Fmt.mk true 5 10 15 true .ieee
/-- E8M0, the format of line scales (04 R81). -/
def e8m0 : Fmt := Fmt.mk false 8 0 127 false .nanMax

/-- A policy code (04 R77). -/
def policyOf (n : Nat) : Policy :=
  match n with
  | 0 => .finite
  | 1 => .nanMax
  | 2 => .ieee
  | _ => .nanNegzero

/-- Bits 18:0 of a descriptor (04 R77). -/
def fmtOf (desc : Nat) : Fmt where
  sign := bitOf desc 0
  e := bitsOf desc 4 1
  m := bitsOf desc 7 5
  bias := sextOf (bitsOf desc 15 8) 8
  sub := bitOf desc 16
  policy := policyOf (bitsOf desc 18 17)

/-- The conditions of 04 R78 on bits 18:0. Log: DEDUCED 116. -/
def fmtValid (desc : Nat) : Bool :=
  let f := fmtOf desc
  2 ≤ f.w && f.w ≤ 8 && f.e ≤ 8 &&
  (f.e != 0 || (f.sub && f.policy == .finite)) &&
  (f.policy != .nanMax || 1 ≤ f.e) &&
  (f.policy != .ieee || (2 ≤ f.e && 1 ≤ f.m)) &&
  (f.policy != .nanNegzero || f.sign)

/-- A format register's content is a valid descriptor, reserved bits included (04 R78, R84). -/
def fregValid (v : Word) : Bool := v.toNat < 2 ^ 19 && fmtValid v.toNat

/-- A format-table entry against the table it stands in; 0 is an empty entry (04 R78, R87). -/
def entryValid (table : Store (BitVec 32)) (desc : BitVec 32) : Bool :=
  let v := desc.toNat
  let sc := bitsOf v 31 24
  let g := bitsOf v 20 19
  let scDesc := (sget 0 table sc).toNat
  fmtValid v && bitsOf v 23 21 == 0 &&
  (if g = 0 then sc == 0
   else sc == 0 || (scDesc != 0 && (fmtOf scDesc).w == 8 && bitsOf scDesc 20 19 == 0))

/-- The grain of a table entry in elements; 0 for none (04 R77). -/
def entryGrain (desc : Nat) : Nat :=
  match bitsOf desc 20 19 with
  | 0 => 0
  | 1 => 8
  | 2 => 16
  | _ => 32

/-! Exact values. -/

/-- An exact real num/den × 2^e with a sign, or ±Inf, or NaN (05 R94). -/
inductive Val where
  | nan
  | inf (neg : Bool)
  | fin (neg : Bool) (num den : Nat) (e : Int)
  deriving DecidableEq, Repr

/-- 2^k for an exponent that may be negative: 1 below 0. -/
def pow2 (k : Int) : Nat := 2 ^ k.toNat

/-- The exact value of an integer. -/
def Val.ofInt (v : Int) : Val := .fin (v < 0) v.natAbs 1 0

/-- +0. -/
def Val.zero : Val := .fin false 0 1 0

/-- 1. -/
def Val.one : Val := .fin false 1 1 0

/-- True of ±0. -/
def Val.isZero : Val → Bool
  | .fin _ n _ _ => n == 0
  | _ => false

/-- True of NaN. -/
def Val.isNan : Val → Bool
  | .nan => true
  | _ => false

/-- True of ±Inf. -/
def Val.isInf : Val → Bool
  | .inf _ => true
  | _ => false

/-- The sign bit. -/
def Val.isNeg : Val → Bool
  | .nan => false
  | .inf s => s
  | .fin s _ _ _ => s

/-- The value with its sign inverted. -/
def Val.neg : Val → Val
  | .nan => .nan
  | .inf s => .inf (!s)
  | .fin s n d e => .fin (!s) n d e

/-- A product; 0 × ±Inf is NaN and invalid (05 R103). -/
def Val.mul (a b : Val) : Val × Bool :=
  match a, b with
  | .nan, _ => (.nan, false)
  | _, .nan => (.nan, false)
  | .inf s, .inf t => (.inf (s != t), false)
  | .inf s, .fin t n _ _ => if n = 0 then (.nan, true) else (.inf (s != t), false)
  | .fin s n _ _, .inf t => if n = 0 then (.nan, true) else (.inf (s != t), false)
  | .fin s n d e, .fin t m c f => (.fin (s != t) (n * m) (d * c) (e + f), false)

/-- A quotient by a finite nonzero value (08 R165). -/
def Val.divFin (a b : Val) : Val :=
  match a, b with
  | .fin s n d e, .fin t m c f => .fin (s != t) (n * c) (d * m) (e - f)
  | .inf s, .fin t _ _ _ => .inf (s != t)
  | a, _ => a

/-- A finite value as an exact signed fraction p/q. -/
def Val.frac : Val → Int × Nat
  | .fin s n d e =>
    let p : Int := (n * pow2 e : Nat)
    (if s then -p else p, d * pow2 (-e))
  | _ => (0, 1)

/-- The order of two values that are not NaN; −0 equals +0. -/
def Val.lt (a b : Val) : Bool :=
  match a, b with
  | .nan, _ => false
  | _, .nan => false
  | .inf s, .inf t => s && !t
  | .inf s, .fin _ _ _ _ => s
  | .fin _ _ _ _, .inf t => !t
  | a, b => let p := a.frac; let q := b.frac; decide (p.1 * q.2 < q.1 * p.2)

/-- Equal values; −0 equals +0, NaN equals nothing. -/
def Val.eqv (a b : Val) : Bool := !a.isNan && !b.isNan && !a.lt b && !b.lt a

/-- The order of the min and max family: −0 below +0 (05 R103). -/
def Val.ltz (a b : Val) : Bool := a.lt b || (a.isZero && b.isZero && a.isNeg && !b.isNeg)

/-- The least exponent of a list of finite terms. -/
def minExp : List Val → Int
  | [] => 0
  | .fin _ _ _ e :: vs => min e (minExp vs)
  | _ :: vs => minExp vs

/-- The exact sum, over 2^e, of finite terms whose denominators are 1. -/
def sumScaled (e : Int) : List Val → Int
  | [] => 0
  | .fin s n _ f :: vs => let p : Int := (n * pow2 (f - e) : Nat); (if s then -p else p) + sumScaled e vs
  | _ :: vs => sumScaled e vs

/-- The exact sum of terms whose denominators are 1: +Inf with −Inf is NaN and invalid, a zero sum is +0 unless every
term is −0 (05 R98, R103). A NaN term does not hide an invalid sum. -/
def Val.sum (vs : List Val) : Val × Bool :=
  let p := vs.any (· == .inf false)
  let n := vs.any (· == .inf true)
  if p && n then (.nan, true)
  else if vs.any Val.isNan then (.nan, false)
  else if p then (.inf false, false)
  else if n then (.inf true, false)
  else
    let e := minExp vs
    let s := sumScaled e vs
    if s = 0 then (.fin (!vs.isEmpty && vs.all (fun v => v.isZero && v.isNeg)) 0 1 0, false)
    else (.fin (s < 0) s.natAbs 1 e, false)

/-! Codes to values. -/

/-- The NaN codes of a format (04 R80). -/
def fmtIsNan (f : Fmt) (c : Nat) : Bool :=
  let mag := c % 2 ^ (f.e + f.m)
  match f.policy with
  | .finite => false
  | .nanMax => mag == 2 ^ (f.e + f.m) - 1
  | .ieee => 2 ^ (f.e + f.m) - 2 ^ f.m < mag
  | .nanNegzero => c % 2 ^ f.w == 2 ^ (f.e + f.m)

/-- The infinity codes of a format (04 R80). -/
def fmtIsInf (f : Fmt) (c : Nat) : Bool :=
  f.policy == .ieee && c % 2 ^ (f.e + f.m) == 2 ^ (f.e + f.m) - 2 ^ f.m

/-- decode_fs: the value of the low w bits of a container (04 R79). -/
def fmtVal (f : Fmt) (c : Nat) : Val :=
  let s := f.sign && bitOf c (f.w - 1)
  let mag := c % 2 ^ (f.e + f.m)
  let ex := mag / 2 ^ f.m
  let mt := mag % 2 ^ f.m
  if fmtIsNan f c then .nan
  else if fmtIsInf f c then .inf s
  else if ex = 0 ∧ f.sub then .fin s mt 1 (1 - f.bias - f.m)
  else .fin s (2 ^ f.m + mt) 1 (ex - f.bias - f.m)

/-- The sign bit of a code set. -/
def fmtSign (f : Fmt) (neg : Bool) : Nat := if f.sign && neg then 2 ^ (f.e + f.m) else 0

/-- The code of the largest finite magnitude (04 R80). -/
def fmtMaxMag (f : Fmt) : Nat :=
  match f.policy with
  | .finite => 2 ^ (f.e + f.m) - 1
  | .nanNegzero => 2 ^ (f.e + f.m) - 1
  | .nanMax => 2 ^ (f.e + f.m) - 2
  | .ieee => 2 ^ (f.e + f.m) - 2 ^ f.m - 1

/-- The code delivered for NaN (04 R76, R80). -/
def fmtNanCode (f : Fmt) : Nat :=
  match f.policy with
  | .finite => 0
  | .nanMax => 2 ^ (f.e + f.m) - 1
  | .ieee => 2 ^ (f.e + f.m) - 2 ^ f.m + 2 ^ (f.m - 1)
  | .nanNegzero => 2 ^ (f.e + f.m)

/-- True where the format has a NaN code (04 R80). -/
def fmtHasNan (f : Fmt) : Bool := f.policy != .finite

/-- emin, the exponent of the smallest normal value (05 R95). -/
def fmtEmin (f : Fmt) : Int := if f.sub then 1 - f.bias else -f.bias

/-! Element types. -/

/-- An element type: an integer or a float format (02 R46). -/
inductive ElTy where
  | int (signed : Bool) (w : Nat)
  | flt (f : Fmt)
  deriving DecidableEq, Repr

/-- The container width of a type (04 R73). -/
def ElTy.cont : ElTy → Nat
  | .int _ w => w
  | .flt f => f.cont

/-- The lanes of a 1024-byte row (07 R130). -/
def ElTy.lanes (t : ElTy) : Nat := 8192 / t.cont

/-- True of the float types. -/
def ElTy.isFloat : ElTy → Bool
  | .int _ _ => false
  | .flt _ => true

/-- The exact value of a code (04 R74, R79). -/
def elVal (t : ElTy) (c : Nat) : Val :=
  match t with
  | .int true w => .ofInt (sextOf c w)
  | .int false w => .ofInt ((c % 2 ^ w : Nat))
  | .flt f => fmtVal f c

/-- The fixed types of codes 0-10 (02 R46). -/
def fixedTy (code : Nat) : Option ElTy :=
  match code with
  | 0 => some (.flt fp32)
  | 1 => some (.flt bf16)
  | 2 => some (.flt fp16)
  | 3 => some (.int true 32)
  | 4 => some (.int false 32)
  | 5 => some (.int true 16)
  | 6 => some (.int false 16)
  | 7 => some (.int true 8)
  | 8 => some (.int false 8)
  | 9 => some (.int true 4)
  | 10 => some (.int false 4)
  | _ => none

/-- A type code with the format registers it may name: 11-14 describe through f0-f3 (02 R46, 04 R84). -/
def typeOf (freg : Nat → Word) (code : Nat) : Option ElTy :=
  if code ≤ 10 then fixedTy code
  else if code ≤ 14 then
    (if fregValid (freg (code - 11)) then some (.flt (fmtOf (freg (code - 11)).toNat)) else none)
  else none

/-- Float type codes fp32, bf16, fp16. -/
def isF (code : Nat) : Bool := code ≤ 2

/-- Integer type codes 3-10. -/
def isI (code : Nat) : Bool := 3 ≤ code && code ≤ 10

/-! Rows. -/

/-- Lane i of a row, as the container of width c (04 R73). -/
def laneOf (r : Row) (c i : Nat) : Nat := r.toNat / 2 ^ (c * i) % 2 ^ c

/-- The codes of a number's n containers, lane 0 first. -/
def splitCodes (c : Nat) : Nat → Nat → List Nat
  | 0, _ => []
  | n + 1, v => v % 2 ^ c :: splitCodes c n (v / 2 ^ c)

/-- The number whose containers are given, lane 0 first. -/
def joinCodes (c : Nat) : List Nat → Nat
  | [] => 0
  | v :: vs => v % 2 ^ c + 2 ^ c * joinCodes c vs

/-- All lanes of a row. -/
def rowCodes (c : Nat) (r : Row) : List Nat := splitCodes c (8192 / c) r.toNat

/-- A row of the given lanes; lanes past the list are 0. -/
def rowOf (c : Nat) (vs : List Nat) : Row := BitVec.ofNat 8192 (joinCodes c vs)

/-- The bytes of a row, byte 0 first. -/
def rowBytes (r : Row) : List Byte := (rowCodes 8 r).map (BitVec.ofNat 8)

/-- The row of 1024 bytes. -/
def bytesRow (bs : List Byte) : Row := BitVec.ofNat 8192 (ofBytes bs)

/-- sel_lane: which of n lanes a mask register selects, lane 0 first (07 R131). -/
def maskLanes (e : Mask) (n : Nat) : List Bool :=
  (splitCodes (2048 / n) n e.toNat).map (fun g => g % 2 == 1)

/-- sel_lane of one lane of n (07 R131). -/
def selLane (e : Mask) (n i : Nat) : Bool := e.toNat / 2 ^ (2048 / n * i) % 2 == 1

/-- A mask register written for n lanes: all bits of a lane's group alike (07 R131). -/
def maskOf (n : Nat) (bs : List Bool) : Mask :=
  BitVec.ofNat 2048 (joinCodes (2048 / n) (bs.map (fun b => if b then 2 ^ (2048 / n) - 1 else 0)))

/-- The bits of a row that the lanes a mask selects cover, for containers of width c. -/
def laneBits (c : Nat) (sel : List Bool) : Row :=
  rowOf c (sel.map (fun b => if b then 2 ^ c - 1 else 0))

/-- A row with the bits under `m` replaced. -/
def mergeRow (old new m : Row) : Row := (old &&& ~~~m) ||| (new &&& m)

end Sys2Proof.Machine
end

