-- ==== Sys2Proof/Machine/Flags.lean ====
section
/-! DEFINITION. Rounding and sticky status: `round` with its overflow, underflow and saturation rules (05 R94-R98), the
stochastic generator (05 R99-R101) and the bits of ASTAT (05 R108). -/

namespace Sys2Proof.Machine

/-- The sticky status bits, bit numbers as in ASTAT (05 R108). -/
abbrev Stat := BitVec 11

/-- A NaN made from non-NaN operands, or a NaN converted to an integer. -/
def stInvalid : Stat := 0x001
/-- An exact infinite result from finite operands. -/
def stDivZero : Stat := 0x002
/-- A result beyond max finite of a type with infinity. -/
def stOverflow : Stat := 0x004
/-- A tiny result that is inexact. -/
def stUnderflow : Stat := 0x008
/-- A rounding changed a value. -/
def stInexact : Stat := 0x010
/-- An fp32 accumulation overflowed. -/
def stAccInf : Stat := 0x020
/-- A saturating accumulator mode clamped an infinity. -/
def stAccSat : Stat := 0x040
/-- An s32-wrap accumulation left the range. -/
def stIntWrap : Stat := 0x080
/-- An s32-saturate accumulation clamped. -/
def stIntSat : Stat := 0x100
/-- A result was clamped to a bound of a type without infinity. -/
def stConvSat : Stat := 0x200
/-- A NaN block or line scale reached a result. -/
def stNanScale : Stat := 0x400

/-- A status bit where a condition holds. -/
def stIf (b : Bool) (s : Stat) : Stat := if b then s else 0

/-- A resolved rounding mode; stochastic carries the 16 bits drawn for this value (05 R94, R101). -/
inductive Rnd where
  | rne
  | rtz
  | sto (r : Nat)
  deriving DecidableEq, Repr

/-- One step of a lane generator: the new state (05 R99). -/
def genStep (g : Nat) : Nat :=
  let s1 := g ^^^ (g * 2 ^ 13 % 2 ^ 32)
  let s2 := s1 ^^^ (s1 / 2 ^ 17)
  s2 ^^^ (s2 * 2 ^ 5 % 2 ^ 32)

/-- seed_all: the state of generator i under a seed (05 R100). -/
def genSeeded (seed i : Nat) : Nat :=
  let s := seed ^^^ (i * 0x9E3779B9 % 2 ^ 32)
  if s = 0 then 1 else s

/-- floor(log2(num/den)) of a nonzero fraction. -/
def floorLog2 (num den : Nat) : Int :=
  let l : Int := (Nat.log2 num : Int) - (Nat.log2 den : Int)
  if den * pow2 l ≤ num * pow2 (-l) then l else l - 1

/-- |x| / 2^q for a magnitude num/den × 2^e, as a fraction. -/
def quantaOf (num den : Nat) (e q : Int) : Nat × Nat := (num * pow2 (e - q), den * pow2 (q - e))

/-- The rounded count of quanta n/d (05 R94). -/
def roundQuanta (mode : Rnd) (n d : Nat) : Nat :=
  match mode with
  | .rne =>
    let k := n / d
    let r := n % d
    if 2 * r < d then k else if d < 2 * r then k + 1 else if k % 2 = 0 then k else k + 1
  | .rtz => n / d
  | .sto r => (n * 2 ^ 16 / d + r) / 2 ^ 16

/-- The code of infinity: ±Inf, or what a policy without infinity delivers (04 R80, 05 R96). -/
def fmtInfCode (f : Fmt) (neg : Bool) : Nat × Stat :=
  if neg && !f.sign then (fmtNanCode f, stConvSat)
  else if f.policy = .ieee then (fmtSign f neg + (2 ^ (f.e + f.m) - 2 ^ f.m), 0)
  else (fmtSign f neg + fmtMaxMag f, stConvSat)

/-- The code of a zero: −0 only where the format holds it (04 R80, 05 R98). -/
def fmtZeroCode (f : Fmt) (neg : Bool) : Nat :=
  if f.policy = .nanNegzero || !f.sub then 0 else fmtSign f neg

/-- The code of the nonzero magnitude k × 2^q, which the format's quantum at that magnitude divides. -/
def fmtPack (f : Fmt) (k : Nat) (q : Int) : Nat :=
  if f.e = 0 then k
  else if k < 2 ^ f.m then k
  else if k = 2 ^ (f.m + 1) then (q + 1 + f.m + f.bias).toNat * 2 ^ f.m
  else (q + f.m + f.bias).toNat * 2 ^ f.m + (k - 2 ^ f.m)

/-- fit for a float format: y = k × 2^q with sign `neg`; `exact` says y = x (05 R96). A negative y of a format without a sign takes
the NaN code, also below the smallest magnitude; the negative smallest magnitude of a nan-negzero format without zero, whose
pattern is the NaN code, is a free code. Log: DEDUCED 138; DESIGN CHOICE 139. -/
def fmtFit (f : Fmt) (neg : Bool) (k : Nat) (q : Int) (mode : Rnd) (exact : Bool) : Nat × Stat :=
  if k = 0 then (fmtZeroCode f neg, stIf (!f.sub) (stUnderflow ||| stInexact))
  else if neg && !f.sign then (fmtNanCode f, stConvSat)
  else if !f.sub && decide (k < 2 ^ f.m) then (0, stUnderflow ||| stInexact)
  else if Val.lt (fmtVal f (fmtMaxMag f)) (.fin false k 1 q) then
    (if f.policy = .ieee then
       (fmtSign f neg + (if mode = .rtz then fmtMaxMag f else 2 ^ (f.e + f.m) - 2 ^ f.m), stOverflow ||| stInexact)
     else (fmtSign f neg + fmtMaxMag f, stConvSat ||| stInexact))
  else
    let c := fmtPack f k q
    (if f.policy = .nanNegzero && c == 0 then (if neg then (Config.negSmallest f.e f.m f.bias).toNat % 2 ^ f.w else 0)
     else fmtSign f neg + c, stIf (!exact) stInexact)

/-- round to a float format (05 R94-R98). -/
def roundFmt (f : Fmt) (mode : Rnd) (x : Val) : Nat × Stat :=
  match x with
  | .nan => (fmtNanCode f, 0)
  | .inf s => fmtInfCode f s
  | .fin s num den e =>
    if num = 0 then (fmtZeroCode f s, 0)
    else
      let lg := floorLog2 num den + e
      let q : Int := if f.e = 0 then 1 - f.bias - f.m else max lg (fmtEmin f) - f.m
      let p := quantaOf num den e q
      let k := roundQuanta mode p.1 p.2
      let exact := decide (k * p.2 = p.1)
      let r := fmtFit f s k q mode exact
      (r.1, r.2 ||| stIf (!exact) stInexact ||| stIf (!exact && decide (lg < fmtEmin f)) stUnderflow)

/-- The bounds of an integer type (04 R74). -/
def intMin (signed : Bool) (w : Nat) : Int := if signed then -(2 ^ (w - 1) : Nat) else 0
/-- The bounds of an integer type (04 R74). -/
def intMax (signed : Bool) (w : Nat) : Int := if signed then (2 ^ (w - 1) : Nat) - 1 else (2 ^ w : Nat) - 1

/-- The w-bit pattern of an integer (00 R10). -/
def wrapN (v : Int) (w : Nat) : Nat := (v % (2 ^ w : Nat)).toNat

/-- An exact integer clamped to a type, with convert-saturate where it clamps (05 R96). -/
def clampInt (signed : Bool) (w : Nat) (v : Int) : Nat × Bool :=
  if v < intMin signed w then (wrapN (intMin signed w) w, true)
  else if intMax signed w < v then (wrapN (intMax signed w) w, true)
  else (wrapN v w, false)

/-- round to an integer type (05 R94-R96). -/
def roundInt (signed : Bool) (w : Nat) (mode : Rnd) (x : Val) : Nat × Stat :=
  match x with
  | .nan => (0, stInvalid)
  | .inf s => (wrapN (if s then intMin signed w else intMax signed w) w, stConvSat)
  | .fin s num den e =>
    if num = 0 then (0, 0)
    else
      let p := quantaOf num den e 0
      let k := roundQuanta mode p.1 p.2
      let r := clampInt signed w (if s then -(k : Int) else k)
      (r.1, stIf (decide (k * p.2 ≠ p.1)) stInexact ||| stIf r.2 (stConvSat ||| stInexact))

/-- round(x, t, mode) (05 R94). Log: DEDUCED 35. -/
def roundTo (t : ElTy) (mode : Rnd) (x : Val) : Nat × Stat :=
  match t with
  | .int s w => roundInt s w mode x
  | .flt f => roundFmt f mode x

/-- The generators of a core: the seed they were last seeded with, and the states of those advanced since; 0 stands for
a generator not advanced, whose state is that of the seed (05 R99, R100). -/
structure Gens where
  seed : Nat
  adv : Store Nat
  deriving DecidableEq, Repr

/-- The state of generator i. -/
def Gens.cur (g : Gens) (i : Nat) : Nat :=
  let v := sget 0 g.adv i
  if v = 0 then genSeeded g.seed i else v

/-- The rounding of the value of lane i in a mode code 0-2 (02 R47), drawing its generator where stochastic (05 R101). -/
def drawRnd (g : Gens) (mode i : Nat) : Rnd × Gens :=
  match mode with
  | 0 => (.rne, g)
  | 1 => (.rtz, g)
  | _ => let s := genStep (g.cur i); (.sto (s / 2 ^ 16), Gens.mk g.seed (sput 0 g.adv i s))

end Sys2Proof.Machine
end

