-- ==== Sys2Proof/Machine/VecArith.lean ====
section
/-! DEFINITION. The lane arithmetic of the va unit on captured operands (07 R134-R143), and the shape in which every
wide operation delivers its result. -/

namespace Sys2Proof.Machine

/-- What a wide operation captured at its issue cycle T (07 R133): rows a, b and d, the lane mask, the scalar operand
and the resolved rounding mode code 0-2. -/
structure WideIn where
  a : Row
  b : Row
  d : Row
  e : Mask
  sc : Word
  mode : Nat
  deriving DecidableEq, Repr

/-- What a wide operation delivers: bits of d, o0, a mask register's value, status bits, and the generators after. -/
structure WideOut where
  row : Row
  /-- The bits of d that are written. -/
  bits : Row
  o0 : Option Word
  mask : Option Mask
  st : Stat
  gens : Gens
  deriving DecidableEq, Repr

/-- The va operations (07 R134). -/
inductive VaOp where
  | add | sub | mul | fma | fms | nfma | min | max | abs | neg | and | or | xor | not | shl | shr | sar | cmp | sel
  | sum | rmax | rmin | dot4 | scale | clamp | addsat | subsat
  deriving DecidableEq, Repr

/-- Rounds the value of every selected lane, lane i drawing generator i (05 R99-R101); excluded lanes are `none`. -/
def roundLanes (t : ElTy) (mode : Nat) : Gens → Nat → List (Option (Val × Stat)) → List Nat × Stat × Gens
  | g, _, [] => ([], 0, g)
  | g, i, none :: vs =>
    let r := roundLanes t mode g (i + 1) vs
    (0 :: r.1, r.2)
  | g, i, some (v, st) :: vs =>
    let dr := drawRnd g mode i
    let c := roundTo t dr.1 v
    let r := roundLanes t mode dr.2 (i + 1) vs
    (c.1 :: r.1, c.2 ||| st ||| r.2.1, r.2.2)

/-- The status of all selected lanes together (05 R109). -/
def orStat : List (Bool × Stat) → Stat
  | [] => 0
  | (b, s) :: r => stIf b s ||| orStat r

/-- Lane by lane: mask bit, a, b and d codes. -/
def lanes4 (c : Nat) (w : WideIn) : List (Bool × Nat × Nat × Nat) :=
  (maskLanes w.e (8192 / c)).zip ((rowCodes c w.a).zip ((rowCodes c w.b).zip (rowCodes c w.d)))

/-- A row delivered in selected lanes. -/
def laneOut (c : Nat) (w : WideIn) (codes : List Nat) (st : Stat) (g : Gens) : WideOut :=
  WideOut.mk (rowOf c codes) (laneBits c (maskLanes w.e (8192 / c))) none none st g

/-- An operation that rounds once per lane: `f` gives the exact value and the status it sets itself. -/
def roundedOp (t : ElTy) (f : Val → Val → Val → Val × Stat) (w : WideIn) (g : Gens) : WideOut :=
  let vs := (lanes4 t.cont w).map (fun l =>
    if l.1 then some (f (elVal t l.2.1) (elVal t l.2.2.1) (elVal t l.2.2.2)) else none)
  let r := roundLanes t w.mode g 0 vs
  laneOut t.cont w r.1 r.2.1 r.2.2

/-- An operation that does not round: `f` gives the code and the status of a lane. -/
def codeOp (c : Nat) (f : Nat → Nat → Nat → Nat × Stat) (w : WideIn) (g : Gens) : WideOut :=
  let rs := (lanes4 c w).map (fun l => (l.1, f l.2.1 l.2.2.1 l.2.2.2))
  laneOut c w (rs.map (fun r => r.2.1)) (orStat (rs.map (fun r => (r.1, r.2.2)))) g

/-- The exact integer of a code under an integer type (07 R134, val). -/
def intVal (s : Bool) (w c : Nat) : Int := if s then sextOf c w else (c % 2 ^ w : Nat)

/-- The sum of two values (05 R103). -/
def addV (a b : Val) : Val × Stat := let r := Val.sum [a, b]; (r.1, stIf r.2 stInvalid)

/-- The product of two values (05 R103). -/
def mulV (a b : Val) : Val × Stat := let r := Val.mul a b; (r.1, stIf r.2 stInvalid)

/-- d + a × b with one exact sum; `sgn` takes the product negated (05 R103). -/
def fmaV (sgn : Bool) (a b d : Val) : Val × Stat :=
  let p := Val.mul a b
  let r := Val.sum [d, if sgn then p.1.neg else p.1]
  (if p.2 then .nan else r.1, stIf (p.2 || r.2) stInvalid)

/-- The exact integer of the six arithmetic operations (07 R135). -/
def arithInt (op : VaOp) (a b d : Int) : Int :=
  match op with
  | .add => a + b
  | .sub => a - b
  | .mul => a * b
  | .fma => d + a * b
  | .fms => d - a * b
  | _ => -(d + a * b)

/-- The exact value of the six arithmetic operations, nfma not yet negated (07 R135). -/
def arithFlt (op : VaOp) (a b d : Val) : Val × Stat :=
  match op with
  | .add => addV a b
  | .sub => addV a b.neg
  | .mul => mulV a b
  | .fms => fmaV true a b d
  | _ => fmaV false a b d

/-- A float code with its sign inverted; a NaN stays the canonical NaN (07 R135, R136). -/
def negCode (f : Fmt) (c : Nat) : Nat := if fmtIsNan f c then fmtNanCode f else c ^^^ 2 ^ (f.e + f.m)

/-- A code with NaN made canonical (04 R76). -/
def canonCode (t : ElTy) (c : Nat) : Nat :=
  match t with
  | .flt f => if fmtIsNan f c then fmtNanCode f else c
  | .int _ _ => c

/-- add, sub, mul, fma, fms and nfma (07 R135). -/
def vaArith (op : VaOp) (t : ElTy) (w : WideIn) (g : Gens) : WideOut :=
  match t with
  | .int s n => codeOp n (fun a b d => (wrapN (arithInt op (intVal s n a) (intVal s n b) (intVal s n d)) n, 0)) w g
  | .flt f =>
    let r := roundedOp (.flt f) (arithFlt op) w g
    if op = .nfma then
      WideOut.mk (rowOf f.cont ((rowCodes f.cont r.row).map (negCode f))) r.bits r.o0 r.mask r.st r.gens
    else r

/-- The lesser (or greater) of two codes: one NaN delivers the other operand, −0 orders below +0, and equal operands
deliver a (05 R103, 07 R136). -/
def minmaxCode (t : ElTy) (big : Bool) (a b : Nat) : Nat :=
  let x := elVal t a
  let y := elVal t b
  if x.isNan then canonCode t b
  else if y.isNan then a
  else if big then (if x.ltz y then b else a) else (if y.ltz x then b else a)

/-- abs (07 R136). -/
def absCode (t : ElTy) (a : Nat) : Nat :=
  match t with
  | .flt f => if fmtIsNan f a then fmtNanCode f else a % 2 ^ (f.e + f.m)
  | .int true n => wrapN (sextOf a n).natAbs n
  | .int false _ => a

/-- neg (07 R136). -/
def negLane (t : ElTy) (a : Nat) : Nat :=
  match t with
  | .flt f => negCode f a
  | .int s n => wrapN (-(intVal s n a)) n

/-- shl, shr and sar on a lane of n bits, by a count read as a natural number (07 R137). -/
def shiftLane (op : VaOp) (n a c : Nat) : Nat :=
  match op with
  | .shl => if c < n then a * 2 ^ c % 2 ^ n else 0
  | .shr => if c < n then a / 2 ^ c else 0
  | _ => wrapN (sextOf a n / (2 ^ (min c (n - 1)) : Nat)) n

/-- The condition of a compare (07 R138). -/
def cmpCond (cond : Nat) (a b : Val) : Bool :=
  match cond with
  | 0 => a.eqv b
  | 1 => !a.eqv b
  | 2 => a.lt b
  | 3 => a.lt b || a.eqv b
  | 4 => b.lt a
  | 5 => b.lt a || a.eqv b
  | _ => false

/-- cmp: a whole mask register; excluded lanes are clear (07 R138). -/
def vaCmp (t : ElTy) (w : WideIn) (g : Gens) : WideOut :=
  let bs := (lanes4 t.cont w).map (fun l => l.1 && cmpCond (bits w.sc 2 0) (elVal t l.2.1) (elVal t l.2.2.1))
  WideOut.mk 0 0 none (some (maskOf (8192 / t.cont) bs)) 0 g

/-- sel: every lane written, from a where selected and from b elsewhere (07 R139). -/
def vaSel (t : ElTy) (w : WideIn) (g : Gens) : WideOut :=
  let cs := (lanes4 t.cont w).map (fun l => canonCode t (if l.1 then l.2.1 else l.2.2.1))
  WideOut.mk (rowOf t.cont cs) (BitVec.allOnes 8192) none none 0 g

/-- The result of a reduction: lane 0 of d, zero in the other lanes, and o0 (07 R140). -/
def reduceOut (lane0 : Nat) (o0 : Word) (st : Stat) (g : Gens) : WideOut :=
  WideOut.mk (BitVec.ofNat 8192 (lane0 % 2 ^ 32)) (BitVec.allOnes 8192) (some o0) none st g

/-- The codes of the selected lanes of a. -/
def selected (c : Nat) (w : WideIn) : List Nat :=
  ((lanes4 c w).filter (fun l => l.1)).map (fun l => l.2.1)

/-- The exact sum of integers. -/
def sumInt : List Int → Int
  | [] => 0
  | v :: vs => v + sumInt vs

/-- sum (07 R140). -/
def vaSum (t : ElTy) (w : WideIn) (g : Gens) : WideOut :=
  match t with
  | .int s n =>
    let v := sumInt ((selected n w).map (intVal s n))
    reduceOut (wrapN v 32) (wrap64 v) 0 g
  | .flt f =>
    let x := Val.sum ((selected f.cont w).map (fmtVal f))
    let dr := drawRnd g w.mode 0
    let r := roundFmt fp32 dr.1 x.1
    reduceOut r.1 (BitVec.ofNat 64 r.1) (r.2 ||| stIf x.2 stInvalid) dr.2

/-- The extreme value of a list, NaN passed over; `start` where nothing else is found (07 R140). -/
def extreme (big : Bool) : Val → List Val → Val
  | acc, [] => acc
  | acc, v :: vs =>
    extreme big (if acc.isNan then v else if v.isNan then acc
      else if big then (if acc.ltz v then v else acc) else (if v.ltz acc then v else acc)) vs

/-- rmax and rmin (07 R140). -/
def vaReduce (big : Bool) (t : ElTy) (w : WideIn) (g : Gens) : WideOut :=
  match t with
  | .int s n =>
    let vs := (selected n w).map (intVal s n)
    let v := vs.foldl (fun acc x => if big then max acc x else min acc x) (if big then intMin s n else intMax s n)
    reduceOut (wrapN v 32) (wrap64 v) 0 g
  | .flt f =>
    let vs := (selected f.cont w).map (fmtVal f)
    let v := if vs.isEmpty then Val.inf big else extreme big .nan vs
    let c := (roundFmt fp32 .rne v).1
    reduceOut c (BitVec.ofNat 64 c) 0 g

/-- Groups of four values. -/
def fours {α : Type} : List α → List (List α)
  | a :: b :: c :: d :: r => [a, b, c, d] :: fours r
  | _ => []

/-- The float dot4 of one output lane: one exact sum of the addend and four products (07 R141). -/
def dot4V (d : Val) (ps : List (Val × Bool)) : Val × Stat :=
  let r := Val.sum (d :: ps.map Prod.fst)
  let inv := ps.any Prod.snd
  (if inv then .nan else r.1, stIf (inv || r.2) stInvalid)

/-- dot4: output lanes of 32 bits, masked in the 256-lane view (07 R141). -/
def vaDot4 (t : ElTy) (w : WideIn) (g : Gens) : WideOut :=
  let sel := maskLanes w.e 256
  match t with
  | .int s n =>
    let ps := fours (((rowCodes n w.a).zip (rowCodes n w.b)).map (fun p => intVal s n p.1 * intVal s n p.2))
    let cs := (ps.zip (rowCodes 32 w.d)).map (fun p => wrapN (intVal s 32 p.2 + sumInt p.1) 32)
    WideOut.mk (rowOf 32 cs) (laneBits 32 sel) none none 0 g
  | .flt f =>
    let ps := fours (((rowCodes f.cont w.a).zip (rowCodes f.cont w.b)).map (fun p => Val.mul (fmtVal f p.1) (fmtVal f p.2)))
    let vs := (sel.zip (ps.zip (rowCodes 32 w.d))).map (fun p =>
      if p.1 then some (dot4V (fmtVal fp32 p.2.2) p.2.1) else none)
    let r := roundLanes (.flt fp32) w.mode g 0 vs
    WideOut.mk (rowOf 32 r.1) (laneBits 32 (sel.take 128)) none none r.2.1 r.2.2

/-- addsat and subsat (07 R143). -/
def satCode (sub s : Bool) (n a b : Nat) : Nat × Stat :=
  let r := clampInt s n (if sub then intVal s n a - intVal s n b else intVal s n a + intVal s n b)
  (r.1, stIf r.2 stConvSat)

/-- The width and signedness of an integer type; unused by the float types. -/
def intParts : ElTy → Bool × Nat
  | .int s n => (s, n)
  | .flt f => (true, f.cont)

/-- A va operation of type t on its captured operands (07 R135-R143). Log: DEDUCED 36. -/
def vaResult (op : VaOp) (t : ElTy) (w : WideIn) (g : Gens) : WideOut :=
  let c := t.cont
  match op with
  | .add => vaArith .add t w g
  | .sub => vaArith .sub t w g
  | .mul => vaArith .mul t w g
  | .fma => vaArith .fma t w g
  | .fms => vaArith .fms t w g
  | .nfma => vaArith .nfma t w g
  | .min => codeOp c (fun a b _ => (minmaxCode t false a b, 0)) w g
  | .max => codeOp c (fun a b _ => (minmaxCode t true a b, 0)) w g
  | .abs => codeOp c (fun a _ _ => (absCode t a, 0)) w g
  | .neg => codeOp c (fun a _ _ => (negLane t a, 0)) w g
  | .and => codeOp c (fun a b _ => (a &&& b, 0)) w g
  | .or => codeOp c (fun a b _ => (a ||| b, 0)) w g
  | .xor => codeOp c (fun a b _ => (a ^^^ b, 0)) w g
  | .not => codeOp c (fun a _ _ => (2 ^ c - 1 - a, 0)) w g
  | .shl => codeOp c (fun a b _ => (shiftLane .shl c a b, 0)) w g
  | .shr => codeOp c (fun a b _ => (shiftLane .shr c a b, 0)) w g
  | .sar => codeOp c (fun a b _ => (shiftLane .sar c a b, 0)) w g
  | .cmp => vaCmp t w g
  | .sel => vaSel t w g
  | .sum => vaSum t w g
  | .rmax => vaReduce true t w g
  | .rmin => vaReduce false t w g
  | .dot4 => vaDot4 t w g
  | .scale => roundedOp t (fun a _ _ => mulV a (fmtVal fp32 (bits w.sc 31 0))) w g
  | .clamp => codeOp c (fun a b d => (minmaxCode t false (minmaxCode t true d a) b, 0)) w g
  | .addsat => codeOp c (fun a b _ => satCode false (intParts t).1 c a b) w g
  | .subsat => codeOp c (fun a b _ => satCode true (intParts t).1 c a b) w g

end Sys2Proof.Machine
end

