-- ==== Sys2Proof/Machine/VecMove.lean ====
section
/-! DEFINITION. The lane functions of the vm unit on captured operands: permutations, conversions and the element codes
of labelled lines (08 R156-R169). -/

namespace Sys2Proof.Machine

/-- perm: lane i of d receives lane j of a, j the low bits of lane i of b (08 R159). -/
def vmPermOut (t : ElTy) (w : WideIn) (g : Gens) : WideOut :=
  laneOut t.cont w ((rowCodes t.cont w.b).map (fun j => laneOf w.a t.cont (j % t.lanes))) 0 g

/-- The lane that lane i of d receives under a shuffle pattern: from b where the first part is true (08 R160). -/
def shufSrc (pat k n i : Nat) : Bool × Nat :=
  match pat with
  | 0 => (i % 2 == 1, i / 2)
  | 1 => (i % 2 == 1, n / 2 + i / 2)
  | 2 => (decide (n / 2 ≤ i), 2 * (i % (n / 2)))
  | 3 => (decide (n / 2 ≤ i), 2 * (i % (n / 2)) + 1)
  | 4 => (false, n - 1 - i)
  | 5 => (false, (i + k) % n)
  | _ => (false, k)

/-- shuf (08 R160). -/
def vmShufOut (t : ElTy) (w : WideIn) (g : Gens) : WideOut :=
  let n := t.lanes
  laneOut t.cont w ((List.range n).map (fun i =>
    let p := shufSrc (bits w.sc 3 0) (bits w.sc 15 4) n i
    laneOf (if p.1 then w.b else w.a) t.cont p.2)) 0 g

/-- Lanes of d computed by conversion: those with a value are rounded to the destination type and written (08 R161). -/
def convOut (td : ElTy) (vs : List (Option (Val × Stat))) (mode : Nat) (g : Gens) : WideOut :=
  let r := roundLanes td mode g 0 vs
  WideOut.mk (rowOf td.cont r.1) (laneBits td.cont (vs.map Option.isSome)) none none r.2.1 r.2.2

/-- The value of lane i of a row, where the mask selects it. Log: DEDUCED 35. -/
def convLane (ts : ElTy) (e : Mask) (n i : Nat) (r : Row) (j : Nat) : Option (Val × Stat) :=
  if selLane e n i then some (elVal ts (laneOf r ts.cont j), 0) else none

/-- cvt (08 R162). -/
def vmCvtOut (td ts : ElTy) (w : WideIn) (g : Gens) : WideOut :=
  let n := td.lanes
  convOut td ((List.range n).map (fun i => convLane ts w.e n i w.a i)) w.mode g

/-- pack: part p of d from a and b (08 R162). -/
def vmPackOut (td ts : ElTy) (w : WideIn) (g : Gens) : WideOut :=
  let n := ts.lanes
  let p := bits w.sc 7 5
  convOut td ((List.range td.lanes).map (fun j =>
    if j / n = 2 * p then convLane ts w.e n (j % n) w.a (j % n)
    else if j / n = 2 * p + 1 then convLane ts w.e n (j % n) w.b (j % n)
    else none)) w.mode g

/-- unpack: part p of a into d (08 R162). -/
def vmUnpackOut (td ts : ElTy) (w : WideIn) (g : Gens) : WideOut :=
  let n := td.lanes
  convOut td ((List.range n).map (fun i => convLane ts w.e n i w.a (bits w.sc 7 5 * n + i))) w.mode g

/-- elem_value of one element: code value × block scale × line scale, with the status its consumer sets: nan-scale for
a NaN scale, invalid where a zero factor meets an infinite one (04 R88, 05 R102). -/
def scaledVal (v bs ls : Val) : Val × Stat :=
  let fs := [v, bs, ls]
  let inv := fs.any Val.isZero && fs.any Val.isInf
  ((if inv then .nan else (Val.mul (Val.mul v bs).1 ls).1), stIf inv stInvalid ||| stIf (bs.isNan || ls.isNan) stNanScale)

/-- The code of value 1 in a scale format, where the format holds it (08 R166). -/
def oneCode (f : Fmt) : Option Nat :=
  let c := (roundFmt f .rne Val.one).1
  if (fmtVal f c).eqv Val.one then some c else none

/-- ceil(log2(num/den)) of a nonzero fraction. -/
def ceilLog2 (num den : Nat) : Int :=
  let l := floorLog2 num den
  if den * pow2 l = num * pow2 (-l) then l else l + 1

/-- The largest magnitude among the finite values of a block. -/
def maxAbs : List Val → Val
  | [] => Val.zero
  | v :: vs =>
    let m := maxAbs vs
    match v with
    | .fin _ n d e => if m.lt (.fin false n d e) then .fin false n d e else m
    | _ => m

/-- The E8M0 scale code chosen by block maximum (08 R166). -/
def maxScale (f : Fmt) (ls : Val) (xs : List Val) : Nat :=
  if ls.isNan then 0x7F
  else
    match maxAbs xs, (Val.mul (fmtVal f (fmtMaxMag f)) ls).1 with
    | .fin _ an ad ae, .fin _ mn md me =>
      if an = 0 then 0x7F
      else if mn = 0 then 254
      else
        let e := ceilLog2 (an * md) (ad * mn) + (ae - me)
        (127 + max (-127) (min 127 e)).toNat
    | _, _ => 0x7F

/-- Lists of n elements. -/
def chunks {α : Type} (n : Nat) : Nat → List α → List (List α)
  | 0, _ => []
  | k + 1, xs => xs.take n :: chunks n k (xs.drop n)

/-- Encodes the values of one block, element i0 first: a scale that is zero, NaN or infinite gives the NaN code and
invalid; otherwise x/(bs × ls) is rounded (08 R165, R166). -/
def encodeBlock (f : Fmt) (bs ls : Val) (mode i0 : Nat) (g : Gens) (xs : List Val) : List Nat × Stat × Gens :=
  if bs.isNan || bs.isInf || bs.isZero || ls.isNan then (xs.map (fun _ => fmtNanCode f), stInvalid, g)
  else
    let s := (Val.mul bs ls).1
    roundLanes (.flt f) mode g i0 (xs.map (fun x => some (x.divFin s, 0)))

/-- What an encode writes besides the labels: the codes of all elements, and the scale codes block by block. -/
structure EncOut where
  codes : List Nat
  scales : List Nat
  st : Stat
  gens : Gens
  deriving DecidableEq, Repr

/-- All blocks in order: `given` is the scale code of a block under smode 0 (08 R165, R166). -/
def encodeBlocks (f sf : Fmt) (smode : Nat) (ls : Val) (mode per : Nat) (given : Nat → Nat) :
    Nat → Gens → List (List Val) → EncOut
  | _, g, [] => EncOut.mk [] [] 0 g
  | j, g, xs :: rest =>
    let code := match smode with
      | 0 => given j
      | 1 => maxScale f ls xs
      | _ => (oneCode sf).getD 0
    let r := encodeBlock f (fmtVal sf code) ls mode (per * j) g xs
    let o := encodeBlocks f sf smode ls mode per given (j + 1) r.2.2 rest
    EncOut.mk (r.1 ++ o.codes) (code :: o.scales) (r.2.1 ||| o.st) o.gens

/-- The mask registers' operations (08 R169). -/
def maskCount (e : Mask) (n : Nat) : Nat := ((maskLanes e n).filter id).length

end Sys2Proof.Machine
end

