-- ==== Sys2Proof/Machine/PressArith.lean ====
section
/-! DEFINITION. The arithmetic of the press: operand formats (06 R115), terms, K-group sums and the accumulator modes
(05 R104, R105). -/

namespace Sys2Proof.Machine

/-- A press operand format: the selector of 06 R115, with the descriptor copied for selectors 11-14. -/
structure PFmt where
  sel : Nat
  desc : Nat
  deriving DecidableEq, Repr

/-- The element type of a press format (06 R115). -/
def PFmt.ty (p : PFmt) : ElTy :=
  if 11 ≤ p.sel then .flt (fmtOf p.desc) else (fixedTy p.sel).getD (.flt bf16)

/-- The selectors of 06 R115. -/
def pselOk (n : Nat) : Bool := n == 1 || n == 2 || (7 ≤ n && n ≤ 14)

/-- Integer kinds of 06 R115. -/
def PFmt.isInt (p : PFmt) : Bool := 7 ≤ p.sel && p.sel ≤ 10

/-- 16-bit formats. -/
def PFmt.is16 (p : PFmt) : Bool := p.sel == 1 || p.sel == 2

/-- Free-split formats. -/
def PFmt.isFs (p : PFmt) : Bool := 11 ≤ p.sel

/-- The significand width s of A, which fixes the timing of a pass (06 R115). -/
def PFmt.sig (p : PFmt) : Nat :=
  match p.sel with
  | 1 => 8
  | 2 => 11
  | 7 => 8
  | 8 => 8
  | 9 => 4
  | 10 => 4
  | _ => let f := fmtOf p.desc; if 1 ≤ f.e then f.m + 1 else f.w

/-- The agreement of formats and mode that a pass needs (06 R116). -/
def passTypesOk (a b : PFmt) (mode : Nat) : Bool :=
  (a.isInt && b.isInt && (mode == 3 || mode == 4)) || (!a.isInt && !b.isInt && mode ≤ 2)

/-- One element of A or B with its block scale and line scale. -/
structure Scaled where
  v : Val
  bs : Val
  ls : Val
  deriving DecidableEq, Repr

/-- term(k) with its four scales, and its status (05 R104). -/
def pressTerm (a b : Scaled) : Val × Stat :=
  let fs := [a.v, b.v, a.bs, a.ls, b.bs, b.ls]
  let inv := fs.any Val.isZero && fs.any Val.isInf
  let nanS := a.bs.isNan || a.ls.isNan || b.bs.isNan || b.ls.isNan
  let x := fs.foldl (fun acc f => (Val.mul acc f).1) Val.one
  ((if inv then .nan else x), stIf inv stInvalid ||| stIf nanS stNanScale)

/-- The sum of one K-group and its status (05 R104). -/
def groupSum (as bs : List Scaled) : Val × Stat :=
  let ts := (as.zip bs).map (fun p => pressTerm p.1 p.2)
  let r := Val.sum (ts.map Prod.fst)
  (r.1, stIf r.2 stInvalid ||| ts.foldl (fun acc t => acc ||| t.2) 0)

/-- sat: an infinity of the narrow type becomes its max finite (05 R105). -/
def pressSat (f : Fmt) (c : Nat) : Nat × Stat :=
  if fmtIsInf f c then (fmtSign f (bitOf c (f.w - 1)) + fmtMaxMag f, stAccSat) else (c, 0)

/-- The status of a press rounding: overflow is not among the bits it sets (05 R105). -/
def pressSt (s : Stat) : Stat := s &&& ~~~stOverflow

/-- One step of a float accumulator mode with narrow type f (05 R105). -/
def accFloat (f : Fmt) (acc : Nat) (s : Val) : Nat × Stat :=
  let g := roundFmt f .rne s
  let gs := if f = fp32 then (g.1, stIf (g.2 &&& stOverflow ≠ 0) stAccInf) else pressSat f g.1
  let sum := Val.sum [fmtVal fp32 acc, fmtVal f gs.1]
  let r := roundFmt f .rne sum.1
  let rs := if f = fp32 then (r.1, stIf (r.2 &&& stOverflow ≠ 0) stAccInf) else pressSat f r.1
  ((if f = fp32 then rs.1 else (roundFmt fp32 .rne (fmtVal f rs.1)).1),
   pressSt g.2 ||| gs.2 ||| stIf sum.2 stInvalid ||| pressSt r.2 ||| rs.2)

/-- One step of an integer accumulator mode (05 R105). -/
def accInt (wrapping : Bool) (acc : Nat) (s : Val) : Nat × Stat :=
  let v : Int := sextOf acc 32 + s.frac.1 / (s.frac.2 : Int)
  let out := decide (v < intMin true 32) || decide (intMax true 32 < v)
  if wrapping then (wrapN v 32, stIf out stIntWrap)
  else ((clampInt true 32 v).1, stIf out stIntSat)

/-- The accumulator modes (05 R105). -/
def accumulate (mode acc : Nat) (s : Val) : Nat × Stat :=
  match mode with
  | 0 => accFloat fp32 acc s
  | 1 => accFloat bf16 acc s
  | 2 => accFloat fp16 acc s
  | 3 => accInt true acc s
  | _ => accInt false acc s

/-- The K-groups of one output element in ascending order (05 R104). -/
def accGroups (mode : Nat) : Nat → List (List Scaled) → List (List Scaled) → Nat × Stat
  | acc, a :: as, b :: bs =>
    let s := groupSum a b
    let r := accumulate mode acc s.1
    let q := accGroups mode r.1 as bs
    (q.1, s.2 ||| r.2 ||| q.2)
  | acc, _, _ => (acc, 0)

/-- One accumulator row of a pass: the columns a mask selects, from their old codes (06 R124). `col n` is the list of
K-groups of logical column n. -/
def pressRow (mode : Nat) (sel : List Bool) (as : List (List Scaled)) (col : Nat → List (List Scaled)) :
    Nat → List Nat → List Nat × Stat
  | _, [] => ([], 0)
  | n, acc :: accs =>
    let r := if sel.getD n false then accGroups mode acc as (col n) else (acc, 0)
    let q := pressRow mode sel as col (n + 1) accs
    (r.1 :: q.1, r.2 ||| q.2)

/-- A value with its numerator odd (or zero over 2^0): one form for each value of denominator 1. -/
def Val.normFrom : Nat → Nat → Int → Nat × Int
  | 0, n, e => (n, e)
  | k + 1, n, e => if n % 2 = 0 then Val.normFrom k (n / 2) (e + 1) else (n, e)

/-- The canonical form of a decoded value. -/
def Val.norm (v : Val) : Val :=
  match v with
  | .fin s n d e =>
    if n = 0 then .fin s 0 1 0
    else let p := Val.normFrom (Nat.log2 n) n e; .fin s p.1 d p.2
  | v => v

end Sys2Proof.Machine
end

