-- ==== Sys2Proof/Machine/SpecialFn.lean ====
section
/-! DEFINITION. The ten special functions (07 R144-R147): the exact value rounded once. An irrational value is held to
about 690 binary places with its last bit set, so that it never rounds as exact or as a tie. -/

namespace Sys2Proof.Machine

/-- The sf operations, in opcode order (07 R146). -/
inductive SfOp where
  | exp2 | log2 | rcp | rsqrt | sqrt | tanh | sigm | sin | cos | erf
  deriving DecidableEq, Repr

/-- The binary places of the fixed-point values below. -/
def fxP : Nat := 700

/-- 1 in fixed point. -/
def fxOne : Int := (2 ^ fxP : Nat)

/-- A product in fixed point. -/
def fxMul (a b : Int) : Int := a * b / fxOne

/-- n terms of term·y/k + …, the exponential series from term k. -/
def fxExpSer (y : Int) : Nat → Nat → Int → Int
  | 0, _, _ => 0
  | n + 1, k, term => term + fxExpSer y n (k + 1) (fxMul term y / (k + 1 : Nat))

/-- e^y for 0 ≤ y < 1. -/
def fxExp (y : Int) : Int := fxExpSer y 200 0 fxOne

/-- n terms of t^(2k+1)/(2k+1), with sign `s` alternating when it is −1. -/
def fxOdd (t2 s : Int) : Nat → Nat → Int → Int
  | 0, _, _ => 0
  | n + 1, k, p => p / (2 * k + 1 : Nat) + fxOdd t2 s n (k + 1) (s * (fxMul p t2))

/-- ln m for 1 ≤ m < 2, as 2 atanh((m−1)/(m+1)). -/
def fxLn (m : Int) : Int :=
  let t := (m - fxOne) * fxOne / (m + fxOne)
  2 * fxOdd (fxMul t t) 1 240 0 t

/-- ln 2, as 2 atanh(1/3). -/
def fxLn2 : Int := let t := fxOne / 3; 2 * fxOdd (fxMul t t) 1 240 0 t

/-- The binary places of π. -/
def fxQ : Nat := 900

/-- n terms of the arctangent series of 1/d at fxQ places. -/
def atanInv (d2 : Int) : Nat → Nat → Int → Int
  | 0, _, _ => 0
  | n + 1, k, p => p / (2 * k + 1 : Nat) - atanInv d2 n (k + 1) (p / d2)

/-- π at fxQ places, by Machin's formula. -/
def fxPi : Int :=
  let one : Int := (2 ^ fxQ : Nat)
  16 * atanInv 25 210 0 (one / 5) - 4 * atanInv (239 * 239) 70 0 (one / 239)

/-- The largest r below 2^b more than `r` with r² ≤ n, from bit b−1 down. -/
def isqrtFrom (n : Nat) : Nat → Nat → Nat
  | 0, r => r
  | b + 1, r => let c := r + 2 ^ b; isqrtFrom n b (if c * c ≤ n then c else r)

/-- The integer square root. -/
def isqrt (n : Nat) : Nat := isqrtFrom n (Nat.log2 n / 2 + 1) 0

/-- An irrational value v/2^fxP, marked inexact by a last bit below it. -/
def fxVal (v : Int) : Val := .fin (v < 0) (2 * v.natAbs + 1) 1 (-(fxP : Int) - 1)

/-- Just below 1 in magnitude. -/
def belowOne (neg : Bool) : Val := .fin neg (2 ^ 200 - 1) 1 (-200)

/-- Below every rounding of every type. -/
def fxTiny : Val := .fin false 1 1 (-2000)

/-- A finite value in fixed point, sign applied; exact for the exponents of the three float types. -/
def toFx (num : Nat) (e : Int) : Int := ((num * pow2 (e + fxP)) / pow2 (-(e + fxP)) : Nat)

/-- e^y for y ≥ 0 in fixed point, as a fixed-point value. -/
def fxExpBig (y : Int) : Int :=
  let n := y / fxLn2
  fxExp (y - n * fxLn2) * pow2 n

/-- 2^x (07 R146). -/
def sfExp2 (s : Bool) (num : Nat) (e : Int) : Val :=
  let v := Val.fin s num 1 e
  let big := Val.fin false 2048 1 0
  if !v.lt big then .fin false 1 1 3000
  else if v.lt big.neg then fxTiny
  else
    let x := if s then -toFx num e else toFx num e
    let n := x / fxOne
    let f := x - n * fxOne
    if f = 0 then .fin false 1 1 n
    else .fin false (2 * (fxExp (fxMul f fxLn2)).toNat + 1) 1 (n - fxP - 1)

/-- log₂ x of a positive x (07 R146). -/
def sfLog2 (num : Nat) (e : Int) : Val :=
  let l := Nat.log2 num
  if num = 2 ^ l then Val.ofInt (l + e)
  else
    let m : Int := (num * 2 ^ fxP / 2 ^ l : Nat)
    fxVal ((l + e) * fxOne + fxLn m * fxOne / fxLn2)

/-- √(num × 2^e) (07 R146). -/
def sfSqrt (num : Nat) (e : Int) : Val :=
  let h := e / 2
  let n := num * pow2 (e % 2) * 2 ^ 400
  let r := isqrt n
  if r * r = n then .fin false r 1 (h - 200) else .fin false (2 * r + 1) 1 (h - 201)

/-- 1/√(num × 2^e) (07 R146). -/
def sfRsqrt (num : Nat) (e : Int) : Val :=
  let h := e / 2
  let d := num * pow2 (e % 2)
  let r := isqrt (2 ^ 800 / d)
  if r * r * d = 2 ^ 800 then .fin false r 1 (-h - 400) else .fin false (2 * r + 1) 1 (-h - 401)

/-- tanh (07 R146). -/
def sfTanh (s : Bool) (num : Nat) (e : Int) : Val :=
  if !(Val.fin false num 1 e).lt (.fin false 64 1 0) then belowOne s
  else
    let a := fxExpBig (2 * toFx num e)
    let v := fxOne - 2 * fxOne * fxOne / (a + fxOne)
    fxVal (if s then -v else v)

/-- The logistic function (07 R146). -/
def sfSigm (s : Bool) (num : Nat) (e : Int) : Val :=
  if !(Val.fin false num 1 e).lt (.fin false 200 1 0) then (if s then fxTiny else belowOne false)
  else
    let a := fxExpBig (toFx num e)
    fxVal (if s then fxOne * fxOne / (a + fxOne) else a * fxOne / (a + fxOne))

/-- n terms of a series whose term k+1 is term k times −r²/((2k+c)(2k+c+1)). -/
def fxTrig (r2 : Int) (c : Nat) : Nat → Nat → Int → Int
  | 0, _, _ => 0
  | n + 1, k, p => p + fxTrig r2 c n (k + 1) (-(fxMul p r2) / ((2 * k + c) * (2 * k + c + 1) : Nat))

/-- sin of 0 ≤ r < π/2. -/
def fxSin (r : Int) : Int := fxTrig (fxMul r r) 2 110 0 r

/-- cos of 0 ≤ r < π/2. -/
def fxCos (r : Int) : Int := fxTrig (fxMul r r) 1 110 0 fxOne

/-- sin and cos with the argument reduced modulo π/2 (07 R146). -/
def sfTrig (isCos s : Bool) (num : Nat) (e : Int) : Val :=
  let x : Int := ((num * pow2 (e + fxQ)) / pow2 (-(e + fxQ)) : Nat)
  let hp := fxPi / 2
  let q := (x / hp).toNat % 4
  let r := (x % hp) / (2 ^ (fxQ - fxP) : Nat)
  let k := (if isCos then q + 1 else q) % 4
  let v := match k with
    | 0 => fxSin r
    | 1 => fxCos r
    | 2 => -fxSin r
    | _ => -fxCos r
  fxVal (if s && !isCos then -v else v)

/-- n terms of the series of erf without its factor 2/√π: p is x^(2k+1)/k! with its sign. -/
def fxErfSer (x2 : Int) : Nat → Nat → Int → Int
  | 0, _, _ => 0
  | n + 1, k, p => p / (2 * k + 1 : Nat) + fxErfSer x2 n (k + 1) (-(fxMul p x2) / (k + 1 : Nat))

/-- erf (07 R146). -/
def sfErf (s : Bool) (num : Nat) (e : Int) : Val :=
  if !(Val.fin false num 1 e).lt (.fin false 8 1 0) then belowOne s
  else
    let x := toFx num e
    let sqrtPi : Int := isqrt (fxPi.toNat * 2 ^ (2 * fxP - fxQ))
    let v := 2 * fxErfSer (fxMul x x) 520 0 x * fxOne / sqrtPi
    fxVal (if s then -v else v)

/-- The exact value of a special function, and the status its table sets (07 R146, R147). -/
def sfVal (op : SfOp) (x : Val) : Val × Stat :=
  match x with
  | .nan => (.nan, 0)
  | .inf s =>
    match op with
    | .exp2 => (if s then Val.zero else .inf false, 0)
    | .log2 => if s then (.nan, stInvalid) else (.inf false, 0)
    | .rcp => (.fin s 0 1 0, 0)
    | .rsqrt => if s then (.nan, stInvalid) else (Val.zero, 0)
    | .sqrt => if s then (.nan, stInvalid) else (.inf false, 0)
    | .tanh => (.fin s 1 1 0, 0)
    | .sigm => (if s then Val.zero else Val.one, 0)
    | .sin => (.nan, stInvalid)
    | .cos => (.nan, stInvalid)
    | .erf => (.fin s 1 1 0, 0)
  | .fin s num den e =>
    if num = 0 then
      match op with
      | .exp2 => (Val.one, 0)
      | .log2 => (.inf true, stDivZero)
      | .rcp => (.inf s, stDivZero)
      | .rsqrt => (.inf s, stDivZero)
      | .sqrt => (.fin s 0 1 0, 0)
      | .tanh => (.fin s 0 1 0, 0)
      | .sigm => (.fin false 1 1 (-1), 0)
      | .sin => (.fin s 0 1 0, 0)
      | .cos => (Val.one, 0)
      | .erf => (.fin s 0 1 0, 0)
    else
      match op with
      | .exp2 => (sfExp2 s num e, 0)
      | .log2 => if s then (.nan, stInvalid) else (sfLog2 num e, 0)
      | .rcp => (.fin s den num (-e), 0)
      | .rsqrt => if s then (.nan, stInvalid) else (sfRsqrt num e, 0)
      | .sqrt => if s then (.nan, stInvalid) else (sfSqrt num e, 0)
      | .tanh => (sfTanh s num e, 0)
      | .sigm => (sfSigm s num e, 0)
      | .sin => (sfTrig false s num e, 0)
      | .cos => (sfTrig true s num e, 0)
      | .erf => (sfErf s num e, 0)

/-- An sf operation of float type f on its captured operands (07 R144, R146). -/
def sfResult (op : SfOp) (f : Fmt) (w : WideIn) (g : Gens) : WideOut :=
  roundedOp (.flt f) (fun a _ _ => sfVal op a) w g

end Sys2Proof.Machine
end

