-- ==== Sys2Proof/Machine/State.lean ====
section
/-! DEFINITION. The state of one A480 package as plain data: its 272 cores, its partitions, its memories, its fabric and
its management complexes, the operations in flight, and the model's own bookkeeping. Every file and memory is a sparse
Store whose unlisted keys read as the reset value named beside it. -/

namespace Sys2Proof.Machine

/-- Why a step stops. Safe: no rule of the spec lets the machine go on in these cases. -/
inductive Fault where
  /-- Raised by the step: the words of the bundle in flight are no instruction. BUNDLE_ISSUE never loads such words (02
  R59), so no run reaches it. Safe. -/
  | undecodable
  deriving DecidableEq, Repr

/-- What the model refuses. -/
inductive Refusal where
  /-- Raised by Dispatch for an instruction that has no meaning yet. Safe. -/
  | notModelled (mnemonic : String)
  deriving DecidableEq, Repr

/-- The answer of a step. -/
abbrev Ans (σ : Type) := Host.Outcome σ Fault Refusal

/-! Streams. -/

/-- An active hardware loop (15 R293-R296). -/
structure Loop where
  /-- Index of the ct.loop bundle. -/
  pcLoop : Nat
  /-- End index of the body. -/
  last : Nat
  /-- count, as lcount held it. -/
  count : Nat
  /-- Iteration index. -/
  idx : Nat
  /-- Body length in core cycles; 0 until iteration 0 ends. -/
  len : Nat
  /-- Reach cycle of the first body bundle. -/
  start : Nat
  stages : Nat
  rot : Bool
  deriving DecidableEq, Repr

/-- A call frame: return index, caller's cbase and caller's loops (15 R291). -/
structure CFrame where
  ret : Nat
  cbase : Nat
  loops : List Loop
  deriving DecidableEq, Repr

/-- What takes effect after the delay bundles (15 R290). -/
inductive Xfer where
  /-- A br not taken: the stream falls on. -/
  | fall
  | jump
  | call
  | ret
  /-- The return of sy.tret (18 R359). -/
  | tret
  deriving DecidableEq, Repr

/-- Pending control transfer: delay bundles still to issue, target, kind (15 R290). -/
structure Delay where
  cnt : Nat
  tgt : Nat
  kind : Xfer
  deriving DecidableEq, Repr

/-- Why a butty stream is halted (19 R373, 18 R358). -/
inductive Why where
  | fault | trap | brk
  deriving DecidableEq, Repr

/-- What a stream is doing. -/
inductive Status where
  /-- No program: before a task, after its stop, or a stream the task does not have. -/
  | idle
  /-- Armed for its start tick (14 R266). -/
  | armed
  | run
  /-- Motor: waiting at a lock (14 R278). -/
  | locked
  /-- Butty: joined the next lock (14 R277). -/
  | joined
  /-- Butty: waiting on a flag (11 R214). -/
  | fwait
  /-- Halted by a fault, trap or stop of the named status code (19 R373). -/
  | halted (why : Why) (code : Nat)
  | ended
  deriving DecidableEq, Repr

/-- A stream: motor or butty (15 R302). -/
structure Stream where
  st : Status
  /-- Index of the next bundle to issue. -/
  pc : Nat
  delay : Option Delay
  /-- Innermost frame first; at most eight. -/
  frames : List CFrame
  /-- Innermost loop first; at most four. -/
  loops : List Loop
  lcount : Word
  cbase : Nat
  /-- The next bundle is the first of a callee and sets cbase (14 R272). -/
  newCall : Bool
  /-- The tick before which the stream issues nothing (02 R37). -/
  nextAt : Nat
  /-- The record of the sy.ecall whose reply the stream waits for (18 R358); it waits whatever else it is doing. -/
  call : Option Nat
  deriving DecidableEq, Repr

/-- An idle stream. -/
def Stream.init : Stream := Stream.mk .idle 0 none [] [] 0 0 false 0 none

/-- A butty fwait (11 R214). -/
structure FWait where
  flag : Nat
  cond : Nat
  v : Nat
  /-- First boundary evaluated. -/
  start : Nat
  /-- Last boundary evaluated; none without a limit. -/
  limit : Option Nat
  deriving DecidableEq, Repr

/-! Capabilities. -/

/-- A capability: 128 bits and the hidden tag (17 R324). -/
structure Cap where
  bits : BitVec 128
  tag : Bool
  deriving DecidableEq, Repr

/-- All bits zero, tag clear. -/
def Cap.null : Cap := Cap.mk 0 false

/-- A hand-table entry (17 R338). -/
structure HandEnt where
  valid : Bool
  transit : Bool
  first : Nat
  lines : Nat
  holder : Nat
  deriving DecidableEq, Repr

/-- An unoccupied entry. -/
def HandEnt.free : HandEnt := HandEnt.mk false false 0 0 0

/-- A guard on source bytes of this core's scratchpad (11 R205): the engine of `core`, its rack or send id. -/
structure Guard where
  core : Nat
  /-- True for a rack or a seal, false for a send. -/
  isRack : Bool
  id : Nat
  start : Nat
  len : Nat
  deriving DecidableEq, Repr

/-! Stores, loads and the other accesses in flight. -/

/-- Who stores: an ls store, which the forwarding table serves (10 R185); a vm store; a vm.push, whose bytes a later pop
receives at once (08 R168). -/
inductive StoreKind where
  | ls | vm | push
  deriving DecidableEq, Repr

/-- A write to a scratchpad, held by the core that owns it: bytes with the bits written, labels of lines, and granules
whose tag is set; the tags of every other granule touched are cleared (17 R327). -/
structure StoreW where
  issuer : Nat
  kind : StoreKind
  /-- Address, value, bits written. -/
  cells : List (Nat × Byte × Byte)
  /-- Line number, label. -/
  labels : List (Nat × BitVec 16)
  /-- Granule numbers whose tag is set. -/
  tagSet : List Nat
  deriving DecidableEq, Repr

/-- The ls loads (11 R201, 17 R333). -/
inductive LsLoad where
  | data (size : Nat) (signed : Bool)
  | label
  | cap (cd : Nat)
  deriving DecidableEq, Repr

/-- The conversions of vm (08 R162). -/
inductive ConvOp where
  | cvt | pack | unpack
  deriving DecidableEq, Repr

/-- A labelled line as decode and the press interpret it at T (06 R120, 08 R164): byte offset, format descriptor (0 for
raw), line scale, offset of its scale slot, scale format, grain. -/
structure LineMeta where
  off : Nat
  desc : Nat
  ls : Val
  slot : Option Nat
  sfmt : Fmt
  grain : Nat
  deriving DecidableEq, Repr

/-- A vm.encode captured at T (08 R165). -/
structure EncJob where
  issuer : Nat
  ty : ElTy
  a : Row
  b : Row
  mode : Nat
  fmt : Fmt
  sfmt : Fmt
  grain : Nat
  smode : Nat
  lscale : Nat
  fidx : Nat
  off : Nat
  /-- Scale slots, one per line; none where no scale bytes are written. -/
  slots : Option Nat
  deriving DecidableEq, Repr

/-- A pass captured at T (06 R124). -/
structure PassJob where
  tile : Nat
  cask : Nat
  kc : Nat
  sel : List Bool
  fa : PFmt
  fb : PFmt
  mode : Nat
  zeroFirst : Bool
  /-- The lines of the row, with their labels as read at T. -/
  lines : List LineMeta
  row : Nat
  due : Nat
  deriving DecidableEq, Repr

/-- A column of a cask load captured at T (06 R121). -/
structure ColJob where
  cask : Nat
  col : Nat
  kc : Nat
  fb : PFmt
  lines : List LineMeta
  deriving DecidableEq, Repr

/-- The plain flag operations and ftest (11 R212, R213). -/
inductive FlagOp where
  | fset | fadd | fcas | fget | fclr
  | ftest (phys : Nat) (cond : Nat)
  deriving DecidableEq, Repr

/-- An operation an untimed engine starts at the end of its issue cycle. -/
structure RackJob where
  /-- Opcode 0-5, 9, 10 (12 R223). -/
  op : Nat
  /-- i0-i7 as issued. -/
  ports : List Word
  /-- The trigger operand: the length, or the offset of a rel or acq. -/
  len : Nat
  /-- Source, destination, index-list and further replica capabilities as they stood at T: scap, dcap, cap2, cap3, cap4. -/
  caps : List Cap
  flag : Nat
  inc : Nat
  /-- SCALEMAP of the scratchpad side's owner at issue (12 R224). -/
  scalemap : Word
  deriving DecidableEq, Repr

/-- A rack id (12 R226-R230). -/
structure Rack where
  /-- 0 never used; 1 queued; 2 running; 3 waiting on a fault reply; 4 frozen; 5 ended (12 R230). -/
  state : Nat
  outcome : Nat
  astat : BitVec 4
  left : Nat
  job : RackJob
  /-- Bytes of its work done. -/
  pos : Nat
  /-- The source read so far, with its labels, where the ranges overlap and it is copied before the first write (12 R229). -/
  buf : Option (List Byte)
  labs : List Nat
  /-- The entries of the index list, once the engine has read them: all of them at one boundary (11 R208, 12 R229). -/
  list : Option (List Nat)
  /-- The source line, by the memory it lies in and its number there, that the last part read and did not use up (10 R193, 11 R208).
  -/
  blk : Option ((Nat × Nat) × List Byte)
  /-- Host tokens debited for the part to come (16 R311). -/
  paid : Nat
  /-- Issue order among the engine's racks. -/
  seq : Nat
  cancel : Bool
  /-- The faulting virtual address while state is 3. -/
  va : Nat
  /-- The boundary of its last write (10 R190). -/
  wtick : Nat
  deriving DecidableEq, Repr

/-- A rack job of no operation. -/
def RackJob.none : RackJob := RackJob.mk 0 [] 0 [] 0 0 0

/-- A rack id never used. -/
def Rack.none : Rack := Rack.mk 0 0 0 0 RackJob.none 0 Option.none [] Option.none Option.none 0 0 false 0 0

/-- A rack as it is accepted: queued, with all its work to do. -/
def Rack.queued (j : RackJob) (left seq : Nat) : Rack :=
  { Rack.none with state := 1, left := left, job := j, seq := seq }

/-- An address monitor (12 R233). -/
structure Monitor where
  /-- 0 free; 1 translating; 2 waiting on a fault reply; 3 armed; 4 its line written, so that it fires. -/
  state : Nat
  space : Nat
  /-- Virtual address of the line, and its physical or guest-physical address once armed. -/
  va : Nat
  pa : Nat
  flag : Nat
  inc : Nat
  /-- The capability register, the offset and the flag's index, as issued (16 R315). -/
  capReg : Nat
  off : Nat
  idx : Nat
  /-- The capability addresses memory without translation (12 R236). -/
  direct : Bool
  /-- The partition whose line it is, and the boundary of the write that makes it fire. -/
  part : Nat
  wtick : Nat
  /-- Its place in the issue order of the engine's racks (12 R233). -/
  seq : Nat
  deriving DecidableEq, Repr

/-- A free monitor. -/
def Monitor.free : Monitor := Monitor.mk 0 0 0 0 0 0 0 0 0 false 0 0 0

/-- What an outstanding send has done (13 R256-R258). -/
inductive SendSt where
  | booked
  /-- Some of it spilled and waits for a later slot (13 R251). -/
  | spilled
  | departed
  /-- A loop-back whose lines have landed; its receipt returns at the next boundary (13 R257, R263). -/
  | landed
  deriving DecidableEq, Repr

/-- An outstanding send of a core (13 R256). -/
structure Send where
  entry : Nat
  slot : Nat
  port : Nat
  /-- The intermediate of a sendr. -/
  via : Option Nat
  loopback : Bool
  off : Nat
  len : Nat
  flits : Nat
  /-- First flit number in the slot, over all partitions' bookings. -/
  first : Nat
  part : Nat
  st : SendSt
  late : Bool
  /-- Flits that lost their place and still have to depart. -/
  tail : Nat
  /-- Flits that have departed in the slot booked. -/
  gone : Nat
  /-- SCALEMAP of the core at issue (12 R224). -/
  scalemap : Word
  /-- The source bytes, and the labels and scales that go with them, once the engine has read them (13 R256). -/
  src : List Byte
  labs : List (BitVec 16)
  scales : List Byte
  /-- The credit that it took of its intermediate has returned (13 R258). -/
  relayed : Bool
  issue : Nat
  seq : Nat
  /-- Key phase at departure. -/
  phase : Nat
  /-- The flits as they departed, sealed under the stream key (13 R256); empty before, and for a loop-back. -/
  wire : List Byte
  deriving DecidableEq, Repr

/-- An outstanding fence (13 R259): the send sequence numbers it still waits for. -/
structure Fence where
  flag : Nat
  inc : Nat
  waits : List Nat
  since : Nat
  deriving DecidableEq, Repr

/-- A system operation (18 R361). -/
structure SysOp where
  /-- Opcode 6-12. -/
  op : Nat
  trig : Word
  ports : List Word
  /-- acap, rcap, fcap and xcap as they stood at T. -/
  acap : Cap
  rcap : Cap
  xcap : Cap
  flag : Nat
  inc : Nat
  issue : Nat
  /-- The first tick of T+2 (18 R363). -/
  ready : Nat
  part : Nat
  /-- A keyrot: 0 outstanding, 1 promoted, 2 rotated, 3 turned away. An fbind: bit 0 the peer's evidence accepted, bit 1 accepted
  by the peer, bit 2 bound, bit 3 rejected, bit 4 the peer's request received, bit 5 the peer's bottle key received. -/
  stage : Nat
  /-- The status settled before the end (detail, value). -/
  aux : Nat
  /-- An fbind's nonce, and the peer's nonce and ephemeral key (18 R366). -/
  nonce : List Byte
  peerNonce : List Byte
  ephemeral : List Byte
  /-- The options of the peer's record. -/
  peerOpts : Nat
  /-- Racks that its core had issued before it (10 R192). -/
  seq : Nat
  /-- The transcript of an fbind exchange so far, and the messages this side has sent (18 R366). -/
  data : List Byte
  sent : List (List Byte)
  deriving DecidableEq, Repr

/-- A garrive on its way to being recorded (11 R219), and the stream, bundle and slot that issued it. -/
structure Garr where
  group : Nat
  flag : Nat
  due : Nat
  motor : Bool
  bundle : Nat
  slot : Nat
  deriving DecidableEq, Repr

/-- A flag condition of a lock (15 R298). -/
structure Cond where
  flag : Nat
  code : Nat
  v : Nat
  deriving DecidableEq, Repr

/-- A member's arrival at a lock (14 R278, R281): group, conditions, arrival boundary, patience of the reach entry, the time
under holds that had passed by the arrival, and the bundle and slot of the ct.lock. -/
structure LockWait where
  group : Nat
  conds : List Cond
  since : Nat
  patience : Nat
  held : Nat
  bundle : Nat
  slot : Nat
  deriving DecidableEq, Repr

/-- What takes effect at a boundary. -/
inductive Act where
  /- Writes of moves, at the end of cycle T (02 R51). -/
  | x (n : Nat) (v : Word)
  | pred (phys : Nat) (v : Bool)
  | lcount (motor : Bool) (v : Word)
  | rotb (v : Nat)
  | sbbase (v : Nat)
  | sblen (v : Nat)
  | sbreset
  | push (q : Nat) (v : Word)
  /- Bundle-end effects (02 R38). -/
  | pop (q : Nat)
  | rotate
  | stage (ps : List (Nat × Bool))
  /- Unit results. -/
  | out (port : Nat) (v : Word)
  /-- The word of pr.busy as the motor stream or an earlier bundle left it in cycle T (06 R127). -/
  | busyWord (v : Word)
  | rpred (phys : Nat) (v : Bool)
  | vrow (phys : Nat) (row bits : Row)
  | mrow (n : Nat) (row bits : Row)
  | emask (n : Nat) (m : Mask)
  | freg (n : Nat) (v : Word)
  | cap (n : Nat) (c : Cap)
  | untag (n : Nat)
  | va (op : VaOp) (ty : ElTy) (w : WideIn) (d : Nat)
  | sf (op : SfOp) (ty : Fmt) (w : WideIn) (d : Nat)
  | conv (op : ConvOp) (td ts : ElTy) (w : WideIn) (d : Nat)
  | decoded (td : ElTy) (vs : List (Option (Val × Stat))) (mode : Nat) (d : Nat)
  | accRow (n : Nat) (row : Row) (st : Stat)
  | ring (head fill : Nat)
  | lend (t : Nat) (on : Bool)
  | pmode (m : Nat)
  | pfmt (a b : PFmt)
  | zeroTile (t : Nat)
  /- Writes and flag operations that perform at a boundary (10 R183). -/
  | store (w : StoreW)
  | encode (j : EncJob)
  | flagOp (op : FlagOp) (f : Nat) (a b : Nat)
  | csr (num : Nat) (kind : CsrKind) (v : Word)
  | csrRead (num : Nat)
  | handDone (owner slot : Nat) (h : Nat)
  /- Reads that perform at a boundary. -/
  | readLs (owner addr : Nat) (k : LsLoad)
  | readRow (owner addr : Nat) (bits : Row) (d : Nat)
  | readIdx (owner : Nat) (addrs : List (Option Nat)) (size : Nat) (d : Nat)
  | readDec (owner : Nat) (lines : List LineMeta) (fmt : Fmt) (td : ElTy) (sel : List Bool) (mode d : Nat)
  | readPass (j : PassJob)
  | readCols (js : List ColJob)
  /- Starts of untimed work at the end of T. -/
  | rackStart (id : Nat) (j : RackJob)
  | rackCancel (id : Nat)
  | monStart (id : Nat) (m : Monitor)
  | sendStart (id : Nat) (s : Send)
  | fenceStart (f : Fence)
  | sysStart (o : SysOp)
  | garrive (g : Garr)
  | gcast (group idx add : Nat)
  | lockArrive (group : Nat)
  /- The end of an arrival or a system operation, one boundary after its last write (10 R190): the increment of a flag of this
  core, and the return of a loop-back receipt. -/
  | flagInc (f n : Nat)
  | sendEnd (id status : Nat)
  deriving DecidableEq, Repr

/-- An access or a result in flight: the boundary at which it takes effect, the cycle and order of its issue, and what it
does. -/
structure Pend where
  due : Nat
  issue : Nat
  seq : Nat
  act : Act
  deriving DecidableEq, Repr

/-- What a control operation of the bundle in flight asks for at its end. -/
inductive Ctl where
  | none
  | xfer (d : Delay)
  | loop (l : Loop) (n : Nat)
  | lock (w : LockWait)
  | join
  | endtask
  | trap (code slot : Nat)
  | ecall (code : Nat) (arg flags : Word)
  | tret
  | halt
  deriving DecidableEq, Repr

/-- The bundle in flight: words of the moves still to take effect, and what its end does (02 R38). -/
structure Latch where
  live : Bool
  words : List Slot
  /-- Slot numbers of the instructions that `words` still holds, and of the one just taken. -/
  slots : List Nat
  slot : Nat
  motor : Bool
  pc : Nat
  idle : Nat
  pops : Nat
  rot : Bool
  /-- What a ct operation of the bundle asks for, and what a sy operation of it does. -/
  ctl : Ctl
  sys : Ctl
  /-- Busy bits the bundle's operations set, seen from the end of the bundle on. -/
  busy : List (Nat × Nat)
  deriving DecidableEq, Repr

/-- No bundle in flight. -/
def Latch.empty : Latch := Latch.mk false [] [] 0 false 0 0 0 false .none .none []

/-- The resources of the motor bundle that issued at a tick (02 R55). -/
structure Resources where
  tick : Nat
  slots : Nat
  units : Nat
  dests : List Nat
  queues : Nat
  rot : Bool
  deriving DecidableEq, Repr

/-- Bytes and labels that timed writers wrote at a boundary: the first writer's value stands (10 R187). -/
structure Fresh where
  tick : Nat
  bits : Store Byte
  labels : Store Bool
  /-- Lines the racking-and-arrival port wrote at it (10 R188), and lines that engines read at it (10 R182). -/
  port : List Nat
  read : List Nat
  deriving DecidableEq, Repr

/-! A core. -/

/-- The register files of a core (01 R15). -/
structure Regs where
  x : Store Word
  /-- Physical predicates p1-p7, by bit; p0 reads true (08 R148). -/
  p : BitVec 8
  c : Store Cap
  f : Store Word
  e : Store Mask
  q : Store (List Word)
  /-- Physical registers v0-v15 (08 R148). -/
  v : Store Row
  /-- Bit k set: physical vk is dead (08 R149). -/
  dead : BitVec 16
  m : Store Row
  rotb : Nat
  /-- Input port k of unit u at 14u + k. -/
  inp : Store Word
  /-- Output port k of unit u at 4u + k. -/
  out : Store Word
  deriving DecidableEq, Repr

/-- The stream buffer (08 R167). -/
structure SBuf where
  base : Nat
  len : Nat
  head : Nat
  fill : Nat
  deriving DecidableEq, Repr

/-- The press (06 R112-R119). -/
structure Press where
  fa : PFmt
  fb : PFmt
  mode : Nat
  lent : BitVec 8
  /-- Cask q, row k, byte column n at 65536q + 256k + n. -/
  codes : Store Byte
  /-- Cask q, byte column n, octet j at 8192q + 32n + j; unlisted entries are 1. -/
  bsc : Store Val
  lsc : Store Val
  deriving DecidableEq, Repr

/-- TEPC (18 R359), with the kind of the pending transfer, which the return takes up as if the handler had not run. -/
structure Tepc where
  inside : Bool
  dcnt : Nat
  dtgt : Nat
  ret : Nat
  kind : Xfer
  deriving DecidableEq, Repr

/-- The per-core control registers (17 R322). -/
structure CoreCsr where
  seed : BitVec 32
  drnd : BitVec 2
  astat : Stat
  scalemap : Word
  gmemb : Word
  wsel : Nat
  tvec : Nat
  tepc : Tepc
  deriving DecidableEq, Repr

/-- The stores of a core (01 R16, R25): its scratchpad, or keeper SRAM or private SRAM, with labels by line and tags by
granule, and its bundle memory as bytes. Log: DESIGN CHOICE 9. -/
structure CMem where
  sp : Store Byte
  labels : Store (BitVec 16)
  tags : Store Bool
  bundles : Store Byte
  flags : Store (BitVec 32)
  deriving DecidableEq, Repr

/-- A trap, fault or ecall record in a firmware core's trap queue (18 R358). -/
structure TrapRec where
  id : Nat
  code : Nat
  arg : Word
  motor : Bool
  bundle : Nat
  core : Nat
  /-- True for a sy.ecall record, which a reply answers. -/
  isCall : Bool
  /-- Reply flag and increment, where valid. -/
  reply : Option (Nat × Nat)
  deriving DecidableEq, Repr

/-- A core: tile core, keeper core or control core. -/
structure Core where
  regs : Regs
  mem : CMem
  sbuf : SBuf
  press : Press
  csr : CoreCsr
  gens : Gens
  motor : Stream
  butty : Stream
  /-- Locks passed since launch, and the tick the reach began (02 R41). -/
  reachix : Nat
  reachtick : Nat
  lock : Option LockWait
  fwait : Option FWait
  latch : Latch
  mres : Resources
  pend : List Pend
  seq : Nat
  /-- Status bits set at the boundary `statTick` (05 R109). -/
  statTick : Nat
  statBits : Stat
  /-- Busy resources and the tick each frees (06 R117, 07 R145): tiles 0-7, cask loads 8-11, cask uses 12-15, A path 16,
  sf lane array 17. -/
  busy : Store Nat
  fresh : Fresh
  hand : Store HandEnt
  guards : List Guard
  racks : Store Rack
  rackSeq : Nat
  mons : Store Monitor
  sends : Store (Option Send)
  sendSeq : Nat
  fences : List Fence
  sysops : List SysOp
  garr : List Garr
  /-- Outstanding motor ecall replies and their flags (14 R283). -/
  calls : List TrapRec
  traps : List TrapRec
  /-- Increments of this core's casts on their way: member, flag index, addend, boundary before which they do not land
  (11 R220). -/
  casts : List (Nat × Nat × Nat × Nat)
  /-- First-level TLB: newest first (12 R237): space, page key, entry. -/
  tlb : List (Nat × Nat × Nat)
  halted : Bool
  deriving DecidableEq, Repr

/-! Timetables and partitions. -/

/-- A reach-table entry (03 R70). -/
structure Reach where
  first : Nat
  len : Nat
  patience : Nat
  deriving DecidableEq, Repr

/-- A task of the running timetable (03 R68). -/
structure Task where
  core : Nat
  motorEntry : Nat
  buttyEntry : Option Nat
  groups : List Nat
  offset : Nat
  start : Nat
  reaches : List Reach
  deriving DecidableEq, Repr

/-- A group-table entry (11 R216). Maps are bit sets over core ids; `named` holds each garrive member's flag. -/
structure Group where
  num : Nat
  members : Nat
  arrived : Nat
  mode : Nat
  gen : BitVec 32
  patience : Nat
  map : Nat
  arrivals : Nat
  named : Store Nat
  /-- The re-base tick of a lock that has opened; 0 for none (14 R280). -/
  rebase : Nat
  deriving DecidableEq, Repr

/-- A command entry as taken from a launch queue (16 R305). -/
structure Cmd where
  queue : Nat
  op : Nat
  seq : Nat
  image : Nat
  start : Nat
  compl : Nat
  cookie : Word
  deriving DecidableEq, Repr

/-- A keeper hold (14 R284): why, since when. -/
structure Hold where
  why : HoldReason
  since : Nat
  deriving DecidableEq, Repr

/-- The timetable that holds a partition. -/
structure Timetable where
  cmd : Cmd
  cls : Nat
  pace : Nat
  /-- Every task's segments are loaded and the cores are armed. -/
  armed : Bool
  t0 : Nat
  tasks : List Task
  groups : List Group
  featureMask : Nat
  windows : Nat
  hold : Option Hold
  /-- Ticks spent under holds that have been released; a lock's deadline grows by those since its arrivals (14 R281). -/
  held : Nat
  /-- A group 0 lock that timed out and is held for pre-emption (14 R282). -/
  timedOut : Bool
  /-- First boundaries at which the DRY_LOCK proofs that hold have held, each with its group (14 R283). -/
  dry : List (Nat × Nat)
  /-- First stopping event: tick, core, motor, status (19 R374). -/
  stop : Option (Nat × Nat × Bool × Nat)
  /-- The stop has reached it: every stream is halted and what runs on has to end (19 R374). -/
  stopped : Bool
  timeouts : Nat
  poisoned : Bool
  /-- Group increments still to land: first boundary, core, flag, amount. -/
  incs : List (Nat × Nat × Nat × Nat)
  /-- The last step of 16 R314 that has ended; 0 where no pre-emption is under way. -/
  pre : Nat
  /-- Arrivals that the port holds from step 2 on, in arrival order (16 R314). -/
  heldArr : List Transfer
  deriving DecidableEq, Repr

/-- A suspended context (16 R314-R316): its slot's timetable, when and why it was suspended, its state. -/
structure Ctx where
  tt : Timetable
  tick : Nat
  byTimeout : Bool
  eligible : Bool
  /-- Journal entries per core: core, target, reply, address, tick (16 R315). -/
  journal : List (Nat × Nat × Word × Nat × Nat)
  /-- The cores at their saving; their frames' contents take precedence at restore. -/
  cores : List (Nat × Core)
  /-- System operations that run on, with their core. -/
  sysops : List (Nat × SysOp)
  deriving DecidableEq, Repr

/-- A launch queue (16 R303). -/
structure Queue where
  base : Nat
  size : Nat
  cls : Nat
  enable : Bool
  tail : BitVec 16
  head : BitVec 16
  err : Nat
  /-- The pending-kick bit (19 R376). -/
  kick : Bool
  deriving DecidableEq, Repr

/-- A disabled queue. -/
def Queue.init : Queue := Queue.mk 0 0 0 false 0 0 0 false

/-- A token meter: allot and debtcap as configured, debt and balance (16 R310). -/
structure Meter where
  debtcap : Nat
  allot : Nat
  debt : Nat
  balance : Nat
  deriving DecidableEq, Repr

/-- The states of a TDISP interface (18 R354). -/
inductive Tdi where
  | unlocked | locked | run | error
  deriving DecidableEq, Repr

/-- The three slots of a key stream (18 R346): the vintage each holds, 0 for empty, and its key. -/
structure Keys where
  active : Nat
  pending : Nat
  retiring : Nat
  activeKey : List Byte
  pendingKey : List Byte
  retiringKey : List Byte
  deriving DecidableEq, Repr

/-- No key held. -/
def Keys.none : Keys := Keys.mk 0 0 0 [] [] []

/-- The first key of a stream, at vintage 1 (18 R347). -/
def Keys.first (key : List Byte) : Keys := Keys.mk 1 0 0 key [] []

/-- A binding of sy.fbind (18 R366): peer position and partition, its window base, the layby credit left of what the peer
granted, that grant, what this package granted the peer, and the streams of what it sends and receives. -/
structure Binding where
  handle : Nat
  peer : Nat
  part : Nat
  wbase : Nat
  credit : Nat
  granted : Nat
  given : Nat
  keys : Keys
  recv : Keys
  deriving DecidableEq, Repr

/-- A fault record in the keeper's fault queue (12 R237). -/
structure PageFault where
  core : Nat
  mon : Bool
  idx : Nat
  kind : Nat
  space : Nat
  va : Nat
  wr : Bool
  /-- The context slot it belongs to; none for the running timetable. -/
  ctx : Option Nat
  deriving DecidableEq, Repr

/-- A page under migration (12 R238). -/
structure Migration where
  va : Nat
  frame : Nat
  /-- 1 mig set; 2 copied; 3 rounds; 4 frozen. -/
  phase : Nat
  /-- Rewritten-line bitmap, 1024 bits. -/
  marked : Nat
  rounds : Nat
  deriving DecidableEq, Repr

/-- The metadata of a cellar line beside its data (18 R341). The mac field is held as its difference from the MAC of the line's
contents: 0 where it checks, all ones where the line is poisoned. Log: DEDUCED 65. -/
structure LineMd where
  label : BitVec 16
  minor : BitVec 7
  phase : Bool
  macDiff : BitVec 40
  deriving DecidableEq, Repr

/-- The metadata of a scrubbed line. Log: DESIGN CHOICE 69. -/
def LineMd.init : LineMd := LineMd.mk 0 0 false 0

/-- The line is poisoned: its mac field is the inverted MAC (18 R341). -/
def LineMd.poison (m : LineMd) : Bool := m.macDiff == BitVec.allOnes 40

/-- A page evicted to host memory (19 R382): its version, and the lines it held, sealed so that only they can return.
Log: DEDUCED 104. -/
structure Evicted where
  version : Nat
  bytes : Store Byte
  labels : Store (BitVec 16)
  /-- The lines that failed their check. -/
  bad : List Nat
  /-- Where the sealed copy lies in host memory, and its bytes. -/
  at_ : Nat
  copy : List Byte
  /-- The command of the context whose page it is. -/
  owner : Option Cmd
  deriving DecidableEq, Repr

/-- A keeper bottle in progress (20 R390). -/
structure BottleJob where
  entry : Nat
  off : Nat
  half : Nat
  areaOff : Nat
  shards : List (List Byte)
  deriving DecidableEq, Repr

/-- The bottle that a partition opened last (20 R395): the digest and step of its manifest, and its shard entries. It is open while
BOTSTAT.open is set. -/
structure OpenBottle where
  manifest : List Byte
  step : Nat
  entries : List (List Byte)
  deriving DecidableEq, Repr

/-- A bottle key received from a bound peer (18 R366). -/
structure PeerKey where
  pos : Nat
  part : Nat
  vintage : Nat
  key : List Byte
  deriving DecidableEq, Repr

/-- What a towpath complex has in custody for a partition (01 R24, 18 R352, 19 R379): the partition's seed, which a tenant secret sets,
and the bottle keys received from bound peers. -/
structure Custody where
  seed : Option (List Byte)
  peerKeys : List PeerKey
  deriving DecidableEq, Repr

/-- Nothing in custody. -/
def Custody.none : Custody := Custody.mk Option.none []

/-- The per-partition control registers and policy (17 R322). -/
structure PartCsr where
  reachlim : Nat
  lpatience : Nat
  /-- PREEMPT (16 R312). -/
  rdelay : Nat
  retries : Nat
  tmo : Bool
  prio : Bool
  ctxbase : Word
  taskcap : BitVec 3
  dbgctl : Bool
  croot : Word
  hroot : Word
  tlbPage : Nat
  tlbScope : Nat
  tlbBusy : Bool
  cfMask : BitVec 5
  cfScrubbed : Bool
  cfRefused : Bool
  fwinCount : Nat
  fwinBase : Nat
  fshare : Store Nat
  keepCount : BitVec 32
  /-- Basins whose active keeper core has stopped, with the tick h of its stop (19 R377). -/
  keepDown : List (Nat × Nat)
  /-- Basins without a shadow keeper core that is ready (19 R377). -/
  keepAlone : List Nat
  botcfg : Word
  bothost : Word
  botStep : BitVec 32
  botCount : Nat
  botOpen : Bool
  botArea : Bool
  botValid : Bool
  bottling : Bool
  botWarn : Bool
  deriving DecidableEq, Repr

/-- A partition (01 R20, R21). -/
structure Partition where
  basins : List Nat
  csr : PartCsr
  tdi : Tdi
  /-- The CXL IDE key of the VF, set up through IDE_KM (18 R340, R353). -/
  ide : Option (List Byte)
  /-- What complex A and complex B have in custody for it. -/
  custA : Custody
  custB : Custody
  cellarKeys : Keys
  ucieKeys : List Keys
  bottleKeys : Keys
  bindings : List Binding
  fmts : Store (BitVec 32)
  host : Meter
  layby : Meter
  queues : Store Queue
  lastClass : List Nat
  tt : Option Timetable
  ctxs : Store (Option Ctx)
  faultq : List PageFault
  migr : Option Migration
  /-- Evicted pages by physical address, and the last version used (19 R382). -/
  evicted : Store (Option Evicted)
  evictVer : Nat
  bottle : Option BottleJob
  openB : Option OpenBottle
  lastBottle : Option Nat
  /-- The walkers of a promotion, one for each stack of the partition in its order: the blocks of the stack each has passed (18
  R349); empty where there is no walk. -/
  walk : List Nat
  rewritten : Nat
  /-- Sequence number of the next journal entry; the journal itself is a ring in keeper SRAM (19 R375). -/
  jseq : Nat
  /-- Journal entries that the keeper's firmware has committed with stores of its own, behind which the journal has gone on (24 R407). -/
  soft : List Nat
  /-- The SPDM session in which the partition's tenant secret came (18 R362). -/
  session : Option Nat
  /-- Host tokens debited for keeper traffic still to come (16 R311). -/
  prepaid : Nat
  /-- The acceptance tick of the last FLR of its VF (19 R381). -/
  flrAt : Option Nat
  /-- A selection in hand: the command taken but not yet armed. -/
  taken : Option Cmd
  /-- Completions held during a take-over, in arrival order: command, class and detail (19 R377). -/
  heldItems : List (Cmd × Nat × Nat)
  /-- Completions of a scrub that wait for their host tokens, in order (16 R310, R311). -/
  owed : List (Cmd × Nat × Nat)
  /-- A suspended context that the keeper has selected and not yet restored (16 R307). -/
  chosen : Option Nat
  /-- The partition whose context has been re-placed onto this partition's tiles and runs there (16 R316). -/
  lent : Option Nat
  deriving DecidableEq, Repr

/-! The package. -/

/-- An event record (19 R370). -/
structure Rec where
  tick : Nat
  seq : BitVec 32
  code : Nat
  reason : Nat
  flags : Nat
  bundle : Nat
  slot : Nat
  part : Nat
  detail : Nat
  deriving DecidableEq, Repr

/-- A source's log: its next sequence number and its records, newest first, at most 256 (19 R371).
Log: DESIGN CHOICE 117. -/
structure Log where
  next : BitVec 32
  recs : List Rec
  deriving DecidableEq, Repr

/-- An empty log. -/
def Log.empty : Log := Log.mk 0 []

/-- A fabric port (13 R247, R248). -/
structure Port where
  state : Nat
  lerr : BitVec 32
  fallbacks : BitVec 16
  /-- First slot in which it carries again after a fall (13 R247). -/
  resumeSlot : Nat
  /-- Last slot in which its beacon failed (13 R246). -/
  deadSlot : Option Nat
  /-- It has fallen and has not been back in state 4 since (13 R247). -/
  fell : Bool
  deriving DecidableEq, Repr

/-- A port that is down. -/
def Port.down : Port := Port.mk 0 0 0 0 none false

/-- A booking of flits: partition and flits, per port and slot (13 R250). -/
structure Booking where
  port : Nat
  slot : Nat
  part : Nat
  core : Nat
  send : Nat
  flits : Nat
  /-- Its send has ended; it keeps its flits until its slot has passed (13 R250). -/
  done : Bool
  deriving DecidableEq, Repr

/-- Status of a window-table entry (13 R261). -/
structure WStat where
  fail : Bool
  late : Bool
  astat : BitVec 4
  last : Nat
  count : BitVec 16
  deriving DecidableEq, Repr

/-- A status since launch with nothing recorded. -/
def WStat.init : WStat := WStat.mk false false 0 0 0

/-- The cellar of the package: bytes by 39-bit physical address, metadata by line, majors by 4 KiB block. -/
structure Cellar where
  bytes : Store Byte
  md : Store LineMd
  /-- By block, without what the scrubs of its whole stack have added (18 R343, R355). -/
  major : Store Nat
  /-- Counters of the counter trees (18 R342): counter n of level L of stack s at (8s + L)·2^21 + n. -/
  tree : Store Nat
  /-- Per stack: the times it has been scrubbed whole, each of which advances every major and its path (18 R355, R365). -/
  scrubs : Store Nat
  /-- Ranges of lines beneath a failed node of a tree, that nothing has written since: first line and count (18 R345). -/
  struck : List (Nat × Nat)
  /-- Per stack: written since it was last scrubbed (01 R20). -/
  dirty : BitVec 8
  /-- Per stack: available, and 12 Gb/s (12 R242). -/
  up : BitVec 8
  fast : BitVec 8
  /-- CACT, unit u of stack s at 64s + u. -/
  cact : Store (BitVec 32)
  deriving DecidableEq, Repr

/-- A towpath complex (01 R24). -/
inductive Complex where
  | active | standby | inReset | failed
  deriving DecidableEq, Repr

/-- An SPDM session (18 R353). -/
structure Session where
  id : Nat
  established : Bool
  epoch : Nat
  secret : List Byte
  deriving DecidableEq, Repr

/-- The SPDM responder (18 R353). -/
structure Spdm where
  version : Bool
  caps : Bool
  algs : List Nat
  sessions : List Session
  /-- The last response sent. -/
  reply : List Byte
  deriving DecidableEq, Repr

/-- Counts of the health monitor in this window (20 R386). -/
structure Health where
  ce : Store Nat
  lane : Store Nat
  droop : Store Nat
  /-- The junction temperature last reported of each basin, °C. -/
  temp : Store Nat
  /-- Sources whose warning this window has raised, by source kind and index. -/
  raised : Store Bool
  windowEnd : Nat
  deriving DecidableEq, Repr

/-- HTHRESH (20 R387). -/
structure Hthresh where
  ce : Nat
  lane : Nat
  droop : Nat
  temp : Nat
  deriving DecidableEq, Repr

/-- The towpath state table written every 1 ms (19 R379, R380): its version, the partitions with their registers, the servo state, the
SPDM sessions, the counter, and the position of every log. -/
structure TableCopy where
  tick : Nat
  version : Nat
  counter : Nat
  sessions : List Session
  terr : Nat
  tstate : Nat
  parts : List (Nat × List Nat × PartCsr)
  logs : Store (BitVec 32)
  deriving DecidableEq, Repr

/-- The towpath complexes and what they keep (01 R24, 19 R379-R383). -/
structure Towpath where
  a : Complex
  b : Complex
  table : Option TableCopy
  /-- Counter record of the boot flash. -/
  counter : Nat
  staged : Option Firmware
  /-- The image of the boot flash's active bank, and the image that each complex runs (19 R379). -/
  flash : Firmware
  runA : Firmware
  runB : Firmware
  /-- The tick at which the active complex halted, where the standby has not taken over yet (19 R380). -/
  downAt : Option Nat
  /-- The keeper image that both keeper cores of a basin are loaded with (01 R25). -/
  keeper : Firmware
  minSecver : Nat
  spdm : Spdm
  terr : Nat
  tstate : Nat
  /-- TAI nanoseconds at tick 0 of the servo's mapping. -/
  taiBase : Nat
  /-- Tick of the last PPS edge sampled (01 R27). -/
  pps : Nat
  bootNonce : Nat
  deriving DecidableEq, Repr

/-- The image that the active complex runs. -/
def Towpath.running (t : Towpath) : Firmware := if t.b = .active then t.runB else t.runA

/-- A transfer lying over in this package's layby (13 R258). -/
structure LayItem where
  tr : Transfer
  /-- Its arrival slot. -/
  slot : Nat
  /-- Flits that have still to depart. -/
  left : Nat
  /-- Its offset in the layby's area of the cellar. -/
  at_ : Nat
  deriving DecidableEq, Repr

/-- A receipt for a peer's transfer that waits for a slot matched to its sender (13 R263): the sender's position, core and send
id, and the status. -/
structure Receipt where
  dst : Nat
  core : Nat
  send : Nat
  status : Nat
  /-- The boundary of the landing's last write, or of the refusal. -/
  since : Nat
  deriving DecidableEq, Repr

/-- A path on which a late transfer has landed (13 R251): sender, core, destination and route, and the departure tick of the last
transfer that this package held behind it. -/
structure LatePath where
  src : Nat
  core : Nat
  dst : Nat
  via : Option Nat
  upTo : Nat
  deriving DecidableEq, Repr

/-- The state of one package. -/
structure State where
  /-- The time base (01 R18). -/
  tick : Nat
  /-- By core id; an unlisted core is Core.init. -/
  cores : Store Core
  parts : Store (Option Partition)
  /-- Package position in the pod (01 R11). -/
  position : Nat
  /-- Positions absent from the pod, as a bit set (13 R244). -/
  absent : Nat
  host : Store (Store Byte)
  cellar : Cellar
  ports : Store Port
  forigin : Word
  bookings : List Booking
  windows : Store Byte
  wstat : Store WStat
  layby : List LayItem
  receipts : List Receipt
  latePaths : List LatePath
  /-- Arrivals that a port has received and that no pre-emption holds any more, in arrival order (16 R314, 19 R374). -/
  backlog : List Transfer
  /-- The layby capacity in flits, fixed when the package joins a pod (16 R310). -/
  laybyCap : Nat
  logs : Store Log
  /-- Cluster TLBs (12 R237): cluster, then partition, space, page key, entry. -/
  ctlb : Store (List (Nat × Nat × Nat × Nat))
  towpath : Towpath
  hthresh : Hthresh
  health : Health
  svc : Word
  /-- Tile cores marked unavailable, and basins stopped by a thermal trip, as bit sets. -/
  unavail : Nat
  tripped : Nat
  /-- Islands under a power limit. -/
  limited : Nat
  /-- The operating point of each island: 0 idle, clock stopped; else twice the pace, plus 1 at the bottom of its voltage
  band (01 R29, R30). -/
  islands : Store Nat
  /-- The host lines of the coherence cache, newest first: partition and line (01 R26). -/
  coh : List (Nat × Nat)
  /-- The cellar lines that engines have read at the boundary of a tick (10 R182). -/
  cellReads : Nat × List Nat
  /-- The host lines that they have read at it, by partition. -/
  hostReads : Nat × List (Nat × Nat)
  /-- The board holds the package in reset. -/
  inReset : Bool
  /-- Next identity of a trap record. -/
  nextRec : Nat
  /-- The tick of the next token-period boundary (16 R310). -/
  budgetAt : Nat
  /-- Custody escrow: partition seeds both complexes reach (19 R380). -/
  escrow : Store (List Byte)
  /- The model's own fields. -/
  /-- The core whose bundle is in flight. -/
  cur : Nat
  /-- Events still to come from outside and from untimed engines, with the tick each lands on. -/
  agenda : List (Nat × Instr)
  /-- How many free values have been taken. -/
  freeCtr : Nat
  deriving DecidableEq, Repr

/-! Reset. -/

/-- The register files at task start and at cold reset (14 R267). Log: DESIGN CHOICE 8. -/
def Regs.init : Regs :=
  { x := [], p := 0, c := [], f := [], e := [], q := [], v := [], dead := 0, m := [], rotb := 0, inp := [], out := [] }

/-- The press at task start (06 R113, R114). Log: DESIGN CHOICE 8. -/
def Press.init : Press :=
  { fa := PFmt.mk 1 0, fb := PFmt.mk 1 0, mode := 0, lent := 0, codes := [], bsc := [], lsc := [] }

/-- The per-core control registers at reset. -/
def CoreCsr.init : CoreCsr :=
  { seed := 0, drnd := 0, astat := 0, scalemap := 0, gmemb := 0, wsel := 0, tvec := 0, tepc := Tepc.mk false 0 0 0 .jump }

/-- A core with nothing loaded. Log: DESIGN CHOICE 8, 12. -/
def Core.init : Core :=
  { regs := Regs.init
    mem := CMem.mk [] [] [] [] []
    sbuf := SBuf.mk 0 0 0 0
    press := Press.init
    csr := CoreCsr.init
    gens := Gens.mk 0 []
    motor := Stream.init
    butty := Stream.init
    reachix := 0
    reachtick := 0
    lock := none
    fwait := none
    latch := Latch.empty
    mres := Resources.mk 0 0 0 [] 0 false
    pend := []
    seq := 0
    statTick := 0
    statBits := 0
    busy := []
    fresh := Fresh.mk 0 [] [] [] []
    hand := []
    guards := []
    racks := []
    rackSeq := 0
    mons := []
    sends := []
    sendSeq := 0
    fences := []
    sysops := []
    garr := []
    calls := []
    traps := []
    casts := []
    tlb := []
    halted := false }

/-- The per-partition registers at reset (17 R322 and the maps it names). -/
def PartCsr.init : PartCsr :=
  { reachlim := 3000000, lpatience := 3000000, rdelay := 300000, retries := 4, tmo := true, prio := true
    ctxbase := 0, taskcap := 7, dbgctl := false, croot := 0, hroot := 0, tlbPage := 0, tlbScope := 0, tlbBusy := false
    cfMask := 6, cfScrubbed := true, cfRefused := false, fwinCount := 0, fwinBase := 0, fshare := []
    keepCount := 0, keepDown := [], keepAlone := [], botcfg := 0x6400, bothost := 0, botStep := 0
    botCount := 0, botOpen := false, botArea := false, botValid := false, bottling := false, botWarn := false }

/-- A partition as it is created (01 R20). -/
def Partition.init (basins : List Nat) : Partition :=
  { basins := basins, csr := PartCsr.init, tdi := .unlocked, ide := none, custA := Custody.none, custB := Custody.none, cellarKeys := Keys.none
    ucieKeys := [], bottleKeys := Keys.none, bindings := [], fmts := [], host := Meter.mk 0 0 0 0
    layby := Meter.mk 0 0 0 0, queues := [], lastClass := [15, 15, 15], tt := none, ctxs := [], faultq := []
    migr := none, evicted := [], evictVer := 0, bottle := none, openB := none, lastBottle := none, walk := [], rewritten := 0
    jseq := 0, soft := [], session := none, prepaid := 0, flrAt := none, taken := none, heldItems := [], owed := [], chosen := none, lent := none }

/-- The capability of 17 R329 with the given fields, tag set and kind 0. -/
def Cap.make (space perm holder len base : Nat) : Cap :=
  Cap.mk (BitVec.ofNat 128 (space * 2 ^ 124 + perm * 2 ^ 116 + holder * 2 ^ 112 + len * 2 ^ 48 + base)) true

/-- The capabilities of a keeper or control core after reset (17 R329, second table): `len` is the size of its own SRAM. -/
def firmwareCaps (len : Nat) : Store Cap :=
  [(0, Cap.make 0 0x87 8 len 0), (1, Cap.make 2 0x83 8 4096 0), (2, Cap.make 3 0xF7 8 (2 ^ 39) 0),
   (3, Cap.make 4 0xC3 8 (2 ^ 48) 0)]

/-- A keeper or control core with its capabilities, its stream idle (01 R25). -/
def Core.firmware (len : Nat) : Core := { Core.init with regs := { Regs.init with c := firmwareCaps len } }

/-- A control core at bundle index 0 of its running butty stream (01 R25). -/
def Core.started (c : Core) : Core := { c with butty := { Stream.init with st := .run } }

/-- The cores that differ from Core.init at cold reset: keeper cores wait for a partition; the control cores of both
complexes run their firmware from index 0 (01 R24, R25). The 256 tile cores are unlisted: idle, with nothing loaded.
Log: DESIGN CHOICE 13. -/
def resetCores : Store Core :=
  (List.range 8).map (fun i => (256 + i, Core.firmware (2 ^ 20))) ++
  (List.range 4).map (fun i => (264 + i, (Core.firmware (2 ^ 23)).started)) ++
  (List.range 4).map (fun i => (268 + i, (Core.firmware (2 ^ 23)).started))

/-- Firmware of no measurement. Log: DESIGN CHOICE 13. -/
def Firmware.init : Firmware := Firmware.mk [] 0 0 []

/-- The towpath after a cold reset in which complex A verified (01 R24). Log: DESIGN CHOICE 13. -/
def Towpath.init : Towpath :=
  { a := .active, b := .standby, table := none, counter := 0, staged := none, flash := Firmware.init, runA := Firmware.init
    runB := Firmware.init, downAt := none, keeper := Firmware.init, minSecver := 0
    spdm := Spdm.mk false false [] [] [], terr := 0xFFFF, tstate := 0, taiBase := 0, pps := 0, bootNonce := 0 }

/-- The package right after cold reset: time base 0, no partition, every stack up and scrubbed, every port down.
Log: DESIGN CHOICE 1, 11, 12. -/
def State.reset : State :=
  { tick := 0
    cores := resetCores
    parts := []
    position := 0
    absent := 0
    host := []
    cellar := Cellar.mk [] [] [] [] [] [] 0 0xFF 0 []
    ports := []
    forigin := 0
    bookings := []
    windows := []
    wstat := []
    layby := []
    receipts := []
    latePaths := []
    backlog := []
    laybyCap := 0xFFFFF
    logs := []
    ctlb := []
    towpath := Towpath.init
    hthresh := Hthresh.mk 64 1024 16 95
    health := Health.mk [] [] [] [] [] 3000000000
    svc := 0
    unavail := 0
    tripped := 0
    limited := 0
    islands := []
    coh := []
    cellReads := (0, [])
    hostReads := (0, [])
    inReset := false
    nextRec := 1
    budgetAt := 300000
    escrow := []
    cur := 0
    agenda := []
    freeCtr := 0 }

end Sys2Proof.Machine
end

