-- ==== Sys2Proof/Machine/Ops.lean ====
section
/-! DEFINITION. The named operations over the state that every family shares: cores, partitions and clocks; what is
scheduled for a boundary; records and logs; and taking a fault or a trap and returning from one (18 R358-R360, 19 R370-R374,
R377). -/

namespace Sys2Proof.Machine

/-! Cores, partitions, clocks. -/

/-- A core of the package. -/
def State.core (s : State) (c : Nat) : Core := sget Core.init s.cores c

/-- Replaces a core. -/
def State.setCore (s : State) (c : Nat) (k : Core) : State := { s with cores := sput Core.init s.cores c k }

/-- Changes a core. -/
def State.modCore (s : State) (c : Nat) (f : Core → Core) : State := s.setCore c (f (s.core c))

/-- A partition, where it is configured. -/
def State.part (s : State) (n : Nat) : Option Partition := sget none s.parts n

/-- Replaces a partition. -/
def State.setPart (s : State) (n : Nat) (p : Partition) : State := { s with parts := sput none s.parts n (some p) }

/-- Changes a partition, where it is configured. -/
def State.modPart (s : State) (n : Nat) (f : Partition → Partition) : State :=
  match s.part n with
  | some p => s.setPart n (f p)
  | none => s

/-- Tile cores (01 R11). -/
def isTile (c : Nat) : Bool := c < 256

/-- Keeper cores (09 R181). -/
def isKeeper (c : Nat) : Bool := 256 ≤ c && c < 264

/-- Control cores (09 R181). -/
def isControl (c : Nat) : Bool := 264 ≤ c && c < 272

/-- The basin of a tile or keeper core; complexes A and B lie on basins 0 and 3 (01 R13). -/
def basinOf (c : Nat) : Nat :=
  if c < 256 then c / 64 else if c < 264 then (c - 256) / 2 else if c < 268 then 0 else 3

/-- The clocks of a tile or keeper core have stopped with those of its basin; the complexes that lie on basins 0 and 3 run on (01 R31).
Log: DESIGN CHOICE 122. -/
def State.clockOff (s : State) (c : Nat) : Bool := c < 264 && bitOf s.tripped (basinOf c)

/-- The partition that holds a basin, 0 where none does (01 R21). -/
def State.partOfBasin (s : State) (b : Nat) : Nat :=
  match s.parts.find? (fun p => match p.2 with | some q => q.basins.contains b | none => false) with
  | some p => p.1
  | none => 0

/-- The partition whose work a core does: that of its basin, or for a tile the one whose context has been re-placed onto it
(16 R316, R317). Log: DEDUCED 88. -/
def State.workPart (s : State) (c : Nat) : Nat :=
  let n := s.partOfBasin (basinOf c)
  if isTile c then ((s.part n).bind (fun p => p.lent)).getD n else n

/-- The partition id a core reads: towpath cores read 0 (09 R181). -/
def State.partId (s : State) (c : Nat) : Nat := if isControl c then 0 else s.workPart c

/-- The partition whose per-partition registers a core sees: WSEL names it for a control core (17 R321, R323). -/
def State.viewPart (s : State) (c : Nat) : Nat :=
  if isControl c then (if 1 ≤ (s.core c).csr.wsel && (s.core c).csr.wsel ≤ 4 then (s.core c).csr.wsel else 0)
  else s.workPart c

/-- The running timetable of a tile core's partition that has a task on it. -/
def State.timetable (s : State) (c : Nat) : Option Timetable :=
  if isTile c then
    match s.part (s.workPart c) with
    | some p => p.tt
    | none => none
  else none

/-- The pace of a core: that of its timetable, 1 in the butty-only profile (01 R19, 02 R41). -/
def State.pace (s : State) (c : Nat) : Nat :=
  match s.timetable c with
  | some t => t.pace
  | none => 1

/-- The boundary n core cycles after the present one (10 R182). -/
def State.after (s : State) (c n : Nat) : Nat := s.tick + n * s.pace c

/-- The reach cycle of the present core cycle (14 R270). -/
def State.rcyc (s : State) (c : Nat) : Nat := (s.tick - (s.core c).reachtick) / s.pace c

/-- The mode of a core: 0 task, 1 keeper, 2 towpath (17 R320). -/
def modeOf (c : Nat) : Nat := if c < 256 then 0 else if c < 264 then 1 else 2

/-- The active keeper core of a basin: the one of the pair that is not halted, core 0 first (01 R25). -/
def State.activeKeeper (s : State) (b : Nat) : Nat :=
  if (s.core (256 + 2 * b)).butty.st = .idle || (s.core (256 + 2 * b)).halted then
    (if (s.core (257 + 2 * b)).butty.st = .idle || (s.core (257 + 2 * b)).halted then 256 + 2 * b else 257 + 2 * b)
  else 256 + 2 * b

/-! Scheduling. -/

/-- Adds an action for a later boundary, in issue order. -/
def Core.schedule (k : Core) (due issue : Nat) (a : Act) : Core :=
  { k with pend := k.pend ++ [Pend.mk due issue k.seq a], seq := k.seq + 1 }

/-- Schedules an action of core c, held by core `holder`, n core cycles of c from now. -/
def State.scheduleAt (s : State) (holder due : Nat) (a : Act) : State :=
  s.modCore holder (fun k => k.schedule due s.tick a)

/-- Schedules an action of core c, n core cycles from now. -/
def State.schedule (s : State) (c n : Nat) (a : Act) : State := s.scheduleAt c (s.after c n) a

/-- Schedules several actions of core c for one boundary. -/
def State.scheduleAll (s : State) (c n : Nat) : List Act → State
  | [] => s
  | a :: as => (s.schedule c n a).scheduleAll c n as

/-- Output port k of unit u (02 R41). -/
def outPort (u k : Nat) : Nat := 4 * u + k

/-- Input port k of unit u of a core (02 R42). -/
def Core.inp (k : Core) (u i : Nat) : Word := sget 0 k.regs.inp (14 * u + i)

/-- The physical number of vn (08 R148). -/
def physV (rotb n : Nat) : Nat := if n < 8 then n else 8 + (n - 8 + 8 - rotb % 8) % 8

/-- The physical number of pk (08 R148). -/
def physP (rotb k : Nat) : Nat := if k < 4 then k else 4 + (k - 4 + 4 - rotb % 4) % 4

/-- Predicate pk: p0 reads true (01 R15). -/
def Core.pred (k : Core) (n : Nat) : Bool := n == 0 || k.regs.p.getLsbD (physP k.regs.rotb n)

/-- Register xn: x0 reads 0 (01 R15). -/
def Core.x (k : Core) (n : Nat) : Word := if n = 0 then 0 else sget 0 k.regs.x n

/-- Mask register en: e0 reads all lanes (07 R131). -/
def Core.mask (k : Core) (n : Nat) : Mask := if n = 0 then BitVec.allOnes 2048 else sget 0 k.regs.e n

/-- Vector register vn through the rotation base (07 R133). -/
def Core.vreg (k : Core) (n : Nat) : Row := sget 0 k.regs.v (physV k.regs.rotb n)

/-- Capability register cn. -/
def Core.capReg (k : Core) (n : Nat) : Cap := sget Cap.null k.regs.c n

/-- Format register fn. -/
def Core.freg (k : Core) (n : Nat) : Word := sget 0 k.regs.f n

/-- Flag n of the core's array. -/
def Core.flag (k : Core) (n : Nat) : BitVec 32 := sget 0 k.mem.flags n

/-- Writes a flag. -/
def Core.setFlag (k : Core) (n : Nat) (v : BitVec 32) : Core :=
  { k with mem := { k.mem with flags := sput 0 k.mem.flags n v } }

/-- Changes every listed core, which keeps the store canonical. -/
def State.mapCores (s : State) (f : Nat → Core → Core) : State :=
  { s with cores := s.cores.foldl (fun m q => sput Core.init m q.1 (f q.1 (s.core q.1))) s.cores }

/-- Adds to a flag, modulo 2^32: an engine increment (10 R189). -/
def State.addFlag (s : State) (c f n : Nat) : State :=
  s.modCore c (fun k => k.setFlag f (k.flag f + BitVec.ofNat 32 n))

/-- True while a resource is busy at a tick (06 R117). -/
def Core.isBusy (k : Core) (r tick : Nat) : Bool := decide (tick < sget 0 k.busy r)

/-! Records and logs. -/

/-- Appends a record to a source's log: the ring keeps 256 (19 R370, R371). -/
def Log.add (l : Log) (tick code reason flags bundle slot part detail : Nat) : Log :=
  Log.mk (l.next + 1) ((Rec.mk tick l.next code reason flags bundle slot part detail :: l.recs).take 256)

/-- Logs a record of a source. Log: DESIGN CHOICE 117. -/
def State.log (s : State) (source code reason flags bundle slot part detail : Nat) : State :=
  let l := (sget Log.empty s.logs source).add s.tick code reason flags bundle slot part detail
  { s with logs := sput Log.empty s.logs source l }

/-- What a reader sees of a source's log, newest record first: `reader` is the partition whose keeper, or whose tenant over MCTP on
its VF, reads the records that name it; with none the towpath complex or the operator reads them all (19 R372). -/
def State.readLog (s : State) (reader : Option Nat) (source : Nat) : List Rec :=
  let recs := (sget Log.empty s.logs source).recs
  match reader with
  | some part => recs.filter (fun r => part != 0 && r.part == part)
  | none => recs

/-- The log source of a core (19 R371). -/
def coreSource (c : Nat) : Nat := if c < 256 then c else if c < 264 then 0x228 + (c - 256) else 0x230 + (c - 264)

/-- The log source of a core's racking engine (19 R371). Log: DEDUCED 62. -/
def engineSource (c : Nat) : Nat := 0x100 + c

/-! Status codes (19 R368). -/

def stFormat : Nat := 1
def stSource : Nat := 2
def stDest : Nat := 3
def stOperation : Nat := 4
def stPrivilege : Nat := 5
def stRegister : Nat := 6
def stType : Nat := 7
def stTiming : Nat := 8
def stAccess : Nat := 9
def stCap : Nat := 10
def stRace : Nat := 11
def stLabel : Nat := 12
def stScale : Nat := 13
def stPress : Nat := 14
def stVector : Nat := 15
def stFlag : Nat := 16
def stGroup : Nat := 17
def stRack : Nat := 18
def stFabric : Nat := 19
def stControl : Nat := 20
def stSystem : Nat := 21
def stTaskTrap : Nat := 32
def stDebugStop : Nat := 33
def stLockTimeout : Nat := 34
def stDryLock : Nat := 35
def stThermal : Nat := 36
def stTdiError : Nat := 37
def stKeeperReset : Nat := 38
def stPartReset : Nat := 39
def stFlr : Nat := 40
def stCtxPoisoned : Nat := 41
def stTtInvalid : Nat := 64
def stRateClass : Nat := 65
def stGroupInvalid : Nat := 66
def stWindowInvalid : Nat := 67
def stPowerLimited : Nat := 68
def stStackUnavail : Nat := 69
def stTimeUnlocked : Nat := 70
def stLaunchLate : Nat := 71
def stImageUnreadable : Nat := 72
def stTdiNotRun : Nat := 73
def stFeature : Nat := 74
def stFrameInvalid : Nat := 75
def stReduced : Nat := 76
def stPartBusy : Nat := 96
def stMigrBlocked : Nat := 97
def stRestoreStep : Nat := 98
def stCmdRejected : Nat := 99
def stUpdRefused : Nat := 100
def evPeerMismatch : Nat := 128
def evFenceDrop : Nat := 129
def evFallback : Nat := 130
def evIntegrity : Nat := 131
def evInputVoltage : Nat := 132
def evKeeperTakeover : Nat := 133
def evTowpathTakeover : Nat := 134
def evNotifyDropped : Nat := 135
def evWarning : Nat := 136
def evForigin : Nat := 137
def evBootFailover : Nat := 138

/-! What a fault stops. -/

/-- True when a stopping event comes before another: tick, then core id, then motor before butty (19 R374). -/
def stopBefore (a b : Nat × Nat × Bool × Nat) : Bool :=
  a.1 < b.1 || (a.1 == b.1 && (a.2.1 < b.2.1 || (a.2.1 == b.2.1 && a.2.2.1 && !b.2.2.1)))

/-- Records a stopping event: the first one stands (19 R374). -/
def Timetable.addStop (t : Timetable) (e : Nat × Nat × Bool × Nat) : Timetable :=
  match t.stop with
  | none => { t with stop := some e }
  | some f => if stopBefore e f then { t with stop := some e } else t

/-- A stopping event of a partition's timetable (19 R374). -/
def State.stopTimetable (s : State) (part core : Nat) (motor : Bool) (status : Nat) : State :=
  s.modPart part (fun p => { p with tt := p.tt.map (fun t => t.addStop (s.tick, core, motor, status)) })

/-- Ticks a timetable has spent under holds up to now (14 R281). -/
def Timetable.holdTime (t : Timetable) (tick : Nat) : Nat :=
  t.held + (match t.hold with
    | some h => tick - h.since
    | none => 0)

/-- Places a record in a firmware core's trap queue (18 R358). -/
def State.trapTo (s : State) (target : Nat) (r : TrapRec) : State :=
  { s.modCore target (fun k => { k with traps := k.traps ++ [{ r with id := s.nextRec }] }) with nextRec := s.nextRec + 1 }

/-- The control core that receives records addressed to the active towpath complex: core 0 of it. -/
def State.towpathCore (s : State) : Nat := if s.towpath.b = .active then 268 else 264

/-- The tick at which the active keeper core of a basin stopped, where it has. -/
def PartCsr.downAt (r : PartCsr) (b : Nat) : Option Nat := (r.keepDown.find? (fun x => x.1 == b)).map (fun x => x.2)

/-- A take-over hold is in place at the keeper of a basin: its active core has stopped, and its shadow takes over (19 R377). -/
def PartCsr.holdAt (r : PartCsr) (b : Nat) : Bool := (r.downAt b).isSome && !r.keepAlone.contains b

/-- The keeper that leads the partition, that of its lowest basin, is being taken over (01 R23, 19 R377). -/
def Partition.holding (p : Partition) : Bool := p.csr.holdAt (p.basins.headD 0)

/-- The hold of a basin's keeper has ended; its pair has a shadow or it has none. -/
def PartCsr.upAgain (r : PartCsr) (b : Nat) (shadow : Bool) : PartCsr :=
  { r with
    keepDown := r.keepDown.filter (fun x => x.1 != b)
    keepAlone := r.keepAlone.filter (fun x => x != b) ++ (if shadow then [] else [b]) }

/-- Offset of the journal ring in keeper SRAM: 0x4_0000 to 0x7_FFFF (19 R375, as the keeper firmware of 24 R407 lays it).
Log: DEDUCED 118. -/
def journalBase : Nat := 0x40000

/-- The offset of the entry with a sequence number: a ring of 4096 entries of 64 bytes (19 R375). -/
def journalAt (jseq : Nat) : Nat := journalBase + 64 * (jseq % 4096)

/-- A field of the entry with a sequence number: offset and bytes. -/
def Core.entry (k : Core) (n off len : Nat) : Nat := readNat k.mem.sp (journalAt n + off) len

/-- The entry with a sequence number stands in the ring, committed: its op is one that is written, and its last word equals its first,
whoever has stored it (19 R375, 24 R407). Log: DEDUCED 118. -/
def Core.committed (k : Core) (n : Nat) : Bool := 1 ≤ k.entry n 8 1 && k.entry n 8 1 ≤ 13 && k.entry n 0 8 == n && k.entry n 0x38 8 == n

/-- The first sequence number from n on whose entry is not committed. -/
def Core.firstOpen (k : Core) : Nat → Nat → Nat
  | 0, n => n
  | fuel + 1, n => if k.committed n then k.firstOpen fuel (n + 1) else n

/-- The sequence number that the next journal entry of a partition takes: the entries that its keeper's firmware has committed with
stores of its own stand before it. -/
def State.nextEntry (s : State) (p : Partition) : Nat := (s.core (256 + 2 * p.basins.headD 0)).firstOpen 4096 p.jseq

/-- The sequence numbers of the entries that the firmware has committed since the last entry of a partition. -/
def State.softEntries (s : State) (p : Partition) : List Nat :=
  (List.range (s.nextEntry p - p.jseq)).map (fun i => p.jseq + i)

/-- The active keeper of a basin stops at tick h, at a bundle: the core halts, the take-over hold begins where a shadow is ready,
and KEEPER_TAKEOVER is logged, its detail the sequence number the next journal entry will take (19 R370, R377; 24 R407). Without
a shadow the keeper waits for a reset. Log: DEDUCED 137. -/
def State.keeperDown (s : State) (c bundle : Nat) : State :=
  let part := s.partOfBasin (basinOf c)
  let s := s.modCore c (fun k => { k with halted := true })
  let s := s.log (coreSource c) evKeeperTakeover 0 2 bundle 0 part (match s.part part with
    | some p => s.nextEntry p
    | none => 0)
  let b := basinOf c
  let h := s.tick
  s.modPart part (fun p => { p with csr := { p.csr with keepDown := p.csr.keepDown.filter (fun x => x.1 != b) ++ [(b, h)] } })

/-- A complex fails with one of its control cores; where it was the active one, the standby takes over, within the 10 ms for which its
heartbeat is missed (19 R373, R380). -/
def State.complexDown (s : State) (c : Nat) : State :=
  let s := s.modCore c (fun k => { k with halted := true })
  let t := s.towpath
  if c < 268 then { s with towpath := { t with a := .failed, downAt := if t.a = .active then some s.tick else t.downAt } }
  else { s with towpath := { t with b := .failed, downAt := if t.b = .active then some s.tick else t.downAt } }

/-- The complex of a control core. -/
def State.complexOf (s : State) (c : Nat) : Complex := if c < 268 then s.towpath.a else s.towpath.b

/-- A control core of a complex that has failed or is held in reset: it issues nothing (01 R24, 19 R380). -/
def State.complexOut (s : State) (c : Nat) : Bool := isControl c && (s.complexOf c == .failed || s.complexOf c == .inReset)

/-- Changes the stream a latch belongs to. -/
def Core.modStream (k : Core) (motor : Bool) (f : Stream → Stream) : Core :=
  if motor then { k with motor := f k.motor } else { k with butty := f k.butty }

/-- The motor or butty stream. -/
def Core.stream (k : Core) (motor : Bool) : Stream := if motor then k.motor else k.butty

/-- What a fault, trap or stop does to the stream it meets (19 R373): a motor stream of a tile core stops its timetable; a
butty stream halts and its keeper receives the record; a keeper core halts and its shadow takes over; a control core takes
its own trap entry, or, inside a handler, halts and fails over. -/
def haltStream (s : State) (c : Nat) (motor : Bool) (why : Why) (code : Nat) (r : TrapRec) : State :=
  if isTile c then
    if motor then
      (s.modCore c (fun k => { k with motor := { k.motor with st := .halted why code } })).stopTimetable (s.partId c) c true code
    else
      (s.modCore c (fun k => { k with butty := { k.butty with st := .halted why code } })).trapTo
        (s.activeKeeper (basinOf c)) r
  else if isKeeper c then s.keeperDown c r.bundle
  else if (s.core c).csr.tepc.inside then s.complexDown c
  else s.trapTo c r

/-- TAKING A FAULT. The bundle in flight has no effect; a record of the fault, its reason, the stream, the bundle, the slot and
the detail goes to the core's log, and the stream stops as 19 R370, R373 say. A stop of ct.brk is such a fault (15 R301).
Log: DEDUCED 17, 137. -/
def raiseFault (s : State) (c : Nat) (motor : Bool) (bundle slot code reason detail : Nat) : State :=
  let s := s.modCore c (fun k => { k with latch := Latch.empty })
  let s := s.log (coreSource c) code reason (b2n motor + 2) bundle slot (s.partId c) detail
  haltStream s c motor (if code = stDebugStop then .brk else .fault) code
    (TrapRec.mk 0 code (BitVec.ofNat 64 reason) motor bundle c false none)

/-- TAKING A TRAP. A firmware core enters its handler on the first record of its queue: TEPC takes the next bundle index
and the pending transfer, the delay state is cleared, inside is set and the stream continues at TVEC (18 R359). -/
def trapEntry (s : State) (c : Nat) : State :=
  s.modCore c (fun k =>
    match k.traps with
    | [] => k
    | _ :: rest =>
      let b := k.butty
      let d : Nat × Nat × Xfer := match b.delay with
        | some x => if x.kind = .fall then (0, 0, .jump) else (x.cnt, x.tgt, x.kind)
        | none => (0, 0, .jump)
      { k with
        traps := rest
        csr := { k.csr with tepc := Tepc.mk true d.1 d.2.1 b.pc d.2.2 }
        butty := { b with delay := none, pc := k.csr.tvec } })

/-- RETURNING FROM A TRAP, when the delay bundles of sy.tret have issued: the stream resumes at ret, inside is cleared,
and a saved transfer is pending again (18 R359). -/
def trapReturn (k : Core) : Core :=
  let t := k.csr.tepc
  { k with
    csr := { k.csr with tepc := { t with inside := false } }
    butty := { k.butty with
      pc := t.ret
      delay := if t.dcnt = 0 then none else some (Delay.mk t.dcnt t.dtgt t.kind) } }

/-! Checks. -/

/-- The outcome of an operation's checks: it runs, raises a fault with a reason, or makes its bundle wait (06 R118). -/
inductive Check where
  | ok
  | fault (code reason : Nat)
  | stall
  deriving DecidableEq, Repr

/-- The first check that is not passed. -/
def Check.and (a b : Check) : Check :=
  match a with
  | .ok => b
  | x => x

/-- A check that raises a fault where a condition holds. -/
def failIf (b : Bool) (code reason : Nat) : Check := if b then .fault code reason else .ok

/-- The first check of a list that is not passed. -/
def firstFail : List Check → Check
  | [] => .ok
  | c :: cs => c.and (firstFail cs)

end Sys2Proof.Machine
end

