-- ==== Sys2Proof/Machine/Caps.lean ====
section
/-! DEFINITION. Capabilities as authority (17 R324-R330), the windows and hand tables they are checked against, the guards
of untimed sources (11 R205, R206), and lines as the units that interpret labels see them (04 R85-R91). -/

namespace Sys2Proof.Machine

/-! Fields (17 R324). -/

/-- Bits hi:lo of a capability. -/
def Cap.field (c : Cap) (hi lo : Nat) : Nat := bitsOf c.bits.toNat hi lo
def Cap.space (c : Cap) : Nat := c.field 127 124
def Cap.perm (c : Cap) : Nat := c.field 123 116
def Cap.holder (c : Cap) : Nat := c.field 115 112
def Cap.kind (c : Cap) : Nat := c.field 111 108
def Cap.length (c : Cap) : Nat := c.field 96 48
def Cap.base (c : Cap) : Nat := c.field 47 0

/-- A capability with some fields replaced, the base being an address of 48 bits; kind and reserved bits stay. -/
def Cap.withFields (c : Cap) (perm holder length base : Nat) : Cap :=
  { c with bits := BitVec.ofNat 128 (c.space * 2 ^ 124 + perm * 2 ^ 116 + holder * 2 ^ 112 + c.field 111 97 * 2 ^ 97 +
      length * 2 ^ 48 + base % 2 ^ 48) }

/-! Permissions (17 R326), as bits of perm. -/

def pRead : Nat := 1
def pWrite : Nat := 2
def pLabel : Nat := 4
def pHand : Nat := 8
def pSeal : Nat := 16
def pScrub : Nat := 32
def pGlobal : Nat := 64
def pDerive : Nat := 128

/-- Every bit of `need` is set. -/
def hasPerm (perm need : Nat) : Bool := perm &&& need == need

/-- A window root: space 5 with the global permission (17 R325, R326). -/
def Cap.isRoot (c : Cap) : Bool := c.space == 5 && hasPerm c.perm pGlobal

/-! Reasons of CAPABILITY_FAULT (19 R369). -/

def rsTag : Nat := 1
def rsKind : Nat := 2
def rsSpace : Nat := 3
def rsHolder : Nat := 4
def rsPerm : Nat := 5
def rsBounds : Nat := 6
def rsHand : Nat := 7
def rsWindow : Nat := 8
def rsDerive : Nat := 10

/-! Windows (13 R252, R253). -/

/-- n bytes at an offset of window-table entry i. -/
def State.winField (s : State) (i off n : Nat) : Nat := readNat s.windows (64 * i + off) n

def State.winDir (s : State) (i : Nat) : Nat := s.winField i 0 1
def State.winKind (s : State) (i : Nat) : Nat := s.winField i 1 1
def State.winLoop (s : State) (i : Nat) : Bool := bitOf (s.winField i 2 1) 0
def State.winPolicy (s : State) (i : Nat) : Nat := bitsOf (s.winField i 2 1) 2 1
def State.winLpol (s : State) (i : Nat) : Nat := bitsOf (s.winField i 2 1) 4 3
def State.winPeer (s : State) (i : Nat) : Nat := s.winField i 4 1
def State.winPeerWin (s : State) (i : Nat) : Nat := s.winField i 6 2
def State.winCore (s : State) (i : Nat) : Nat := s.winField i 8 1
def State.winFlag (s : State) (i : Nat) : Nat := s.winField i 10 2
def State.winInc (s : State) (i : Nat) : Nat := s.winField i 12 2
def State.winBase (s : State) (i : Nat) : Nat := s.winField i 0x10 4
def State.winLen (s : State) (i : Nat) : Nat := s.winField i 0x14 4
def State.winKey (s : State) (i : Nat) : Nat := s.winField i 0x18 2

/-- The entries of a core's running timetable: first entry and how many. -/
def State.winSpan (s : State) (c : Nat) : Nat × Nat :=
  match s.part (s.workPart c) with
  | some p => match p.tt with
    | some t => (p.csr.fwinBase, t.windows)
    | none => (0, 0)
  | none => (0, 0)

/-- The receive entry of the running timetable whose target on core c holds a byte range. -/
def State.recvEntry (s : State) (c start len : Nat) : Option Nat :=
  let sp := s.winSpan c
  (((List.range sp.2).map (fun i => sp.1 + i)).find? (fun i =>
    s.winDir i == 2 && s.winCore i == c && s.winBase i ≤ start && start + len ≤ s.winBase i + s.winLen i))

/-! Hand tables (17 R337, R338). -/

/-- Entry i of a core's hand table. -/
def Core.handEnt (k : Core) (i : Nat) : HandEnt := sget HandEnt.free k.hand i

/-- The bytes of an entry and a byte range have a byte in common. -/
def HandEnt.meets (e : HandEnt) (start len : Nat) : Bool :=
  len != 0 && start < 64 * (e.first + e.lines) && 64 * e.first < start + len

/-- Some byte of a range is held by another core. -/
def Core.handedOut (k : Core) (start len : Nat) : Bool :=
  (List.range 8).any (fun i => (k.handEnt i).valid && (k.handEnt i).meets start len)

/-- One valid entry covers the range for a holder. -/
def Core.handedTo (k : Core) (h start len : Nat) : Bool :=
  (List.range 8).any (fun i =>
    let e := k.handEnt i
    e.valid && e.holder == h && 64 * e.first ≤ start && start + len ≤ 64 * (e.first + e.lines))

/-! Where a capability's address lies. -/

/-- The core that holds what space 0 reaches: a tile core's own scratchpad, the keeper SRAM of a basin, which both its keeper
cores reach and which stands under the first, or the private SRAM of a complex, under its first control core (01 R23, R24).
Log: DEDUCED 99. -/
def sramOf (c : Nat) : Nat := if isTile c then c else if isKeeper c then c - c % 2 else c - c % 4

/-- The core that owns the scratchpad byte at address a of spaces 0, 1 and 6, and its offset there (17 R325). -/
def ownerOf (c space a : Nat) : Nat × Nat :=
  if space = 1 then (c - c % 8 + a / 2 ^ 21 % 8, a % 2 ^ 21) else (sramOf c, a)

/-- The holder number an issuing core must match (17 R330, order 4). -/
def holderNum (c : Nat) : Nat := if isTile c then c % 8 else 8

/-- The checks of 17 R330 on bytes off … off+len−1 through a capability. -/
def checkCap (s : State) (c : Nat) (cap : Cap) (kind : Nat) (spaces : List Nat) (need off len : Nat) : Check :=
  let a := cap.base + off
  let o := ownerOf c cap.space a
  let k := s.core o.1
  firstFail [
    failIf (!cap.tag) stCap rsTag,
    failIf (cap.kind != kind) stCap rsKind,
    failIf (!spaces.contains cap.space) stCap rsSpace,
    failIf (cap.holder != holderNum c) stCap rsHolder,
    failIf (!hasPerm cap.perm need) stCap rsPerm,
    failIf (cap.length < off + len || (cap.space == 1 && len != 0 && a / 2 ^ 21 != (a + len - 1) / 2 ^ 21) ||
      ((cap.space == 3 || cap.space == 4) && 2 ^ 48 < a + len)) stCap rsBounds,
    failIf (((cap.space == 0 || cap.space == 6) && k.handedOut o.2 len) ||
      (cap.space == 1 && !k.handedTo (c % 8) o.2 len)) stCap rsHand,
    failIf (cap.space == 6 && (s.recvEntry c o.2 len).isNone) stCap rsWindow]

/-- The checks on memory (kind 0) capabilities. Log: DEDUCED 29. -/
def checkMem (s : State) (c : Nat) (cap : Cap) (spaces : List Nat) (need off len : Nat) : Check :=
  checkCap s c cap 0 spaces need off len

/-- The order 2 checks of 11 R210 on flag f through a capability. -/
def checkFlag (s : State) (c : Nat) (cap : Cap) (need f : Nat) : Check :=
  checkCap s c cap 0 [2] need (4 * f) 4

/-- The index in the core's array of flag f of a capability (11 R209). Log: DEDUCED 43. -/
def flagIndex (cap : Cap) (f : Nat) : Nat := cap.base / 4 + f

/-! Guards (11 R205, R206). -/

/-- A byte range has a byte in common with a guard. -/
def Guard.meets (g : Guard) (start len : Nat) : Bool := len != 0 && start < g.start + g.len && g.start < start + len

/-- Some byte of the range in a core's scratchpad is guarded. -/
def State.guarded (s : State) (owner start len : Nat) : Bool :=
  (s.core owner).guards.any (fun g => g.meets start len)

/-! Timed access through the forwarding table (10 R185). -/

/-- The bytes a pending store holds for an address: value and bits written. -/
def StoreW.byteAt (w : StoreW) (a : Nat) : Option (Byte × Byte) :=
  (w.cells.find? (fun p => p.1 == a)).map (fun p => p.2)

/-- The ls stores of a core still pending in an owner's list that issued before a tick, oldest first. -/
def Core.forwards (k : Core) (issuer before : Nat) : List StoreW :=
  k.pend.filterMap (fun p => match p.act with
    | .store w => if w.issuer == issuer && w.kind == .ls && p.issue < before then some w else none
    | _ => none)

/-- A byte as an ls load sees it. -/
def Core.fwdByte (k : Core) (fs : List StoreW) (a : Nat) : Byte :=
  fs.foldl (fun acc w => match w.byteAt a with
    | some p => p.1
    | none => acc) (readByte k.mem.sp a)

/-- A line label as an ls load sees it. -/
def Core.fwdLabel (k : Core) (fs : List StoreW) (line : Nat) : BitVec 16 :=
  fs.foldl (fun acc w => match w.labels.find? (fun p => p.1 == line) with
    | some p => p.2
    | none => acc) (sget 0 k.mem.labels line)

/-- True when a store touches a granule: one of its bytes, or the label of its line (17 R327). -/
def StoreW.touches (w : StoreW) (g : Nat) : Bool :=
  w.cells.any (fun p => p.1 / 16 == g) || w.labels.any (fun p => p.1 == g / 4)

/-- A granule's tag as ldcap sees it. -/
def Core.fwdTag (k : Core) (fs : List StoreW) (g : Nat) : Bool :=
  fs.foldl (fun acc w => if w.touches g then w.tagSet.contains g else acc) (sget false k.mem.tags g)

/-- n bytes as an ls load sees them. -/
def Core.fwdNat (k : Core) (fs : List StoreW) (a n : Nat) : Nat :=
  ofBytes ((List.range n).map (fun i => k.fwdByte fs (a + i)))

/-! Lines and scales (04 R85-R91). -/

/-- The format-table entry of a core's partition; 0 for an empty one. -/
def State.fmtEntry (s : State) (c i : Nat) : Nat :=
  match s.part (s.workPart c) with
  | some p => if i = 0 then 0 else (sget 0 p.fmts i).toNat
  | none => 0

/-- SCALEMAP fields: abase, cbase, clen (04 R90). -/
def smapA (v : Word) : Nat := bits v 14 0
def smapC (v : Word) : Nat := bits v 30 16
def smapL (v : Word) : Nat := bits v 47 32

/-- The offset of a line's scale slot under a SCALEMAP, where 04 R91 does not refuse it. -/
def scaleSlot (v : Word) (off : Nat) : Option Nat :=
  let a := smapA v
  let c := smapC v
  let l := smapL v
  if 64 * c ≤ off && off < 64 * (c + l) && 64 * (c + l) ≤ 2 ^ 21 && 64 * a + 16 * l ≤ 2 ^ 21 &&
      (64 * a + 16 * l ≤ 64 * c || 64 * (c + l) ≤ 64 * a)
  then some (64 * a + (off / 64 - c) * 16) else none

/-- The scale format that an entry names (04 R77). -/
def State.scaleFmt (s : State) (c desc : Nat) : Fmt :=
  if bitsOf desc 31 24 = 0 then e8m0 else fmtOf (s.fmtEntry c (bitsOf desc 31 24))

/-- fidx of the line at an offset of an owner's scratchpad. -/
def State.lineFidx (s : State) (owner off : Nat) : Nat := (sget 0 (s.core owner).mem.labels (off / 64)).toNat % 256

/-- A line as interpreted at T: label, entry, and the place of its scales. -/
def State.lineMeta (s : State) (owner off : Nat) : LineMeta :=
  let lab := (sget 0 (s.core owner).mem.labels (off / 64)).toNat
  let desc := s.fmtEntry owner (lab % 256)
  if lab % 256 = 0 then LineMeta.mk off 0 Val.one none e8m0 0
  else
    LineMeta.mk off desc (fmtVal e8m0 (lab / 256)).norm
      (if entryGrain desc = 0 then none else scaleSlot (s.core owner).csr.scalemap off) (s.scaleFmt owner desc)
      (entryGrain desc)

/-- A labelled line whose scales cannot be placed (04 R91). -/
def LineMeta.scaleBad (m : LineMeta) : Bool := m.grain != 0 && m.slot.isNone

/-- Element i of a line with its scales, read now from the owner's scratchpad (04 R88). -/
def lineElem (sp : Store Byte) (m : LineMeta) (t : ElTy) (i : Nat) : Scaled :=
  let c := t.cont
  let v := elVal t (readNat sp (m.off + c * i / 8) ((c + 7) / 8) / 2 ^ (c * i % 8) % 2 ^ c)
  if m.desc = 0 then Scaled.mk v Val.one Val.one
  else
    let bs := match m.slot with
      | some a => (fmtVal m.sfmt (readByte sp (a + i / m.grain)).toNat).norm
      | none => Val.one
    Scaled.mk v bs m.ls

end Sys2Proof.Machine
end

