-- ==== Sys2Proof/Machine/Csr.lean ====
section
/-! DEFINITION. Control registers (17 R321, R322; 18 R357): what each view reads and may write, and the effect of a write
on each register, with the refusals its own rule states. -/

namespace Sys2Proof.Machine

/-- Ones in bits hi:lo. -/
def fieldMask (hi lo : Nat) : Nat := 2 ^ (hi + 1) - 2 ^ lo

/-- The masks of one view of a register: bits it reads, bits it may write (RW), bits it clears by ones (W1C). -/
structure View where
  rd : Nat
  rw : Nat
  w1c : Nat
  deriving DecidableEq, Repr

/-- A register no field of which the view sees. -/
def View.na : View := View.mk 0 0 0

/-- A view that reads `m` and writes nothing. -/
def View.ro (m : Nat) : View := View.mk m 0 0

/-- A view that reads and writes `m`. -/
def View.both (m : Nat) : View := View.mk m m 0

/-- Read-only in modes 0 and 1, writable in towpath mode. -/
def viewRRW (mode m : Nat) : View := if mode = 2 then View.both m else View.ro m

/-- Read-only in task mode, writable above. -/
def viewRWW (mode m : Nat) : View := if mode = 0 then View.ro m else View.both m

/-- Invisible in task mode, writable above. -/
def viewNWW (mode m : Nat) : View := if mode = 0 then View.na else View.both m

/-- GMEMB's bits: a valid bit and a group number in each of four 16-bit slots (11 R217). -/
def gmembMask : Nat :=
  (List.range 4).foldl (fun m i => m ||| fieldMask (16 * i + 15) (16 * i + 15) ||| fieldMask (16 * i + 7) (16 * i)) 0

/-- The view of register `num` in a mode (17 R322 and the maps it names). -/
def csrView (num mode : Nat) : View :=
  match num with
  | 0x001 => View.ro (fieldMask 23 16 ||| fieldMask 4 0)
  | 0x008 => if mode = 2 then View.both (fieldMask 2 0) else View.na
  | 0x009 => viewNWW mode (fieldMask 13 0)
  | 0x00A =>
    if mode = 0 then View.na
    else View.mk (fieldMask 63 63 ||| fieldMask 47 32 ||| fieldMask 13 0) (fieldMask 47 32 ||| fieldMask 13 0) 0
  | 0x010 => View.both (fieldMask 63 32 ||| fieldMask 1 0)
  | 0x011 => View.both (fieldMask 10 0)
  | 0x018 => View.both (fieldMask 47 32 ||| fieldMask 30 16 ||| fieldMask 14 0)
  | 0x020 => viewRWW mode gmembMask
  | 0x030 => viewRWW mode (fieldMask 31 0)
  | 0x031 => viewRWW mode (fieldMask 47 0)
  | 0x032 => viewRWW mode (fieldMask 47 8 ||| fieldMask 1 0)
  | 0x033 => viewNWW mode (fieldMask 47 32 ||| fieldMask 0 0)
  | 0x034 => viewRRW mode (fieldMask 2 0)
  | 0x038 => viewRWW mode (fieldMask 0 0)
  | 0x040 => viewNWW mode (fieldMask 51 11 ||| fieldMask 0 0)
  | 0x041 => viewNWW mode (fieldMask 51 11 ||| fieldMask 0 0)
  | 0x042 => viewNWW mode (fieldMask 63 32 ||| fieldMask 3 2 ||| fieldMask 0 0)
  | 0x043 =>
    if mode = 0 then View.na
    else View.mk (fieldMask 9 8 ||| fieldMask 4 0) (fieldMask 4 0) (fieldMask 9 9)
  | 0x050 => viewRRW mode (fieldMask 63 0)
  | 0x051 => viewRRW mode (fieldMask 26 16 ||| fieldMask 9 0)
  | 0x058 => viewRRW mode (fieldMask 31 16 ||| fieldMask 2 0)
  | 0x059 => View.ro (fieldMask 63 32 ||| fieldMask 15 4 ||| fieldMask 0 0)
  | 0x0C0 => viewRRW mode (fieldMask 39 0)
  | 0x0C1 => viewRRW mode (fieldMask 39 0)
  | 0x0C2 => View.ro (fieldMask 63 0)
  | 0x0C3 => View.ro (fieldMask 63 0)
  | 0x0D0 => View.ro (fieldMask 63 32 ||| fieldMask 3 0)
  | 0x0E0 =>
    View.mk (fieldMask 63 32 ||| fieldMask 1 0) (if mode = 2 then fieldMask 63 32 else 0) 0
  | 0x0E8 => viewRWW mode (fieldMask 39 8 ||| fieldMask 0 0)
  | 0x0E9 => viewNWW mode (fieldMask 51 0)
  | 0x0EA =>
    View.mk (fieldMask 63 32 ||| fieldMask 15 8 ||| fieldMask 4 0) (fieldMask 63 32)
      (if mode = 0 then 0 else fieldMask 0 0)
  | 0x0F0 => viewRRW mode (fieldMask 63 16 ||| fieldMask 7 0)
  | _ =>
    if 0x060 ≤ num ∧ num ≤ 0x07F then
      View.mk (fieldMask 63 16 ||| fieldMask 2 0) 0 (if mode = 2 then fieldMask 63 16 else 0)
    else if 0x080 ≤ num ∧ num ≤ 0x09F then viewRRW mode (fieldMask 9 0)
    else if 0x800 ≤ num ∧ num ≤ 0x9FF then viewNWW mode (fieldMask 31 0)
    else View.na

/-- Registers of which a partition has its own (17 R322). -/
def csrIsPart (num : Nat) : Bool :=
  [0x030, 0x031, 0x032, 0x033, 0x034, 0x038, 0x040, 0x041, 0x042, 0x043, 0x051, 0x0C0, 0x0C1, 0x0C2, 0x0C3, 0x0D0, 0x0E0,
    0x0E8, 0x0E9, 0x0EA].contains num ||
  (0x080 ≤ num && num ≤ 0x09F) || (0x800 ≤ num && num ≤ 0x9FF)

/-- The view of a register from a core: without a partition every per-partition field is NA (17 R321). -/
def State.csrViewOf (s : State) (c num : Nat) : View :=
  if csrIsPart num && (s.part (s.viewPart c)).isNone then View.na else csrView num (modeOf c)

/-- FEATURES (16 R313). -/
def featuresOf (c : Nat) : Nat := if isTile c then 0x1000F else 0x10010

/-- The stacks of a partition (01 R12). -/
def Partition.hasStack (p : Partition) (st : Nat) : Bool := p.basins.contains (st / 2)

/-- The 64-bit word of a meter's configuration and of its status (16 R310). -/
def Meter.cfg (m : Meter) : Nat := m.debtcap * 2 ^ 20 + m.allot
def Meter.stat (m : Meter) : Nat := m.debt % 2 ^ 32 * 2 ^ 32 + m.balance % 2 ^ 32

/-- KEYSTAT (18 R351). -/
def Partition.keystat (p : Partition) : Nat :=
  p.cellarKeys.active * 2 ^ 32 + b2n (!p.walk.isEmpty) * 8 + b2n (p.cellarKeys.retiring != 0) * 4 +
    b2n (p.cellarKeys.pending != 0) * 2 + p.cellarKeys.active % 2

/-- All fields of a per-partition register; KEEPSTAT tells of all its keepers, one of each basin (01 R23, 19 R378).
Log: DESIGN CHOICE 155. -/
def partRaw (s : State) (p : Partition) (num : Nat) : Nat :=
  let r := p.csr
  match num with
  | 0x030 => r.reachlim
  | 0x031 => r.lpatience
  | 0x032 => r.rdelay * 2 ^ 16 + r.retries * 2 ^ 8 + b2n r.tmo * 2 + b2n r.prio
  | 0x033 => r.ctxbase.toNat
  | 0x034 => r.taskcap.toNat
  | 0x038 => b2n r.dbgctl
  | 0x040 => r.croot.toNat
  | 0x041 => r.hroot.toNat
  | 0x042 => r.tlbPage * 2 ^ 32 + r.tlbScope * 4 + b2n r.tlbBusy
  | 0x043 => b2n r.cfRefused * 2 ^ 9 + b2n r.cfScrubbed * 2 ^ 8 + r.cfMask.toNat
  | 0x051 => r.fwinCount * 2 ^ 16 + r.fwinBase
  | 0x0C0 => p.host.cfg
  | 0x0C1 => p.layby.cfg
  | 0x0C2 => p.host.stat
  | 0x0C3 => p.layby.stat
  | 0x0D0 => p.keystat
  | 0x0E0 => r.keepCount.toNat * 2 ^ 32 + b2n (r.keepDown.any (fun x => r.holdAt x.1)) * 2 + b2n r.keepAlone.isEmpty
  | 0x0E8 => r.botcfg.toNat
  | 0x0E9 => r.bothost.toNat
  | 0x0EA =>
    r.botStep.toNat * 2 ^ 32 + r.botCount % 256 * 2 ^ 8 + b2n r.botOpen * 16 + b2n r.botArea * 8 + b2n r.botValid * 4 +
      b2n r.bottling * 2 + b2n r.botWarn
  | _ =>
    if num < 0x0A0 then sget 0 r.fshare (num - 0x080)
    else if p.hasStack ((num - 0x800) / 64) then (sget 0 s.cellar.cact (num - 0x800)).toNat else 0

/-- All fields of a register as core c reaches it. -/
def State.csrRaw (s : State) (c num : Nat) : Nat :=
  let k := s.core c
  if csrIsPart num then
    match s.part (s.viewPart c) with
    | some p => partRaw s p num
    | none => 0
  else
    match num with
    | 0x001 => featuresOf c
    | 0x008 => k.csr.wsel
    | 0x009 => k.csr.tvec
    | 0x00A =>
      b2n k.csr.tepc.inside * 2 ^ 63 + k.csr.tepc.dcnt * 2 ^ 46 + k.csr.tepc.dtgt * 2 ^ 32 + k.csr.tepc.ret
    | 0x010 => k.csr.seed.toNat * 2 ^ 32 + k.csr.drnd.toNat
    | 0x011 => k.csr.astat.toNat
    | 0x018 => k.csr.scalemap.toNat
    | 0x020 => k.csr.gmemb.toNat
    | 0x050 => s.forigin.toNat
    | 0x058 => s.towpath.terr * 2 ^ 16 + s.towpath.tstate
    | 0x059 => s.svc.toNat
    | 0x0F0 => s.hthresh.ce * 2 ^ 48 + s.hthresh.lane * 2 ^ 32 + s.hthresh.droop * 2 ^ 16 + s.hthresh.temp
    | _ =>
      if 0x060 ≤ num ∧ num ≤ 0x07F then
        let p := sget Port.down s.ports (num - 0x060)
        p.lerr.toNat * 2 ^ 32 + p.fallbacks.toNat * 2 ^ 16 + p.state
      else 0

/-- The value a read returns: NA and reserved fields read zero (17 R321). -/
def State.csrRead (s : State) (c num : Nat) : Word :=
  BitVec.ofNat 64 (s.csrRaw c num &&& (s.csrViewOf c num).rd)

/-- The value a write asks the RW fields to take (18 R357). -/
def csrNew (kind : CsrKind) (v : View) (old val : Nat) : Nat :=
  match kind with
  | .w => val &&& v.rw
  | .s => (old ||| val) &&& v.rw
  | .c => (old &&& (2 ^ 64 - 1 - val)) &&& v.rw

/-- The W1C bits a write clears: csrw only (18 R357). -/
def csrClear (kind : CsrKind) (v : View) (val : Nat) : Nat :=
  match kind with
  | .w => val &&& v.w1c
  | _ => 0

/-- A write has no field to change in this view: PRIVILEGE_FAULT (17 R321). -/
def State.csrDenied (s : State) (c num : Nat) : Bool :=
  let v := s.csrViewOf c num
  v.rw == 0 && v.w1c == 0

/-- The RW value and the W1C bits of a write by core c to a register. -/
def State.csrAsk (s : State) (c num : Nat) (kind : CsrKind) (val : Word) : Nat × Nat :=
  let v := s.csrViewOf c num
  (csrNew kind v (s.csrRaw c num) val.toNat, csrClear kind v val.toNat)

/-- Changes the registers of the partition core c sees. -/
def State.modView (s : State) (c : Nat) (f : Partition → Partition) : State := s.modPart (s.viewPart c) f

/-- Changes the per-core registers. -/
def State.modCsr (s : State) (c : Nat) (f : CoreCsr → CoreCsr) : State :=
  s.modCore c (fun k => { k with csr := f k.csr })

/-! Writes with rules of their own. -/

/-- ARITH (05 R100, R107): drnd 3 keeps drnd; a csrw, or a change of the seed, reseeds the generators. -/
def arithWrite (s : State) (c : Nat) (kind : CsrKind) (val : Word) : State :=
  let n := (s.csrAsk c 0x010 kind val).1
  let seed := BitVec.ofNat 32 (n / 2 ^ 32)
  let drnd := n % 4
  s.modCore c (fun k =>
    { k with
      csr := { k.csr with seed := seed, drnd := if drnd = 3 then k.csr.drnd else BitVec.ofNat 2 drnd }
      gens := if kind = .w || seed != k.csr.seed then Gens.mk seed.toNat [] else k.gens })

/-- ASTAT takes the written value ORed with the bits set in the same cycle (05 R109). -/
def astatWrite (s : State) (c : Nat) (kind : CsrKind) (val : Word) : State :=
  let n := (s.csrAsk c 0x011 kind val).1
  s.modCore c (fun k =>
    { k with csr := { k.csr with astat := BitVec.ofNat 11 n ||| (if k.statTick = s.tick then k.statBits else 0) } })

/-- CFOLD (12 R240). -/
def cfoldWrite (s : State) (c : Nat) (kind : CsrKind) (val : Word) : State :=
  let a := s.csrAsk c 0x043 kind val
  if (s.csrViewOf c 0x043).rw = 0 then s
  else s.modView c (fun p =>
    let m := BitVec.ofNat 5 a.1
    let clr := a.2 != 0
    { p with csr :=
      if m = p.csr.cfMask then { p.csr with cfRefused := p.csr.cfRefused && !clr }
      else if p.csr.cfScrubbed then { p.csr with cfMask := m, cfRefused := p.csr.cfRefused && !clr }
      else { p.csr with cfRefused := true } })

/-- A send of the package is outstanding: at its core, booked, or issued in the present cycle, whose booking stands from its issue tick
(13 R250). -/
def State.sending (s : State) : Bool :=
  s.bookings.any (fun b => b.part != 0 && !b.done) || s.cores.any (fun p =>
    p.2.sends.any (fun q => q.2.isSome) || p.2.pend.any (fun q => match q.act with
      | .sendStart .. => true
      | _ => false))

/-- A port after FORIGIN has moved by a write: the end of its silence keeps its time, and no beacon of the new slots has failed (13
R246, R247). -/
def Port.rebased (p : Port) (old new : Nat) : Port :=
  { p with resumeSlot := if p.resumeSlot = 0 then 0 else (old + 4800 * p.resumeSlot + 4799 - new) / 4800, deadSlot := none }

/-- FORIGIN (13 R245): slots are numbered anew, so that what was booked in the old ones is booked no more, and items of the layby have
arrived in the new slot of their time. Log: DESIGN CHOICE 132. -/
def foriginWrite (s : State) (c : Nat) (kind : CsrKind) (val : Word) : State :=
  let v := (s.csrViewOf c 0x050).rw
  if v = 0 then s
  else if s.sending then s.log 0x240 evForigin 0 0 0 0 0 0
  else
    let n := (s.csrAsk c 0x050 kind val).1
    { s with forigin := BitVec.ofNat 64 n, bookings := []
             layby := s.layby.map (fun x => { x with slot := (s.forigin.toNat + 4800 * x.slot - n) / 4800 })
             ports := s.ports.foldl (fun m p => sput Port.down m p.1 (p.2.rebased s.forigin.toNat n)) s.ports }

/-- True while the towpath may write a partition's configuration (18 R354). -/
def Partition.cfgOpen (p : Partition) : Bool := p.tdi == .unlocked

/-- The shares of a port over all partitions but one (13 R249). -/
def State.otherShares (s : State) (part port : Nat) : Nat :=
  s.parts.foldl (fun acc p => match p.2 with
    | some q => if p.1 = part then acc else acc + sget 0 q.csr.fshare port
    | none => acc) 0

/-- A keeper core of a partition that is no more: it issues nothing; its bundle memory stays as it is (01 R25). -/
def restKeeper (s : State) (c : Nat) : State := s.modCore c (fun k => { k with butty := Stream.init, traps := [] })

/-- A partition's basins set free, with their keepers. -/
def State.freeBasins (s : State) (part : Nat) (p : Partition) : State :=
  let s1 := p.basins.foldl (fun s b => restKeeper (restKeeper s (256 + 2 * b)) (257 + 2 * b)) s
  { s1 with parts := sput none s1.parts part none }

/-- A partition under creation is not created after all: one that is unlocked and has no work is no partition any more (13 R249).
-/
def uncreate (s : State) (part : Nat) : State :=
  match s.part part with
  | some p =>
    if p.cfgOpen && p.tt.isNone && p.taken.isNone && p.ctxs.all (fun x => x.2.isNone) then
      s.freeBasins part p
    else s
  | none => s

/-- FSHARE (13 R249, 18 R354). Log: DEDUCED 131. -/
def fshareWrite (s : State) (c port : Nat) (kind : CsrKind) (val : Word) : State :=
  let n := (s.csrAsk c (0x080 + port) kind val).1
  if (s.csrViewOf c (0x080 + port)).rw = 0 then s
  else if 496 < s.otherShares (s.viewPart c) port + n then uncreate s (s.viewPart c)
  else s.modView c (fun p =>
    if p.cfgOpen then { p with csr := { p.csr with fshare := sput 0 p.csr.fshare port n } } else p)

/-- The allots of a meter over all partitions but one (16 R310). -/
def State.otherAllots (s : State) (part : Nat) (layby : Bool) : Nat :=
  s.parts.foldl (fun acc p => match p.2 with
    | some q => if p.1 = part then acc else acc + (if layby then q.layby.allot else q.host.allot)
    | none => acc) 0

/-- HBUDGET and LBUDGET (16 R310, 18 R354). -/
def budgetWrite (s : State) (c : Nat) (layby : Bool) (kind : CsrKind) (val : Word) : State :=
  let num := if layby then 0x0C1 else 0x0C0
  let n := (s.csrAsk c num kind val).1
  let cap := if layby then s.laybyCap else 700000
  if (s.csrViewOf c num).rw = 0 then s
  else if cap < s.otherAllots (s.viewPart c) layby + n % 2 ^ 20 then s
  else s.modView c (fun p =>
    if !p.cfgOpen || p.tt.isSome then p
    else if layby then { p with layby := { p.layby with debtcap := n / 2 ^ 20, allot := n % 2 ^ 20 } }
    else { p with host := { p.host with debtcap := n / 2 ^ 20, allot := n % 2 ^ 20 } })

/-- FWIN: a count above 1024 leaves the field unchanged (13 R252). -/
def fwinWrite (s : State) (c : Nat) (kind : CsrKind) (val : Word) : State :=
  let n := (s.csrAsk c 0x051 kind val).1
  if (s.csrViewOf c 0x051).rw = 0 then s
  else s.modView c (fun p =>
    if p.cfgOpen then
      { p with csr := { p.csr with
        fwinCount := if 1024 < n / 2 ^ 16 then p.csr.fwinCount else n / 2 ^ 16
        fwinBase := n % 2 ^ 10 } }
    else p)

/-- REACHLIM: a write of 0 leaves it unchanged (14 R275). -/
def reachlimWrite (s : State) (c : Nat) (kind : CsrKind) (val : Word) : State :=
  let n := (s.csrAsk c 0x030 kind val).1
  if (s.csrViewOf c 0x030).rw = 0 || n == 0 then s
  else s.modView c (fun p => { p with csr := { p.csr with reachlim := n } })

/-- LPATIENCE: a write of 0 leaves it unchanged (14 R281). -/
def lpatienceWrite (s : State) (c : Nat) (kind : CsrKind) (val : Word) : State :=
  let n := (s.csrAsk c 0x031 kind val).1
  if (s.csrViewOf c 0x031).rw = 0 || n == 0 then s
  else s.modView c (fun p => { p with csr := { p.csr with lpatience := n } })

/-- TASKCAP (17 R323, 18 R354). -/
def taskcapWrite (s : State) (c : Nat) (kind : CsrKind) (val : Word) : State :=
  let n := (s.csrAsk c 0x034 kind val).1
  if (s.csrViewOf c 0x034).rw = 0 then s
  else s.modView c (fun p =>
    if p.cfgOpen then { p with csr := { p.csr with taskcap := BitVec.ofNat 3 n } } else p)

/-- HTHRESH: a temperature outside 70-95 leaves that field unchanged (20 R387). -/
def hthreshWrite (s : State) (c : Nat) (kind : CsrKind) (val : Word) : State :=
  let n := (s.csrAsk c 0x0F0 kind val).1
  if (s.csrViewOf c 0x0F0).rw = 0 then s
  else
    let t := n % 256
    { s with hthresh :=
        { ce := n / 2 ^ 48, lane := n / 2 ^ 32 % 2 ^ 16, droop := n / 2 ^ 16 % 2 ^ 16
          temp := if 70 ≤ t && t ≤ 95 then t else s.hthresh.temp } }

/-- TLBINV: busy with scope 3, and any write while busy, are ignored (12 R236). -/
def tlbinvWrite (s : State) (c : Nat) (kind : CsrKind) (val : Word) : State :=
  let n := (s.csrAsk c 0x042 kind val).1
  if (s.csrViewOf c 0x042).rw = 0 then s
  else s.modView c (fun p =>
    if p.csr.tlbBusy || (bitOf n 0 && bitsOf n 3 2 == 3) then p
    else { p with csr := { p.csr with tlbPage := n / 2 ^ 32, tlbScope := bitsOf n 3 2, tlbBusy := bitOf n 0 } })

/-! Registers without a rule of their own. -/

/-- Writes a per-core or package register: each field as its view's access allows (17 R321). -/
def coreRegWrite (s : State) (c num n clr : Nat) : State :=
  match num with
  | 0x008 => s.modCsr c (fun r => { r with wsel := n })
  | 0x009 => s.modCsr c (fun r => { r with tvec := n })
  | 0x00A =>
    s.modCsr c (fun r => { r with tepc := { r.tepc with
      dcnt := if n / 2 ^ 46 % 4 = 3 then 0 else n / 2 ^ 46 % 4, dtgt := bitsOf n 45 32, ret := bitsOf n 13 0 } })
  | 0x018 => s.modCsr c (fun r => { r with scalemap := BitVec.ofNat 64 n })
  | 0x020 => s.modCsr c (fun r => { r with gmemb := BitVec.ofNat 64 n })
  | 0x058 =>
    { s with towpath := { s.towpath with
        terr := n / 2 ^ 16, tstate := if n % 8 < 4 then n % 8 else s.towpath.tstate } }
  | _ =>
    if 0x060 ≤ num ∧ num ≤ 0x07F then
      let p := sget Port.down s.ports (num - 0x060)
      let q := { p with
        lerr := p.lerr &&& ~~~(BitVec.ofNat 32 (clr / 2 ^ 32))
        fallbacks := p.fallbacks &&& ~~~(BitVec.ofNat 16 (clr / 2 ^ 16)) }
      { s with ports := sput Port.down s.ports (num - 0x060) q }
    else s

/-- Writes a per-partition register. -/
def partRegWrite (p : Partition) (num n clr : Nat) : Partition :=
  let r := p.csr
  match num with
  | 0x032 =>
    { p with csr := { r with
        rdelay := bitsOf n 47 16, retries := bitsOf n 15 8, tmo := bitOf n 1, prio := bitOf n 0 } }
  | 0x033 => { p with csr := { r with ctxbase := BitVec.ofNat 64 n } }
  | 0x038 => { p with csr := { r with dbgctl := bitOf n 0 } }
  | 0x040 => { p with csr := { r with croot := BitVec.ofNat 64 n } }
  | 0x041 => { p with csr := { r with hroot := BitVec.ofNat 64 n } }
  | 0x0E0 => { p with csr := { r with keepCount := BitVec.ofNat 32 (n / 2 ^ 32) } }
  | 0x0E8 => { p with csr := { r with botcfg := BitVec.ofNat 64 n } }
  | 0x0E9 => { p with csr := { r with bothost := BitVec.ofNat 64 n } }
  | 0x0EA =>
    { p with csr := { r with botStep := BitVec.ofNat 32 (n / 2 ^ 32), botWarn := r.botWarn && !bitOf clr 0 } }
  | _ => p

/-- A write to a register without a row of its own (17 R321). -/
def registerWrite (s : State) (c num : Nat) (kind : CsrKind) (val : Word) : State :=
  let v := s.csrViewOf c num
  let a := s.csrAsk c num kind val
  if v.rw = 0 ∧ v.w1c = 0 then s
  else if 0x800 ≤ num ∧ num ≤ 0x9FF then
    match s.part (s.viewPart c) with
    | some p =>
      if p.hasStack ((num - 0x800) / 64) then
        { s with cellar := { s.cellar with cact := sput 0 s.cellar.cact (num - 0x800) (BitVec.ofNat 32 a.1) } }
      else s
    | none => s
  else if csrIsPart num then s.modView c (fun p => partRegWrite p num a.1 a.2)
  else coreRegWrite s c num a.1 a.2

/-- The write of csrw, csrs or csrc performing: to the register's own rule where it has one. Log: DEDUCED 113. -/
def csrWrite (s : State) (c num : Nat) (kind : CsrKind) (val : Word) : State :=
  match num with
  | 0x010 => arithWrite s c kind val
  | 0x011 => astatWrite s c kind val
  | 0x043 => cfoldWrite s c kind val
  | 0x050 => foriginWrite s c kind val
  | 0x051 => fwinWrite s c kind val
  | 0x030 => reachlimWrite s c kind val
  | 0x031 => lpatienceWrite s c kind val
  | 0x034 => taskcapWrite s c kind val
  | 0x0F0 => hthreshWrite s c kind val
  | 0x042 => tlbinvWrite s c kind val
  | 0x0C0 => budgetWrite s c false kind val
  | 0x0C1 => budgetWrite s c true kind val
  | _ =>
    if 0x080 ≤ num ∧ num ≤ 0x09F then fshareWrite s c (num - 0x080) kind val
    else registerWrite s c num kind val

end Sys2Proof.Machine
end

