-- ==== Sys2Proof/Machine/Slot.lean ====
section
/-! DEFINITION. What every slot operation shares: the sources of 02 R41 as they stand at T, guards (02 R39, R40), the
registers and types an extension word may name (02 R45-R48), the decode checks of one slot (02 R59 orders 2-8), and the
capture of a wide operation's operands (07 R133). -/

namespace Sys2Proof.Machine

/-! Sources (02 R41, 09 R181). -/

/-- Loop index of level n: 0 for an inactive level. -/
def Stream.li (t : Stream) (n : Nat) : Word :=
  match t.loops[n]? with
  | some l => BitVec.ofNat 64 l.idx
  | none => 0

/-- The tile coordinate source: package in bits 14:8; basin, cluster and core of a tile core; the basin of a keeper core;
nothing more for a control core (01 R11, 09 R181). -/
def tileCoord (position c : Nat) : Nat :=
  position * 256 + (if isTile c then c else if isKeeper c then basinOf c * 64 else 0)

/-- A special source read by a stream of a core at the present tick. -/
def State.special (s : State) (c : Nat) (motor : Bool) (k : Special) : Word :=
  let r := s.core c
  let t := r.stream motor
  match k with
  | .tick => BitVec.ofNat 64 s.tick
  | .rcyc => if isTile c then BitVec.ofNat 64 (s.rcyc c) else 0
  | .coreid => BitVec.ofNat 64 c
  | .tile => BitVec.ofNat 64 (tileCoord s.position c)
  | .part => BitVec.ofNat 64 (s.partId c)
  | .lanes32 => 256
  | .lanes16 => 512
  | .lanes8 => 1024
  | .lanes4 => 2048
  | .li0 => t.li 0
  | .li1 => t.li 1
  | .li2 => t.li 2
  | .li3 => t.li 3
  | .rotb => BitVec.ofNat 64 r.regs.rotb
  | .sbbase => BitVec.ofNat 64 r.sbuf.base
  | .sblen => BitVec.ofNat 64 r.sbuf.len
  | .sbfill => BitVec.ofNat 64 r.sbuf.fill
  | .pc => BitVec.ofNat 64 r.latch.pc
  | .mode => BitVec.ofNat 64 (modeOf c)
  | .pace => BitVec.ofNat 64 (s.pace c)
  | .reachix => if isTile c then BitVec.ofNat 64 r.reachix else 0
  | .reachtick => if isTile c then BitVec.ofNat 64 r.reachtick else 0

/-- The head of a hardware queue (02 R54). -/
def Core.qHead (k : Core) (q : Nat) : Word := (sget [] k.regs.q q).headD 0

/-- The 64-bit value of a source (02 R41, R44). -/
def State.src (s : State) (c : Nat) (motor : Bool) (x : Src) : Word :=
  match x with
  | .x n => (s.core c).x n.toNat
  | .p n => b2w ((s.core c).pred n.toNat)
  | .special k => s.special c motor k
  | .out n => sget 0 (s.core c).regs.out n.val
  | .queue n => (s.core c).qHead n.toNat
  | .imm24 v => v.signExtend 64
  | .imm48 v => v.signExtend 64
  | .short v => v.signExtend 64

/-- The guard of a move: pred XOR inv (02 R39). -/
def State.guard (s : State) (c : Nat) (h : Head) : Bool := (s.core c).pred h.pred.toNat != h.inv

/-! What an extension word names (02 R45-R48; 07 R134, R144; 08 R152-R171). -/

/-- How an operation uses a register field. -/
inductive FieldUse where
  /-- Unused: must hold 0 with its last-use bit clear (02 R48). -/
  | no
  /-- Names v0-v15. -/
  | v
  /-- Names e0-e7. -/
  | e
  /-- Names f0-f7. -/
  | f
  /-- Names v0-v15 in one mode only: checked at issue (08 R152). -/
  | mode
  deriving DecidableEq, Repr

/-- Which type codes an operation accepts. -/
inductive TyUse where
  /-- Unused: must hold 0 (02 R48). -/
  | no
  | any | float | int | upTo16 | upTo8 | dot4 | conv | lines
  deriving DecidableEq, Repr

/-- The fields of a wide operation: d, a, b, mask, type. -/
structure WideUse where
  d : FieldUse
  a : FieldUse
  b : FieldUse
  mask : Bool
  ty : TyUse
  deriving DecidableEq, Repr

/-- The fields of the va operations (07 R134). -/
def vaUse (k : Nat) : WideUse :=
  if k = 8 || k = 9 then WideUse.mk .v .v .no true .any
  else if k = 13 then WideUse.mk .v .v .no true .int
  else if k = 10 || k = 11 || k = 12 || k = 14 || k = 15 || k = 16 || k = 25 || k = 26 then
    WideUse.mk .v .v .v true .int
  else if k = 17 then WideUse.mk .e .v .v true .any
  else if k = 19 || k = 20 || k = 21 then WideUse.mk .v .v .no true .any
  else if k = 22 then WideUse.mk .v .v .v true .dot4
  else if k = 23 then WideUse.mk .v .v .no true .float
  else WideUse.mk .v .v .v true .any

/-- The fields of the vm operations (08 R154-R171). -/
def vmUse (k : Nat) : WideUse :=
  match k with
  | 0 => WideUse.mk .v .no .no true .any
  | 1 => WideUse.mk .no .v .no true .any
  | 2 => WideUse.mk .v .no .v true .upTo16
  | 3 => WideUse.mk .no .v .v true .upTo16
  | 4 => WideUse.mk .mode .mode .no true .any
  | 5 => WideUse.mk .v .no .no true .any
  | 6 => WideUse.mk .mode .mode .no false .any
  | 7 => WideUse.mk .v .v .v true .upTo16
  | 8 => WideUse.mk .v .v .mode true .any
  | 9 => WideUse.mk .v .v .no true .conv
  | 10 => WideUse.mk .v .v .v true .conv
  | 11 => WideUse.mk .v .v .no true .conv
  | 12 => WideUse.mk .v .no .no true .lines
  | 13 => WideUse.mk .no .v .mode false .lines
  | 14 => WideUse.mk .no .v .no true .upTo8
  | 15 => WideUse.mk .v .no .no true .upTo8
  | 16 => WideUse.mk .e .e .e false .no
  | 17 => WideUse.mk .e .e .e false .no
  | 18 => WideUse.mk .e .e .no false .no
  | 19 => WideUse.mk .no .e .no false .any
  | 20 => WideUse.mk .no .no .no false .no
  | 21 => WideUse.mk .no .no .no false .no
  | _ => WideUse.mk .f .no .no false .no

/-- The fields of opcode k of a wide unit; sf reads a and the mask (07 R144). -/
def wideUse (u k : Nat) : WideUse :=
  match u with
  | 4 => vaUse k
  | 5 => vmUse k
  | _ => WideUse.mk .v .v .no true .float

/-- A type code that an operation accepts (02 R46). -/
def TyUse.ok (t : TyUse) (code : Nat) : Bool :=
  match t with
  | .no => code == 0
  | .any => code ≤ 10
  | .float => code ≤ 2
  | .int => 3 ≤ code && code ≤ 10
  | .upTo16 => code ≤ 6
  | .upTo8 => code ≤ 8
  | .dot4 => code == 1 || code == 2 || code == 7 || code == 8
  | .conv => code ≤ 14
  | .lines => code ≤ 2 || (11 ≤ code && code ≤ 14)

/-- A register code below the size of the file its field names. A last-use bit beside a field that names a mask or format register
changes nothing: those files have no dead registers. Log: DESIGN CHOICE 151. -/
def FieldUse.ok (u : FieldUse) (code : Nat) (last : Bool) : Bool :=
  match u with
  | .no => code == 0 && !last
  | .v => code < 16
  | .mode => code < 16
  | .e => code < 8
  | .f => code < 8

/-- ILLEGAL_REGISTER is not raised at decode (02 R59, order 6). -/
def extRegOk (u k : Nat) (e : Ext) : Bool :=
  let w := wideUse u k
  w.d.ok e.d.toNat false && w.a.ok e.a.toNat e.aLast && w.b.ok e.b.toNat e.bLast && (w.mask || e.mask == 0)

/-- ILLEGAL_TYPE is not raised at decode (02 R59, order 7). -/
def extTyOk (u k : Nat) (e : Ext) : Bool := (wideUse u k).ty.ok e.ty.toNat

/-! The decode checks of one slot (02 R59). -/

/-- Units the butty-only profile lacks (02 R57). -/
def absentUnit (c u : Nat) : Bool := !isTile c && (u == 4 || u == 5 || u == 6 || u == 7 || u == 9)

/-- Order 2: the source is an absent unit's output port. -/
def srcAbsent (c : Nat) (x : Src) : Bool :=
  match x with
  | .out n => absentUnit c (n.val / 4)
  | _ => false

/-- Order 3: an absent unit's input port, or a stream special of the butty-only profile. -/
def dstAbsent (c dst : Nat) : Bool :=
  if 0x04A ≤ dst && dst ≤ 0x04C then !isTile c
  else if 0x050 ≤ dst && dst < 0x0F8 then absentUnit c ((dst - 0x050) / 14)
  else false

/-- The unit and opcode of a trigger code. -/
def trigOf (dst : Nat) : Option (Nat × Nat) :=
  if dst < 0x100 then none else some ((dst - 0x100) / 64, dst % 64)

/-- Class K: sy.tret, sy.keyld, sy.halt (02 R56). -/
def classK (u k : Nat) : Bool := u == 11 && (k == 5 || k == 6 || k == 13)

/-- Class B: fg.fwait (02 R56). -/
def classB (u k : Nat) : Bool := u == 10 && k == 5

/-- The check of one order, 2 to 7, on one slot (02 R59); every slot that decodes names used opcodes. -/
def orderFails (c : Nat) (motor : Bool) (x : Src) (dst : Nat) (e : Option Ext) (order : Nat) : Bool :=
  match order with
  | 2 => srcAbsent c x
  | 3 => dstAbsent c dst
  | 4 => match trigOf dst with
    | some t => absentUnit c t.1 || (classB t.1 t.2 && motor)
    | none => false
  | 5 => match trigOf dst with
    | some t => classK t.1 t.2 && isTile c
    | none => false
  | 6 => match trigOf dst, e with
    | some t, some w => !extRegOk t.1 t.2 w
    | _, _ => false
  | _ => match trigOf dst, e with
    | some t, some w => !extTyOk t.1 t.2 w
    | _, _ => false

/-- TIMING_FAULT in the motor stream, a wait in the butty stream (02 R54, 06 R118). -/
def timing (motor : Bool) : Check := if motor then .fault stTiming 0 else .stall

/-- Pushes of this cycle already on their way to a queue. -/
def Core.pushing (k : Core) (tick q : Nat) : Nat :=
  k.pend.countP (fun p => p.issue == tick && match p.act with
    | .push i _ => i == q
    | _ => false)

/-- Order 8 of one slot, whatever its guard (02 R40): an empty queue read, or a full queue pushed (02 R54). Log: DEDUCED 123. -/
def State.queueCheck (s : State) (c : Nat) (motor : Bool) (h : Head) (dst : Nat) : Check :=
  let k := s.core c
  let empty := match h.src with
    | .queue n => (sget [] k.regs.q n.toNat).isEmpty
    | _ => false
  let full := 0x0F8 ≤ dst && dst < 0x100 && 16 ≤ (sget [] k.regs.q (dst - 0x0F8)).length + k.pushing s.tick (dst - 0x0F8)
  if empty || full then timing motor else .ok

/-- The decode checks of one slot, in the order of 02 R59. -/
def State.decodeCheck (s : State) (c : Nat) (motor : Bool) (h : Head) (dst : Nat) (e : Option Ext) : Check :=
  let f := orderFails c motor h.src dst e
  firstFail [failIf (f 2) stSource 0, failIf (f 3) stDest 0, failIf (f 4) stOperation 0, failIf (f 5) stPrivilege 0,
    failIf (f 6) stRegister 0, failIf (f 7) stType 0, s.queueCheck c motor h dst]

/-! Wide operands (07 R133). -/

/-- The rounding mode in force: code 3 resolves to ARITH.drnd at issue (02 R47). -/
def Core.rnd (k : Core) (e : Ext) : Nat := if e.rnd = 3 then k.csr.drnd.toNat else e.rnd.toNat

/-- The operands of a wide operation as they stand at T. -/
def Core.wide (k : Core) (e : Ext) (v : Word) : WideIn :=
  { a := k.vreg e.a.toNat, b := k.vreg e.b.toNat, d := k.vreg e.d.toNat, e := k.mask e.mask.toNat, sc := v
    mode := k.rnd e }

/-- The element type of a type code, free-split types by f0-f3 at T. Log: DEDUCED 116. -/
def Core.ty (k : Core) (code : Nat) : ElTy := (typeOf k.freg code).getD (.int false 32)

/-- The type of an extension word. -/
def Core.extTy (k : Core) (e : Ext) : ElTy := k.ty e.ty.toNat

/-- Marks a physical register dead after its last use (02 R49). -/
def Core.markDead (k : Core) (phys : Nat) : Core :=
  { k with regs := { k.regs with dead := k.regs.dead ||| BitVec.ofNat 16 (2 ^ phys) } }

/-- The last-use bits of an operation: a marked register is dead unless the operation's d names it (02 R49). `d` is the
v register the operation writes, if any; `a` and `b` say whether the fields name v registers. -/
def Core.lastUse (k : Core) (e : Ext) (d : Option Nat) (a b : Bool) : Core :=
  let m := fun (k : Core) (use last : Bool) (n : Nat) =>
    if use && last && d != some n then k.markDead (physV k.regs.rotb n) else k
  m (m k a e.aLast e.a.toNat) b e.bLast e.b.toNat

end Sys2Proof.Machine
end

