-- ==== Sys2Proof/Machine/CheckCt.lean ====
section
/-! DEFINITION. The checks of the ct unit (15 R289): operand bits, transfers against delay bundles, frames and loops (15
R290-R296), locks against their group (14 R277, R278) and end bundles against their reach (14 R274). Reasons are the
positions of 15 R289, order 1. -/

namespace Sys2Proof.Machine

/-- The task of a core in its running timetable. -/
def State.task (s : State) (c : Nat) : Option Task :=
  match s.timetable c with
  | some t => t.tasks.find? (fun k => k.core == c)
  | none => none

/-- The reach-table entry of the current reach (03 R70). -/
def State.reach (s : State) (c : Nat) : Option Reach :=
  match s.task c with
  | some t => t.reaches[(s.core c).reachix]?
  | none => none

/-- The current reach is the task's last (14 R274). -/
def State.lastReach (s : State) (c : Nat) : Bool :=
  match s.task c with
  | some t => (s.core c).reachix + 1 == t.reaches.length
  | none => false

/-- The reach cycle after the bundle and its idle cycles. -/
def State.nextRcyc (s : State) (c : Nat) : Nat := s.rcyc c + (s.core c).latch.idle + 1

/-- The end bundle stands where the reach table puts it (14 R274). -/
def State.endsReach (s : State) (c : Nat) : Bool :=
  match s.reach c with
  | some r => s.nextRcyc c == r.len
  | none => false

/-- Group g of a timetable. -/
def Timetable.group (t : Timetable) (g : Nat) : Option Group := t.groups.find? (fun x => x.num == g)

/-- An arrival of a mode (1 lock, 2 garrive) by core c that 11 R218 refuses. -/
def Group.refuses (g : Group) (mode c : Nat) : Bool :=
  !bitOf g.map c || bitOf g.arrivals c || (g.mode != 0 && g.mode != mode)

/-- An arrival at group g that raises GROUP_FAULT (11 R218, R222). -/
def State.groupRefuses (s : State) (c mode g : Nat) : Bool :=
  match s.timetable c with
  | some t => match t.group g with
    | some x => x.refuses mode c
    | none => true
  | none => true

/-- The fields of a ct.loop operand and lcount (15 R293). -/
structure LoopArg where
  stages : Nat
  rot : Bool
  last : Nat
  count : Nat
  deriving DecidableEq, Repr

/-- The ct.loop operand with the stream's loop count (15 R293). -/
def loopArg (t : Stream) (v : Word) : LoopArg :=
  LoopArg.mk (bits v 19 17) (v.getLsbD 16) (bits v 13 0) t.lcount.toNat

/-- The trip count n (15 R293). -/
def LoopArg.trips (a : LoopArg) : Nat :=
  if a.count = 0 then 0 else if a.stages = 0 then a.count else a.count + a.stages - 1

/-- A loop fault of 15 R293. -/
def loopBad (t : Stream) (pc : Nat) (a : LoopArg) : Bool :=
  4 < a.stages || (a.stages != 0 && !a.rot) || a.last < pc + 1 || 2 ^ 32 ≤ a.count || 4 ≤ t.loops.length ||
    (match t.loops with
     | l :: _ => l.last < a.last
     | [] => false)

/-- A transfer whose delay bundles, or whose return index, pass the end of the innermost loop body (15 R296). -/
def pastBody (t : Stream) (n : Nat) : Bool :=
  match t.loops with
  | l :: _ => l.last < n
  | [] => false

/-- A target outside the innermost loop body (15 R296). -/
def outsideBody (t : Stream) (n : Int) : Bool :=
  match t.loops with
  | l :: _ => n < l.pcLoop + 1 || l.last < n
  | [] => false

/-- The target of br: pc plus the signed trigger (15 R291). -/
def brTarget (pc : Nat) (v : Word) : Int := pc + v.toInt

/-- Outside the bundle indices 0-16,383. -/
def notIndex (n : Int) : Bool := n < 0 || 16383 < n

/-- A lock condition on port i0-i3 (15 R298). -/
def condValid (v : Word) : Bool := v.getLsbD 31
/-- A nonzero reserved bit, a code of 6 or 7, or an invalid condition that is not all zero (15 R298). -/
def condBad (v : Word) : Bool :=
  if condValid v then bits v 30 19 != 0 || bits v 15 10 != 0 || 5 < bits v 18 16 else v != 0

/-- A condition as it stands at arrival. -/
def condOf (v : Word) : Cond := Cond.mk (bits v 9 0) (bits v 18 16) (bits v 63 32)

/-- CONTROL_FAULT with the position of its cause. -/
def ctFail (b : Bool) (reason : Nat) : Check := failIf b stControl reason

/-- The checks of opcode k of ct with trigger operand v. Log: DEDUCED 24, 25. -/
def ctCheck (s : State) (c : Nat) (motor : Bool) (k : Nat) (v : Word) : Check :=
  let r := s.core c
  let t := r.stream motor
  let pc := r.latch.pc
  let inDelay := t.delay.isSome
  let taken := r.inp 2 0 != 0
  match k with
  | 0 => firstFail [ctFail (notIndex (brTarget pc v)) 2, ctFail inDelay 3, ctFail (pastBody t (pc + 2)) 6,
      ctFail (taken && outsideBody t (brTarget pc v)) 7]
  | 1 => firstFail [ctFail (bits v 63 14 != 0) 1, ctFail inDelay 3, ctFail (pastBody t (pc + 2)) 6,
      ctFail (outsideBody t (bits v 13 0)) 7]
  | 2 => firstFail [ctFail (bits v 63 14 != 0) 1, ctFail (notIndex (pc + 3)) 2, ctFail inDelay 3,
      ctFail (8 ≤ t.frames.length) 4, ctFail (pastBody t (pc + 3)) 6, ctFail (outsideBody t (bits v 13 0)) 7]
  | 3 => firstFail [ctFail inDelay 3, ctFail t.frames.isEmpty 4, ctFail (!t.loops.isEmpty) 5]
  | 4 => firstFail [ctFail (bits v 63 20 != 0 || bits v 15 14 != 0) 1, ctFail inDelay 3,
      ctFail (loopBad t pc (loopArg t v)) 6]
  | 6 =>
    let conds := motor && [0, 1, 2, 3].any (fun i => condBad (r.inp 2 i))
    firstFail [ctFail (bits v 63 8 != 0) 1, ctFail conds 8,
      failIf (!isTile c || (motor && s.groupRefuses c 1 (bits v 7 0))) stGroup 0,
      failIf (motor && (!s.endsReach c || s.lastReach c || !t.loops.isEmpty || !t.frames.isEmpty || inDelay)) stTiming 0]
  | 7 => firstFail [ctFail inDelay 3, failIf (motor && (!s.endsReach c || !s.lastReach c)) stTiming 0]
  | 8 => ctFail (bits v 63 16 != 0) 1
  | 9 =>
    let on := match s.part (s.viewPart c) with
      | some p => p.csr.dbgctl
      | none => false
    failIf on stDebugStop 0
  | _ => .ok

end Sys2Proof.Machine
end

