-- ==== Sys2Proof/Machine/CheckLs.lean ====
section
/-! DEFINITION. The checks of ls (11 R202, 17 R330-R339) and of fg (11 R210, R213, R214, R218-R222), in the order of their
tables. -/

namespace Sys2Proof.Machine

/-! Ports of ls. -/

/-- Register cs or the memory capability: bits 3:0 of i0. -/
def lsCs (k : Core) : Nat := bits (k.inp 3 0) 3 0
/-- Register cd: bits 3:0 of i2. -/
def lsCd (k : Core) : Nat := bits (k.inp 3 2) 3 0
/-- Register cv of stcap: bits 3:0 of i1. -/
def lsCv (k : Core) : Nat := bits (k.inp 3 1) 3 0
/-- Bits 63:4 of a port are zero. -/
def hi4 (v : Word) : Bool := bits v 63 4 == 0

/-- ACCESS_FAULT with the position of its cause. -/
def lsFail (b : Bool) (reason : Nat) : Check := failIf b stAccess reason

/-- CAPABILITY_FAULT with a reason of 19 R369. -/
def capFail (b : Bool) (reason : Nat) : Check := failIf b stCap reason

/-- A memory operation of ls: bytes covered, alignment, permissions needed, and whether it is a store (11 R201, 17
R333). -/
structure LsMem where
  size : Nat
  need : Nat
  store : Bool
  deriving DecidableEq, Repr

/-- The memory operations of ls by opcode. -/
def lsMem (k : Nat) : LsMem :=
  match k with
  | 0 => LsMem.mk 1 pRead false
  | 1 => LsMem.mk 1 pRead false
  | 2 => LsMem.mk 2 pRead false
  | 3 => LsMem.mk 2 pRead false
  | 4 => LsMem.mk 4 pRead false
  | 5 => LsMem.mk 4 pRead false
  | 6 => LsMem.mk 8 pRead false
  | 7 => LsMem.mk 1 pWrite true
  | 8 => LsMem.mk 2 pWrite true
  | 9 => LsMem.mk 4 pWrite true
  | 10 => LsMem.mk 8 pWrite true
  | 11 => LsMem.mk 64 pRead false
  | 12 => LsMem.mk 64 pLabel true
  | 13 => LsMem.mk 16 (pRead + pWrite) false
  | _ => LsMem.mk 16 pWrite true

/-- A second tagged copy without derive in its source (17 R331). -/
def deriveFails (cs : Cap) (from_ to_ : Nat) : Bool := cs.tag && from_ != to_ && !hasPerm cs.perm pDerive

/-- The checks of a memory operation of ls. -/
def lsMemCheck (s : State) (c k : Nat) (v : Word) : Check :=
  let r := s.core c
  let m := lsMem k
  let cap := r.capReg (lsCs r)
  let a := cap.base + v.toNat
  let o := ownerOf c cap.space a
  let cv := r.capReg (lsCv r)
  firstFail [
    lsFail (!hi4 (r.inp 3 0) || (k == 13 && !hi4 (r.inp 3 2)) || (k == 14 && !hi4 (r.inp 3 1))) 1,
    lsFail (a % m.size != 0) 2,
    checkMem s c cap [0, 1, 6] m.need v.toNat m.size,
    failIf (m.store && s.guarded o.1 o.2 m.size) stRace 0,
    capFail (k == 14 && cv.tag && cv.holder == holderNum c && !hasPerm cv.perm pDerive) rsDerive]

/-- cbound from a window root: the entry it names and the issuing core's (17 R334). -/
def cboundRoot (s : State) (c : Nat) (cs : Cap) (e len : Nat) : Check :=
  let i := cs.base + e
  firstFail [
    capFail (cs.length ≤ e) rsBounds,
    capFail (s.winDir i != 1 || s.winCore i != c) rsWindow,
    capFail (s.winLen i < len) rsBounds]

/-- cbound (17 R334). -/
def cboundCheck (s : State) (c : Nat) (v : Word) : Check :=
  let r := s.core c
  let cs := r.capReg (lsCs r)
  let len := (r.inp 3 1).toNat
  firstFail [
    capFail (!cs.tag) rsTag,
    capFail (cs.kind != 0) rsKind,
    capFail (cs.space == 7) rsSpace,
    if cs.isRoot then cboundRoot s c cs v.toNat len
    else capFail (cs.length < v.toNat + len || (cs.space == 5 && v != 0)) rsBounds,
    capFail (deriveFails cs (lsCs r) (lsCd r)) rsDerive]

/-- cmove (17 R335). -/
def cmoveCheck (cs : Cap) : Check :=
  firstFail [
    capFail (!cs.tag) rsTag,
    capFail (cs.kind != 0) rsKind,
    capFail (!(cs.space == 1 || cs.space == 3 || cs.space == 4 || cs.space == 5) || cs.isRoot) rsSpace,
    capFail (!hasPerm cs.perm pHand) rsPerm]

/-! Hand-over (17 R339). -/

/-- The owner of a hand's range and the range in whole lines: first line and how many. -/
def handRange (c : Nat) (cap : Cap) : Nat × Nat × Nat :=
  let o := ownerOf c cap.space cap.base
  (o.1, o.2 / 64, cap.length / 64)

/-- An entry that is valid or in transit. -/
def HandEnt.occupied (e : HandEnt) : Bool := e.valid || e.transit

/-- Occupied entry equal to a range. -/
def Core.handEqual (k : Core) (first lines : Nat) : Option Nat :=
  (List.range 8).find? (fun i => (k.handEnt i).occupied && (k.handEnt i).first == first && (k.handEnt i).lines == lines)

/-- Some occupied entry overlaps a range. -/
def Core.handOverlap (k : Core) (first lines : Nat) : Bool :=
  (List.range 8).any (fun i => (k.handEnt i).occupied && (k.handEnt i).meets (64 * first) (64 * lines))

/-- An unoccupied entry. -/
def Core.handFree (k : Core) : Option Nat := (List.range 8).find? (fun i => !(k.handEnt i).occupied)

/-- What a hand does (17 R339). -/
inductive HandStep where
  | nothing
  /-- The issuer hands on, or back, what entry i gives it. -/
  | pass (i : Nat)
  /-- The owner takes free entry i. -/
  | take (i : Nat)
  | refuse
  deriving DecidableEq, Repr

/-- hand(R, O, h) as the table of 17 R339 decides it. -/
def handStep (s : State) (c : Nat) (cap : Cap) (h : Nat) : HandStep :=
  let g := handRange c cap
  let o := s.core g.1
  match o.handEqual g.2.1 g.2.2 with
  | some i =>
    if !(o.handEnt i).transit && (o.handEnt i).holder == c % 8 then
      (if h = c % 8 then .nothing else .pass i)
    else .refuse
  | none =>
    if o.handOverlap g.2.1 g.2.2 || g.1 != c then .refuse
    else if h = c % 8 then .nothing
    else match o.handFree with
      | some i => .take i
      | none => .refuse

/-- The checks of ls.hand. -/
def handCheck (s : State) (c : Nat) (v : Word) : Check :=
  let r := s.core c
  let cap := r.capReg (lsCs r)
  firstFail [
    capFail (!cap.tag) rsTag,
    capFail (cap.kind != 0) rsKind,
    capFail (!(cap.space == 0 || cap.space == 1)) rsSpace,
    capFail (cap.holder != holderNum c) rsHolder,
    capFail (!hasPerm cap.perm pHand) rsPerm,
    capFail (cap.length == 0 || cap.base % 64 != 0 || cap.length % 64 != 0 ||
      (cap.space == 1 && cap.base / 2 ^ 21 != (cap.base + cap.length - 1) / 2 ^ 21)) rsBounds,
    capFail (handStep s c cap (bits v 2 0) == .refuse) rsHand]

/-- The checks of opcode k of ls with trigger operand v. -/
def lsCheck (s : State) (c k : Nat) (v : Word) : Check :=
  let r := s.core c
  let cs := r.capReg (lsCs r)
  let cap2 := lsFail (!hi4 (r.inp 3 0) || !hi4 (r.inp 3 2)) 1
  if k ≤ 14 then lsMemCheck s c k v
  else match k with
    | 15 => cap2.and (cboundCheck s c v)
    | 16 => firstFail [cap2, lsFail (bits v 63 3 != 0) 1, cmoveCheck cs]
    | 17 => firstFail [cap2, lsFail (bits v 63 8 != 0) 1, capFail (!cs.tag) rsTag,
        capFail (deriveFails cs (lsCs r) (lsCd r)) rsDerive]
    | 21 => cap2.and (capFail (deriveFails cs (lsCs r) (lsCd r)) rsDerive)
    | 22 => lsFail (!hi4 (r.inp 3 2)) 1
    | 23 => (lsFail (!hi4 (r.inp 3 0) || bits v 63 3 != 0) 1).and (handCheck s c v)
    | _ => lsFail (!hi4 (r.inp 3 0)) 1

/-! fg. -/

/-- The flag capability: bits 3:0 of fg.i0. -/
def fgCap (k : Core) : Cap := k.capReg (bits (k.inp 10 0) 3 0)

/-- The permissions of a flag operation (11 R210); fadd and fcas need both. -/
def fgNeed (k : Nat) : Nat :=
  match k with
  | 0 => pWrite
  | 1 => pRead + pWrite
  | 2 => pRead + pWrite
  | 6 => pWrite
  | 7 => pWrite
  | _ => pRead

/-- The table of 11 R210 on flag v with a permission; `badBits` and `badCond` are the operation's own causes 3 and 4. -/
def flagCheck (s : State) (c k : Nat) (v : Word) (badBits badCond : Bool) : Check :=
  let r := s.core c
  let cap := fgCap r
  firstFail [
    failIf (!hi4 (r.inp 10 0)) stFlag 1,
    failIf (cap.base % 4 != 0) stFlag 2,
    failIf badBits stFlag 3,
    failIf badCond stFlag 4,
    checkFlag s c cap (fgNeed k) v.toNat]

/-- GROUP_FAULT. -/
def groupFail (b : Bool) : Check := failIf b stGroup 0

/-- Core c is a member of group g of its running timetable. -/
def State.inGroup (s : State) (c g : Nat) : Bool :=
  match s.timetable c with
  | some t => t.groups.any (fun x => x.num == g && bitOf x.map c)
  | none => false

/-- A garrive that 11 R218 refuses. -/
def State.garriveRefused (s : State) (c g : Nat) : Bool :=
  match s.timetable c with
  | some t => match t.groups.find? (fun x => x.num == g) with
    | some x => !bitOf x.map c || bitOf x.arrivals c || x.mode == 1
    | none => true
  | none => true

/-- The checks of opcode k of fg with trigger operand v. -/
def fgCheck (s : State) (c k : Nat) (v : Word) : Check :=
  let r := s.core c
  let i1 := r.inp 10 1
  match k with
  | 4 => flagCheck s c k v (bits i1 63 7 != 0 || i1.getLsbD 3) (5 < bits i1 6 4)
  | 5 => flagCheck s c k v (bits i1 63 7 != 0 || bits i1 3 0 != 0) (5 < bits i1 6 4)
  | 7 => firstFail [groupFail (!isTile c || bits i1 63 8 != 0), flagCheck s c k v false false,
      groupFail (s.garriveRefused c (bits i1 7 0))]
  | 8 => groupFail (!isTile c || bits i1 63 8 != 0 || (r.inp 10 2).toNat < 896 || 1023 < (r.inp 10 2).toNat ||
      !s.inGroup c (bits i1 7 0))
  | 9 => groupFail (!isTile c || bits v 63 8 != 0)
  | _ => flagCheck s c k v false false

end Sys2Proof.Machine
end

