-- ==== Sys2Proof/Machine/CheckVm.lean ====
section
/-! DEFINITION. The checks of the press (06 R120), of vm (08 R153) and of sf (07 R145), in the order of their tables. -/

namespace Sys2Proof.Machine

/-- The failing check with the lowest reason, over several extents of one access: reasons follow the order of 17 R330 but
for holder and permission, which no extent decides. -/
def worst : Check → Check → Check
  | .fault a r, .fault b q => if q < r then .fault b q else .fault a r
  | .ok, x => x
  | x, _ => x

/-- All checks of one order: the first failing cause over all of them. -/
def worstOf (l : List Check) : Check := l.foldr worst .ok

/-- A resource is busy: TIMING_FAULT in the motor stream, a wait in the butty stream (06 R118). -/
def busyCheck (s : State) (c : Nat) (motor : Bool) (r : Nat) : Check :=
  if (s.core c).isBusy r s.tick then timing motor else .ok

/-! Resource numbers (06 R117, 07 R145). -/

def rsTile (t : Nat) : Nat := t
def rsLoad (q : Nat) : Nat := 8 + q
def rsUse (q : Nat) : Nat := 12 + q
def rsApath : Nat := 16
def rsSf : Nat := 17

/-! The press. -/

/-- PRESS_FAULT with the position of its cause in 06 R120. -/
def prFail (b : Bool) (reason : Nat) : Check := failIf b stPress reason

/-- The capability of a press operand: bits 3:0 of pr.i0. -/
def prCap (k : Core) : Cap := k.capReg (bits (k.inp 7 0) 3 0)

/-- A tile is lent to the vector unit (06 R119). -/
def Core.lentTile (k : Core) (t : Nat) : Bool := bitOf k.press.lent.toNat t

/-- Bytes in a whole number of lines that n elements of width w fill (06 R121, R123). -/
def lineBytes (n w : Nat) : Nat := 64 * ((n * w + 511) / 512)

/-- The operand runs of a press load: offset of run n and its bytes. -/
def pressRuns (off pitch n bytes : Nat) : List (Nat × Nat) := (List.range n).map (fun i => (off + i * pitch, bytes))

/-- The lines of a run in the scratchpad. -/
def runLines (base : Nat) (r : Nat × Nat) : List Nat := (List.range (r.2 / 64)).map (fun i => base + r.1 + 64 * i)

/-- LABEL_FAULT of a press operand line (06 R120, order 4). -/
def pressLabelBad (s : State) (c : Nat) (f : PFmt) (off : Nat) : Bool :=
  let i := s.lineFidx c off
  i != 0 && (!f.isFs || s.fmtEntry c i == 0 || bitsOf (s.fmtEntry c i) 18 0 != f.desc % 2 ^ 19)

/-- Orders 3 to 5 on the lines of a press operand in format f. -/
def pressLines (s : State) (c : Nat) (f : PFmt) (runs : List (Nat × Nat)) : Check :=
  let cap := prCap (s.core c)
  let lines := runs.flatMap (runLines cap.base)
  firstFail [
    worstOf (runs.map (fun r => checkMem s c cap [0, 6] pRead r.1 r.2)),
    failIf (lines.any (pressLabelBad s c f)) stLabel 0,
    failIf (lines.any (fun o => (s.lineMeta c o).scaleBad)) stScale 0]

/-- An offset or pitch that is no multiple of 64 or not below 2^21. -/
def offBad (v : Nat) : Bool := v % 64 != 0 || 2 ^ 21 ≤ v

/-- The fields of a pr.cask operand (06 R121). -/
def caskKc (v : Word) : Nat := bits v 19 11
def caskNc (v : Word) : Nat := bits v 10 2
def caskQ (v : Word) : Nat := bits v 1 0

/-- The fields of a pr.mm or pr.mmz operand (06 R123). -/
def mmKc (v : Word) : Nat := bits v 18 10
def mmRows (v : Word) : Nat := bits v 9 5 + 1
def mmQ (v : Word) : Nat := bits v 4 3
def mmT (v : Word) : Nat := bits v 2 0
def mmMask (v : Word) : Nat := bits v 21 19

/-- pr.cask (06 R120, R121). -/
def caskCheck (s : State) (c : Nat) (motor : Bool) (v : Word) : Check :=
  let r := s.core c
  let f := r.press.fb
  let off := (r.inp 7 1).toNat
  let pitch := (r.inp 7 2).toNat
  let kc := caskKc v
  firstFail [
    prFail (bits v 63 20 != 0 || bits (r.inp 7 0) 63 4 != 0) 1,
    prFail (kc < 8 || 256 < kc || kc % 8 != 0 || caskNc v == 0 || (if f.is16 then 128 else 256) < caskNc v) 2,
    prFail (offBad off || offBad pitch) 3,
    prFail (!((prCap r).space == 0 || (prCap r).space == 6)) 4,
    pressLines s c f (pressRuns off pitch (caskNc v) (lineBytes kc f.ty.cont)),
    busyCheck s c motor (rsLoad (caskQ v)),
    busyCheck s c motor (rsUse (caskQ v))]

/-- pr.mm and pr.mmz (06 R120, R123). -/
def mmCheck (s : State) (c : Nat) (motor : Bool) (v : Word) : Check :=
  let r := s.core c
  let f := r.press.fa
  let off := (r.inp 7 1).toNat
  let pitch := (r.inp 7 2).toNat
  let kc := mmKc v
  firstFail [
    prFail (bits v 63 22 != 0 || bits (r.inp 7 0) 63 4 != 0) 1,
    prFail (kc == 0 || 256 < kc) 2,
    prFail (offBad off || offBad pitch) 3,
    prFail (!((prCap r).space == 0 || (prCap r).space == 6)) 4,
    prFail (r.lentTile (mmT v)) 5,
    failIf (!passTypesOk f r.press.fb r.press.mode) stType 0,
    pressLines s c f (pressRuns off pitch (mmRows v) (lineBytes kc f.ty.cont)),
    busyCheck s c motor (rsTile (mmT v)),
    busyCheck s c motor rsApath,
    busyCheck s c motor (rsLoad (mmQ v))]

/-- A selector of pr.fmt: outside 06 R115, or an invalid descriptor in the register it names. -/
def selBad (k : Core) (n : Nat) : Bool := !pselOk n || (11 ≤ n && !fregValid (k.freg (n - 11)))

/-- The checks of opcode k of pr with trigger operand v. -/
def prCheck (s : State) (c : Nat) (motor : Bool) (k : Nat) (v : Word) : Check :=
  let r := s.core c
  match k with
  | 0 => caskCheck s c motor v
  | 1 => mmCheck s c motor v
  | 2 => mmCheck s c motor v
  | 3 => firstFail [prFail (bits v 63 3 != 0) 1, prFail (r.lentTile (bits v 2 0)) 5,
      busyCheck s c motor (rsTile (bits v 2 0))]
  | 4 => firstFail [prFail (bits v 63 3 != 0) 1, prFail (4 < bits v 2 0) 2]
  | 5 => firstFail [prFail (bits v 63 8 != 0) 1, failIf (selBad r (bits v 3 0) || selBad r (bits v 7 4)) stType 0]
  | _ => .ok

/-! vm. -/

/-- VECTOR_FAULT with the position of its cause in 08 R153. -/
def vmFail (b : Bool) (reason : Nat) : Check := failIf b stVector reason

/-- The capability of a vm memory operation: bits 3:0 of vm.i0. -/
def vmCap (k : Core) : Cap := k.capReg (bits (k.inp 5 0) 3 0)

/-- Bits 63:4 of vm.i0 are set. -/
def vmI0Bad (k : Core) : Bool := bits (k.inp 5 0) 63 4 != 0

/-- A field left unused by the mode in force is not 0 (08 R153, order 2). -/
def fieldSet (code : Nat) (last : Bool) : Bool := code != 0 || last

/-- ILLEGAL_REGISTER. -/
def regFail (b : Bool) : Check := failIf b stRegister 0

/-- The owner's bytes that a masked row store writes: bit set per byte, and the bits written of each. -/
def rowCells (addr : Nat) (row sel : Row) : List (Nat × Byte × Byte) :=
  ((List.range 1024).map (fun i => (addr + i, row.extractLsb' (8 * i) 8, sel.extractLsb' (8 * i) 8))).filter
    (fun p => p.2.2 != 0)

/-- Some byte of a list of cells is guarded (11 R206). Log: DEDUCED 31. -/
def State.cellsGuarded (s : State) (owner : Nat) (cells : List (Nat × Byte × Byte)) : Bool :=
  cells.any (fun p => s.guarded owner p.1 1)

/-- The lanes of a masked access of an extension word in its type's view. -/
def Core.laneSel (k : Core) (e : Ext) : Row :=
  let t := k.extTy e
  laneBits t.cont (maskLanes (k.mask e.mask.toNat) t.lanes)

/-- Order 4 of a masked row store at the offsets it writes, which ascend: each byte passes; together they lie in one scratchpad of space 1
and under one entry of its hand table, or in the target of one receive entry (08 R153, 17 R330). Log: DEDUCED 29. -/
def storeCheck (s : State) (c : Nat) (cap : Cap) (offs : List Nat) : Check :=
  let a := offs.headD 0
  let n := offs.getLastD 0 + 1 - a
  worstOf (offs.map (fun x => checkMem s c cap [0, 1, 6] pWrite x 1) ++
    (if offs.isEmpty then []
     else if cap.space = 1 then [checkMem s c cap [0, 1, 6] pWrite a n]
     else [failIf (cap.space == 6 && (s.recvEntry c (cap.base + a) n).isNone) stCap rsWindow]))

/-- vm.ld and vm.st (08 R154): a load reads its whole row, a store writes the bytes of its selected lanes (08 R153, order 4). Of a store
with no lane selected, as of vm.ldx and vm.stx, the space alone is checked. Log: DEDUCED 29; DESIGN CHOICE 152. -/
def vmRowCheck (s : State) (c : Nat) (e : Ext) (v : Word) (store : Bool) : Check :=
  let r := s.core c
  let cap := vmCap r
  let o := ownerOf c cap.space (cap.base + v.toNat)
  firstFail [
    vmFail (vmI0Bad r) 1,
    vmFail (offBad v.toNat) 3,
    if store then storeCheck s c cap ((rowCells v.toNat (r.vreg e.a.toNat) (r.laneSel e)).map (fun p => p.1))
    else checkMem s c cap [0, 1, 6] pRead v.toNat 1024,
    failIf (!(cap.space == 0 || cap.space == 1 || cap.space == 6)) stCap rsSpace,
    failIf (store && s.cellsGuarded o.1 (rowCells o.2 (r.vreg e.a.toNat) (r.laneSel e))) stRace 0]

/-- Offsets of the selected lanes of vm.ldx and vm.stx, with their lanes (08 R155). -/
def Core.laneOffsets (k : Core) (e : Ext) (v : Word) : List (Nat × Nat) :=
  let t := k.extTy e
  let m := maskLanes (k.mask e.mask.toNat) t.lanes
  ((List.range t.lanes).zip ((rowCodes t.cont (k.vreg e.b.toNat)).zip m)).filterMap (fun p =>
    if p.2.2 then some (p.1, v.toNat + p.2.1 * (t.cont / 8)) else none)

/-- vm.ldx and vm.stx (08 R155). Log: DESIGN CHOICE 152. -/
def vmIndexCheck (s : State) (c : Nat) (e : Ext) (v : Word) (store : Bool) : Check :=
  let r := s.core c
  let cap := vmCap r
  let n := (r.extTy e).cont / 8
  let offs := r.laneOffsets e v
  firstFail [
    vmFail (vmI0Bad r) 1,
    vmFail (v.toNat % n != 0) 3,
    worstOf (offs.map (fun p => checkMem s c cap [0, 1, 6] (if store then pWrite else pRead) p.2 n)),
    failIf (!(cap.space == 0 || cap.space == 1 || cap.space == 6)) stCap rsSpace,
    failIf (store && offs.any (fun p =>
      let o := ownerOf c cap.space (cap.base + p.2)
      s.guarded o.1 o.2 n)) stRace 0]

/-- vm.mov: direction and main-file row (08 R156). Log: DEDUCED 28. -/
def movDir (v : Word) : Nat := bits v 9 8
def movRow (v : Word) : Nat := bits v 7 0

/-- vm.mov (08 R156). -/
def vmMovCheck (s : State) (c : Nat) (motor : Bool) (e : Ext) (v : Word) : Check :=
  let r := s.core c
  firstFail [
    vmFail (bits v 63 10 != 0) 1,
    vmFail (movDir v == 3 || (movDir v == 0 && movRow v != 0)) 2,
    vmFail (movDir v != 0 && !r.lentTile (movRow v / 32)) 4,
    regFail ((movDir v == 1 && fieldSet e.a.toNat e.aLast) || (movDir v == 2 && e.d != 0)),
    if movDir v = 0 then .ok else busyCheck s c motor (rsTile (movRow v / 32))]

/-- vm.lane (08 R158). -/
def vmLaneCheck (s : State) (c : Nat) (e : Ext) (v : Word) : Check :=
  let r := s.core c
  firstFail [
    vmFail (bits v 63 12 != 0) 1,
    vmFail ((r.extTy e).lanes ≤ bits v 10 0) 2,
    regFail (if v.getLsbD 11 then fieldSet e.a.toNat e.aLast else e.d != 0)]

/-- vm.shuf (08 R160). -/
def vmShufCheck (s : State) (c : Nat) (e : Ext) (v : Word) : Check :=
  let n := ((s.core c).extTy e).lanes
  let pat := bits v 3 0
  let k := bits v 15 4
  firstFail [
    vmFail (bits v 63 16 != 0) 1,
    vmFail (6 < pat || (pat < 5 && k != 0) || n ≤ k) 2,
    regFail (4 ≤ pat && fieldSet e.b.toNat e.bLast)]

/-- The width rule of 08 R162 and the range of its part field, for opcodes 9 cvt, 10 pack, 11 unpack. -/
def convFits (k td ts : Nat) : Bool :=
  match k with
  | 9 => td == ts
  | 10 => 2 * ts ≤ td && td % ts == 0
  | _ => 2 * td ≤ ts && ts % td == 0

/-- The parts of a conversion. -/
def convParts (k td ts : Nat) : Nat :=
  match k with
  | 9 => 1
  | 10 => td / ts / 2
  | _ => ts / td

/-- vm.cvt, vm.pack and vm.unpack (08 R161, R162): the part is judged on an accepted pair only. -/
def vmConvCheck (s : State) (c k : Nat) (e : Ext) (v : Word) : Check :=
  let r := s.core c
  (vmFail (bits v 63 8 != 0) 1).and
    (match typeOf r.freg e.ty.toNat, typeOf r.freg (bits v 3 0) with
     | some td, some ts =>
       if convFits k td.lanes ts.lanes then vmFail (convParts k td.lanes ts.lanes ≤ bits v 7 5) 2
       else .fault stType 0
     | _, _ => .fault stType 0)

/-- The control word of decode and encode (08 R163). -/
def ctlFsel (v : Word) : Nat := bits v 23 20
def ctlSmode (v : Word) : Nat := bits v 19 18
def ctlLscale (v : Word) : Nat := bits v 15 8
def ctlFidx (v : Word) : Nat := bits v 7 0

/-- Lines that n elements of container c fill (08 R163). -/
def elemLines (n c : Nat) : Nat := n * c / 512

/-- The container of a descriptor (04 R73). -/
def descCont (desc : Nat) : Nat := (fmtOf desc).cont

/-- The offset in a capability of byte a of the scratchpad it reaches for an owner; one that no bounds hold for a byte below its
base. -/
def Cap.offsetOf (cap : Cap) (owner a : Nat) : Nat :=
  let x := if cap.space = 1 then owner % 8 * 2 ^ 21 + a else a
  if cap.base ≤ x then x - cap.base else 2 ^ 64

/-- Order 4 of a decode or encode: its lines, and the `len` bytes it reads or writes in each scale slot (08 R153).
Log: DEDUCED 29. -/
def extentCheck (s : State) (c need off lines : Nat) (slots : List (Option Nat)) (len : Nat) : Check :=
  let cap := vmCap (s.core c)
  let o := ownerOf c cap.space (cap.base + off)
  worstOf (checkMem s c cap [0, 1, 6] need off (64 * lines) :: slots.map (fun x => match x with
    | some a => checkMem s c cap [0, 1, 6] need (cap.offsetOf o.1 a) len
    | none => .ok))

/-- The scale bytes that a line of an entry holds: one for each block (04 R91). -/
def lineBlocks (desc : Nat) : Nat := 512 / descCont desc / entryGrain desc

/-- Orders 4 to 6 of a decode over `lines` lines at offset off: capability, labels, scales. Where the capability's base is no multiple of
64 the lines are runs of 64 bytes, each with the label and scale slot of the line of its first byte. Log: DESIGN CHOICE 164. -/
def linesCheck (s : State) (c need off lines : Nat) (fidx : Option Nat) : Check :=
  let cap := vmCap (s.core c)
  let o := ownerOf c cap.space (cap.base + off)
  let ls := (List.range lines).map (fun i => o.2 + 64 * i)
  let desc := s.fmtEntry o.1 (fidx.getD 0)
  firstFail [
    extentCheck s c need off lines
      (if fidx.isSome && entryGrain desc != 0 then ls.map (fun l => scaleSlot (s.core o.1).csr.scalemap l) else [])
      (lineBlocks desc),
    match fidx with
    | some f => failIf (ls.any (fun l => s.lineFidx o.1 l != f)) stLabel 0
    | none => .ok,
    match fidx with
    | some _ => failIf (ls.any (fun l => (s.lineMeta o.1 l).scaleBad)) stScale 0
    | none => .ok]

/-- vm.decode (08 R153, R163, R164). -/
def vmDecodeCheck (s : State) (c : Nat) (e : Ext) (v : Word) : Check :=
  let r := s.core c
  let w := r.inp 5 1
  let fsel := ctlFsel w
  let cap := vmCap r
  let o := ownerOf c cap.space (cap.base + v.toNat)
  let fidx := s.lineFidx o.1 o.2
  firstFail [
    vmFail (vmI0Bad r || bits w 63 24 != 0 || bits w 19 0 != 0 || (1 ≤ fsel && fsel ≤ 7)) 1,
    vmFail (v.toNat % 64 != 0) 3,
    failIf (typeOf r.freg e.ty.toNat).isNone stType 0,
    if fsel = 0 then
      firstFail [
        checkMem s c cap [0, 1, 6] pRead v.toNat 64,
        failIf (fidx == 0 || s.fmtEntry c fidx == 0) stLabel 0,
        linesCheck s c pRead v.toNat (elemLines (r.extTy e).lanes (descCont (s.fmtEntry c fidx))) (some fidx)]
    else
      (failIf (!fregValid (r.freg (fsel - 8))) stType 0).and
        (linesCheck s c pRead v.toNat (elemLines (r.extTy e).lanes (descCont (r.freg (fsel - 8)).toNat)) none)]

/-- What an encode takes its format and grain from: entry fidx, or a format register (08 R163). -/
def encDesc (s : State) (c : Nat) (w : Word) : Nat :=
  if ctlFsel w = 0 then s.fmtEntry c (ctlFidx w) else ((s.core c).freg (ctlFsel w - 8)).toNat

/-- The grain of an encode: 0 for raw lines. -/
def encGrain (s : State) (c : Nat) (w : Word) : Nat := if ctlFsel w = 0 then entryGrain (encDesc s c w) else 0

/-- The lines of an encode and, where it writes scale bytes, their slots in the owner's scratchpad. -/
def encSlots (s : State) (owner off lines : Nat) : List (Option Nat) :=
  (List.range lines).map (fun i => scaleSlot (s.core owner).csr.scalemap (off + 64 * i))

/-- vm.encode (08 R153, R163, R165, R166). -/
def vmEncodeCheck (s : State) (c : Nat) (e : Ext) (v : Word) : Check :=
  let r := s.core c
  let w := r.inp 5 1
  let fsel := ctlFsel w
  let smode := ctlSmode w
  let desc := encDesc s c w
  let grain := encGrain s c w
  let known := fsel != 0 || desc != 0
  let cap := vmCap r
  let o := ownerOf c cap.space (cap.base + v.toNat)
  let n := elemLines (r.extTy e).lanes (descCont desc)
  let slots := encSlots s o.1 o.2 n
  firstFail [
    vmFail (vmI0Bad r || bits w 63 24 != 0 || bits w 17 16 != 0 || (1 ≤ fsel && fsel ≤ 7) || smode == 3 ||
      (fsel == 0 && ctlFidx w == 0) || (fsel != 0 && (ctlFidx w != 0 || smode != 0)) ||
      (fsel == 0 && desc != 0 && grain == 0 && smode != 0)) 1,
    vmFail (v.toNat % 64 != 0) 3,
    vmFail (grain != 0 && ((smode == 1 && bitsOf desc 31 24 != 0) ||
      (smode == 2 && (oneCode (s.scaleFmt c desc)).isNone))) 6,
    regFail ((smode != 0 || (known && grain == 0)) && fieldSet e.b.toNat e.bLast),
    failIf (typeOf r.freg e.ty.toNat).isNone stType 0,
    failIf (fsel != 0 && !fregValid (r.freg (fsel - 8))) stType 0,
    failIf (!known) stLabel 0,
    extentCheck s c (pWrite + pLabel) v.toNat n (if grain = 0 then [] else slots) 16,
    failIf (grain != 0 && slots.any Option.isNone) stScale 0,
    failIf (s.guarded o.1 o.2 (64 * n) || (grain != 0 && slots.any (fun x => s.guarded o.1 (x.getD 0) 16))) stRace 0]

/-- The stream buffer cannot be used (08 R167). -/
def SBuf.bad (b : SBuf) : Bool :=
  b.base % 64 != 0 || b.len % 64 != 0 || b.len == 0 || 2 ^ 21 < b.base + b.len || b.len ≤ b.head || b.len < b.fill

/-- Bytes a push or pop moves: selected lanes times their size (08 R168). -/
def Core.streamBytes (k : Core) (e : Ext) : Nat :=
  let t := k.extTy e
  maskCount (k.mask e.mask.toNat) t.lanes * (t.cont / 8)

/-- The ring addresses of n bytes from a ring offset. -/
def SBuf.addrs (b : SBuf) (start n : Nat) : List Nat := (List.range n).map (fun i => b.base + (start + i) % b.len)

/-- vm.push and vm.pop (08 R167, R168); a push is a core store (11 R206). -/
def vmStreamCheck (s : State) (c : Nat) (e : Ext) (push : Bool) : Check :=
  let r := s.core c
  let b := r.sbuf
  let n := r.streamBytes e
  firstFail [
    vmFail (b.bad || (if push then b.len < b.fill + n else b.fill < n)) 5,
    failIf (push && (b.addrs (b.head + b.fill) n).any (fun a => s.guarded c a 1)) stRace 0]

/-- vm.lend (k = 20) and vm.reclaim (k = 21) (08 R170). -/
def vmLendCheck (s : State) (c : Nat) (motor : Bool) (k : Nat) (v : Word) : Check :=
  firstFail [
    vmFail (bits v 63 3 != 0) 1,
    vmFail ((s.core c).lentTile (bits v 2 0) == (k == 20)) 4,
    busyCheck s c motor (rsTile (bits v 2 0))]

/-- The checks of opcode k of vm with trigger operand v. -/
def vmCheck (s : State) (c : Nat) (motor : Bool) (k : Nat) (e : Ext) (v : Word) : Check :=
  match k with
  | 0 => vmRowCheck s c e v false
  | 1 => vmRowCheck s c e v true
  | 2 => vmIndexCheck s c e v false
  | 3 => vmIndexCheck s c e v true
  | 4 => vmMovCheck s c motor e v
  | 6 => vmLaneCheck s c e v
  | 8 => vmShufCheck s c e v
  | 9 => vmConvCheck s c 9 e v
  | 10 => vmConvCheck s c 10 e v
  | 11 => vmConvCheck s c 11 e v
  | 12 => vmDecodeCheck s c e v
  | 13 => vmEncodeCheck s c e v
  | 14 => vmStreamCheck s c e true
  | 15 => vmStreamCheck s c e false
  | 20 => vmLendCheck s c motor 20 v
  | 21 => vmLendCheck s c motor 21 v
  | 22 => failIf (!fregValid v) stType 0
  | _ => .ok

/-- sf: the lane array is busy (07 R145). -/
def sfCheck (s : State) (c : Nat) (motor : Bool) : Check := busyCheck s c motor rsSf

end Sys2Proof.Machine
end

