-- ==== Sys2Proof/Machine/CheckRk.lean ====
section
/-! DEFINITION. The checks of rk (12 R223, R225, R230-R233), of fb (13 R243-R261) and of sy (18 R356-R367, 20 R394), in the
order of their tables; with the slot calendar and the shares that fb reads (13 R243, R244, R247-R250). -/

namespace Sys2Proof.Machine

/-! rk. -/

/-- RACK_FAULT with the position of its cause in 12 R225. -/
def rkFail (b : Bool) (reason : Nat) : Check := failIf b stRack reason

/-- The capability registers i0 names (12 R223): scap 0, dcap 1, fcap 2, cap2 3, cap3 4, cap4 5. -/
def rkReg (i0 : Word) (n : Nat) : Nat := bits i0 (4 * n + 3) (4 * n)

/-- The capability that field n of i0 names. -/
def rkCap (k : Core) (n : Nat) : Cap := k.capReg (rkReg (k.inp 8 0) n)

/-- The fields of i4 (12 R223). -/
def rkLpol (v : Word) : Nat := bits v 1 0
def rkKind (v : Word) : Nat := bits v 5 4
def rkEsz (v : Word) : Nat := bits v 11 8
def rkNrep (v : Word) : Nat := bits v 13 12

/-- Replicas of an operation after the first: nrep for mcast, none otherwise. -/
def rkMore (k : Core) (op : Nat) : Nat := if op = 5 then rkNrep (k.inp 8 4) else 0

/-- A port of rk is set that the operation does not use, or a bit of one that is zero by 12 R223. Fields of replicas that
an mcast does not write are unused. -/
def rkUnused (k : Core) (op : Nat) : Bool :=
  let i0 := k.inp 8 0
  let i4 := k.inp 8 4
  let more := rkMore k op
  let indexed := op == 2 || op == 3
  bits i0 63 24 != 0 || bits (k.inp 8 3) 63 32 != 0 || bits (k.inp 8 3) 15 10 != 0 ||
  bits i4 63 14 != 0 || bits i4 7 6 != 0 || bits i4 3 2 != 0 ||
  (op == 1 && rkReg i0 0 != 0) ||
  ((op == 8 || op == 9) && rkReg i0 1 != 0) ||
  (!(indexed || 1 ≤ more) && rkReg i0 3 != 0) ||
  (more < 2 && rkReg i0 4 != 0) || (more < 3 && rkReg i0 5 != 0) ||
  ((op == 8 || op == 10) && k.inp 8 1 != 0) ||
  ((op == 8 || op == 9) && k.inp 8 2 != 0) ||
  (op != 0 && op != 5 && rkLpol i4 != 0) ||
  (op != 4 && rkKind i4 != 0) || (!indexed && rkEsz i4 != 0) || (op != 5 && rkNrep i4 != 0) ||
  (!(indexed || 1 ≤ more || (op == 0 && rkLpol i4 == 2)) && k.inp 8 5 != 0) ||
  (more < 2 && k.inp 8 6 != 0) || (more < 3 && k.inp 8 7 != 0)

/-- A count, size, kind, policy or flag increment out of range. -/
def rkRange (k : Core) (op : Nat) (v : Word) : Bool :=
  let i4 := k.inp 8 4
  bits (k.inp 8 3) 31 16 == 0 || (op ≤ 5 && (v == 0 || 2 ^ 30 < v.toNat)) || rkKind i4 == 3 ||
  (if op = 0 then rkLpol i4 == 3 else if op = 5 then 1 < rkLpol i4 else false) ||
  ((op == 2 || op == 3) && (rkEsz i4 < 6 || 12 < rkEsz i4))

/-- The alignment of offsets and length (12 R223, R232). -/
def rkAlign (k : Core) (op : Nat) : Nat :=
  let i4 := k.inp 8 4
  match op with
  | 0 => if rkLpol i4 = 0 then 1 else 64
  | 2 => 2 ^ rkEsz i4
  | 3 => 2 ^ rkEsz i4
  | 4 => 4
  | 5 => 64
  | 8 => 1
  | _ => 8

/-- An offset or length misaligned, or the base of fcap not a multiple of 4. -/
def rkMisaligned (k : Core) (op : Nat) (v : Word) : Bool :=
  let m := rkAlign k op
  let off := fun (i : Nat) => (k.inp 8 i).toNat % m != 0
  v.toNat % m != 0 || (op != 1 && op != 9 && off 1) || off 2 ||
  ((op == 2 || op == 3) && (k.inp 8 5).toNat % 4 != 0) ||
  ((List.range (rkMore k op)).any (fun i => off (5 + i))) ||
  (rkCap k 2).base % 4 != 0

/-- The spaces an operation reads its source from (12 R223). -/
def rkSrcSpaces (op : Nat) : List Nat :=
  match op with
  | 0 => [0, 1, 3, 4]
  | 2 => [3, 4]
  | 3 => [0, 1]
  | 8 => [3, 4]
  | 9 => [4]
  | 10 => [4]
  | _ => [0, 1, 3]

/-- The spaces an operation writes to. -/
def rkDstSpaces (op : Nat) : List Nat :=
  match op with
  | 0 => [0, 1, 3, 4]
  | 1 => [0, 1, 3, 4]
  | 2 => [0, 1]
  | 3 => [3, 4]
  | 4 => [0, 1, 3]
  | 5 => [0, 1, 3, 4]
  | _ => [0]

/-- Space 0 or 1. -/
def isPad (n : Nat) : Bool := n == 0 || n == 1

/-- A space not permitted for the operation. -/
def rkSpaceBad (k : Core) (op : Nat) : Bool :=
  let s := (rkCap k 0).space
  let d := (rkCap k 1).space
  (op != 1 && !(rkSrcSpaces op).contains s) ||
  (op != 8 && op != 9 && !(rkDstSpaces op).contains d) ||
  ((op == 2 || op == 3) && !isPad (rkCap k 3).space) ||
  ((List.range (rkMore k op)).any (fun i => !(rkDstSpaces op).contains (rkCap k (3 + i)).space)) ||
  (op == 0 && rkLpol (k.inp 8 4) == 2 && !((isPad s && d == 3) || (s == 3 && isPad d)))

/-- All spaces a memory capability of rk may name. -/
def rkSpaces : List Nat := [0, 1, 3, 4]

/-- The write permission of an rk destination (17 R326). -/
def rkWrite (k : Core) : Nat := pWrite + (if rkLpol (k.inp 8 4) = 0 then 0 else pLabel)

/-- The capability checks of an rk operation, on each capability in the order of the fields of i0 (12 R225). Gathered and
scattered elements are checked as the engine reaches them (12 R229). -/
def rkCaps (s : State) (c op : Nat) (v : Word) : Check :=
  let k := s.core c
  let len := v.toNat
  let mem := fun (n need off ext : Nat) => checkMem s c (rkCap k n) rkSpaces need off ext
  let src := match op with
    | 1 => Check.ok
    | 2 => mem 0 pRead (k.inp 8 1).toNat 0
    | 8 => mem 0 pRead len 1
    | 9 => mem 0 pWrite len 8
    | 10 => mem 0 pRead len 8
    | _ => mem 0 pRead (k.inp 8 1).toNat len
  let dst := match op with
    | 3 => mem 1 (rkWrite k) (k.inp 8 2).toNat 0
    | 8 => Check.ok
    | 9 => Check.ok
    | 10 => mem 1 pWrite (k.inp 8 2).toNat 8
    | _ => mem 1 (rkWrite k) (k.inp 8 2).toNat len
  let scales := if op = 0 ∧ rkLpol (k.inp 8 4) = 2 then
      (if (rkCap k 0).space = 3 then mem 0 pRead (k.inp 8 5).toNat (len / 4)
       else mem 1 pWrite (k.inp 8 5).toNat (len / 4))
    else .ok
  let index := if op = 2 ∨ op = 3 then mem 3 pRead (k.inp 8 5).toNat (4 * (len / 2 ^ rkEsz (k.inp 8 4))) else .ok
  let more := firstFail ((List.range (rkMore k op)).map (fun i => mem (3 + i) (rkWrite k) (k.inp 8 (5 + i)).toNat len))
  firstFail [src, dst, scales, index, more, checkFlag s c (rkCap k 2) pWrite (bits (k.inp 8 3) 9 0)]

/-- The checks of opcode k of rk with trigger operand v. -/
def rkCheck (s : State) (c op : Nat) (v : Word) : Check :=
  let k := s.core c
  if op = 6 ∨ op = 7 then rkFail (bits v 63 6 != 0) 1
  else firstFail [
    rkFail (rkUnused k op) 1, rkFail (rkRange k op v) 2, rkFail (rkMisaligned k op v) 3, rkFail (rkSpaceBad k op) 4,
    rkCaps s c op v]

/-! The slot calendar (13 R243, R244). -/

/-- The position that matching k pairs with position i (13 R243). -/
def matchPeer (i k : Nat) : Nat :=
  if i = k then 127 else if i = 127 then k else (2 * k + 127 - i) % 127

/-- The matching of plane j in slot n. -/
def matching (n j : Nat) : Nat := (n + 4 * j) % 127

/-- The position matched with this package on port p in slot n. -/
def State.slotPeer (s : State) (p n : Nat) : Nat := matchPeer s.position (matching n p)

/-- open(n) (13 R244). -/
def State.slotOpen (s : State) (n : Nat) : Nat := s.forigin.toNat + 4800 * n

/-- The current slot; none before FORIGIN. -/
def State.curSlot (s : State) : Option Nat :=
  if s.tick < s.forigin.toNat then none else some ((s.tick - s.forigin.toNat) / 4800)

/-- Flits per slot of a port state (13 R247). -/
def portCap (st : Nat) : Nat := if st = 4 then 560 else if st = 2 then 280 else if st = 1 then 140 else 0

/-- Flit pitch of a port state in ticks (13 R247). -/
def portPitch (st : Nat) : Nat := if st = 4 then 8 else if st = 2 then 16 else 32

/-- A port. -/
def State.port (s : State) (p : Nat) : Port := sget Port.down s.ports p

/-- The effective share of a partition on a port (13 R249). -/
def State.effShare (s : State) (part port : Nat) : Nat :=
  match s.part part with
  | some p => sget 0 p.csr.fshare port * portCap (s.port port).state / 560
  | none => 0

/-- Flits a partition has booked on a port in a slot (13 R250). -/
def State.booked (s : State) (part port slot : Nat) : Nat :=
  s.bookings.foldl (fun n b => if b.part == part && b.port == port && b.slot == slot then n + b.flits else n) 0

/-- Flits booked on a port in a slot over all partitions. -/
def State.bookedAll (s : State) (port slot : Nat) : Nat :=
  s.bookings.foldl (fun n b => if b.port == port && b.slot == slot then n + b.flits else n) 0

/-- Flits of a length (13 R250). -/
def flitsOf (len : Nat) : Nat := (len + 239) / 240

/-! fb. -/

/-- FABRIC_FAULT with the position of its cause in 13 R255. -/
def fbFail (b : Bool) (reason : Nat) : Check := failIf b stFabric reason

/-- The capability bits 3:0 of fb.i0 name. -/
def fbCap (k : Core) : Cap := k.capReg (bits (k.inp 9 0) 3 0)

/-- The window-table entry a space 5 capability names (13 R254). -/
def Cap.entry (c : Cap) : Nat := bitsOf c.base 9 0

/-- The intermediate of a sendr. -/
def fbVia (k : Core) : Nat := bits (k.inp 9 2) 14 8

/-- fb.send (relayed false) and fb.sendr (13 R255-R257): the causes of the first row in its order. -/
def sendCheck (s : State) (c : Nat) (relayed : Bool) (v : Word) : Check :=
  let k := s.core c
  let cap := fbCap k
  let e := cap.entry
  let len := (k.inp 9 3).toNat
  let n := (k.inp 9 1).toNat
  let port := bits (k.inp 9 2) 4 0
  let unit := if s.winLpol e = 0 then 4 else 64
  let loop := s.winLoop e
  let pol := s.winPolicy e
  let part := s.partId c
  firstFail [
    fbFail (!hi4 (k.inp 9 0) || bits (k.inp 9 1) 63 40 != 0 || bits (k.inp 9 2) 63 15 != 0 ||
      bits (k.inp 9 2) 7 5 != 0 || bits (k.inp 9 3) 63 18 != 0 || (!relayed && fbVia k != 0)) 1,
    fbFail (len == 0 || 134400 < len || len % unit != 0 || v.toNat % unit != 0) 3,
    fbFail (s.slotOpen n < s.tick + 1500 || (match s.curSlot with
      | some m => m + 127 < n
      | none => false)) 4,
    fbFail s.curSlot.isNone 5,
    fbFail (s.winDir e != 1 || s.winCore e != c) 6,
    fbFail (loop && relayed) 7,
    fbFail ((!relayed && pol == 2) || (relayed && pol == 1)) 8,
    fbFail (!loop && s.slotPeer port n != (if relayed then fbVia k else s.winPeer e)) 9,
    fbFail (!loop && (s.port port).state == 0) 10,
    fbFail (!loop && s.effShare part port < s.booked part port n + flitsOf len) 11,
    fbFail (relayed && (fbVia k == s.position || fbVia k == s.winPeer e)) 12,
    fbCapCheck s c cap v.toNat len]
where
  /-- The capability of a send: no root, and its length within the window's (13 R255). -/
  fbCapCheck (s : State) (c : Nat) (cap : Cap) (off len : Nat) : Check :=
    firstFail [
      capFailIf (!cap.tag) rsTag,
      capFailIf (cap.kind != 0) rsKind,
      capFailIf (cap.isRoot) rsSpace,
      checkMem s c cap [5] pRead off len,
      capFailIf (s.winLen cap.entry < cap.length) rsBounds]
  capFailIf (b : Bool) (reason : Nat) : Check := failIf b stCap reason

/-- fb.rfence (13 R259). -/
def rfenceCheck (s : State) (c : Nat) (v : Word) : Check :=
  let k := s.core c
  firstFail [
    fbFail (!hi4 (k.inp 9 0) || bits (k.inp 9 1) 63 16 != 0) 1,
    fbFail (k.inp 9 1 == 0 || (fbCap k).base % 4 != 0) 13,
    checkFlag s c (fbCap k) pWrite v.toNat]

/-- The receive entry whose target holds the base of a space 6 capability (13 R254). -/
def State.recvOf (s : State) (c : Nat) (cap : Cap) : Option Nat := s.recvEntry c cap.base 1

/-- fb.wstat (13 R255, R261): the entry of a space 5 capability is a transmit entry of the issuing core. Log: DEDUCED 44. -/
def wstatCheck (s : State) (c : Nat) : Check :=
  let k := s.core c
  let cap := fbCap k
  firstFail [
    fbFail (!hi4 (k.inp 9 0)) 1,
    fbFail (cap.space == 5 && (s.winDir cap.entry != 1 || s.winCore cap.entry != c)) 6,
    failIf (!cap.tag) stCap rsTag,
    failIf (cap.kind != 0) stCap rsKind,
    failIf (cap.isRoot || !(cap.space == 5 || cap.space == 6)) stCap rsSpace,
    failIf (cap.holder != holderNum c) stCap rsHolder,
    failIf (!hasPerm cap.perm pRead) stCap rsPerm,
    failIf (cap.space == 5 && s.winLen cap.entry < cap.length) stCap rsBounds,
    failIf (cap.space == 6 && (s.recvOf c cap).isNone) stCap rsWindow]

/-- The checks of opcode k of fb with trigger operand v. Log: DEDUCED 44. -/
def fbCheck (s : State) (c k : Nat) (v : Word) : Check :=
  match k with
  | 0 => sendCheck s c false v
  | 1 => sendCheck s c true v
  | 2 => rfenceCheck s c v
  | 3 => (fbFail (bits v 63 46 != 0) 1).and (fbFail (v.getLsbD 45 && s.curSlot.isNone) 5)
  | _ => wstatCheck s c

/-! sy. -/

/-- SYSTEM_FAULT with the position of its cause in 18 R356. -/
def syFail (b : Bool) (reason : Nat) : Check := failIf b stSystem reason

/-- The capabilities sy.i0 names (18 R361): acap 0, rcap 1, fcap 2, xcap 3. -/
def syCap (k : Core) (n : Nat) : Cap := k.capReg (bits (k.inp 11 0) (4 * n + 3) (4 * n))

/-- A field of sy.i0 is set. -/
def sySet (k : Core) (n : Nat) : Bool := bits (k.inp 11 0) (4 * n + 3) (4 * n) != 0

/-- A reserved bit of the shared operand form (18 R361): `xcap` says whether the operation names one. -/
def formBits (k : Core) (xcap : Bool) : Bool :=
  bits (k.inp 11 0) 63 16 != 0 || (!xcap && sySet k 3) || bits (k.inp 11 2) 63 21 != 0 ||
  bits (k.inp 11 3) 63 32 != 0 || bits (k.inp 11 3) 15 10 != 0

/-- Misalignment of the shared operand form. -/
def formMis (k : Core) : Bool := (k.inp 11 2).toNat % 16 != 0 || (syCap k 2).base % 4 != 0

/-- An increment of 0. -/
def formInc (k : Core) : Bool := bits (k.inp 11 3) 31 16 == 0

/-- The object of an operation lies in a space or is of a kind it refuses. -/
def objBad (cap : Cap) (spaces : List Nat) : Bool := !spaces.contains cap.space || cap.kind != 0

/-- rcap and fcap (18 R361). -/
def formCaps (s : State) (c : Nat) : Check :=
  let k := s.core c
  (checkMem s c (syCap k 1) [0] pWrite (k.inp 11 2).toNat 16).and
    (checkFlag s c (syCap k 2) pWrite (bits (k.inp 11 3) 9 0))

/-- The causes of 18 R356, order 1, that every operation of the shared form has, with its own: reserved bits,
misalignment, refused spaces, lent tiles. -/
def formOrder1 (k : Core) (xcap reserved mis space lent : Bool) : Check :=
  firstFail [syFail (formBits k xcap || reserved) 1, syFail (formMis k || mis) 3, syFail space 4, syFail lent 5,
    syFail (formInc k) 6]

/-- The tiles and casks that a space 7 capability names, as resources (17 R325, 18 R356). -/
def objResources (cap : Cap) : List Nat :=
  if cap.space = 7 then
    ((List.range 8).filter (fun t => bitOf cap.base t)).map rsTile ++
    ((List.range 4).filter (fun q => bitOf cap.base (8 + q))).flatMap (fun q => [rsLoad q, rsUse q])
  else []

/-- Order 5: a space 7 object touches a busy tile or cask. -/
def objBusy (s : State) (c : Nat) (motor : Bool) (cap : Cap) : Check :=
  firstFail ((objResources cap).map (busyCheck s c motor))

/-- A lent tile named by a space 7 capability (18 R365). -/
def objLent (k : Core) (cap : Cap) : Bool := cap.space == 7 && cap.base % 256 &&& k.press.lent.toNat != 0

/-- Lines of an object (20 R392). -/
def objLines (cap : Cap) : Nat := (cap.length + 63) / 64

/-- Bytes of a set of bits. -/
def popMask (v n : Nat) : Nat := ((List.range n).filter (bitOf v)).length

/-- Payload bytes of a shard of an object (20 R392), before padding. -/
def payloadLen (cap : Cap) : Nat :=
  if cap.space = 7 then 32768 * popMask cap.base 8 + 131072 * popMask (cap.base / 256) 4
  else cap.length + 2 * objLines cap

/-- Bytes of a shard of an object: header, payload, padding (20 R392). -/
def shardLen (cap : Cap) : Nat := 256 + (payloadLen cap + 63) / 64 * 64

/-- The permissions of an object: those of 20 R394, but of space 7 only seal, since no space 7 capability carries another
(17 R326, R329). DEDUCED. -/
def objNeed (cap : Cap) (need : Nat) : Nat := if cap.space = 7 then pSeal else need

/-- keyld (18 R362). -/
def keyldCheck (s : State) (c : Nat) : Check :=
  let k := s.core c
  let i1 := k.inp 11 1
  firstFail [
    formOrder1 k false (bits i1 63 32 != 0 || bits i1 15 11 != 0 || 2 < bits i1 7 0 || bits i1 10 8 == 0 ||
        4 < bits i1 10 8 || (bits i1 7 0 != 2 && bits i1 31 16 != 0)) false
      (objBad (syCap k 0) [0]) false,
    checkMem s c (syCap k 0) [0] pRead 0 96,
    formCaps s c]

/-- keyrot (18 R363). -/
def keyrotCheck (s : State) (c : Nat) (v : Word) : Check :=
  let k := s.core c
  firstFail [
    formOrder1 k false (bits v 63 32 != 0 || bits v 15 8 != 0 || 1 < bits v 7 0 ||
        (bits v 7 0 == 0 && bits v 31 16 != 0)) false
      (objBad (syCap k 0) [3]) false,
    checkMem s c (syCap k 0) [3] pSeal 0 0,
    formCaps s c]

/-- The mode of seal and decant: bits 1:0 of i4. -/
def syMode (k : Core) : Nat := bits (k.inp 11 4) 1 0

/-- seal (18 R364, 20 R394). -/
def sealCheck (s : State) (c : Nat) (motor : Bool) (v : Word) : Check :=
  let k := s.core c
  let a := syCap k 0
  let x := syCap k 3
  let mode := syMode k
  firstFail [
    formOrder1 k true (bits (k.inp 11 4) 63 2 != 0 || 1 < mode) (v.toNat % 64 != 0)
      (objBad a (if mode = 0 then [0, 3, 7] else [3]) || objBad x [3]) (mode == 0 && objLent k a),
    (if mode = 0 then
      (checkMem s c a [0, 3, 7] (objNeed a (pRead + pSeal)) 0 a.length).and
        (checkMem s c x [3] pWrite v.toNat (shardLen a))
     else
      (checkMem s c a [3] (pRead + pWrite + pSeal) v.toNat 0x240).and (checkMem s c x [3] pRead 0 0)),
    formCaps s c,
    objBusy s c motor a]

/-- decant (18 R364, 20 R394). -/
def decantCheck (s : State) (c : Nat) (motor : Bool) (v : Word) : Check :=
  let k := s.core c
  let a := syCap k 0
  let x := syCap k 3
  let mode := syMode k
  firstFail [
    formOrder1 k true (bits (k.inp 11 4) 63 2 != 0 || mode == 3 || (mode == 2 && (sySet k 0 || sySet k 3)))
      (mode != 2 && v.toNat % 64 != 0)
      (mode != 2 && (objBad a (if mode = 1 then [0, 3, 7] else [3]) || objBad x [3])) (mode == 1 && objLent k a),
    (match mode with
     | 0 => (checkMem s c a [3] (pRead + pSeal) v.toNat 0x240).and (checkMem s c x [3] pRead 0 0)
     | 1 => (checkMem s c a [0, 3, 7] (objNeed a (pWrite + pLabel + pSeal)) 0 a.length).and
         (checkMem s c x [3] pRead v.toNat (shardLen a))
     | _ => .ok),
    formCaps s c,
    (if mode = 1 then failIf (a.space == 0 && s.guarded c a.base a.length) stRace 0 else .ok),
    (if mode = 1 then objBusy s c motor a else .ok)]

/-- scrub (18 R356, R365). -/
def scrubCheck (s : State) (c : Nat) (motor : Bool) : Check :=
  let k := s.core c
  let a := syCap k 0
  firstFail [
    formOrder1 k false false
      ((a.space == 0 && (a.base % 64 != 0 || a.length % 64 != 0)) ||
        (a.space == 3 && (a.base % 4096 != 0 || a.length % 4096 != 0)))
      (objBad a [0, 3, 7]) (objLent k a),
    checkMem s c a [0, 3, 7] pScrub 0 a.length,
    formCaps s c,
    failIf (a.space == 0 && s.guarded c a.base a.length) stRace 0,
    objBusy s c motor a]

/-- fbind (18 R366). -/
def fbindCheck (s : State) (c : Nat) : Check :=
  let k := s.core c
  firstFail [
    formOrder1 k false false false (objBad (syCap k 0) [3]) false,
    checkMem s c (syCap k 0) [3] (pRead + pSeal) 0 0x120,
    formCaps s c]

/-- attest (18 R367). -/
def attestCheck (s : State) (c : Nat) : Check :=
  let k := s.core c
  firstFail [
    formOrder1 k false false false (objBad (syCap k 0) [0, 3]) false,
    checkMem s c (syCap k 0) [0, 3] pWrite 0 30304,
    formCaps s c]

/-- ecall (18 R358). -/
def ecallCheck (k : Core) (v : Word) : Check :=
  let i3 := k.inp 11 3
  let valid := i3.getLsbD 63
  firstFail [
    syFail (bits v 63 16 != 0 || bits i3 62 32 != 0 || bits i3 15 10 != 0 || (!valid && i3 != 0)) 1,
    syFail (valid && bits i3 31 16 == 0) 6]

/-- The checks of opcode k of sy with trigger operand v. Log: DEDUCED 45, 46. -/
def syCheck (s : State) (c : Nat) (motor : Bool) (k : Nat) (v : Word) : Check :=
  let r := s.core c
  match k with
  | 0 => syFail (bits v 63 12 != 0) 2
  | 4 => ecallCheck r v
  | 5 => failIf (r.stream motor).delay.isSome stControl 3
  | 6 => keyldCheck s c
  | 7 => keyrotCheck s c v
  | 8 => sealCheck s c motor v
  | 9 => decantCheck s c motor v
  | 10 => scrubCheck s c motor
  | 11 => fbindCheck s c
  | 12 => attestCheck s c
  | 13 => .ok
  | _ => (syFail (bits v 63 12 != 0) 2).and (failIf (s.csrDenied c (bits v 11 0)) stPrivilege 0)

/-! The check of any trigger. -/

/-- The checks that a unit runs before an operation has any effect (02 R59, the units' tables). -/
def unitCheck (s : State) (c : Nat) (motor : Bool) (u k : Nat) (e : Option Ext) (v : Word) : Check :=
  match u, e with
  | 2, _ => ctCheck s c motor k v
  | 3, _ => lsCheck s c k v
  | 5, some w => vmCheck s c motor k w v
  | 6, some _ => sfCheck s c motor
  | 7, _ => prCheck s c motor k v
  | 8, _ => rkCheck s c k v
  | 9, _ => fbCheck s c k v
  | 10, _ => fgCheck s c k v
  | 11, _ => syCheck s c motor k v
  | _, _ => .ok

end Sys2Proof.Machine
end

