-- ==== Sys2Proof/Machine/SlotOp.lean ====
section
/-! DEFINITION. One slot operation of the bundle in flight: its decode checks, its guard, the checks of its unit, and then
its effect (02 R39, R40, R51, R59); and the moves of 02 R42, R54 that no unit takes. -/

namespace Sys2Proof.Machine

/-- The effect of an operation on the state: issuing core, whether the motor stream issued it, and the value moved. -/
abbrev Eff := State → Nat → Bool → Word → State

/-- A butty bundle that waits: nothing of it happens, and it is offered the next cycle (02 R54, 06 R118). -/
def State.retry (s : State) (c : Nat) (motor : Bool) : State :=
  s.modCore c (fun k =>
    { k.modStream motor (fun t => { t with nextAt := s.tick + s.pace c }) with latch := Latch.empty })

/-- The checks of the operation a destination triggers. -/
def trigCheck (s : State) (c : Nat) (motor : Bool) (dst : Nat) (e : Option Ext) (v : Word) : Check :=
  match trigOf dst with
  | none => .ok
  | some t => unitCheck s c motor t.1 t.2 e v

/-- What follows a check: the effect, a wait, or a fault precise at the bundle in flight with its detail (02 R59, 19 R370). -/
def settle (s : State) (c : Nat) (motor : Bool) (chk : Check) (detail : Nat) (go : State) : State :=
  match chk with
  | .ok => go
  | .stall => s.retry c motor
  | .fault code reason => raiseFault s c motor (s.core c).latch.pc (s.core c).latch.slot code reason detail

/-- A slot operation of the core whose bundle is in flight; the detail of a unit's fault is the trigger operand, that of a decode
check 0. Log: DEDUCED 137. -/
def slotOp (h : Head) (dst : Nat) (e : Option Ext) (eff : Eff) (s : State) : Ans State :=
  let c := s.cur
  let motor := (s.core c).latch.motor
  let v := s.src c motor h.src
  .next (settle s c motor (s.decodeCheck c motor h dst e) 0
    (if s.guard c h then settle s c motor (trigCheck s c motor dst e v) v.toNat (eff s c motor v) else s))

/-! Moves. -/

/-- Writes an input port at once (02 R51). -/
def Core.setInp (k : Core) (n : Nat) (v : Word) : Core :=
  { k with regs := { k.regs with inp := sput 0 k.regs.inp n v } }

/-- The effect of a move (02 R42, R51): an input port is written at once, everything else at the end of T; p4-p7 are
named through the rotation base at T (02 R38). -/
def moveEff (d : Dest) : Eff := fun s c motor v =>
  match d with
  | .x n => s.schedule c 1 (.x n.toNat v)
  | .p n => s.schedule c 1 (.pred (physP (s.core c).regs.rotb n.toNat) (v != 0))
  | .lcount => s.schedule c 1 (.lcount motor v)
  | .rotb => s.schedule c 1 (.rotb (bits v 2 0))
  | .sbbase => s.schedule c 1 (.sbbase (bits v 20 0))
  | .sblen => s.schedule c 1 (.sblen (bits v 21 0))
  | .inp n => s.modCore c (fun k => k.setInp n.val v)

/-- A guarded move to a register, predicate, special destination or input port (02 R42). -/
def execMove (h : Head) (d : Dest) (s : State) : Ans State := slotOp h (encodeDest d).toNat none (moveEff d) s

/-- The canonical no-op: its guard is never true (02 R40). -/
def execNop (s : State) : Ans State := .next s

/-- A move to queue i adds its value at the tail at the end of T (02 R54). -/
def execQueuePush (h : Head) (q : BitVec 3) (s : State) : Ans State :=
  slotOp h (0x0F8 + q.toNat) none (fun s c _ v => s.schedule c 1 (.push q.toNat v)) s

/-- A move to the stream reset empties the stream buffer (02 R42, 08 R167). -/
def execStreamReset (h : Head) (s : State) : Ans State :=
  slotOp h 0x04C none (fun s c _ _ => s.schedule c 1 .sbreset) s

end Sys2Proof.Machine
end

