-- ==== Sys2Proof/Machine/Rack.lean ====
section
/-! DEFINITION. The rk unit (12 R223-R233): acceptance of racks and monitors, probe and cancel, and what the end of the
issue cycle starts in the racking engine. -/

namespace Sys2Proof.Machine

/-- An outstanding rack (12 R226, R230). -/
def Rack.live (r : Rack) : Bool := 1 ≤ r.state && r.state ≤ 4

/-- Rack id i of a core. -/
def Core.rack (k : Core) (i : Nat) : Rack := sget Rack.none k.racks i

/-- Replaces a rack id of a core. -/
def Core.setRack (k : Core) (i : Nat) (r : Rack) : Core := { k with racks := sput Rack.none k.racks i r }

/-- The lowest free rack id (12 R226). -/
def Core.freeRack (k : Core) : Option Nat := (List.range 64).find? (fun i => !(k.rack i).live)

/-- The SCALEMAP that places the scale slots of a rack with lpol 2: that of the owner of the range on the scratchpad side (12
R224), which lies in one scratchpad (17 R330). -/
def rackScalemap (s : State) (c : Nat) (k : Core) : Word :=
  let cap := if isPad (rkCap k 0).space then rkCap k 0 else rkCap k 1
  let off := (if isPad (rkCap k 0).space then k.inp 8 1 else k.inp 8 2).toNat
  if isPad cap.space then (s.core (ownerOf c cap.space (cap.base + off)).1).csr.scalemap else 0

/-- The job of an operation as its ports stand at T. -/
def rackJob (s : State) (c op : Nat) (v : Word) : RackJob :=
  let k := s.core c
  let i3 := k.inp 8 3
  { op := op, ports := (List.range 8).map (k.inp 8), len := v.toNat, caps := [rkCap k 0, rkCap k 1, rkCap k 3, rkCap k 4, rkCap k 5]
    flag := flagIndex (rkCap k 2) (bits i3 9 0), inc := bits i3 31 16, scalemap := rackScalemap s c k }

/-- Capability n of a job: scap 0, dcap 1, cap2 2, cap3 3, cap4 4. -/
def RackJob.cap (j : RackJob) (n : Nat) : Cap := j.caps.getD n Cap.null

/-- Port n of a job. -/
def RackJob.port (j : RackJob) (n : Nat) : Word := j.ports.getD n 0

/-- Bytes of an element of a gather or scatter. -/
def RackJob.esize (j : RackJob) : Nat := 2 ^ rkEsz (j.port 4)

/-- Bytes that an operation has to write: 8 for rel and acq. Log: DEDUCED 42. -/
def RackJob.total (j : RackJob) : Nat := if j.op ≤ 5 then j.len else 8

/-- A range of a capability as owner, offset and length, where it lies in a scratchpad. -/
def padRange (c : Nat) (cap : Cap) (off len : Nat) : List (Nat × Nat × Nat) :=
  let o := ownerOf c cap.space (cap.base + off)
  if isPad cap.space then [(o.1, o.2, len)] else []

/-- The source that an operation guards, where it lies in a scratchpad (11 R205, 12 R229). -/
def RackJob.sources (c : Nat) (j : RackJob) : List (Nat × Nat × Nat) :=
  if j.op = 0 ∨ j.op = 3 ∨ j.op = 4 ∨ j.op = 5 then padRange c (j.cap 0) (j.port 1).toNat j.len else []

/-- The index list an operation guards. -/
def RackJob.indexList (c : Nat) (j : RackJob) : List (Nat × Nat × Nat) :=
  if j.op = 2 ∨ j.op = 3 then padRange c (j.cap 2) (j.port 5).toNat (4 * (j.len / j.esize)) else []

/-- The scale slots in a scratchpad that an operation reads as source, which it guards too: those of its lines inside the cover,
which are one range (04 R91, 11 R205, 12 R224). -/
def RackJob.slotRange (c : Nat) (j : RackJob) : List (Nat × Nat × Nat) :=
  if j.op = 0 ∧ bits (j.port 4) 1 0 = 2 then
    (padRange c (j.cap 0) (j.port 1).toNat j.len).flatMap (fun r =>
      let slots := (List.range (j.len / 64)).filterMap (fun i => scaleSlot j.scalemap (r.2.1 + 64 * i))
      match slots with
      | a :: _ => [(r.1, a, 16 * slots.length)]
      | [] => [])
  else []

/-- The guard numbers of a rack's index list and scale slots: above every rack id and every seal's number. -/
def indexGuard (id : Nat) : Nat := 2 ^ 64 + id
def slotGuard (id : Nat) : Nat := 2 ^ 65 + id

/-- Sets a guard in the guard table of the core that owns a range (11 R205). -/
def State.addGuard (s : State) (owner : Nat) (g : Guard) : State :=
  s.modCore owner (fun k => { k with guards := k.guards ++ [g] })

/-- Removes the guards of a rack or send of core c from every table (11 R205). -/
def dropGuards (s : State) (c : Nat) (isRack : Bool) (id : Nat) : State :=
  s.mapCores (fun _ k => { k with guards := k.guards.filter (fun g => !(g.core == c && g.isRack == isRack && g.id == id)) })

/-- Sets the guards of a rack's or seal's sources. Log: DEDUCED 41. -/
def addGuards (s : State) (c : Nat) (isRack : Bool) (id : Nat) : List (Nat × Nat × Nat) → State
  | [] => s
  | r :: rs => addGuards (s.addGuard r.1 (Guard.mk c isRack id r.2.1 r.2.2)) c isRack id rs

/-- The stop of a core's timetable has reached it (19 R374). -/
def State.stopHere (s : State) (c : Nat) : Bool :=
  match s.timetable c with
  | some t => t.stopped
  | none => false

/-- The end of T of an accepted rack: it is outstanding and queued, and its guards are set (12 R226); where its timetable has
stopped it is cancelled (19 R374). -/
def startRack (s : State) (c id : Nat) (j : RackJob) : State :=
  let s1 := s.modCore c (fun k =>
    { k.setRack id { Rack.queued j j.total k.rackSeq with cancel := s.stopHere c } with rackSeq := k.rackSeq + 1 })
  addGuards (addGuards (addGuards s1 c true id (j.sources c)) c true (indexGuard id) (j.indexList c)) c true (slotGuard id)
    (j.slotRange c)

/-- A status word on rk.o0 at T+2. -/
def rkOut (s : State) (c n : Nat) : State := s.schedule c 2 (.out (outPort 8 0) (BitVec.ofNat 64 n))

/-- rack, fill, gather, scatter, reduce, mcast, rel, acq: the lowest free id, or RACK_FULL (12 R226). -/
def rackEff (op : Nat) : Eff := fun s c _ v =>
  match (s.core c).freeRack with
  | none => rkOut s c 1
  | some id => rkOut (s.schedule c 1 (.rackStart id (rackJob s c op v))) c (id * 2 ^ 16)

/-- The probe word of a rack (12 R230). -/
def probeWord (r : Rack) : Nat :=
  r.astat.toNat * 2 ^ 40 + r.left * 2 ^ 8 + (if r.state = 5 then r.outcome * 16 else 0) + r.state

/-- probe (12 R230). -/
def probeEff : Eff := fun s c _ v => rkOut s c (probeWord ((s.core c).rack (bits v 5 0)))

/-- cancel: 0 where the rack was outstanding at T (12 R231). -/
def cancelEff : Eff := fun s c _ v =>
  if ((s.core c).rack (bits v 5 0)).live then rkOut (s.schedule c 1 (.rackCancel (bits v 5 0))) c 0 else rkOut s c 1

/-- The cancellation reaching the engine: the rack stops at its next line boundary (12 R231). -/
def cancelRack (s : State) (c id : Nat) : State :=
  s.modCore c (fun k => if (k.rack id).live then k.setRack id { k.rack id with cancel := true } else k)

/-- Monitor i of a core. -/
def Core.mon (k : Core) (i : Nat) : Monitor := sget Monitor.free k.mons i

/-- Replaces a monitor. -/
def Core.setMon (k : Core) (i : Nat) (m : Monitor) : Core := { k with mons := sput Monitor.free k.mons i m }

/-- A capability of space 3 or 4 that addresses memory without translation: one with the global permission in keeper and towpath
mode (12 R236, 17 R326). -/
def untranslated (c : Nat) (cap : Cap) : Bool :=
  !isTile c && (cap.space == 3 || cap.space == 4) && hasPerm cap.perm pGlobal

/-- The monitor a waitaddr asks for: the line that holds byte v of scap, translating (12 R233). -/
def monOf (s : State) (c : Nat) (v : Word) : Monitor :=
  let k := s.core c
  let cap := rkCap k 0
  let i3 := k.inp 8 3
  { state := 1, space := cap.space, va := (cap.base + v.toNat) / 64 * 64, pa := 0
    flag := flagIndex (rkCap k 2) (bits i3 9 0), inc := bits i3 31 16, capReg := rkReg (k.inp 8 0) 0, off := v.toNat
    idx := bits i3 9 0, direct := untranslated c cap, part := s.viewPart c, wtick := 0, seq := 0 }

/-- A monitor is on the line that another asks for: addressed alike, or armed on the address of memory that the other names
without translation (12 R233). -/
def Monitor.sameLine (a b : Monitor) : Bool :=
  a.state != 0 && a.space == b.space && a.part == b.part &&
    ((a.va == b.va && a.direct == b.direct) || (3 ≤ a.state && b.direct && a.pa / 64 == b.va / 64))

/-- waitaddr: the monitor already on the line, else the lowest free one, else MONITORS_FULL (12 R233). -/
def waitaddrEff : Eff := fun s c _ v =>
  let k := s.core c
  let m := monOf s c v
  let same := (List.range 4).find? (fun i => (k.mon i).sameLine m)
  let free := (List.range 4).find? (fun i => (k.mon i).state == 0)
  match same, free with
  | some i, _ => rkOut s c (i * 2 ^ 16)
  | none, some i => rkOut (s.schedule c 1 (.monStart i m)) c (i * 2 ^ 16)
  | none, none => rkOut s c 1

/-! The operations. -/

/-- rk.rack (12 R223-R229). -/
def execRkRack (h : Head) (s : State) : Ans State := slotOp h 0x300 none (rackEff 0) s

/-- rk.fill (12 R223-R229). -/
def execRkFill (h : Head) (s : State) : Ans State := slotOp h 0x301 none (rackEff 1) s

/-- rk.gather (12 R223-R229). -/
def execRkGather (h : Head) (s : State) : Ans State := slotOp h 0x302 none (rackEff 2) s

/-- rk.scatter (12 R223-R229). -/
def execRkScatter (h : Head) (s : State) : Ans State := slotOp h 0x303 none (rackEff 3) s

/-- rk.reduce (12 R223-R229). -/
def execRkReduce (h : Head) (s : State) : Ans State := slotOp h 0x304 none (rackEff 4) s

/-- rk.mcast (12 R223-R229). -/
def execRkMcast (h : Head) (s : State) : Ans State := slotOp h 0x305 none (rackEff 5) s

/-- rk.probe (12 R230). -/
def execRkProbe (h : Head) (s : State) : Ans State := slotOp h 0x306 none probeEff s

/-- rk.cancel (12 R231). -/
def execRkCancel (h : Head) (s : State) : Ans State := slotOp h 0x307 none cancelEff s

/-- rk.waitaddr (12 R233). -/
def execRkWaitaddr (h : Head) (s : State) : Ans State := slotOp h 0x308 none waitaddrEff s

/-- rk.rel (12 R232). -/
def execRkRel (h : Head) (s : State) : Ans State := slotOp h 0x309 none (rackEff 9) s

/-- rk.acq (12 R232). -/
def execRkAcq (h : Head) (s : State) : Ans State := slotOp h 0x30A none (rackEff 10) s

end Sys2Proof.Machine
end

