-- ==== Sys2Proof/Machine/Budget.lean ====
section
/-! DEFINITION. The token meters of a partition (16 R310, R311): debits, borrowing, and the period boundary. -/

namespace Sys2Proof.Machine

/-- A meter of a partition: the layby meter or the host meter. -/
def Partition.meter (p : Partition) (layby : Bool) : Meter := if layby then p.layby else p.host

/-- Changes a meter of a partition. -/
def Partition.setMeter (p : Partition) (layby : Bool) (m : Meter) : Partition :=
  if layby then { p with layby := m } else { p with host := m }

/-- What a lender may give (16 R311). -/
def Meter.lendable (m : Meter) : Nat := m.balance - m.allot / 4

/-- Draws tokens from the other partitions in ascending number. -/
def drawFrom (s : State) (part : Nat) (layby : Bool) : List Nat → Nat → State
  | [], _ => s
  | j :: js, n =>
    match s.part j with
    | some p =>
      if j = part then drawFrom s part layby js n
      else
        let m := p.meter layby
        let t := min n m.lendable
        drawFrom (s.setPart j (p.setMeter layby { m with balance := m.balance - t })) part layby js (n - t)
    | none => drawFrom s part layby js n

/-- All that the other partitions can lend. -/
def State.lendableAll (s : State) (part : Nat) (layby : Bool) : Nat :=
  s.parts.foldl (fun acc q => match q.2 with
    | some p => if q.1 = part then acc else acc + (p.meter layby).lendable
    | none => acc) 0

/-- A debit of d tokens, in full or not at all (16 R311). -/
def payTokens (s : State) (part : Nat) (layby : Bool) (d : Nat) : Option State :=
  match s.part part with
  | none => none
  | some p =>
    let m := p.meter layby
    if d ≤ m.balance then some (s.setPart part (p.setMeter layby { m with balance := m.balance - d }))
    else
      let short := d - m.balance
      if short ≤ m.debtcap - m.debt ∧ short ≤ s.lendableAll part layby then
        let s := drawFrom s part layby (s.parts.map (fun q => q.1)) short
        some (s.modPart part (fun p =>
          p.setMeter layby { p.meter layby with balance := 0, debt := (p.meter layby).debt + short }))
      else none

/-- One meter at a period boundary: repay, then refill (16 R311). -/
def Meter.period (m : Meter) : Meter :=
  let repay := min m.debt (m.allot / 2)
  { m with debt := m.debt - repay, balance := m.allot - repay }

/-- BUDGET_PERIOD: at each tick that is a multiple of 300,000, every meter repays debt and refills its balance (16 R310,
R311). -/
def execBudgetPeriod (s : State) : Ans State :=
  .next (if s.budgetAt ≤ s.tick then
    { s with
      parts := s.parts.map (fun q =>
        (q.1, q.2.map (fun p => { p with host := p.host.period, layby := p.layby.period })))
      budgetAt := 300000 * (s.tick / 300000 + 1) }
  else s)

end Sys2Proof.Machine
end

