-- ==== Sys2Proof/Machine/Fabric.lean ====
section
/-! DEFINITION. The fb unit (13 R255-R261): sends, fences, the calendar query and window status. -/

namespace Sys2Proof.Machine

/-- Send id i of a core. -/
def Core.send (k : Core) (i : Nat) : Option Send := sget none k.sends i

/-- Replaces a send id. -/
def Core.setSend (k : Core) (i : Nat) (x : Option Send) : Core := { k with sends := sput none k.sends i x }

/-- The lowest free of the 32 send ids of a core (13 R256). -/
def Core.freeSend (k : Core) : Option Nat := (List.range 32).find? (fun i => (k.send i).isNone)

/-- A status word on fb.o0 at T+2. -/
def fbOut (s : State) (c n : Nat) : State := s.schedule c 2 (.out (outPort 9 0) (BitVec.ofNat 64 n))

/-- Takes n flits of the credit that an intermediate granted (13 R258). -/
def takeCredit (via n : Nat) : List Binding → Option (List Binding)
  | [] => none
  | b :: bs =>
    if b.peer = via ∧ n ≤ b.credit then some ({ b with credit := b.credit - n } :: bs)
    else (takeCredit via n bs).map (fun r => b :: r)

/-- The credit and the layby tokens of a sendr, both in full or neither (13 R256, R258, 16 R310, R311). -/
def payRelay (s : State) (part via flits : Nat) : Option State :=
  match s.part part with
  | none => none
  | some p =>
    match takeCredit via flits p.bindings with
    | none => none
    | some bs => payTokens (s.setPart part { p with bindings := bs }) part true flits

/-- send and sendr: SEND_FULL, LAYBY_FULL, or acceptance with the lowest free id; the flits are booked at the issue tick
(13 R250, R256, R257). -/
def sendEff (relayed : Bool) : Eff := fun s c _ v =>
  let k := s.core c
  let e := (fbCap k).entry
  let len := (k.inp 9 3).toNat
  let n := (k.inp 9 1).toNat
  let port := bits (k.inp 9 2) 4 0
  let flits := flitsOf len
  let part := s.partId c
  let loop := s.winLoop e
  match k.freeSend with
  | none => fbOut s c 1
  | some id =>
    match (if relayed then payRelay s part (fbVia k) flits else some s) with
    | none => fbOut s c 2
    | some s1 =>
      let x : Send :=
        { entry := e, slot := n, port := port, via := if relayed then some (fbVia k) else none, loopback := loop
          off := v.toNat, len := len, flits := flits, first := if loop then 0 else s.bookedAll port n, part := part
          st := .booked, late := false, tail := 0, gone := 0, scalemap := k.csr.scalemap, src := [], labs := [], scales := [], relayed := false
          issue := s.tick, seq := k.sendSeq, phase := 0, wire := [] }
      let s2 := if loop then s1 else { s1 with bookings := s1.bookings ++ [Booking.mk port n part c id flits false] }
      let s3 := s2.modCore c (fun k => { k with sendSeq := k.sendSeq + 1 })
      fbOut (s3.schedule c 1 (.sendStart id x)) c (id * 2 ^ 16)

/-- The scale slots that go with a send's source lines, where its policy is 2: first byte and length (11 R205, 12 R224). -/
def sendSlots (s : State) (x : Send) : Option (Nat × Nat) :=
  if s.winLpol x.entry ≠ 2 then none
  else match (List.range (x.len / 64)).filterMap (fun i => scaleSlot x.scalemap (s.winBase x.entry + x.off + 64 * i)) with
    | [] => none
    | a :: as => some (a, 16 * (as.length + 1))

/-- The end of T of an accepted send: it is outstanding, and its source is guarded, its scale slots among it (11 R205, 13 R256). -/
def startSend (s : State) (c id : Nat) (x : Send) : State :=
  let s1 := (s.modCore c (fun k => k.setSend id (some x))).addGuard c (Guard.mk c false id (s.winBase x.entry + x.off) x.len)
  match sendSlots s x with
  | some r => s1.addGuard c (Guard.mk c false id r.1 r.2)
  | none => s1

/-- rfence: FENCE_FULL with four outstanding, else a fence behind every send issued in cycles before T (13 R259). -/
def rfenceEff : Eff := fun s c _ v =>
  let k := s.core c
  if 4 ≤ k.fences.length then fbOut s c 1
  else
    let waits := k.sends.filterMap (fun p => p.2.map Send.seq)
    let f := Fence.mk (flagIndex (fbCap k) v.toNat) (bits (k.inp 9 1) 15 0) waits (s.after c 2)
    fbOut (s.schedule c 1 (.fenceStart f)) c 0

/-- The calendar word of slot n on port p at T (13 R260). -/
def slotWord (s : State) (part p n : Nat) : Word :=
  let peer := s.slotPeer p n
  let free := if s.slotOpen n ≤ s.tick then 0 else s.effShare part p - s.booked part p n
  BitVec.ofNat 64 (free * 2 ^ 51 + (s.port p).state * 2 ^ 48 + b2n (bitOf s.absent peer) * 2 ^ 47 + peer * 2 ^ 40 +
    n % 2 ^ 40)

/-- slot (13 R260). -/
def slotEff : Eff := fun s c _ v =>
  let n := if v.getLsbD 45 then s.curSlot.getD 0 else bits v 39 0
  s.schedule c 1 (.out (outPort 9 0) (slotWord s (s.partId c) (bits v 44 40) n))

/-- Status of a window-table entry. -/
def State.wst (s : State) (e : Nat) : WStat := sget WStat.init s.wstat e

/-- Sends outstanding on a transmit entry. -/
def State.sendsOn (s : State) (e : Nat) : Nat :=
  (s.core (s.winCore e)).sends.countP (fun p => match p.2 with
    | some x => x.entry == e
    | none => false)

/-- The status word of an entry at T: for a transmit entry, the count is that of its sends outstanding (13 R261). -/
def wstatWord (s : State) (e : Nat) (transmit : Bool) : Nat :=
  let w := s.wst e
  b2n w.fail * 2 ^ 33 + b2n w.late * 2 ^ 32 + (if transmit then 0 else w.astat.toNat * 2 ^ 28) + w.last * 2 ^ 16 +
    (if transmit then s.sendsOn e else w.count.toNat)

/-- wstat (13 R261). -/
def wstatEff : Eff := fun s c _ _ =>
  let cap := fbCap (s.core c)
  if cap.space = 5 then fbOut s c (wstatWord s cap.entry true)
  else fbOut s c (wstatWord s ((s.recvOf c cap).getD 0) false)

/-! The end of a send (13 R263). -/

/-- A booking of an outstanding send, not a use of the relay reserve. -/
def Booking.isLive (b : Booking) : Bool := b.part != 0 && !b.done

/-- The booking of a send in its own slot. -/
def Booking.isOf (b : Booking) (c id : Nat) : Bool := b.core == c && b.send == id && b.isLive

/-- Credit that a sendr took returns to the binding with its intermediate (13 R258). Log: DESIGN CHOICE 78. -/
def returnCredit (via n : Nat) : List Binding → List Binding
  | [] => []
  | b :: bs =>
    if b.peer = via ∧ b.credit + n ≤ b.granted then { b with credit := b.credit + n } :: bs
    else b :: returnCredit via n bs

/-- A receipt of a status recorded in the transmit entry. -/
def WStat.receipt (w : WStat) (status : Nat) (late : Bool) : WStat :=
  { w with fail := w.fail || 2 ≤ status, late := w.late || late || status == 1, last := status }

/-- Changes the status of a window-table entry. -/
def State.modWst (s : State) (e : Nat) (f : WStat → WStat) : State :=
  { s with wstat := sput WStat.init s.wstat e (f (s.wst e)) }

/-- The credit that a sendr took of its intermediate returns (13 R258). -/
def creditBack (s : State) (x : Send) : State :=
  match x.via with
  | some v => if x.relayed then s else s.modPart x.part (fun p => { p with bindings := returnCredit v x.flits p.bindings })
  | none => s

/-- The end of a send: its id is free, its guard released, its entry records the receipt, and the fences behind it wait for
one less; credit that has not returned yet does, since what has landed has departed its layby (13 R258). -/
def endSend (s : State) (c id : Nat) (x : Send) (status : Nat) : State :=
  let s1 := (dropGuards s c false id).modCore c (fun k =>
    { k.setSend id none with fences := k.fences.map (fun f => { f with waits := f.waits.filter (fun n => n != x.seq) }) })
  let s2 := s1.modWst x.entry (fun w => w.receipt status x.late)
  let s3 := creditBack s2 x
  { s3 with bookings := s3.bookings.map (fun b => if b.isOf c id then { b with done := true } else b) }

/-- The receipt of a loop-back that has landed (13 R263). -/
def endLoop (s : State) (c id status : Nat) : State :=
  match (s.core c).send id with
  | some x => if x.st = .landed then endSend s c id x status else s
  | none => s

/-! The operations. -/

/-- fb.send (13 R256). -/
def execFbSend (h : Head) (s : State) : Ans State := slotOp h 0x340 none (sendEff false) s

/-- fb.sendr (13 R256, R258). -/
def execFbSendr (h : Head) (s : State) : Ans State := slotOp h 0x341 none (sendEff true) s

/-- fb.rfence (13 R259). -/
def execFbRfence (h : Head) (s : State) : Ans State := slotOp h 0x342 none rfenceEff s

/-- fb.slot (13 R260). -/
def execFbSlot (h : Head) (s : State) : Ans State := slotOp h 0x343 none slotEff s

/-- fb.wstat (13 R261). -/
def execFbWstat (h : Head) (s : State) : Ans State := slotOp h 0x344 none wstatEff s

end Sys2Proof.Machine
end

