-- ==== Sys2Proof/Machine/FlagOps.lean ====
section
/-! DEFINITION. The fg unit (11 R209-R222): flag operations, the butty wait, arrivals, casts and the group word. -/

namespace Sys2Proof.Machine

/-- A flag condition (11 R211). -/
def flagHolds (cond f v : Nat) : Bool :=
  match cond with
  | 0 => (f + 2 ^ 32 - v) % 2 ^ 32 < 2 ^ 31
  | 1 => f == v
  | 2 => f != v
  | 3 => 2 ^ 31 ≤ (f + 2 ^ 32 - v) % 2 ^ 32
  | 4 => f &&& v == v
  | _ => f &&& v != 0

/-- The flag of an operation in the issuing core's array. -/
def fgFlag (s : State) (c : Nat) (v : Word) : Nat := flagIndex (fgCap (s.core c)) v.toNat

/-- A plain flag operation: it performs at boundary T+2 (11 R212). -/
def flagEff (op : FlagOp) : Eff := fun s c _ v =>
  let k := s.core c
  s.schedule c 2 (.flagOp op (fgFlag s c v) (bits (k.inp 10 1) 31 0) (bits (k.inp 10 2) 31 0))

/-- ftest: its predicate is resolved at T (11 R213). -/
def ftestEff : Eff := fun s c _ v =>
  let k := s.core c
  let i1 := k.inp 10 1
  s.schedule c 2 (.flagOp (.ftest (physP k.regs.rotb (bits i1 2 0)) (bits i1 6 4)) (fgFlag s c v)
    (bits (k.inp 10 2) 31 0) 0)

/-- What a flag operation performing leaves in the flag, and what it delivers at the same boundary (11 R212, R213). -/
def flagStep (op : FlagOp) (f : BitVec 32) (a b : Nat) : BitVec 32 × List Act :=
  let old := [Act.out (outPort 10 0) (f.setWidth 64)]
  match op with
  | .fset => (BitVec.ofNat 32 a, [])
  | .fadd => (f + BitVec.ofNat 32 a, [])
  | .fcas => (if f.toNat = a then BitVec.ofNat 32 b else f, old)
  | .fget => (f, old)
  | .fclr => (f &&& ~~~(BitVec.ofNat 32 a), [])
  | .ftest phys cond =>
    let r := flagHolds cond f.toNat a
    (f, [.out (outPort 10 0) (b2w r), .rpred phys r])

/-- fwait: the butty stream waits from boundary T+2; n core cycles bound the wait, 0 for none (11 R214). -/
def fwaitEff : Eff := fun s c _ v =>
  let k := s.core c
  let n := (k.inp 10 3).toNat
  let w := FWait.mk (fgFlag s c v) (bits (k.inp 10 1) 6 4) (bits (k.inp 10 2) 31 0) (s.after c 2)
    (if n = 0 then none else some (s.after c (n + 1)))
  s.modCore c (fun k => { k with fwait := some w, butty := { k.butty with st := .fwait } })

/-- garrive: the arrival takes its place at the end of T (11 R219). -/
def garriveEff : Eff := fun s c _ v =>
  let l := (s.core c).latch
  s.schedule c 1 (.garrive (Garr.mk (bits ((s.core c).inp 10 1) 7 0) (fgFlag s c v) (s.after c 2) l.motor l.pc l.slot))

/-- gcast (11 R220). -/
def gcastEff : Eff := fun s c _ v =>
  let k := s.core c
  s.schedule c 1 (.gcast (bits (k.inp 10 1) 7 0) (bits (k.inp 10 2) 9 0) (bits v 31 0))

/-- Stores of core c that issued at or before a tick and have not performed, by the boundaries they perform at, over its
cluster (11 R219, R220). -/
def storeBounds (s : State) (c before : Nat) : List Nat :=
  (List.range 8).flatMap (fun i =>
    (s.core (if isTile c then c - c % 8 + i else c)).pend.filterMap (fun p =>
      let mine := match p.act with
        | .store w => w.issuer == c
        | .encode j => j.issuer == c
        | _ => false
      if mine && p.issue ≤ before then some p.due else none))

/-- The later of a boundary and the perform points of the core's stores issued at or before a tick. -/
def afterStores (s : State) (c before due : Nat) : Nat := (storeBounds s c before).foldl max due

/-- Changes a group of a core's running timetable. -/
def State.modGroup (s : State) (part g : Nat) (f : Group → Group) : State :=
  s.modPart part (fun p => { p with tt := p.tt.map (fun t =>
    { t with groups := t.groups.map (fun x => if x.num = g then f x else x) }) })

/-- The end of T of a garrive: its place in the arrival map, the mode of the generation, and the boundary at which it is
recorded (11 R218, R219). -/
def startGarrive (s : State) (c issue : Nat) (g : Garr) : State :=
  let due := afterStores s c issue g.due
  let s := s.modGroup (s.partId c) g.group (fun x =>
    { x with mode := 2, arrivals := x.arrivals ||| 2 ^ c, named := sput 0 x.named c (g.flag + 1) })
  s.modCore c (fun k => { k with garr := k.garr ++ [{ g with due := due }] })

/-- The members of a group, in ascending core id. -/
def Group.memberList (g : Group) : List Nat := (List.range 256).filter (bitOf g.map)

/-- The end of T of a gcast: an increment for every member, none before the sender's stores have performed (11 R220). -/
def startGcast (s : State) (c issue g idx add : Nat) : State :=
  let due := afterStores s c issue s.tick
  match (s.timetable c).bind (fun t => t.group g) with
  | some x => s.modCore c (fun k => { k with casts := k.casts ++ x.memberList.map (fun m => (m, idx, add, due)) })
  | none => s

/-- The group word: only the group for a group that does not hold the task (11 R221). Log: DEDUCED 50. -/
def ginfoWord (s : State) (c g : Nat) : Word :=
  match (s.timetable c).bind (fun t => t.group g) with
  | some x =>
    if bitOf x.map c then
      BitVec.ofNat 64 (x.gen.toNat % 2 ^ 16 * 2 ^ 48 + x.mode * 2 ^ 42 + b2n (bitOf x.arrivals c) * 2 ^ 41 +
        x.arrived * 2 ^ 32 + x.members * 2 ^ 16 + 2 ^ 15 + g)
    else BitVec.ofNat 64 g
  | none => BitVec.ofNat 64 g

/-- ginfo (11 R221). -/
def ginfoEff : Eff := fun s c _ v => s.schedule c 2 (.out (outPort 10 0) (ginfoWord s c (bits v 7 0)))

/-! The operations. -/

/-- fg.fset (11 R212). -/
def execFgFset (h : Head) (s : State) : Ans State := slotOp h 0x380 none (flagEff .fset) s

/-- fg.fadd (11 R212). -/
def execFgFadd (h : Head) (s : State) : Ans State := slotOp h 0x381 none (flagEff .fadd) s

/-- fg.fcas (11 R212). -/
def execFgFcas (h : Head) (s : State) : Ans State := slotOp h 0x382 none (flagEff .fcas) s

/-- fg.fget (11 R212). -/
def execFgFget (h : Head) (s : State) : Ans State := slotOp h 0x383 none (flagEff .fget) s

/-- fg.ftest (11 R213). -/
def execFgFtest (h : Head) (s : State) : Ans State := slotOp h 0x384 none ftestEff s

/-- fg.fwait (11 R214). -/
def execFgFwait (h : Head) (s : State) : Ans State := slotOp h 0x385 none fwaitEff s

/-- fg.fclr (11 R212). -/
def execFgFclr (h : Head) (s : State) : Ans State := slotOp h 0x386 none (flagEff .fclr) s

/-- fg.garrive (11 R219). -/
def execFgGarrive (h : Head) (s : State) : Ans State := slotOp h 0x387 none garriveEff s

/-- fg.gcast (11 R220). -/
def execFgGcast (h : Head) (s : State) : Ans State := slotOp h 0x388 none gcastEff s

/-- fg.ginfo (11 R221). -/
def execFgGinfo (h : Head) (s : State) : Ans State := slotOp h 0x389 none ginfoEff s

end Sys2Proof.Machine
end

