-- ==== Sys2Proof/Machine/LoadStore.lean ====
section
/-! DEFINITION. The ls unit: scratchpad access (11 R201-R204), capability operations (17 R331-R336) and hand-over (17
R337-R339). -/

namespace Sys2Proof.Machine

/-! Loads and stores. -/

/-- The owner and offset of the access at cap.base + off (11 R202). -/
def lsPlace (c : Nat) (k : Core) (v : Word) : Nat × Nat :=
  let cap := k.capReg (lsCs k)
  ownerOf c cap.space (cap.base + v.toNat)

/-- The access reaches another core's scratchpad (10 R183). -/
def lsPeer (k : Core) : Bool := (k.capReg (lsCs k)).space == 1

/-- What a load delivers, read now from the owner's scratchpad through the forwarding table: the stores of the issuing
core that issued before tick `before` and have not performed (10 R185, 11 R201, R203, 17 R333). -/
def loadResult (s : State) (c owner addr before : Nat) (l : LsLoad) : Act :=
  let o := s.core owner
  let fs := o.forwards c before
  match l with
  | .data size sgn =>
    let v := o.fwdNat fs addr size
    .out (outPort 3 0) (if sgn then wrap64 (sextOf v (8 * size)) else BitVec.ofNat 64 v)
  | .label => .out (outPort 3 0) ((o.fwdLabel fs (addr / 64)).setWidth 64)
  | .cap cd => .cap cd (Cap.mk (BitVec.ofNat 128 (o.fwdNat fs addr 16)) (o.fwdTag fs (addr / 16)))

/-- A load: local, read at T and delivered at T+6; through space 1, read at T+12 and delivered at T+20 (10 R183). -/
def loadEff (l : Core → LsLoad) : Eff := fun s c _ v =>
  let k := s.core c
  let p := lsPlace c k v
  if lsPeer k then s.schedule c 12 (.readLs p.1 p.2 (l k))
  else s.schedule c 6 (loadResult s c p.1 p.2 s.tick (l k))

/-- n bytes of a value as cells written whole. -/
def bytesCells (addr n v : Nat) : List (Nat × Byte × Byte) :=
  ((toBytes n v).zipIdx).map (fun p => (addr + p.2, p.1, BitVec.allOnes 8))

/-- Performs a store at T+4 locally, at T+16 through space 1, in the owner's scratchpad (10 R183). -/
def storeAt (s : State) (c owner n : Nat) (peer : Bool) (w : StoreW) : State :=
  s.scheduleAt owner (s.after c (if peer then n + 12 else n)) (.store w)

/-- A data store (11 R201). -/
def storeEff (size : Nat) : Eff := fun s c _ v =>
  let k := s.core c
  let p := lsPlace c k v
  storeAt s c p.1 4 (lsPeer k) (StoreW.mk c .ls (bytesCells p.2 size (k.inp 3 1).toNat) [] [])

/-- stlab (11 R203). -/
def stlabEff : Eff := fun s c _ v =>
  let k := s.core c
  let p := lsPlace c k v
  storeAt s c p.1 4 (lsPeer k) (StoreW.mk c .ls [] [(p.2 / 64, (k.inp 3 1).setWidth 16)] [])

/-- stcap: the 16 bytes and the tag of cv (17 R333). -/
def stcapEff : Eff := fun s c _ v =>
  let k := s.core c
  let p := lsPlace c k v
  let cv := k.capReg (lsCv k)
  storeAt s c p.1 4 (lsPeer k)
    (StoreW.mk c .ls (bytesCells p.2 16 cv.bits.toNat) [] (if cv.tag then [p.2 / 16] else []))

/-! Capability operations. -/

/-- A capability operation: cd receives f of cs and the trigger operand at T+1 (17 R332). -/
def capEff (f : State → Nat → Cap → Word → Cap) : Eff := fun s c _ v =>
  let k := s.core c
  s.schedule c 1 (.cap (lsCd k) (f s c (k.capReg (lsCs k)) v))

/-- An inspection: o0 receives f of cs at T+1 (17 R336). -/
def inspectEff (f : Cap → Word) : Eff := fun s c _ _ =>
  let k := s.core c
  s.schedule c 1 (.out (outPort 3 0) (f (k.capReg (lsCs k))))

/-- cbound: narrowed bounds, an entry capability from a window root, or the byte bound of an entry capability (17 R334). -/
def cboundOf (s : State) (c : Nat) (cs : Cap) (v : Word) : Cap :=
  let len := ((s.core c).inp 3 1).toNat
  if cs.isRoot then cs.withFields (cs.perm &&& (255 - pGlobal)) cs.holder len (cs.base + v.toNat)
  else if cs.space = 5 then cs.withFields cs.perm cs.holder len cs.base
  else cs.withFields cs.perm cs.holder len (cs.base + v.toNat)

/-- cmove: authority moves, and the source's tag is cleared at the same boundary (17 R335). -/
def cmoveEff : Eff := fun s c _ v =>
  let k := s.core c
  let cs := k.capReg (lsCs k)
  let moved := s.schedule c 1 (.cap (lsCd k) (cs.withFields cs.perm (bits v 2 0) cs.length cs.base))
  if lsCd k = lsCs k then moved else moved.schedule c 1 (.untag (lsCs k))

/-- The cinfo word (17 R336). -/
def cinfoWord (cs : Cap) : Word :=
  BitVec.ofNat 64 (cs.space * 2 ^ 20 + cs.perm * 2 ^ 12 + cs.holder * 2 ^ 8 + cs.kind * 2 ^ 4 + b2n cs.tag)

/-! Hand-over. -/

/-- Changes a hand-table entry of a core. -/
def State.setHand (s : State) (owner i : Nat) (e : HandEnt) : State :=
  s.modCore owner (fun k => { k with hand := sput HandEnt.free k.hand i e })

/-- hand: the entry is in transit from T, and the new holder holds from T+2 (17 R339). -/
def handEff : Eff := fun s c _ v =>
  let k := s.core c
  let cap := k.capReg (lsCs k)
  let h := bits v 2 0
  let g := handRange c cap
  match handStep s c cap h with
  | .pass i =>
    (s.setHand g.1 i { (s.core g.1).handEnt i with transit := true }).schedule c 2 (.handDone g.1 i h)
  | .take i => (s.setHand g.1 i (HandEnt.mk false true g.2.1 g.2.2 (c % 8))).schedule c 2 (.handDone g.1 i h)
  | _ => s

/-- The end of a hand, for an entry still in transit: freed where it returns to the owner, held by h otherwise. -/
def handDone (s : State) (owner i h : Nat) : State :=
  let e := (s.core owner).handEnt i
  if e.transit then
    s.setHand owner i (if h = owner % 8 then HandEnt.free else { e with holder := h, valid := true, transit := false })
  else s

/-! The operations. -/

/-- ls.ld8 (11 R201). -/
def execLsLd8 (h : Head) (s : State) : Ans State := slotOp h 0x1C0 none (loadEff (fun _ => .data 1 true)) s

/-- ls.ld8z (11 R201). -/
def execLsLd8z (h : Head) (s : State) : Ans State := slotOp h 0x1C1 none (loadEff (fun _ => .data 1 false)) s

/-- ls.ld16 (11 R201). -/
def execLsLd16 (h : Head) (s : State) : Ans State := slotOp h 0x1C2 none (loadEff (fun _ => .data 2 true)) s

/-- ls.ld16z (11 R201). -/
def execLsLd16z (h : Head) (s : State) : Ans State := slotOp h 0x1C3 none (loadEff (fun _ => .data 2 false)) s

/-- ls.ld32 (11 R201). -/
def execLsLd32 (h : Head) (s : State) : Ans State := slotOp h 0x1C4 none (loadEff (fun _ => .data 4 true)) s

/-- ls.ld32z (11 R201). -/
def execLsLd32z (h : Head) (s : State) : Ans State := slotOp h 0x1C5 none (loadEff (fun _ => .data 4 false)) s

/-- ls.ld64 (11 R201). -/
def execLsLd64 (h : Head) (s : State) : Ans State := slotOp h 0x1C6 none (loadEff (fun _ => .data 8 false)) s

/-- ls.st8 (11 R201). -/
def execLsSt8 (h : Head) (s : State) : Ans State := slotOp h 0x1C7 none (storeEff 1) s

/-- ls.st16 (11 R201). -/
def execLsSt16 (h : Head) (s : State) : Ans State := slotOp h 0x1C8 none (storeEff 2) s

/-- ls.st32 (11 R201). -/
def execLsSt32 (h : Head) (s : State) : Ans State := slotOp h 0x1C9 none (storeEff 4) s

/-- ls.st64 (11 R201). -/
def execLsSt64 (h : Head) (s : State) : Ans State := slotOp h 0x1CA none (storeEff 8) s

/-- ls.ldlab (11 R203). -/
def execLsLdlab (h : Head) (s : State) : Ans State := slotOp h 0x1CB none (loadEff (fun _ => .label)) s

/-- ls.stlab (11 R203). -/
def execLsStlab (h : Head) (s : State) : Ans State := slotOp h 0x1CC none stlabEff s

/-- ls.ldcap (17 R333). -/
def execLsLdcap (h : Head) (s : State) : Ans State := slotOp h 0x1CD none (loadEff (fun k => .cap (lsCd k))) s

/-- ls.stcap (17 R333). -/
def execLsStcap (h : Head) (s : State) : Ans State := slotOp h 0x1CE none stcapEff s

/-- ls.cbound (17 R334). -/
def execLsCbound (h : Head) (s : State) : Ans State := slotOp h 0x1CF none (capEff cboundOf) s

/-- ls.cmove (17 R335). -/
def execLsCmove (h : Head) (s : State) : Ans State := slotOp h 0x1D0 none cmoveEff s

/-- ls.cperm (17 R336). -/
def execLsCperm (h : Head) (s : State) : Ans State :=
  slotOp h 0x1D1 none (capEff (fun _ _ cs v => cs.withFields (cs.perm &&& bits v 7 0) cs.holder cs.length cs.base)) s

/-- ls.cbase (17 R336). -/
def execLsCbase (h : Head) (s : State) : Ans State :=
  slotOp h 0x1D2 none (inspectEff (fun cs => BitVec.ofNat 64 cs.base)) s

/-- ls.clen (17 R336). -/
def execLsClen (h : Head) (s : State) : Ans State :=
  slotOp h 0x1D3 none (inspectEff (fun cs => BitVec.ofNat 64 cs.length)) s

/-- ls.cinfo (17 R336). -/
def execLsCinfo (h : Head) (s : State) : Ans State := slotOp h 0x1D4 none (inspectEff cinfoWord) s

/-- ls.ccopy (17 R336). -/
def execLsCcopy (h : Head) (s : State) : Ans State := slotOp h 0x1D5 none (capEff (fun _ _ cs _ => cs)) s

/-- ls.cclear (17 R336). -/
def execLsCclear (h : Head) (s : State) : Ans State := slotOp h 0x1D6 none (capEff (fun _ _ _ _ => Cap.null)) s

/-- ls.hand (17 R339). -/
def execLsHand (h : Head) (s : State) : Ans State := slotOp h 0x1D7 none handEff s

end Sys2Proof.Machine
end

