-- ==== Sys2Proof/Machine/Vector.lean ====
section
/-! DEFINITION. The wide units va and sf (07 R130-R147): operands are captured at T, and the result is computed and written
when it is delivered, in issue order, so that stochastic draws fall in that order (05 R101). -/

namespace Sys2Proof.Machine

/-- Captures a va operation at T and delivers it at T+n; the last-use bits of a and b act at once (02 R49, 07 R133). -/
def vaEff (u k : Nat) (op : VaOp) (n : Nat) (e : Ext) : Eff := fun s c _ v =>
  let r := s.core c
  let w := wideUse u k
  let d := if w.d = .e then e.d.toNat else physV r.regs.rotb e.d.toNat
  let s := s.modCore c (fun r => r.lastUse e (if w.d = .v then some e.d.toNat else none) (w.a = .v) (w.b = .v))
  s.schedule c n (.va op (r.extTy e) (r.wide e v) d)

/-- Marks a resource busy from T until the boundary n core cycles on; siblings of the bundle do not see it (06 R117). -/
def State.busyFor (s : State) (c r n : Nat) : State :=
  s.modCore c (fun k => { k with latch := { k.latch with busy := k.latch.busy ++ [(r, s.after c n)] } })

/-- Captures an sf operation at T: the lane array is busy for 4 cycles, 8 for a 16-bit type, and the result is delivered
at T+12 (07 R144, R145). -/
def sfEff (op : SfOp) (e : Ext) : Eff := fun s c _ v =>
  let r := s.core c
  let f := match r.extTy e with
    | .flt f => f
    | .int _ _ => fp32
  let s := s.modCore c (fun r => r.lastUse e (some e.d.toNat) true false)
  let s := s.busyFor c rsSf (if f.cont = 32 then 4 else 8)
  s.schedule c 12 (.sf op f (r.wide e v) (physV r.regs.rotb e.d.toNat))

/-- va.add (07 R135). -/
def execVaAdd (h : Head) (e : Ext) (s : State) : Ans State :=
  slotOp h 0x200 (some e) (vaEff 4 0 .add 3 e) s

/-- va.sub (07 R135). -/
def execVaSub (h : Head) (e : Ext) (s : State) : Ans State :=
  slotOp h 0x201 (some e) (vaEff 4 1 .sub 3 e) s

/-- va.mul (07 R135). -/
def execVaMul (h : Head) (e : Ext) (s : State) : Ans State :=
  slotOp h 0x202 (some e) (vaEff 4 2 .mul 3 e) s

/-- va.fma (07 R135). -/
def execVaFma (h : Head) (e : Ext) (s : State) : Ans State :=
  slotOp h 0x203 (some e) (vaEff 4 3 .fma 5 e) s

/-- va.fms (07 R135). -/
def execVaFms (h : Head) (e : Ext) (s : State) : Ans State :=
  slotOp h 0x204 (some e) (vaEff 4 4 .fms 5 e) s

/-- va.nfma (07 R135). -/
def execVaNfma (h : Head) (e : Ext) (s : State) : Ans State :=
  slotOp h 0x205 (some e) (vaEff 4 5 .nfma 5 e) s

/-- va.min (07 R136). -/
def execVaMin (h : Head) (e : Ext) (s : State) : Ans State :=
  slotOp h 0x206 (some e) (vaEff 4 6 .min 3 e) s

/-- va.max (07 R136). -/
def execVaMax (h : Head) (e : Ext) (s : State) : Ans State :=
  slotOp h 0x207 (some e) (vaEff 4 7 .max 3 e) s

/-- va.abs (07 R136). -/
def execVaAbs (h : Head) (e : Ext) (s : State) : Ans State :=
  slotOp h 0x208 (some e) (vaEff 4 8 .abs 3 e) s

/-- va.neg (07 R136). -/
def execVaNeg (h : Head) (e : Ext) (s : State) : Ans State :=
  slotOp h 0x209 (some e) (vaEff 4 9 .neg 3 e) s

/-- va.and (07 R137). -/
def execVaAnd (h : Head) (e : Ext) (s : State) : Ans State :=
  slotOp h 0x20A (some e) (vaEff 4 10 .and 3 e) s

/-- va.or (07 R137). -/
def execVaOr (h : Head) (e : Ext) (s : State) : Ans State :=
  slotOp h 0x20B (some e) (vaEff 4 11 .or 3 e) s

/-- va.xor (07 R137). -/
def execVaXor (h : Head) (e : Ext) (s : State) : Ans State :=
  slotOp h 0x20C (some e) (vaEff 4 12 .xor 3 e) s

/-- va.not (07 R137). -/
def execVaNot (h : Head) (e : Ext) (s : State) : Ans State :=
  slotOp h 0x20D (some e) (vaEff 4 13 .not 3 e) s

/-- va.shl (07 R137). -/
def execVaShl (h : Head) (e : Ext) (s : State) : Ans State :=
  slotOp h 0x20E (some e) (vaEff 4 14 .shl 3 e) s

/-- va.shr (07 R137). -/
def execVaShr (h : Head) (e : Ext) (s : State) : Ans State :=
  slotOp h 0x20F (some e) (vaEff 4 15 .shr 3 e) s

/-- va.sar (07 R137). -/
def execVaSar (h : Head) (e : Ext) (s : State) : Ans State :=
  slotOp h 0x210 (some e) (vaEff 4 16 .sar 3 e) s

/-- va.cmp (07 R138). -/
def execVaCmp (h : Head) (e : Ext) (s : State) : Ans State :=
  slotOp h 0x211 (some e) (vaEff 4 17 .cmp 3 e) s

/-- va.sel (07 R139). -/
def execVaSel (h : Head) (e : Ext) (s : State) : Ans State :=
  slotOp h 0x212 (some e) (vaEff 4 18 .sel 3 e) s

/-- va.sum (07 R140). -/
def execVaSum (h : Head) (e : Ext) (s : State) : Ans State :=
  slotOp h 0x213 (some e) (vaEff 4 19 .sum 8 e) s

/-- va.rmax (07 R140). -/
def execVaRmax (h : Head) (e : Ext) (s : State) : Ans State :=
  slotOp h 0x214 (some e) (vaEff 4 20 .rmax 8 e) s

/-- va.rmin (07 R140). -/
def execVaRmin (h : Head) (e : Ext) (s : State) : Ans State :=
  slotOp h 0x215 (some e) (vaEff 4 21 .rmin 8 e) s

/-- va.dot4 (07 R141). -/
def execVaDot4 (h : Head) (e : Ext) (s : State) : Ans State :=
  slotOp h 0x216 (some e) (vaEff 4 22 .dot4 5 e) s

/-- va.scale (07 R142). -/
def execVaScale (h : Head) (e : Ext) (s : State) : Ans State :=
  slotOp h 0x217 (some e) (vaEff 4 23 .scale 5 e) s

/-- va.clamp (07 R143). -/
def execVaClamp (h : Head) (e : Ext) (s : State) : Ans State :=
  slotOp h 0x218 (some e) (vaEff 4 24 .clamp 3 e) s

/-- va.addsat (07 R143). -/
def execVaAddsat (h : Head) (e : Ext) (s : State) : Ans State :=
  slotOp h 0x219 (some e) (vaEff 4 25 .addsat 3 e) s

/-- va.subsat (07 R143). -/
def execVaSubsat (h : Head) (e : Ext) (s : State) : Ans State :=
  slotOp h 0x21A (some e) (vaEff 4 26 .subsat 3 e) s

/-- sf.exp2 (07 R146, R147). -/
def execSfExp2 (h : Head) (e : Ext) (s : State) : Ans State :=
  slotOp h 0x280 (some e) (sfEff .exp2 e) s

/-- sf.log2 (07 R146, R147). -/
def execSfLog2 (h : Head) (e : Ext) (s : State) : Ans State :=
  slotOp h 0x281 (some e) (sfEff .log2 e) s

/-- sf.rcp (07 R146, R147). -/
def execSfRcp (h : Head) (e : Ext) (s : State) : Ans State :=
  slotOp h 0x282 (some e) (sfEff .rcp e) s

/-- sf.rsqrt (07 R146, R147). -/
def execSfRsqrt (h : Head) (e : Ext) (s : State) : Ans State :=
  slotOp h 0x283 (some e) (sfEff .rsqrt e) s

/-- sf.sqrt (07 R146, R147). -/
def execSfSqrt (h : Head) (e : Ext) (s : State) : Ans State :=
  slotOp h 0x284 (some e) (sfEff .sqrt e) s

/-- sf.tanh (07 R146, R147). -/
def execSfTanh (h : Head) (e : Ext) (s : State) : Ans State :=
  slotOp h 0x285 (some e) (sfEff .tanh e) s

/-- sf.sigm (07 R146, R147). -/
def execSfSigm (h : Head) (e : Ext) (s : State) : Ans State :=
  slotOp h 0x286 (some e) (sfEff .sigm e) s

/-- sf.sin (07 R146, R147). -/
def execSfSin (h : Head) (e : Ext) (s : State) : Ans State :=
  slotOp h 0x287 (some e) (sfEff .sin e) s

/-- sf.cos (07 R146, R147). -/
def execSfCos (h : Head) (e : Ext) (s : State) : Ans State :=
  slotOp h 0x288 (some e) (sfEff .cos e) s

/-- sf.erf (07 R146, R147). -/
def execSfErf (h : Head) (e : Ext) (s : State) : Ans State :=
  slotOp h 0x289 (some e) (sfEff .erf e) s

end Sys2Proof.Machine
end

