-- ==== Sys2Proof/Machine/VectorMem.lean ====
section
/-! DEFINITION. The vm unit (08 R148-R171): rows between scratchpad, operand file and main file, conversions, labelled
lines, the stream buffer, masks and formats. -/

namespace Sys2Proof.Machine

/-- Capability, owner and offset of the access at cap.base + off (08 R153). -/
def vmPlace (c : Nat) (k : Core) (off : Nat) : Nat × Nat :=
  let cap := vmCap k
  ownerOf c cap.space (cap.base + off)

/-- The access reaches another core's scratchpad (08 R153). -/
def vmPeer (k : Core) : Bool := (vmCap k).space == 1

/-- The last-use bits of a vm operation that writes v register d, where it writes one (02 R49). -/
def vmLast (s : State) (c : Nat) (e : Ext) (d a b : Bool) : State :=
  s.modCore c (fun k => k.lastUse e (if d then some e.d.toNat else none) a b)

/-- The physical register d names at T (08 R148). -/
def dPhys (k : Core) (e : Ext) : Nat := physV k.regs.rotb e.d.toNat

/-- Ones in every bit of a row. -/
def allRow : Row := BitVec.allOnes 8192

/-! Rows and lanes in memory. -/

/-- ld (08 R154). -/
def vmLdEff (e : Ext) : Eff := fun s c _ v =>
  let k := s.core c
  let p := vmPlace c k v.toNat
  let sel := k.laneSel e
  if vmPeer k then s.schedule c 12 (.readRow p.1 p.2 sel (dPhys k e))
  else s.schedule c 6 (.vrow (dPhys k e) (bytesRow (readBytes (s.core p.1).mem.sp p.2 1024)) sel)

/-- st (08 R154). -/
def vmStEff (e : Ext) : Eff := fun s c _ v =>
  let k := s.core c
  let p := vmPlace c k v.toNat
  let w := StoreW.mk c .vm (rowCells p.2 (k.vreg e.a.toNat) (k.laneSel e)) [] []
  (vmLast s c e false true false).scheduleAt p.1 (s.after c (if vmPeer k then 16 else 4)) (.store w)

/-- The row that a gather reads from a scratchpad now, and the bits it writes. -/
def gatherRow (sp : Store Byte) (addrs : List (Option Nat)) (size : Nat) : Row × Row :=
  (rowOf (8 * size) (addrs.map (fun a => match a with
    | some x => readNat sp x size
    | none => 0)),
   laneBits (8 * size) (addrs.map Option.isSome))

/-- The lanes of a gather, each with its own scratchpad: through space 1 a lane's address names the owning core (17 R325). -/
def laneOwners (c : Nat) (k : Core) (e : Ext) (v : Word) : List Nat :=
  ((k.laneOffsets e v).map (fun p => (vmPlace c k p.2).1)).dedup

/-- The addresses of the lanes that lie in one scratchpad. -/
def ldxAddrsOf (c : Nat) (k : Core) (e : Ext) (v : Word) (owner : Nat) : List (Option Nat) :=
  let t := k.extTy e
  let offs := k.laneOffsets e v
  (List.range t.lanes).map (fun i =>
    match offs.find? (fun p => p.1 == i) with
    | some p => if (vmPlace c k p.2).1 = owner then some (vmPlace c k p.2).2 else none
    | none => none)

/-- Gathers from one scratchpad after another. -/
def gatherFrom (s : State) (c : Nat) (e : Ext) (v : Word) (k : Core) : List Nat → State
  | [] => s
  | o :: os =>
    let t := k.extTy e
    let addrs := ldxAddrsOf c k e v o
    let r := gatherRow (s.core o).mem.sp addrs (t.cont / 8)
    gatherFrom
      (if vmPeer k then s.schedule c 12 (.readIdx o addrs (t.cont / 8) (dPhys k e))
       else s.schedule c 10 (.vrow (dPhys k e) r.1 r.2)) c e v k os

/-- ldx; with no lane selected it delivers nothing but revives d (02 R49, 08 R155). -/
def vmLdxEff (e : Ext) : Eff := fun s c _ v =>
  let k := s.core c
  let s := vmLast s c e true false true
  match laneOwners c k e v with
  | [] => s.schedule c (if vmPeer k then 24 else 10) (.vrow (dPhys k e) 0 0)
  | os => gatherFrom s c e v k os

/-- The bytes of one scratchpad that a scatter writes: of two lanes with one address the higher-numbered is first, and its
bytes are kept (08 R155, 10 R187). -/
def scatterCells (c : Nat) (k : Core) (e : Ext) (v : Word) (owner : Nat) : List (Nat × Byte × Byte) :=
  let t := k.extTy e
  let n := t.cont / 8
  ((k.laneOffsets e v).reverse.filter (fun p => (vmPlace c k p.2).1 == owner)).flatMap (fun p =>
    ((toBytes n (laneOf (k.vreg e.a.toNat) t.cont p.1)).zipIdx).map (fun q =>
      ((vmPlace c k p.2).2 + q.2, q.1, BitVec.allOnes 8)))

/-- Scatters to one scratchpad after another. -/
def scatterTo (s : State) (c : Nat) (e : Ext) (v : Word) (k : Core) (due : Nat) : List Nat → State
  | [] => s
  | o :: os =>
    scatterTo (s.scheduleAt o due (.store (StoreW.mk c .vm (scatterCells c k e v o) [] []))) c e v k due os

/-- stx (08 R155). -/
def vmStxEff (e : Ext) : Eff := fun s c _ v =>
  let k := s.core c
  scatterTo (vmLast s c e false true true) c e v k (s.after c (if vmPeer k then 20 else 8)) (laneOwners c k e v)

/-! Moves inside the core. -/

/-- mov (08 R151, R156). -/
def vmMovEff (e : Ext) : Eff := fun s c _ v =>
  let k := s.core c
  let mr := movRow v
  let sel := k.laneSel e
  match movDir v with
  | 0 => (vmLast s c e true true false).schedule c 2 (.vrow (dPhys k e) (k.vreg e.a.toNat) sel)
  | 1 => s.schedule c 2 (.vrow (dPhys k e) (sget 0 k.regs.m mr) sel)
  | _ =>
    ((vmLast s c e false true false).busyFor c (rsTile (mr / 32)) 2).schedule c 2 (.mrow mr (k.vreg e.a.toNat) sel)

/-- bcast (08 R157). -/
def vmBcastEff (e : Ext) : Eff := fun s c _ v =>
  let k := s.core c
  let t := k.extTy e
  s.schedule c 2 (.vrow (dPhys k e) (rowOf t.cont (List.replicate t.lanes (v.toNat % 2 ^ t.cont))) (k.laneSel e))

/-- The 64-bit form of a lane that is read: sign-extended for s types, zero-extended otherwise (08 R158). -/
def laneWord (t : ElTy) (c : Nat) : Word :=
  match t with
  | .int true w => wrap64 (sextOf c w)
  | _ => BitVec.ofNat 64 c

/-- lane (08 R158). -/
def vmLaneEff (e : Ext) : Eff := fun s c _ v =>
  let k := s.core c
  let t := k.extTy e
  let i := bits v 10 0
  if v.getLsbD 11 then
    s.schedule c 2 (.vrow (dPhys k e) (BitVec.ofNat 8192 ((k.inp 5 1).toNat % 2 ^ t.cont * 2 ^ (t.cont * i)))
      (BitVec.ofNat 8192 ((2 ^ t.cont - 1) * 2 ^ (t.cont * i))))
  else
    (vmLast s c e false true false).schedule c 2 (.out (outPort 5 0) (laneWord t (laneOf (k.vreg e.a.toNat) t.cont i)))

/-- perm (08 R159). -/
def vmPermEff (e : Ext) : Eff := fun s c _ v =>
  let k := s.core c
  let o := vmPermOut (k.extTy e) (k.wide e v) k.gens
  (vmLast s c e true true true).schedule c 4 (.vrow (dPhys k e) o.row o.bits)

/-- shuf: patterns below 4 read b (08 R160). -/
def vmShufEff (e : Ext) : Eff := fun s c _ v =>
  let k := s.core c
  let o := vmShufOut (k.extTy e) (k.wide e v) k.gens
  (vmLast s c e true true (decide (bits v 3 0 < 4))).schedule c 4 (.vrow (dPhys k e) o.row o.bits)

/-! Conversions and labelled lines. -/

/-- cvt, pack and unpack: captured at T, rounded at delivery (08 R161, R162). -/
def vmConvEff (op : ConvOp) (e : Ext) : Eff := fun s c _ v =>
  let k := s.core c
  (vmLast s c e true true (op = .pack)).schedule c 4 (.conv op (k.extTy e) (k.ty (bits v 3 0)) (k.wide e v) (dPhys k e))

/-- The lines of a decode as interpreted at T, with their element format (08 R164). -/
def decodeLines (s : State) (c : Nat) (k : Core) (e : Ext) (off : Nat) : Fmt × List LineMeta :=
  let p := vmPlace c k off
  let fsel := ctlFsel (k.inp 5 1)
  let desc := if fsel = 0 then s.fmtEntry c (s.lineFidx p.1 p.2) else (k.freg (fsel - 8)).toNat
  let n := elemLines (k.extTy e).lanes (descCont desc)
  (fmtOf desc, (List.range n).map (fun i =>
    if fsel = 0 then s.lineMeta p.1 (p.2 + 64 * i) else LineMeta.mk (p.2 + 64 * i) 0 Val.one none e8m0 0))

/-- The values of the lanes of a decode, read now: lines, elements and scales (08 R164). -/
def decodeVals (sp : Store Byte) (f : Fmt) (lines : List LineMeta) (sel : List Bool) : List (Option (Val × Stat)) :=
  let per := 512 / f.cont
  (sel.zipIdx).map (fun p =>
    if p.1 then
      match lines[p.2 / per]? with
      | some m =>
        let x := lineElem sp m (.flt f) (p.2 % per)
        some (scaledVal x.v x.bs x.ls)
      | none => none
    else none)

/-- decode (08 R164). -/
def vmDecodeEff (e : Ext) : Eff := fun s c _ v =>
  let k := s.core c
  let td := k.extTy e
  let p := vmPlace c k v.toNat
  let d := decodeLines s c k e v.toNat
  let sel := maskLanes (k.mask e.mask.toNat) td.lanes
  if vmPeer k then s.schedule c 12 (.readDec p.1 d.2 d.1 td sel (k.rnd e) (dPhys k e))
  else s.schedule c 6 (.decoded td (decodeVals (s.core p.1).mem.sp d.1 d.2 sel) (k.rnd e) (dPhys k e))

/-- The encode that performs at T+6 (T+18 through space 1): operands, format, labels and slots as they stand at T (08 R163,
R165, R166). -/
def encodeJob (s : State) (c : Nat) (k : Core) (e : Ext) (v : Word) : EncJob :=
  let w := k.inp 5 1
  let p := vmPlace c k v.toNat
  let desc := encDesc s c w
  let grain := encGrain s c w
  let n := elemLines (k.extTy e).lanes (descCont desc)
  { issuer := c, ty := k.extTy e, a := k.vreg e.a.toNat, b := k.vreg e.b.toNat, mode := k.rnd e, fmt := fmtOf desc
    sfmt := s.scaleFmt c desc, grain := grain, smode := ctlSmode w, lscale := ctlLscale w
    fidx := if ctlFsel w = 0 then ctlFidx w else 0, off := p.2
    slots := if grain = 0 then none else (encSlots s p.1 p.2 n).headD none }

/-- encode (08 R165). -/
def vmEncodeEff (e : Ext) : Eff := fun s c _ v =>
  let k := s.core c
  let j := encodeJob s c k e v
  (vmLast s c e false true (j.grain != 0 && j.smode == 0)).scheduleAt (vmPlace c k v.toNat).1
    (s.after c (if vmPeer k then 18 else 6)) (.encode j)

/-! The stream buffer. -/

/-- The selected lanes of a row as bytes, in ascending lane order (08 R168). -/
def pushedBytes (k : Core) (e : Ext) : List Byte :=
  let t := k.extTy e
  let m := maskLanes (k.mask e.mask.toNat) t.lanes
  ((rowCodes t.cont (k.vreg e.a.toNat)).zip m).flatMap (fun p => if p.2 then toBytes (t.cont / 8) p.1 else [])

/-- push: the bytes perform at T+6, head and fill change at the end of T (08 R168). -/
def vmPushEff (e : Ext) : Eff := fun s c _ _ =>
  let k := s.core c
  let b := k.sbuf
  let bs := pushedBytes k e
  let cells := ((b.addrs (b.head + b.fill) bs.length).zip bs).map (fun p => (p.1, p.2, (BitVec.allOnes 8 : Byte)))
  let s := vmLast s c e false true false
  let s := if bs.isEmpty then s else s.schedule c 6 (.store (StoreW.mk c .push cells [] []))
  s.schedule c 1 (.ring b.head (b.fill + bs.length))

/-- A byte as a pop sees it: earlier pushes of the core whose writes have not performed are seen, the latest first (08
R168). -/
def Core.popByte (k : Core) (c a : Nat) : Byte :=
  (k.pend.filterMap (fun p => match p.act with
    | .store w => if w.kind == .push && w.issuer == c then w.byteAt a else none
    | _ => none)).foldl (fun _ x => x.1) (readByte k.mem.sp a)

/-- Gives the selected lanes codes in order; excluded lanes are 0. -/
def expandLanes : List Bool → List Nat → List Nat
  | [], _ => []
  | true :: ms, c :: cs => c :: expandLanes ms cs
  | true :: ms, [] => 0 :: expandLanes ms []
  | false :: ms, cs => 0 :: expandLanes ms cs

/-- n codes of `size` bytes each. -/
def codesOf (size : Nat) : Nat → List Byte → List Nat
  | 0, _ => []
  | n + 1, bs => ofBytes (bs.take size) :: codesOf size n (bs.drop size)

/-- pop (08 R168). -/
def vmPopEff (e : Ext) : Eff := fun s c _ _ =>
  let k := s.core c
  let b := k.sbuf
  let t := k.extTy e
  let m := maskLanes (k.mask e.mask.toNat) t.lanes
  let n := k.streamBytes e
  let bs := (b.addrs b.head n).map (k.popByte c)
  let s := s.schedule c 6 (.vrow (dPhys k e) (rowOf t.cont (expandLanes m (codesOf (t.cont / 8) (n / (t.cont / 8)) bs)))
    (k.laneSel e))
  s.schedule c 1 (.ring (if b.len = 0 then b.head else (b.head + n) % b.len) (b.fill - n))

/-! Masks, tiles and formats. -/

/-- mand, mor, mnot: mask register d at T+1 (08 R169). -/
def maskEff (f : Mask → Mask → Mask) (e : Ext) : Eff := fun s c _ _ =>
  let k := s.core c
  s.schedule c 1 (.emask e.d.toNat (f (k.mask e.a.toNat) (k.mask e.b.toNat)))

/-- mcount (08 R169). -/
def mcountEff (e : Ext) : Eff := fun s c _ _ =>
  let k := s.core c
  s.schedule c 2 (.out (outPort 5 0) (BitVec.ofNat 64 (maskCount (k.mask e.a.toNat) (k.extTy e).lanes)))

/-- lend and reclaim: the ownership changes at the end of T (08 R170). -/
def lendEff (on : Bool) : Eff := fun s c _ v => s.schedule c 1 (.lend (bits v 2 0) on)

/-- setfmt (08 R171). -/
def setfmtEff (e : Ext) : Eff := fun s c _ v => s.schedule c 1 (.freg e.d.toNat (BitVec.ofNat 64 (bits v 31 0)))

/-! The operations. -/

/-- vm.ld (08 R154). -/
def execVmLd (h : Head) (e : Ext) (s : State) : Ans State := slotOp h 0x240 (some e) (vmLdEff e) s

/-- vm.st (08 R154). -/
def execVmSt (h : Head) (e : Ext) (s : State) : Ans State := slotOp h 0x241 (some e) (vmStEff e) s

/-- vm.ldx (08 R155). -/
def execVmLdx (h : Head) (e : Ext) (s : State) : Ans State := slotOp h 0x242 (some e) (vmLdxEff e) s

/-- vm.stx (08 R155). -/
def execVmStx (h : Head) (e : Ext) (s : State) : Ans State := slotOp h 0x243 (some e) (vmStxEff e) s

/-- vm.mov (08 R156). -/
def execVmMov (h : Head) (e : Ext) (s : State) : Ans State := slotOp h 0x244 (some e) (vmMovEff e) s

/-- vm.bcast (08 R157). -/
def execVmBcast (h : Head) (e : Ext) (s : State) : Ans State := slotOp h 0x245 (some e) (vmBcastEff e) s

/-- vm.lane (08 R158). -/
def execVmLane (h : Head) (e : Ext) (s : State) : Ans State := slotOp h 0x246 (some e) (vmLaneEff e) s

/-- vm.perm (08 R159). -/
def execVmPerm (h : Head) (e : Ext) (s : State) : Ans State := slotOp h 0x247 (some e) (vmPermEff e) s

/-- vm.shuf (08 R160). -/
def execVmShuf (h : Head) (e : Ext) (s : State) : Ans State := slotOp h 0x248 (some e) (vmShufEff e) s

/-- vm.cvt (08 R162). -/
def execVmCvt (h : Head) (e : Ext) (s : State) : Ans State := slotOp h 0x249 (some e) (vmConvEff .cvt e) s

/-- vm.pack (08 R162). -/
def execVmPack (h : Head) (e : Ext) (s : State) : Ans State := slotOp h 0x24A (some e) (vmConvEff .pack e) s

/-- vm.unpack (08 R162). -/
def execVmUnpack (h : Head) (e : Ext) (s : State) : Ans State := slotOp h 0x24B (some e) (vmConvEff .unpack e) s

/-- vm.decode (08 R164). -/
def execVmDecode (h : Head) (e : Ext) (s : State) : Ans State := slotOp h 0x24C (some e) (vmDecodeEff e) s

/-- vm.encode (08 R165). -/
def execVmEncode (h : Head) (e : Ext) (s : State) : Ans State := slotOp h 0x24D (some e) (vmEncodeEff e) s

/-- vm.push (08 R168). -/
def execVmPush (h : Head) (e : Ext) (s : State) : Ans State := slotOp h 0x24E (some e) (vmPushEff e) s

/-- vm.pop (08 R168). -/
def execVmPop (h : Head) (e : Ext) (s : State) : Ans State := slotOp h 0x24F (some e) (vmPopEff e) s

/-- vm.mand (08 R169). -/
def execVmMand (h : Head) (e : Ext) (s : State) : Ans State :=
  slotOp h 0x250 (some e) (maskEff (fun a b => a &&& b) e) s

/-- vm.mor (08 R169). -/
def execVmMor (h : Head) (e : Ext) (s : State) : Ans State :=
  slotOp h 0x251 (some e) (maskEff (fun a b => a ||| b) e) s

/-- vm.mnot (08 R169). -/
def execVmMnot (h : Head) (e : Ext) (s : State) : Ans State := slotOp h 0x252 (some e) (maskEff (fun a _ => ~~~a) e) s

/-- vm.mcount (08 R169). -/
def execVmMcount (h : Head) (e : Ext) (s : State) : Ans State := slotOp h 0x253 (some e) (mcountEff e) s

/-- vm.lend (08 R170). -/
def execVmLend (h : Head) (e : Ext) (s : State) : Ans State := slotOp h 0x254 (some e) (lendEff true) s

/-- vm.reclaim (08 R170). -/
def execVmReclaim (h : Head) (e : Ext) (s : State) : Ans State := slotOp h 0x255 (some e) (lendEff false) s

/-- vm.setfmt (08 R171). -/
def execVmSetfmt (h : Head) (e : Ext) (s : State) : Ans State := slotOp h 0x256 (some e) (setfmtEff e) s

end Sys2Proof.Machine
end

