-- ==== Sys2Proof/Machine/PressOps.lean ====
section
/-! DEFINITION. The pr unit (06 R112-R128): cask loads column by column, matrix passes row by row, and the press state. -/

namespace Sys2Proof.Machine

/-- The address of byte offset `off` through the press capability, in the own scratchpad. -/
def prAddr (k : Core) (off : Nat) : Nat := (prCap k).base + off

/-- The lines of one run of a press operand as they are labelled at T (06 R120). Where the capability's base is no multiple of 64, each
run of 64 bytes has the label and the scale slot of the line of its first byte. Log: DESIGN CHOICE 150. -/
def prLines (s : State) (c : Nat) (off bytes : Nat) : List LineMeta :=
  (List.range (bytes / 64)).map (fun i => s.lineMeta c (off + 64 * i))

/-! Cask loads. -/

/-- The columns of a cask load that are read n core cycles after T: two a cycle, one for 16-bit B (06 R121). -/
def caskColumns (s : State) (c : Nat) (v : Word) (n : Nat) : List ColJob :=
  let k := s.core c
  let f := k.press.fb
  let per := if f.is16 then 1 else 2
  let cols := ((List.range per).map (fun i => per * (n - 4) + i)).filter (fun j => j < caskNc v)
  cols.map (fun j =>
    ColJob.mk (caskQ v) j (caskKc v) f
      (prLines s c (prAddr k ((k.inp 7 1).toNat + j * (k.inp 7 2).toNat)) (lineBytes (caskKc v) f.ty.cont)))

/-- Schedules the column reads of `left` cycles from T+n on. -/
def caskReads (s : State) (c : Nat) (v : Word) : Nat → Nat → State
  | _, 0 => s
  | n, left + 1 => caskReads (s.schedule c n (.readCols (caskColumns s c v n))) c v (n + 1) left

/-- cask: the load is busy until T+136 (06 R117, R121). -/
def caskEff : Eff := fun s c _ v =>
  let k := s.core c
  let per := if k.press.fb.is16 then 1 else 2
  caskReads (s.busyFor c (rsLoad (caskQ v)) 136) c v 4 ((caskNc v + per - 1) / per)

/-- Element i of a run of lines, with its scales, read now. -/
def runElem (sp : Store Byte) (lines : List LineMeta) (t : ElTy) (i : Nat) : Scaled :=
  let per := 512 / t.cont
  match lines[i / per]? with
  | some m => lineElem sp m t (i % per)
  | none => Scaled.mk Val.zero Val.one Val.one

/-- The width of a type's code, which its container may exceed (04 R73). -/
def codeWidth : ElTy → Nat
  | .int _ w => w
  | .flt f => f.w

/-- The code of element i of a run of lines, read now: the high bits of its container are ignored (04 R73). -/
def runCode (sp : Store Byte) (lines : List LineMeta) (t : ElTy) (i : Nat) : Nat :=
  let w := t.cont
  let per := 512 / w
  match lines[i / per]? with
  | some m => readNat sp (m.off + w * (i % per) / 8) ((w + 7) / 8) / 2 ^ (w * (i % per) % 8) % 2 ^ codeWidth t
  | none => 0

/-- Codes of one column into a cask, k counting up; the high bits of a cask byte are zero (06 R112, R121). -/
def putCodes (q : Nat) (wide : Bool) (col : Nat) (sp : Store Byte) (lines : List LineMeta) (t : ElTy) :
    Nat → Nat → Store Byte → Store Byte
  | _, 0, m => m
  | k, n + 1, m =>
    let v := runCode sp lines t k
    let a := 65536 * q + 256 * k
    let m := if wide then writeByte (writeByte m (a + 2 * col) (BitVec.ofNat 8 v)) (a + 2 * col + 1) (BitVec.ofNat 8 (v / 256))
      else writeByte m (a + col) (BitVec.ofNat 8 v)
    putCodes q wide col sp lines t (k + 1) n m

/-- Scale-plane entries of one byte column: octet j counting up (06 R121). -/
def putPlane (q col : Nat) (f : Nat → Val) : Nat → Nat → Store Val → Store Val
  | _, 0, m => m
  | j, n + 1, m => putPlane q col f (j + 1) n (sput Val.one m (8192 * q + 32 * col + j) (f j))

/-- One column read and written into its cask (06 R121). -/
def loadColumn (k : Core) (j : ColJob) : Core :=
  let t := j.fb.ty
  let wide := j.fb.is16
  let el := fun (o : Nat) => runElem k.mem.sp j.lines t (8 * o)
  let bs := fun (o : Nat) => if wide then Val.one else (el o).bs.norm
  let ls := fun (o : Nat) => if wide then Val.one else (el o).ls.norm
  let cols := if wide then [2 * j.col, 2 * j.col + 1] else [j.col]
  let n := j.kc / 8
  { k with press := { k.press with
      codes := putCodes j.cask wide j.col k.mem.sp j.lines t 0 j.kc k.press.codes
      bsc := cols.foldl (fun m b => putPlane j.cask b bs 0 n m) k.press.bsc
      lsc := cols.foldl (fun m b => putPlane j.cask b ls 0 n m) k.press.lsc } }

/-! Passes. -/

/-- The mask of a pass in its 256-lane view; with 16-bit B only lanes 0-127 count (06 R123, R128). -/
def passSel (k : Core) (v : Word) : List Bool :=
  let m := maskLanes (k.mask (mmMask v)) 256
  if k.press.fb.is16 then m.take 128 else m

/-- Row r of a pass as captured at T (06 R124). -/
def passJob (s : State) (c : Nat) (v : Word) (zeroFirst : Bool) (r : Nat) : PassJob :=
  let k := s.core c
  let p := k.press
  { tile := mmT v, cask := mmQ v, kc := mmKc v, sel := passSel k v, fa := p.fa, fb := p.fb, mode := p.mode
    zeroFirst := zeroFirst
    lines := prLines s c (prAddr k ((k.inp 7 1).toNat + r * (k.inp 7 2).toNat)) (lineBytes (mmKc v) p.fa.ty.cont)
    row := r, due := s.after c (18 + p.fa.sig * (r + 1)) }

/-- Schedules the reads of `left` rows from row r on: row r at T+8+s·r (06 R125). -/
def passReads (s : State) (c : Nat) (v : Word) (zeroFirst : Bool) (w : Nat) : Nat → Nat → State
  | _, 0 => s
  | r, left + 1 =>
    passReads (s.schedule c (8 + w * r) (.readPass (passJob s c v zeroFirst r))) c v zeroFirst w (r + 1) left

/-- mm and mmz: tile, cask use and A path become busy (06 R117, R123-R125). -/
def mmEff (zeroFirst : Bool) : Eff := fun s c _ v =>
  let w := (s.core c).press.fa.sig
  let m := mmRows v
  let s := s.busyFor c (rsTile (mmT v)) (18 + w * m)
  let s := s.busyFor c (rsUse (mmQ v)) (8 + w * m)
  passReads (s.busyFor c rsApath (w * m)) c v zeroFirst w 0 m

/-- B's element (k, n) of a cask under a format: 16-bit formats pair byte columns, and only free-split formats take the
scale plane (06 R124, R128). -/
def caskElem (p : Press) (q : Nat) (f : PFmt) (kk n : Nat) : Scaled :=
  let a := 65536 * q + 256 * kk
  let code := if f.is16 then (readByte p.codes (a + 2 * n)).toNat + 256 * (readByte p.codes (a + 2 * n + 1)).toNat
    else (readByte p.codes (a + n)).toNat
  let i := 8192 * q + 32 * n + kk / 8
  Scaled.mk (elVal f.ty (code % 2 ^ f.ty.cont)) (if f.isFs then sget Val.one p.bsc i else Val.one)
    (if f.isFs then sget Val.one p.lsc i else Val.one)

/-- The K-groups of a run of kc elements (05 R104). -/
def kGroups (kc : Nat) (el : Nat → Scaled) : List (List Scaled) :=
  (List.range ((kc + 31) / 32)).map (fun g => (List.range (min 32 (kc - 32 * g))).map (fun i => el (32 * g + i)))

/-- The accumulator row a pass delivers, from the A lines read now, and its status (06 R124). -/
def passRow (k : Core) (j : PassJob) : Row × Stat :=
  let old := rowCodes 32 (sget 0 k.regs.m (32 * j.tile + j.row))
  let start := if j.zeroFirst then
      (old.zipIdx).map (fun p => if j.sel.getD p.2 false then 0 else p.1) else old
  let as := kGroups j.kc (fun i => runElem k.mem.sp j.lines j.fa.ty i)
  let r := pressRow j.mode j.sel as (fun n => kGroups j.kc (fun i => caskElem k.press j.cask j.fb i n)) 0 start
  (rowOf 32 r.1, r.2)

/-! Press state. -/

/-- The format that a selector takes up: 11-14 copy the descriptor of f0-f3 at T (06 R126). -/
def selFmt (k : Core) (n : Nat) : PFmt := PFmt.mk n (if 11 ≤ n then (k.freg (n - 11)).toNat else 0)

/-- zero: the rows read zero from T+8, and the tile is busy until then (06 R126). -/
def zeroEff : Eff := fun s c _ v =>
  (s.busyFor c (rsTile (bits v 2 0)) 8).schedule c 8 (.zeroTile (bits v 2 0))

/-- The busy bits of the word of pr.busy for the cycle of a tick (06 R127). -/
def busyBits (k : Core) (tick : Nat) : Word :=
  let bit := fun (r : Nat) (p : Nat) => if k.isBusy r tick then 2 ^ p else 0
  BitVec.ofNat 64 (
    (List.range 8).foldl (fun n t => n + bit (rsTile t) t) 0 +
    (List.range 4).foldl (fun n q => n + bit (rsLoad q) (16 + q) + bit (rsUse q) (20 + q)) 0 + bit rsApath 24)

/-- The tiles lent, and the resources busy so far, in the cycle in which pr.busy issues at T (06 R127). What this bundle, or the butty
bundle of the same cycle, makes busy from T (06 R117, 08 R151) joins the word where it is delivered. -/
def busyAsked (s : State) (c : Nat) : Word := busyBits (s.core c) s.tick ||| BitVec.ofNat 64 ((s.core c).press.lent.toNat * 256)

/-- pr.cask (06 R121). -/
def execPrCask (h : Head) (s : State) : Ans State := slotOp h 0x2C0 none caskEff s

/-- pr.mm (06 R124). -/
def execPrMm (h : Head) (s : State) : Ans State := slotOp h 0x2C1 none (mmEff false) s

/-- pr.mmz (06 R124). -/
def execPrMmz (h : Head) (s : State) : Ans State := slotOp h 0x2C2 none (mmEff true) s

/-- pr.zero (06 R126). -/
def execPrZero (h : Head) (s : State) : Ans State := slotOp h 0x2C3 none zeroEff s

/-- pr.mode (06 R126). -/
def execPrMode (h : Head) (s : State) : Ans State :=
  slotOp h 0x2C4 none (fun s c _ v => s.schedule c 1 (.pmode (bits v 2 0))) s

/-- pr.fmt (06 R126). -/
def execPrFmt (h : Head) (s : State) : Ans State :=
  slotOp h 0x2C5 none
    (fun s c _ v => s.schedule c 1 (.pfmt (selFmt (s.core c) (bits v 3 0)) (selFmt (s.core c) (bits v 7 4)))) s

/-- pr.busy (06 R127). -/
def execPrBusy (h : Head) (s : State) : Ans State :=
  slotOp h 0x2C6 none (fun s c _ _ => s.schedule c 1 (.busyWord (busyAsked s c))) s

end Sys2Proof.Machine
end

