-- ==== Sys2Proof/Machine/Control.lean ====
section
/-! DEFINITION. The ct unit (15 R288-R301): each operation leaves in the latch what the end of its bundle does. -/

namespace Sys2Proof.Machine

/-- Changes the bundle in flight. -/
def State.modLatch (s : State) (c : Nat) (f : Latch → Latch) : State := s.modCore c (fun k => { k with latch := f k.latch })

/-- What a ct operation has the end of the bundle in flight do. -/
def State.setCtl (s : State) (c : Nat) (x : Ctl) : State := s.modLatch c (fun l => { l with ctl := x })

/-- What a sy operation has the end of the bundle in flight do, beside a ct operation of the same bundle. -/
def State.setSys (s : State) (c : Nat) (x : Ctl) : State := s.modLatch c (fun l => { l with sys := x })

/-- br: the transfer is pending for two delay bundles, taken or not (15 R290, R291). -/
def brEff : Eff := fun s c _ v =>
  let k := s.core c
  s.setCtl c (.xfer (if k.inp 2 0 = 0 then Delay.mk 2 0 .fall else Delay.mk 2 (brTarget k.latch.pc v).toNat .jump))

/-- jmp and call (15 R291). -/
def jumpEff (kind : Xfer) : Eff := fun s c _ v => s.setCtl c (.xfer (Delay.mk 2 (bits v 13 0) kind))

/-- ret: its target is the return index of the top frame, which is popped when the transfer takes effect (15 R291). -/
def retEff : Eff := fun s c motor _ =>
  s.setCtl c (.xfer (Delay.mk 2 (((s.core c).stream motor).frames.head?.map CFrame.ret |>.getD 0) .ret))

/-- loop: the loop that the end of the bundle starts, and its trip count (15 R293, R294). -/
def loopEff : Eff := fun s c motor v =>
  let k := s.core c
  let a := loopArg (k.stream motor) v
  s.setCtl c (.loop (Loop.mk k.latch.pc a.last a.count 0 0 (s.nextRcyc c) a.stages a.rot) a.trips)

/-- rot (15 R297). -/
def rotEff : Eff := fun s c _ _ => s.modLatch c (fun l => { l with rot := true })

/-- The arrival of a motor lock: its conditions, the boundary after the arrival cycle, and the patience that takes
precedence (14 R278, R281; 15 R298), LPATIENCE as it stands at the issue of ct.lock. Log: DESIGN CHOICE 167. -/
def lockWait (s : State) (c g : Nat) : LockWait :=
  let k := s.core c
  let conds := ([0, 1, 2, 3].map (fun i => k.inp 2 i)).filter condValid |>.map condOf
  let t := s.timetable c
  let entry := ((s.reach c).map Reach.patience).getD 0
  let group := ((t.bind (fun t => t.group g)).map Group.patience).getD 0
  let dflt := ((s.part (s.partId c)).map (fun p => p.csr.lpatience)).getD 0
  LockWait.mk g conds (s.tick + (k.latch.idle + 1) * s.pace c)
    (if entry ≠ 0 then entry else if group ≠ 0 then group else dflt) 0 k.latch.pc k.latch.slot

/-- lock: the motor stream arrives, the butty stream joins (14 R277, R278). -/
def lockEff : Eff := fun s c motor v =>
  s.setCtl c (if motor then .lock (lockWait s c (bits v 7 0)) else .join)

/-- endtask (15 R299). -/
def endtaskEff : Eff := fun s c _ _ => s.setCtl c .endtask

/-- trap (15 R300). -/
def trapEff : Eff := fun s c _ v => s.setCtl c (.trap (bits v 15 0) (s.core c).latch.slot)

/-- ct.br (15 R291). -/
def execCtBr (h : Head) (s : State) : Ans State := slotOp h 0x180 none brEff s

/-- ct.jmp (15 R291). -/
def execCtJmp (h : Head) (s : State) : Ans State := slotOp h 0x181 none (jumpEff .jump) s

/-- ct.call (15 R291). -/
def execCtCall (h : Head) (s : State) : Ans State := slotOp h 0x182 none (jumpEff .call) s

/-- ct.ret (15 R291). -/
def execCtRet (h : Head) (s : State) : Ans State := slotOp h 0x183 none retEff s

/-- ct.loop (15 R293). -/
def execCtLoop (h : Head) (s : State) : Ans State := slotOp h 0x184 none loopEff s

/-- ct.rot (15 R297). -/
def execCtRot (h : Head) (s : State) : Ans State := slotOp h 0x185 none rotEff s

/-- ct.lock (15 R298). -/
def execCtLock (h : Head) (s : State) : Ans State := slotOp h 0x186 none lockEff s

/-- ct.endtask (15 R299). -/
def execCtEndtask (h : Head) (s : State) : Ans State := slotOp h 0x187 none endtaskEff s

/-- ct.trap (15 R300). -/
def execCtTrap (h : Head) (s : State) : Ans State := slotOp h 0x188 none trapEff s

/-- ct.brk: with DBGCTL.enable clear it does nothing; set, its check stops the stream (15 R301). Log: DEDUCED 26. -/
def execCtBrk (h : Head) (s : State) : Ans State := slotOp h 0x189 none (fun s _ _ _ => s) s

end Sys2Proof.Machine
end

