-- ==== Sys2Proof/Machine/System.lean ====
section
/-! DEFINITION. The sy unit as it issues (18 R356-R367): control-register operations, service calls, the return from a
trap, halt, and the acceptance of the untimed system operations. -/

namespace Sys2Proof.Machine

/-- A status word on sy.o0 at T+2. -/
def syOut (s : State) (c n : Nat) : State := s.schedule c 2 (.out (outPort 11 0) (BitVec.ofNat 64 n))

/-- csrr: the register as it stands at the end of T+1 (18 R357). -/
def csrrEff : Eff := fun s c _ v => s.schedule c 2 (.csrRead (bits v 11 0))

/-- csrw, csrs, csrc: one atomic read and write at the end of T+1 (18 R357). -/
def csrEff (kind : CsrKind) : Eff := fun s c _ v => s.schedule c 2 (.csr (bits v 11 0) kind ((s.core c).inp 11 1))

/-- ecall: the record is made when the bundle has taken full effect (18 R358). -/
def ecallEff : Eff := fun s c _ v =>
  let k := s.core c
  s.setSys c (.ecall (bits v 15 0) (k.inp 11 1) (k.inp 11 3))

/-- tret (18 R359). -/
def tretEff : Eff := fun s c _ _ => s.setSys c (.xfer (Delay.mk 2 0 .tret))

/-- halt (18 R360). -/
def haltEff : Eff := fun s c _ _ => s.setSys c .halt

/-- A system operation as its operands stand at T (18 R361). -/
def sysOpOf (s : State) (c op : Nat) (v : Word) : SysOp :=
  let k := s.core c
  let i3 := k.inp 11 3
  { op := op, trig := v, ports := (List.range 8).map (k.inp 11), acap := syCap k 0, rcap := syCap k 1, xcap := syCap k 3
    flag := flagIndex (syCap k 2) (bits i3 9 0), inc := bits i3 31 16, issue := s.tick, ready := s.after c 2, part := s.partId c
    stage := 0, aux := 0, nonce := [], peerNonce := [], ephemeral := [], peerOpts := 0
    seq := k.rackSeq, data := [], sent := [] }

/-- The object that a seal, decant or scrub holds busy and, for a seal, guards; none for the other operations. -/
def sysObject (o : SysOp) : Option Cap :=
  let mode := bits (o.ports.getD 4 0) 1 0
  if o.op = 10 ∨ (o.op = 8 ∧ mode = 0) ∨ (o.op = 9 ∧ mode = 1) then some o.acap else none

/-- A tick that no run reaches: the end of an untimed operation frees the resource. -/
def forever : Nat := 2 ^ 64

/-- The untimed operations: SYSTEM_FULL with four outstanding, else acceptance; a space 7 object is busy from the end of T
until the end of the operation (18 R356, R361, R364, R365). -/
def sysEff (op : Nat) : Eff := fun s c _ v =>
  if 4 ≤ (s.core c).sysops.length then syOut s c 1
  else
    let o := sysOpOf s c op v
    let held := match sysObject o with
      | some cap => (objResources cap).map (fun r => (r, forever))
      | none => []
    let s := s.modLatch c (fun l => { l with busy := l.busy ++ held })
    syOut (s.schedule c 1 (.sysStart o)) c 0

/-- The guard number of a seal: above every rack id. -/
def sealGuard (o : SysOp) : Nat := 64 + o.issue

/-- The end of T of an accepted system operation: it is outstanding, and a seal of a space 0 object guards it (18 R361,
R364). -/
def startSys (s : State) (c : Nat) (o : SysOp) : State :=
  let s := s.modCore c (fun k => { k with sysops := k.sysops ++ [o] })
  if o.op = 8 ∧ o.acap.space = 0 then s.addGuard (sramOf c) (Guard.mk c true (sealGuard o) o.acap.base o.acap.length) else s

/-! The operations. -/

/-- sy.csrr (18 R357). -/
def execSyCsrr (h : Head) (s : State) : Ans State := slotOp h 0x3C0 none csrrEff s

/-- sy.csrw (18 R357). -/
def execSyCsrw (h : Head) (s : State) : Ans State := slotOp h 0x3C1 none (csrEff .w) s

/-- sy.csrs (18 R357). -/
def execSyCsrs (h : Head) (s : State) : Ans State := slotOp h 0x3C2 none (csrEff .s) s

/-- sy.csrc (18 R357). -/
def execSyCsrc (h : Head) (s : State) : Ans State := slotOp h 0x3C3 none (csrEff .c) s

/-- sy.ecall (18 R358). -/
def execSyEcall (h : Head) (s : State) : Ans State := slotOp h 0x3C4 none ecallEff s

/-- sy.tret (18 R359). -/
def execSyTret (h : Head) (s : State) : Ans State := slotOp h 0x3C5 none tretEff s

/-- sy.keyld (18 R362). -/
def execSyKeyld (h : Head) (s : State) : Ans State := slotOp h 0x3C6 none (sysEff 6) s

/-- sy.keyrot (18 R363). -/
def execSyKeyrot (h : Head) (s : State) : Ans State := slotOp h 0x3C7 none (sysEff 7) s

/-- sy.seal (18 R364). -/
def execSySeal (h : Head) (s : State) : Ans State := slotOp h 0x3C8 none (sysEff 8) s

/-- sy.decant (18 R364). -/
def execSyDecant (h : Head) (s : State) : Ans State := slotOp h 0x3C9 none (sysEff 9) s

/-- sy.scrub (18 R365). -/
def execSyScrub (h : Head) (s : State) : Ans State := slotOp h 0x3CA none (sysEff 10) s

/-- sy.fbind (18 R366). -/
def execSyFbind (h : Head) (s : State) : Ans State := slotOp h 0x3CB none (sysEff 11) s

/-- sy.attest (18 R367). -/
def execSyAttest (h : Head) (s : State) : Ans State := slotOp h 0x3CC none (sysEff 12) s

/-- sy.halt (18 R360). -/
def execSyHalt (h : Head) (s : State) : Ans State := slotOp h 0x3CD none haltEff s

end Sys2Proof.Machine
end

