-- ==== Sys2Proof/Machine/Delivery.lean ====
section
/-! DEFINITION. What takes effect at a boundary (02 R38, R51-R54, 10 R182-R189): timed writes, then the results and moves of
each core, then timed reads. Each is one event of the table: TIMED_ACCESS_PERFORM, RESULT_DELIVERY, RESOURCE_FREE. -/

namespace Sys2Proof.Machine

/-! Classes of actions. -/

/-- The place of an action at its boundary: 0 moves, 1 unit results, 2 control registers, 3 pops, 4 pushes, 5 rotations and
stage writes, 6 starts of untimed work; 8 timed writes and flag operations, 9 timed reads (02 R38, R53, R54). A rounding that is
delivered at the boundary at which a write of ARITH performs draws from the generators before that write (05 R100).
Log: DESIGN CHOICE 148. -/
def Act.rank : Act → Nat
  | .x .. => 0
  | .pred .. => 0
  | .lcount .. => 0
  | .rotb .. => 0
  | .sbbase .. => 0
  | .sblen .. => 0
  | .sbreset => 0
  | .push .. => 4
  | .pop .. => 3
  | .rotate => 5
  | .stage .. => 5
  | .csr .. => 2
  | .csrRead .. => 2
  | .store .. => 8
  | .encode .. => 8
  | .flagOp .. => 8
  | .handDone .. => 8
  | .readLs .. => 9
  | .readRow .. => 9
  | .readIdx .. => 9
  | .readDec .. => 9
  | .readPass .. => 9
  | .readCols .. => 9
  | .rackStart .. => 6
  | .rackCancel .. => 6
  | .monStart .. => 6
  | .sendStart .. => 6
  | .fenceStart .. => 6
  | .sysStart .. => 6
  | .garrive .. => 6
  | .gcast .. => 6
  | .lockArrive .. => 6
  | .flagInc .. => 6
  | .sendEnd .. => 6
  | _ => 1

/-- The actions of a core that are due, of the ranks a predicate accepts. -/
def Core.dueActs (k : Core) (tick : Nat) (f : Nat → Bool) : List Pend :=
  k.pend.filter (fun p => p.due ≤ tick && f p.act.rank)

/-- The other actions of the core. -/
def Core.dropActs (k : Core) (tick : Nat) (f : Nat → Bool) : Core :=
  { k with pend := k.pend.filter (fun p => !(p.due ≤ tick && f p.act.rank)) }

/-! Registers. -/

/-- Changes the register files. -/
def Core.modRegs (k : Core) (f : Regs → Regs) : Core := { k with regs := f k.regs }

/-- Writes an output port. -/
def Core.setOut (k : Core) (port : Nat) (v : Word) : Core := k.modRegs (fun r => { r with out := sput 0 r.out port v })

/-- Writes xn; x0 discards (01 R15). -/
def Core.setX (k : Core) (n : Nat) (v : Word) : Core :=
  if n = 0 then k else k.modRegs (fun r => { r with x := sput 0 r.x n v })

/-- Writes a physical predicate; p0 discards (01 R15). -/
def Core.setPred (k : Core) (phys : Nat) (v : Bool) : Core :=
  if phys = 0 then k
  else k.modRegs (fun r => { r with p := if v then r.p ||| BitVec.ofNat 8 (2 ^ phys) else r.p &&& ~~~(BitVec.ofNat 8 (2 ^ phys)) })

/-- Writes the given bits of a physical operand register, which is live from then on (02 R49, 08 R149), also where the operation
was issued before the bundle that marked the register dead. Log: DEDUCED 145. -/
def Core.setV (k : Core) (phys : Nat) (row bits : Row) : Core :=
  k.modRegs (fun r =>
    { r with
      v := sput 0 r.v phys (mergeRow (sget 0 r.v phys) row bits)
      dead := r.dead &&& ~~~(BitVec.ofNat 16 (2 ^ phys)) })

/-- Writes the given bits of a main-file row. -/
def Core.setM (k : Core) (n : Nat) (row bits : Row) : Core :=
  k.modRegs (fun r => { r with m := sput 0 r.m n (mergeRow (sget 0 r.m n) row bits) })

/-- Writes a mask register; e0 stays all ones (07 R131). -/
def Core.setE (k : Core) (n : Nat) (m : Mask) : Core :=
  if n = 0 then k else k.modRegs (fun r => { r with e := sput 0 r.e n m })

/-- Writes a capability register. -/
def Core.setCap (k : Core) (n : Nat) (c : Cap) : Core := k.modRegs (fun r => { r with c := sput Cap.null r.c n c })

/-- Writes a format register. -/
def Core.setF (k : Core) (n : Nat) (v : Word) : Core := k.modRegs (fun r => { r with f := sput 0 r.f n v })

/-- Replaces a queue's contents. -/
def Core.setQ (k : Core) (q : Nat) (l : List Word) : Core := k.modRegs (fun r => { r with q := sput [] r.q q l })

/-- ORs status into ASTAT at a boundary, and remembers it for a write of that cycle (05 R109). -/
def Core.setStat (k : Core) (tick : Nat) (st : Stat) : Core :=
  { k with
    csr := { k.csr with astat := k.csr.astat ||| st }
    statTick := tick
    statBits := if k.statTick = tick then k.statBits ||| st else st }

/-- Delivers a wide result: lanes of d, or a mask register, with o0 of the unit, status and generators (07 R133). -/
def Core.setWide (k : Core) (tick unit d : Nat) (o : WideOut) : Core :=
  let k := { k with gens := o.gens }.setStat tick o.st
  let k := match o.o0 with
    | some v => k.setOut (outPort unit 0) v
    | none => k
  match o.mask with
  | some m => k.setE d m
  | none => k.setV d o.row o.bits

/-- The result of a conversion (08 R162). -/
def convResult (op : ConvOp) (td ts : ElTy) (w : WideIn) (g : Gens) : WideOut :=
  match op with
  | .cvt => vmCvtOut td ts w g
  | .pack => vmPackOut td ts w g
  | .unpack => vmUnpackOut td ts w g

/-- One rotation of v8-v15 and p4-p7 (08 R148). -/
def Core.rotate (k : Core) : Core := k.modRegs (fun r => { r with rotb := (r.rotb + 1) % 8 })

/-- The stage predicates a loop writes, named through the rotation base now (15 R295). -/
def Core.setStages (k : Core) : List (Nat × Bool) → Core
  | [] => k
  | p :: ps => (k.setPred (physP k.regs.rotb p.1) p.2).setStages ps

/-- An action whose effect lies in its own core: moves, results, pops, pushes and rotations (02 R38, R51). -/
def Core.take (k : Core) (tick : Nat) (a : Act) : Core :=
  match a with
  | .x n v => k.setX n v
  | .pred p v => k.setPred p v
  | .lcount m v => k.modStream m (fun t => { t with lcount := v })
  | .rotb v => k.modRegs (fun r => { r with rotb := v })
  | .sbbase v => { k with sbuf := { k.sbuf with base := v } }
  | .sblen v => { k with sbuf := { k.sbuf with len := v } }
  | .sbreset => { k with sbuf := { k.sbuf with head := 0, fill := 0 } }
  | .push q v => k.setQ q (sget [] k.regs.q q ++ [v])
  | .pop q => k.setQ q (sget [] k.regs.q q).tail
  | .rotate => k.rotate
  | .stage ps => k.setStages ps
  | .out p v => k.setOut p v
  | .rpred p v => k.setPred p v
  | .vrow p row bits => k.setV p row bits
  | .mrow n row bits => k.setM n row bits
  | .emask n m => k.setE n m
  | .freg n v => k.setF n v
  | .cap n c => k.setCap n c
  | .untag n => k.setCap n { k.capReg n with tag := false }
  | .va op ty w d => k.setWide tick 4 d (vaResult op ty w k.gens)
  | .sf op ty w d => k.setWide tick 6 d (sfResult op ty w k.gens)
  | .conv op td ts w d => k.setWide tick 5 d (convResult op td ts w k.gens)
  | .decoded td vs mode d => k.setWide tick 5 d (convOut td vs mode k.gens)
  | .accRow n row st => (k.setM n row allRow).setStat tick st
  | .ring head fill => { k with sbuf := { k.sbuf with head := head, fill := fill } }
  | .lend t on =>
    { k with press := { k.press with
        lent := if on then k.press.lent ||| BitVec.ofNat 8 (2 ^ t) else k.press.lent &&& ~~~(BitVec.ofNat 8 (2 ^ t)) } }
  | .pmode m => { k with press := { k.press with mode := m } }
  | .pfmt a b => { k with press := { k.press with fa := a, fb := b } }
  | .zeroTile t => k.modRegs (fun r => { r with m := sclear r.m (32 * t) 32 })
  | _ => k

/-! Starts of untimed work at the end of T. -/

/-- A monitor that waitaddr asked for; none for a task that has ended or been stopped (12 R233, 15 R299, 19 R374). -/
def startMon (s : State) (c id : Nat) (m : Monitor) : State :=
  if (isTile c && (s.core c).motor.st == .ended) || s.stopHere c then s else s.modCore c (fun k => k.setMon id { m with seq := k.rackSeq })

/-- A send that a stop withdraws before its start; its flits stay counted until its slot has passed (13 R250, 19 R374).
Log: DESIGN CHOICE 132. -/
def withdrawBooking (s : State) (c id : Nat) (x : Send) : State :=
  { s with bookings := s.bookings.map (fun b =>
      if b.core = c ∧ b.send = id ∧ b.slot = x.slot ∧ b.port = x.port ∧ b.part ≠ 0 then { b with done := true } else b) }

/-- A fence that joins the outstanding ones at the end of its cycle: it waits for the sends it collected at T whose receipts have
not returned by then (13 R259). -/
def startFence (s : State) (c : Nat) (f : Fence) : State :=
  s.modCore c (fun k =>
    { k with fences := k.fences ++ [{ f with waits := f.waits.filter (fun q => k.sends.any (fun x => match x.2 with
        | some y => y.seq == q
        | none => false)) }] })

/-- What the end of a cycle starts for a task: nothing once its timetable's stop has reached it (19 R374). -/
def unlessStopped (s t : State) (c : Nat) : State := if s.stopHere c then s else t

/-- A lock-mode arrival at its boundary: it opens a generation where the group is idle, and faults at its ct.lock where the
group refuses it by then (11 R218, 14 R278). -/
def lockArrive (s : State) (c g : Nat) : State :=
  match (s.core c).lock with
  | some w =>
    if s.groupRefuses c 1 g then
      raiseFault (s.modCore c (fun k => { k with lock := none })) c true w.bundle w.slot stGroup 0 w.group
    else
      let held := ((s.timetable c).map (fun t => t.holdTime s.tick)).getD 0
      (s.modCore c (fun k => { k with lock := some { w with held := held } })).modGroup (s.partId c) g (fun x =>
        { x with mode := 1, arrived := x.arrived + 1, arrivals := x.arrivals ||| 2 ^ c })
  | none => s

/-- The end of T of a garrive: it takes its place, or faults at its bundle where another arrival at the same boundary has made the
group refuse it (11 R218, R219). -/
def garriveTaken (s : State) (c issue : Nat) (g : Garr) : State :=
  if s.groupRefuses c 2 g.group then raiseFault s c g.motor g.bundle g.slot stGroup 0 g.group else startGarrive s c issue g

/-- An action delivered. -/
def deliverAct (s : State) (c : Nat) (p : Pend) : State :=
  match p.act with
  | .csr num kind v =>
    let old := s.csrRead c num
    (csrWrite s c num kind v).modCore c (fun k => k.setOut (outPort 11 0) old)
  | .csrRead num => s.modCore c (fun k => k.setOut (outPort 11 0) (s.csrRead c num))
  | .rackStart id j => startRack s c id j
  | .rackCancel id => cancelRack s c id
  | .monStart id m => startMon s c id m
  | .sendStart id x => if s.stopHere c then withdrawBooking s c id x else startSend s c id x
  | .fenceStart f => unlessStopped s (startFence s c f) c
  | .sysStart o => startSys s c o
  | .garrive g => unlessStopped s (garriveTaken s c p.issue g) c
  | .gcast g i n => startGcast s c p.issue g i n
  | .lockArrive g => lockArrive s c g
  | .flagInc f n => s.addFlag c f n
  | .sendEnd id st => endLoop s c id st
  | .busyWord w => s.modCore c (fun k => k.setOut (outPort 7 0) (w ||| busyBits k p.issue))
  | a => s.modCore c (fun k => k.take s.tick a)

/-- The due actions of ranks lo … lo+n−1, in rank order, each rank in issue order. -/
def deliverRanks (s : State) (c : Nat) (due : List Pend) : Nat → Nat → State
  | _, 0 => s
  | lo, n + 1 => deliverRanks ((due.filter (fun p => p.act.rank == lo)).foldl (fun s p => deliverAct s c p) s) c due (lo + 1) n

/-- Puts an action before the first that was issued later. -/
def insertAct (p : Pend) : List Pend → List Pend
  | [] => [p]
  | q :: qs => if p.seq < q.seq then p :: q :: qs else q :: insertAct p qs

/-- Actions in issue order (02 R53). -/
def inIssueOrder (ps : List Pend) : List Pend := ps.foldl (fun l p => insertAct p l) []

/-- RESULT_DELIVERY: every move, result and bundle-end effect of a core that is due takes effect in the order of 02 R38, R53
and R54, and the untimed work that its operations asked for starts. -/
def execResultDelivery (c : Nat) (s : State) : Ans State :=
  let due := inIssueOrder ((s.core c).dueActs s.tick (fun r => r < 8))
  .next (deliverRanks (s.modCore c (fun k => k.dropActs s.tick (fun r => r < 8))) c due 0 7)

/-! Timed writes. -/

/-- The bytes and labels that timed writers have written at the present boundary. -/
def Core.freshNow (k : Core) (tick : Nat) : Fresh := if k.fresh.tick = tick then k.fresh else Fresh.mk tick [] [] [] []

/-- One cell of a store: a byte that an earlier writer of the boundary wrote, in part or whole, is kept (10 R187). -/
def putCell (k : Core) (a : Nat) (v m : Byte) : Core :=
  if m = 0 ∨ sget 0 k.fresh.bits a ≠ 0 then k
  else
    { k with
      mem := { k.mem with
        sp := writeByte k.mem.sp a ((readByte k.mem.sp a &&& ~~~m) ||| (v &&& m))
        tags := sput false k.mem.tags (a / 16) false }
      fresh := { k.fresh with bits := sput 0 k.fresh.bits a m } }

/-- One label of a store; the tags of its line's granules are cleared (11 R204, 17 R327). -/
def putLabel (k : Core) (line : Nat) (v : BitVec 16) : Core :=
  if sget false k.fresh.labels line then k
  else
    { k with
      mem := { k.mem with
        labels := sput 0 k.mem.labels line v
        tags := [0, 1, 2, 3].foldl (fun t i => sput false t (4 * line + i) false) k.mem.tags }
      fresh := { k.fresh with labels := sput false k.fresh.labels line true } }

/-- A store performing in the scratchpad of the core that owns it. A granule keeps the tag a stcap gives it only where all of
its bytes are kept (10 R187, 17 R327). Log: DEDUCED 39, 40. -/
def putStore (k : Core) (tick : Nat) (w : StoreW) : Core :=
  let k := { k with fresh := k.freshNow tick }
  let whole := w.tagSet.filter (fun g =>
    (List.range 16).all (fun i => sget 0 k.fresh.bits (16 * g + i) == 0) && !sget false k.fresh.labels (g / 4))
  let k := w.cells.foldl (fun k c => putCell k c.1 c.2.1 c.2.2) k
  let k := w.labels.foldl (fun k l => putLabel k l.1 l.2) k
  { k with mem := { k.mem with tags := whole.foldl (fun t g => sput false t g true) k.mem.tags } }

/-- The elements of the lines of an encode and their scale codes, with the generators of the issuing core (08 R165, R166).
Log: DEDUCED 33, 34. -/
def encodeOut (j : EncJob) (g : Gens) : EncOut :=
  let xs := (rowCodes j.ty.cont j.a).map (elVal j.ty)
  let line := 512 / j.fmt.cont
  let per := if j.grain = 0 then line else j.grain
  let ls := if j.fidx = 0 then Val.one else fmtVal e8m0 j.lscale
  encodeBlocks j.fmt (if j.grain = 0 then e8m0 else j.sfmt) (if j.grain = 0 then 2 else j.smode) ls j.mode per
    (fun b => laneOf j.b 8 (16 * (b * per / line) + b * per % line / per)) 0 g (chunks per (xs.length / per) xs)

/-- The store of an encode: data of every line, its label, and its scale slot (08 R165). Through a capability whose base is no multiple of
64 each run of 64 bytes is written with the label and the scale slot of the line of its first byte. Log: DESIGN CHOICE 164. -/
def encodeStore (j : EncJob) (o : EncOut) : StoreW :=
  let bytes := toBytes (o.codes.length * j.fmt.cont / 8) (joinCodes j.fmt.cont o.codes)
  let lines := bytes.length / 64
  let cell := fun (a : Nat) (b : Byte) => (a, b, (BitVec.allOnes 8 : Byte))
  let data := (bytes.zipIdx).map (fun p => cell (j.off + p.2) p.1)
  let m := if j.grain = 0 then 1 else 512 / j.fmt.cont / j.grain
  let scales := match j.slots with
    | none => []
    | some a => (List.range (16 * lines)).map (fun i =>
        cell (a + i) (if i % 16 < m then BitVec.ofNat 8 (o.scales.getD (i / 16 * m + i % 16) 0) else 0))
  { issuer := j.issuer, kind := .vm, cells := data ++ scales
    labels := (List.range lines).map (fun i => (j.off / 64 + i, BitVec.ofNat 16 (j.lscale * 256 + j.fidx)))
    tagSet := [] }

/-- A timed write performing in the scratchpad of core c. Log: DEDUCED 33. -/
def performWrite (s : State) (c : Nat) (p : Pend) : State :=
  match p.act with
  | .store w => s.modCore c (fun k => putStore k s.tick w)
  | .encode j =>
    let o := encodeOut j (s.core j.issuer).gens
    (s.modCore j.issuer (fun k => { k with gens := o.gens }.setStat s.tick o.st)).modCore c
      (fun k => putStore k s.tick (encodeStore j o))
  | .flagOp op f a b =>
    let r := flagStep op ((s.core c).flag f) a b
    s.modCore c (fun k =>
      { k.setFlag f r.1 with pend := k.pend ++ r.2.map (fun x => Pend.mk p.due p.issue p.seq x) })
  | .handDone owner i h => handDone s owner i h
  | _ => s

/-- The core that issued a timed write. -/
def Act.issuer (c : Nat) : Act → Nat
  | .store w => w.issuer
  | .encode j => j.issuer
  | _ => c

/-- The writers of a boundary in the order of 10 R187: the owner's own, the later-issued first; then peers, the lower core id first. Of two
stores of one core issued in one bundle the one of the later slot comes first; of two issued in one cycle by the two streams, the one of
the butty stream. Log: DEDUCED 39; DESIGN CHOICE 153, 165. -/
def writeOrder (c : Nat) (due : List Pend) : List Pend :=
  let from_ := fun (i : Nat) => (due.filter (fun p => p.act.issuer c == i)).reverse
  from_ c ++ ((List.range 8).map (fun i => c - c % 8 + i)).flatMap (fun i => if i = c then [] else from_ i)

/-! Timed reads. -/

/-- Adds a result of an access that has just read, with the access's own place in issue order. Log: DEDUCED 38. -/
def addResult (s : State) (c : Nat) (p : Pend) (n : Nat) (a : Act) : State :=
  s.modCore c (fun k => { k with pend := k.pend ++ [Pend.mk (p.due + n * s.pace c) p.issue p.seq a] })

/-- A timed read performing: the values it takes now go to its result (06 R121, R125, 10 R183). -/
def performRead (s : State) (c : Nat) (p : Pend) : State :=
  match p.act with
  | .readLs o a l => addResult s c p 8 (loadResult s c o a p.issue l)
  | .readRow o a bits d => addResult s c p 8 (.vrow d (bytesRow (readBytes (s.core o).mem.sp a 1024)) bits)
  | .readIdx o addrs size d =>
    let r := gatherRow (s.core o).mem.sp addrs size
    addResult s c p 12 (.vrow d r.1 r.2)
  | .readDec o lines f td sel mode d => addResult s c p 8 (.decoded td (decodeVals (s.core o).mem.sp f lines sel) mode d)
  | .readPass j =>
    let r := passRow (s.core c) j
    s.modCore c (fun k => { k with pend := k.pend ++ [Pend.mk j.due p.issue p.seq (.accRow (32 * j.tile + j.row) r.1 r.2)] })
  | .readCols js => s.modCore c (fun k => js.foldl loadColumn k)
  | _ => s

/-- TIMED_ACCESS_PERFORM: the timed writes and flag operations held by core c that are due, or its timed reads. Writes take
effect before the reads of the same boundary (10 R182). -/
def execTimedAccessPerform (c : Nat) (reads : Bool) (s : State) : Ans State :=
  let want := fun (r : Nat) => if reads then r == 9 else r == 8
  let due := (s.core c).dueActs s.tick want
  let s := s.modCore c (fun k => k.dropActs s.tick want)
  .next (if reads then due.foldl (fun s p => performRead s c p) s
    else (writeOrder c due).foldl (fun s p => performWrite s c p) s)

/-- RESOURCE_FREE: the resources of a core whose time has come are free (06 R117, 07 R145, 08 R151). -/
def execResourceFree (c : Nat) (s : State) : Ans State :=
  .next (s.modCore c (fun k => { k with busy := k.busy.filter (fun p => s.tick < p.2) }))

end Sys2Proof.Machine
end

