-- ==== Sys2Proof/Machine/Bundle.lean ====
section
/-! DEFINITION. The issue of a bundle (02 R34-R59, 14 R270-R276) and its end (02 R38, 15 R290-R300). BUNDLE_ISSUE checks the
whole bundle; a bundle that passes stands in the core's latch, and the steps that follow run its instructions one by one;
its end then settles the stream. -/

namespace Sys2Proof.Machine

/-! The header (02 R35). -/

/-- The 64-bit header of a bundle. -/
def Core.header (k : Core) (pc : Nat) : Nat := readNat k.mem.bundles (32 * pc) 8

/-- The eight slots of a bundle (02 R34). -/
def Core.bundleSlots (k : Core) (pc : Nat) : List Slot :=
  (List.range 8).map (fun i => BitVec.ofNat 24 (readNat k.mem.bundles (32 * pc + 8 + 3 * i) 3))

def hdExt (h : Nat) : Nat := bitsOf h 63 56
def hdPop (h : Nat) : Nat := bitsOf h 55 48
def hdIdle (h : Nat) : Nat := bitsOf h 47 40
def hdRot (h : Nat) : Bool := bitOf h 39
def hdMot (h : Nat) : Bool := bitOf h 38
def hdStamp (h : Nat) : Nat := bitsOf h 31 16

/-- A header that raises FORMAT_FAULT at the header (02 R36). Log: DEDUCED 115. -/
def headerBad (c : Nat) (motor : Bool) (h : Nat) : Bool :=
  bitsOf h 37 32 != 0 || bitsOf h 15 0 != 0 || (!motor && (hdIdle h != 0 || hdStamp h != 0xFFFF)) ||
    hdMot h != motor || (!isTile c && hdMot h)

/-! The layout (02 R43). -/

/-- A move slot with its extension words. -/
structure Entry where
  slot : Nat
  words : List Slot
  deriving DecidableEq, Repr

/-- The entries of the slots from i on, `need` extension words still belonging to `e`, and the slot of a FORMAT_FAULT of 02
R43. Log: DEDUCED 18. -/
def layout (ext : Nat) : Nat → Nat → Entry → List Slot → List Entry × Option Nat
  | _, need, e, [] => if need = 0 then ([e], none) else ([], some e.slot)
  | i, 0, e, w :: ws =>
    if bitOf ext i then ([e], some i)
    else
      let r := layout ext (i + 1) (extNeed w) (Entry.mk i [w]) ws
      (e :: r.1, r.2)
  | i, need + 1, e, w :: ws =>
    if bitOf ext i then layout ext (i + 1) need { e with words := e.words ++ [w] } ws else ([], some e.slot)

/-- The entries of a bundle and the slot of a layout fault. -/
def bundleLayout (ext : Nat) : List Slot → List Entry × Option Nat
  | [] => ([], none)
  | w :: ws => if bitOf ext 0 then ([], some 0) else layout ext 1 (extNeed w) (Entry.mk 0 [w]) ws

/-- The move word of an entry. -/
def Entry.word (e : Entry) : Slot := e.words.headD 0

/-- Its destination code. -/
def Entry.dst (e : Entry) : BitVec 10 := e.word.extractLsb' 0 10

/-- The slot of the second trigger of one unit (02 R58). -/
def doubleTrigger : List Nat → List Entry → Option Nat
  | _, [] => none
  | seen, e :: es =>
    match trigUnit e.dst with
    | some u => if seen.contains u then some e.slot else doubleTrigger (u :: seen) es
    | none => doubleTrigger seen es

/-- The lower of two slots. -/
def minSlot (a b : Option Nat) : Option Nat :=
  match a, b with
  | some x, some y => some (min x y)
  | some x, none => some x
  | none, y => y

/-- The slot of a FORMAT_FAULT, the header being slot 8 (02 R36, R43, R58). Log: DEDUCED 17, 18. -/
def formatSlot (c : Nat) (motor : Bool) (h : Nat) (lay : List Entry × Option Nat) : Option Nat :=
  minSlot (minSlot lay.2 (doubleTrigger [] lay.1)) (if headerBad c motor h then some 8 else none)

/-! Decoding of an entry. -/

/-- Guard, source, destination code and extension word of an entry; the source is x0 where its code is reserved. -/
structure Parts where
  slot : Nat
  head : Head
  dst : Nat
  ext : Option Ext
  /-- The order of 02 R59 at which the words do not decode. -/
  bad : Option Nat
  words : List Slot
  deriving DecidableEq, Repr

/-- The order of a decode error (02 R59). -/
def errOrder : DecodeError → Nat
  | .format => 1
  | .source => 2
  | .destination => 3
  | .operation => 4

/-- The parts of an entry. -/
def Entry.parts (e : Entry) : Parts :=
  let w := e.word
  let d := e.dst
  let x := match takeExt d e.words.tail with
    | .ok r => r
    | .error _ => (none, [])
  let src := match decodeSrc (w.extractLsb' 10 10) x.2 with
    | .ok r => r.1
    | .error _ => .x 0
  { slot := e.slot, head := Head.mk (w.getLsbD 23) (w.extractLsb' 20 3) src, dst := d.toNat, ext := x.1
    bad := match decode e.words with
      | .ok _ => none
      | .error er => some (errOrder er)
    words := e.words }

/-- The canonical no-op (02 R40), which takes no resource. -/
def Parts.isNop (p : Parts) : Bool := p.words == [0x800000]

/-- An entry fails the check of one order, 2 to 7 (02 R59). -/
def Parts.fails (p : Parts) (c : Nat) (motor : Bool) (order : Nat) : Bool :=
  p.bad == some order || orderFails c motor p.head.src p.dst p.ext order

/-- The first failing order from `n` on, with its lowest slot. -/
def decodeFault (c : Nat) (motor : Bool) (ps : List Parts) : Nat → Nat → Option (Nat × Nat)
  | _, 0 => none
  | n, left + 1 =>
    match ps.find? (fun p => p.fails c motor n) with
    | some p => some (n, p.slot)
    | none => decodeFault c motor ps (n + 1) left

/-! Order 8 (02 R54, R59; 14 R270). -/

/-- The stamp a motor bundle must carry (14 R270, R272). -/
def requiredStamp (s : State) (c : Nat) : Nat :=
  let t := (s.core c).motor
  let rc : Int := s.rcyc c
  let shift : Nat := t.loops.foldl (fun n l => n + l.idx * l.len) 0
  ((rc - shift - (if t.newCall then rc else t.cbase)) % 65536).toNat

/-- The queue that a move names as its destination: the check of a full queue applies to it whatever its guard (02 R40, R54).
Log: DEDUCED 123. -/
def Parts.pushes (p : Parts) : Option Nat := if 0x0F8 ≤ p.dst ∧ p.dst < 0x100 then some (p.dst - 0x0F8) else none

/-- The queue a move reads. -/
def Parts.reads (p : Parts) : Option Nat :=
  match p.head.src with
  | .queue n => some n.toNat
  | _ => none

/-- The lowest slot that reads an empty queue or pushes above sixteen entries; `n q` is what queue q holds with the pushes
of lower slots. -/
def queueFault (s : State) (c : Nat) (n : Nat → Nat) : List Parts → Option Nat
  | [] => none
  | p :: ps =>
    let empty := match p.reads with
      | some q => (sget [] (s.core c).regs.q q).isEmpty
      | none => false
    match p.pushes with
    | some q => if empty || 16 ≤ n q then some p.slot else queueFault s c (fun i => if i = q then n i + 1 else n i) ps
    | none => if empty then some p.slot else queueFault s c n ps

/-- A pop of an empty queue. -/
def popFault (k : Core) (h : Nat) : Bool :=
  (List.range 8).any (fun q => bitOf (hdPop h) q && (sget [] k.regs.q q).isEmpty)

/-- The slot of an order 8 failure. -/
def order8 (s : State) (c : Nat) (motor : Bool) (h : Nat) (ps : List Parts) : Option Nat :=
  minSlot (queueFault s c (fun q => (sget [] (s.core c).regs.q q).length) ps)
    (if popFault (s.core c) h || (motor && hdStamp h != requiredStamp s c) then some 8 else none)

/-! Resources (02 R55). -/

/-- The predicate that a compare or ftest writes, named by i1 after the bundle's port writes. Log: DEDUCED 47. -/
def predOf (k : Core) (dst : Nat) : Option Nat :=
  match trigOf dst with
  | some (u, n) =>
    if ((u = 0 ∨ u = 1) ∧ 22 ≤ n ∧ n ≤ 27) ∨ (u = 10 ∧ n = 4) then
      some (0x040 + physP k.regs.rotb (bits (k.inp u 1) 2 0))
    else none
  | none => none

/-- The wide register that an operation writes, the files numbered apart and v8-v15 by physical number; `v` is its operand, whose
direction bits say whether vm.mov and vm.lane write one (07 R134, 08 R156, R158). Rows of the main file, which vm.mov and the press
write, are none. Log: DEDUCED 19; DESIGN CHOICE 159. -/
def wideDest (k : Core) (u n : Nat) (e : Ext) (v : Nat) : Option Nat :=
  match (wideUse u n).d with
  | .no => none
  | .v => some (0x1000 + physV k.regs.rotb e.d.toNat)
  | .e => some (0x1100 + e.d.toNat)
  | .f => some (0x1200 + e.d.toNat)
  | .mode =>
    if if n = 4 then bitsOf v 9 8 < 2 else bitOf v 11 then some (0x1000 + physV k.regs.rotb e.d.toNat) else none

/-- Registers, predicates and special destinations that a move or the operation it triggers writes: destination codes,
predicates and wide registers by physical number; not the stage predicates of a ct.loop or of an iteration end (02 R38, 15 R295).
Log: DEDUCED 19, 20, 47; DESIGN CHOICE 159. -/
def Parts.dests (p : Parts) (k : Core) (v : Nat) : List Nat :=
  if p.dst < 0x040 then [p.dst]
  else if p.dst < 0x048 then [0x040 + physP k.regs.rotb (p.dst - 0x040)]
  else if p.dst < 0x050 then [p.dst]
  else (predOf k p.dst).toList ++ (match trigOf p.dst, p.ext with
    | some (u, n), some e => (wideDest k u n e v).toList
    | _, _ => [])

/-- The unit a move triggers or whose input port it writes. -/
def Parts.unit (p : Parts) : Option Nat :=
  if 0x050 ≤ p.dst ∧ p.dst < 0x0F8 then some ((p.dst - 0x050) / 14) else (trigOf p.dst).map (fun t => t.1)

/-- A bit set. -/
def bitSet (l : List Nat) : Nat := l.foldl (fun n i => n ||| 2 ^ i) 0

/-- The resources of a bundle, `k` standing after its port writes and `v` giving each move's operand (02 R55). -/
def resourcesOf (tick : Nat) (k : Core) (h : Nat) (v : Parts → Nat) (ps : List Parts) : Resources :=
  let ms := ps.filter (fun p => !p.isNop)
  { tick := tick
    slots := bitSet (ms.flatMap (fun p => (List.range p.words.length).map (fun i => p.slot + i)))
    units := bitSet (ms.filterMap Parts.unit)
    dests := ms.flatMap (fun p => p.dests k (v p))
    queues := hdPop h ||| bitSet (ms.filterMap Parts.reads ++ ms.filterMap Parts.pushes)
    rot := hdRot h }

/-- Two bundles share no resource. Log: DEDUCED 19, 21. -/
def Resources.disjoint (a b : Resources) : Bool :=
  a.slots &&& b.slots == 0 && a.units &&& b.units == 0 && a.queues &&& b.queues == 0 && !(a.rot && b.rot) &&
    a.dests.all (fun d => !b.dests.contains d)

/-! Unit checks (02 R59). -/

/-- The core with the bundle's port writes, in slot order (02 R51); the bundle stands in the latch of `s`. -/
def portWrites (s : State) (c : Nat) (motor : Bool) (ps : List Parts) : Core :=
  ps.foldl (fun k p =>
    if 0x050 ≤ p.dst ∧ p.dst < 0x0F8 ∧ s.guard c p.head then k.setInp (p.dst - 0x050) (s.src c motor p.head.src) else k)
    (s.core c)

/-- The first unit check that fails, in slot order, with its slot and trigger operand. `s` holds the port writes and the latch.
Log: DEDUCED 137. -/
def unitFault (s : State) (c : Nat) (motor : Bool) : List Parts → Option (Nat × Check × Nat)
  | [] => none
  | p :: ps =>
    if s.guard c p.head then
      match trigCheck s c motor p.dst p.ext (s.src c motor p.head.src) with
      | .ok => unitFault s c motor ps
      | x => some (p.slot, x, (s.src c motor p.head.src).toNat)
    else unitFault s c motor ps

/-! Issue. -/

/-- Instructions in the order in which they take effect: moves in slot order, then triggers by unit.
Log: DESIGN CHOICE 2; DEDUCED 48. -/
def runOrder (ps : List Parts) : List Parts :=
  ps.filter (fun p => (trigOf p.dst).isNone) ++
    (List.range 12).flatMap (fun u => ps.filter (fun p => (trigOf p.dst).map (fun t => t.1) == some u))

/-- The stream of a core may issue at this tick (14 R276): it runs and waits for no reply, its time has come, a core cycle
begins (01 R19), no hold halts it, no trip has stopped its basin (01 R31), and a motor stream that has ended has not ended before this
cycle (15 R299). -/
def State.canIssue (s : State) (c : Nat) (motor : Bool) : Bool :=
  let k := s.core c
  let t := k.stream motor
  let held := match s.timetable c with
    | some x => x.hold.isSome
    | none => false
  !k.latch.live && !k.halted && t.st == .run && t.call.isNone && t.nextAt ≤ s.tick && s.tick % s.pace c == 0 && !s.inReset &&
    !s.clockOff c && !s.complexOut c &&
    (motor || !held) && (motor || !(isTile c && k.motor.st == .ended && k.motor.nextAt ≤ s.tick))

/-- The latch of a bundle about to run. Log: DESIGN CHOICE 2. -/
def latchOf (motor : Bool) (pc h : Nat) (ps : List Parts) : Latch :=
  { live := true, words := (runOrder ps).flatMap Parts.words, slots := (runOrder ps).map Parts.slot, slot := 0
    motor := motor, pc := pc, idle := hdIdle h, pops := hdPop h, rot := hdRot h, ctl := .none, sys := .none, busy := [] }

/-- A bundle that has passed orders 1 to 7: order 8, the resources, and the unit checks; then it stands in the latch (02 R54,
R55, R59). -/
def issueChecked (s : State) (c : Nat) (motor : Bool) (pc h : Nat) (ps : List Parts) : State :=
  match order8 s c motor h ps with
  | some slot => if motor then raiseFault s c motor pc slot stTiming 0 0 else s.retry c motor
  | none =>
    let l := latchOf motor pc h ps
    let k := portWrites (s.modCore c (fun k => { k with latch := l })) c motor ps
    let res := resourcesOf s.tick k h (fun p => ((s.setCore c k).src c motor p.head.src).toNat) ps
    if !motor && (s.core c).mres.tick == s.tick && !res.disjoint (s.core c).mres then s.retry c motor
    else
      match unitFault (s.setCore c k) c motor ps with
      | some (_, .stall, _) => s.retry c motor
      | some (slot, .fault code reason, detail) => raiseFault s c motor pc slot code reason detail
      | _ =>
        let rc := s.rcyc c
        { s.modCore c (fun k =>
            { k.modStream motor (fun t => if t.newCall then { t with cbase := rc, newCall := false } else t) with
              latch := l
              mres := if motor then res else k.mres }) with
          cur := c }

/-- BUNDLE_ISSUE: the stream's next bundle is fetched and checked in full in the order of 02 R59; it then runs, waits, or
raises a fault precise at it. A stream that may not issue now issues nothing. One that has run off the end of bundle memory faults with
slot 8 in its record. Log: DEDUCED 21, 115; DESIGN CHOICE 158. -/
def execBundleIssue (c : Nat) (motor : Bool) (s : State) : Ans State :=
  let k := s.core c
  let pc := (k.stream motor).pc
  .next (
    if !s.canIssue c motor then s
    else if 16384 ≤ pc then raiseFault s c motor pc 8 stFormat 0 0
    else
      let h := k.header pc
      let lay := bundleLayout (hdExt h) (k.bundleSlots pc)
      match formatSlot c motor h lay with
      | some slot => raiseFault s c motor pc slot stFormat 0 0
      | none =>
        let ps := lay.1.map Entry.parts
        match decodeFault c motor ps 2 6 with
        | some (order, slot) => raiseFault s c motor pc slot order 0 0
        | none => issueChecked s c motor pc h ps)

/-! The end of a bundle. -/

/-- Trip count of an active loop (15 R293). -/
def Loop.trips (l : Loop) : Nat :=
  if l.count = 0 then 0 else if l.stages = 0 then l.count else l.count + l.stages - 1

/-- What the end of a bundle does to the loops: the loops left, the next index, and the rotations and stage writes. -/
structure LoopEnd where
  loops : List Loop
  next : Nat
  acts : List Act
  rotated : Bool
  deriving DecidableEq, Repr

/-- The iteration ends of a bundle at index pc, innermost loop first (15 R294-R296); `now` is the reach cycle after it.
Log: DEDUCED 23. -/
def endLoops (now pc : Nat) : List Loop → LoopEnd
  | [] => LoopEnd.mk [] (pc + 1) [] false
  | l :: ls =>
    if l.last ≠ pc then LoopEnd.mk (l :: ls) (pc + 1) [] false
    else
      let acts := (if l.rot then [Act.rotate] else []) ++
        (if l.stages = 0 then [] else [Act.stage [(4, decide (l.idx + 1 < l.count))]])
      if l.idx + 1 < l.trips then
        LoopEnd.mk ({ l with idx := l.idx + 1, len := if l.idx = 0 then now - l.start else l.len } :: ls) (l.pcLoop + 1) acts
          l.rot
      else
        let r := endLoops now pc ls
        LoopEnd.mk r.loops r.next (acts ++ r.acts) (l.rot || r.rotated)

/-- The loops after a bundle, with its ct.loop where it has one (15 R294, R295). -/
def loopStep (now : Nat) (l : Latch) (loops : List Loop) : LoopEnd :=
  match l.ctl with
  | .loop x n =>
    let stages := if x.stages = 0 then [] else
      [Act.stage [(4, decide (1 ≤ x.count)), (5, false), (6, false), (7, false)]]
    if n = 0 then LoopEnd.mk loops (x.last + 1) stages false else LoopEnd.mk (x :: loops) (l.pc + 1) stages false
  | _ => endLoops now l.pc loops

/-- A transfer taking effect (15 R290-R292); `ret` is the index after its second delay bundle. -/
def takeXfer (t : Stream) (ret : Nat) (d : Delay) : Stream :=
  match d.kind with
  | .jump => { t with pc := d.tgt }
  | .call => { t with frames := CFrame.mk ret t.cbase t.loops :: t.frames, loops := [], pc := d.tgt, newCall := true }
  | .ret =>
    match t.frames with
    | f :: fs => { t with frames := fs, pc := d.tgt, cbase := f.cbase, loops := f.loops }
    | [] => t
  | _ => t

/-- The stream after a bundle: loops, then a transfer whose delay bundles have issued, or the bundle's own transfer; that of a
sy.tret stands over that of a ct operation beside it. Log: DEDUCED 23; DESIGN CHOICE 121. -/
def streamStep (e : LoopEnd) (l : Latch) (nextAt : Nat) (t : Stream) : Stream :=
  let t := { t with loops := e.loops, pc := e.next, nextAt := nextAt }
  match t.delay with
  | some d => if d.cnt ≤ 1 then takeXfer { t with delay := none } (l.pc + 1) d else { t with delay := some { d with cnt := d.cnt - 1 } }
  | none =>
    match l.sys, l.ctl with
    | .xfer d, _ => { t with delay := some d }
    | _, .xfer d => { t with delay := some d }
    | _, _ => t

/-- The tret whose second delay bundle has issued (18 R359). -/
def returns (t : Stream) : Bool :=
  match t.delay with
  | some d => d.cnt ≤ 1 && d.kind == .tret
  | none => false

/-- The receiver of a service call (18 R358). -/
def ecallReceiver (s : State) (c : Nat) : Nat :=
  if isTile c then s.activeKeeper (basinOf c) else if isKeeper c then s.towpathCore else c

/-- A service call at the end of its bundle (18 R358): the record goes to the receiver; a butty stream of a tile core and a
keeper core halt until the reply, and a motor stream goes on. -/
def makeCall (s : State) (c : Nat) (l : Latch) (code : Nat) (arg i3 : Word) : State :=
  let r := TrapRec.mk s.nextRec code arg l.motor l.pc c true
    (if i3.getLsbD 63 then some (bits i3 9 0, bits i3 31 16) else none)
  let s1 := s.modCore c (fun k =>
    if isControl c then k
    else if l.motor then { k with calls := k.calls ++ [r] }
    else { k with butty := { k.butty with call := some r.id }, calls := k.calls ++ [r] })
  s1.trapTo (ecallReceiver s c) r

/-- A trap at the end of its bundle (15 R300, 19 R373). The record of a tile core's motor stream goes to its keeper beside the
stop, that of a keeper core to the active towpath complex. Log: DEDUCED 27. -/
def takeTrap (s : State) (c : Nat) (l : Latch) (code slot : Nat) : State :=
  let r := TrapRec.mk 0 code 0 l.motor l.pc c false none
  let s := s.log (coreSource c) stTaskTrap 0 (b2n l.motor + 2) l.pc slot (s.partId c) code
  let s := if isKeeper c then s.trapTo s.towpathCore r
    else if isTile c && l.motor then s.trapTo (s.activeKeeper (basinOf c)) r else s
  haltStream s c l.motor .trap stTaskTrap r

/-- The end of a task's motor stream: monitors are disarmed, and the butty stream issues nothing after this cycle (15 R299). -/
def endMotor (s : State) (c : Nat) : State :=
  s.modCore c (fun k => { k with motor := { k.motor with st := .ended, nextAt := s.after c 1 }, mons := [] })

/-- What one control operation of a bundle does at its end. -/
def ctlEnd (s : State) (c : Nat) (l : Latch) (x : Ctl) : State :=
  match x with
  | .lock w =>
    (s.modCore c (fun k => { k with motor := { k.motor with st := .locked }, lock := some w })).scheduleAt c w.since
      (.lockArrive w.group)
  | .join => s.modCore c (fun k => { k with butty := { k.butty with st := .joined } })
  | .endtask =>
    if l.motor then endMotor s c else s.modCore c (fun k => { k with butty := { k.butty with st := .ended } })
  | .trap code slot => takeTrap s c l code slot
  | .ecall code arg i3 => makeCall s c l code arg i3
  | .halt =>
    let s := s.modCore c (fun k => { k with halted := true })
    if isKeeper c then s.keeperDown c l.pc else s.complexDown c
  | _ => s

/-- The bundle-end effects of 02 R38, in order. -/
def endActs (l : Latch) (e : LoopEnd) : List Act :=
  ((List.range 8).filter (bitOf l.pops)).map Act.pop ++ (if l.rot && !e.rotated then [Act.rotate] else []) ++ e.acts

/-- The end of the bundle in flight on core c: the busy bits its operations set, the stream's next bundle, the effects of 02
R38 at the end of the cycle, and what its control operation does. -/
def finishBundle (s : State) (c : Nat) : State :=
  let k := s.core c
  let l := k.latch
  let e := loopStep (s.nextRcyc c) l (k.stream l.motor).loops
  let nextAt := s.after c (if l.motor then l.idle + 1 else 1)
  let ret := returns (k.stream l.motor)
  let s1 := s.modCore c (fun k =>
    { k.modStream l.motor (streamStep e l nextAt) with
      latch := Latch.empty
      busy := l.busy.foldl (fun b p => sput 0 b p.1 (max p.2 (sget 0 b p.1))) k.busy })
  let s2 := if ret then s1.modCore c trapReturn else s1
  ctlEnd (ctlEnd (s2.scheduleAll c 1 (endActs l e)) c l l.ctl) c l l.sys

end Sys2Proof.Machine
end

