-- ==== Sys2Proof/Machine/Locks.lean ====
section
/-! DEFINITION. Locks and arrivals as they open, time out, run dry and re-base (14 R274-R283, 11 R218-R220), the butty wait
(11 R214), and a reach that runs past its length. -/

namespace Sys2Proof.Machine

/-- The running timetable of a partition. -/
def State.tt (s : State) (part : Nat) : Option Timetable := (s.part part).bind (fun p => p.tt)

/-- Changes the running timetable of a partition. -/
def State.modTt (s : State) (part : Nat) (f : Timetable → Timetable) : State :=
  s.modPart part (fun p => { p with tt := p.tt.map f })

/-- The least multiple of n that is at least t. -/
def ceilTo (t n : Nat) : Nat := (t + n - 1) / n * n

/-- Changes every core of a list. -/
def State.modCores (s : State) (f : Core → Core) : List Nat → State
  | [] => s
  | c :: cs => (s.modCore c f).modCores f cs

/-! Opening and re-base. -/

/-- Every condition of a waiting member holds on the flags the boundary leaves (14 R279). -/
def condsHold (k : Core) : Bool :=
  match k.lock with
  | some w => w.conds.all (fun x => flagHolds x.code (k.flag x.flag).toNat x.v)
  | none => false

/-- A lock generation of the group is open and not yet passed. -/
def Group.waiting (g : Group) : Bool := g.mode == 1 && g.rebase == 0

/-- Least ticks between keeper bottles (20 R388). -/
def Partition.bottleGap (p : Partition) : Nat := bits p.csr.botcfg 15 8 * 30000000

/-- No keeper bottle has begun since every member arrived at the group 0 lock: a warning raised under one is served at a later lock (20
R390). -/
def bottleFresh (s : State) (p : Partition) : Bool :=
  match p.lastBottle, p.tt.bind (fun t => t.group 0) with
  | some b, some g => g.memberList.any (fun m => (s.core m).lock.any (fun w => decide (b < w.since)))
  | _, _ => true

/-- A bottle is asked for: automatic, warned, and the gap has passed (20 R390). -/
def bottleWanted (s : State) (p : Partition) : Bool :=
  p.csr.botcfg.getLsbD 0 && p.csr.botWarn && bottleFresh s p && (match p.lastBottle with
    | some t => t + p.bottleGap ≤ s.tick
    | none => true)

/-- A keeper bottle comes before any decision at this lock: it is asked for, and every member has arrived (20 R390). While the keeper is
being taken over it places no hold, and locks open without it (19 R377). -/
def bottleFirst (s : State) (p : Partition) (t : Timetable) (g : Group) : Bool :=
  g.num == 0 && g.arrived == g.members && !t.timedOut && !p.holding && bottleWanted s p

/-- The lock of a group opens at the present boundary (14 R279). Log: DEDUCED 54. -/
def lockOpens (s : State) (p : Partition) (t : Timetable) (g : Group) : Bool :=
  g.waiting && g.arrived == g.members && t.hold.isNone && t.stop.isNone && !(t.timedOut && g.num == 0) && !bottleFirst s p t g &&
    g.memberList.all (fun m => condsHold (s.core m))

/-- LOCK_OPEN: the common re-base tick is fixed (14 R279, R280). -/
def execLockOpen (part group : Nat) (s : State) : Ans State :=
  .next (match s.part part with
    | some p => match p.tt with
      | some t => match t.group group with
        | some g =>
          if lockOpens s p t g then
            s.modGroup part group (fun x => { x with rebase := ceilTo s.tick t.pace + 7 * t.pace })
          else s
        | none => s
      | none => s
    | none => s)

/-- Operand registers that are dead read as zero and are live (08 R149). -/
def Regs.clearDead (r : Regs) : Regs :=
  { r with v := r.v.filter (fun p => !r.dead.getLsbD p.1), dead := 0 }

/-- A wait restored from a context frame starts `forever` and counts its limit in core cycles: it evaluates again from the
first boundary after the re-base (11 R214). -/
def FWait.resumed (w : FWait) (tick pace : Nat) : FWait :=
  if w.start = forever then { w with start := tick + 1, limit := w.limit.map (fun n => tick + n * pace) } else w

/-- A member at its re-base tick: its next reach begins at `first`; a joined butty stream is ready again (14 R277, R280). -/
def Core.nextReach (k : Core) (first tick pace : Nat) : Core :=
  { k with
    motor := { k.motor with
      st := .run, pc := first, delay := none, frames := [], loops := [], cbase := 0, newCall := false, nextAt := tick }
    butty := if k.butty.st = .joined then
        { k.butty with st := if k.fwait.isSome then .fwait else .run, nextAt := tick }
      else k.butty
    fwait := k.fwait.map (fun w => w.resumed tick pace)
    regs := k.regs.clearDead
    reachix := k.reachix + 1
    reachtick := tick
    lock := none }

/-- The first bundle of a reach of the task on a core. -/
def Timetable.firstOf (t : Timetable) (c reach : Nat) : Nat :=
  match t.tasks.find? (fun k => k.core == c) with
  | some k => match k.reaches[reach]? with
    | some r => r.first
    | none => 0
  | none => 0

/-- The members of a lock at its re-base tick. -/
def rebaseMembers (s : State) (t : Timetable) : List Nat → State
  | [] => s
  | m :: ms => rebaseMembers (s.modCore m (fun k => k.nextReach (t.firstOf m (k.reachix + 1)) s.tick t.pace)) t ms

/-- A generation completes (11 R218). -/
def Group.complete (g : Group) : Group :=
  { g with arrived := 0, mode := 0, gen := g.gen + 1, arrivals := 0, named := [], rebase := 0 }

/-- The clusters, and so the islands, of a partition (01 R11, R29). -/
def Partition.clusters (p : Partition) : List Nat := p.basins.flatMap (fun b => (List.range 8).map (fun i => 8 * b + i))

/-- The clusters that a partition's timetable runs on: its own, or those of the partition that its context has been re-placed onto (16
R316). -/
def State.clustersFor (s : State) (part : Nat) (p : Partition) : List Nat :=
  match s.parts.find? (fun q => q.2.any (fun y => y.lent == some part)) with
  | some (_, some y) => y.clusters
  | _ => p.clusters

/-- The operating point of an island at a pace: at the bottom of the band under a power limit (01 R29, R30).
Log: DESIGN CHOICE 120. -/
def State.islandPoint (s : State) (pace i : Nat) : Nat := 2 * pace + b2n (bitOf s.limited i)

/-- Islands at the operating points of a pace. -/
def State.settleIslands (s : State) (pace : Nat) : List Nat → State
  | [] => s
  | i :: is => { s with islands := sput 0 s.islands i (s.islandPoint pace i) }.settleIslands pace is

/-- The islands of a partition at the operating points of a pace: every cluster of the partition takes the point, whether or not a task
of the timetable lies on it (01 R29). Log: DESIGN CHOICE 144. -/
def State.settlePart (s : State) (part pace : Nat) : State :=
  match s.part part with
  | some p => s.settleIslands pace (s.clustersFor part p)
  | none => s

/-- A timetable leaves its tiles: their islands are idle, and tiles that its re-placed context had are their own partition's again (01
R29, 16 R316). -/
def State.leaveTiles (s : State) (part : Nat) (p : Partition) : State :=
  let cs := s.clustersFor part p
  { s with
    islands := s.islands.filter (fun i => !cs.contains i.1)
    parts := s.parts.map (fun q => (q.1, q.2.map (fun y => if y.lent = some part then { y with lent := none } else y))) }

/-- A hand table freed whole; a hand on its way then finds its entry gone (17 R338, R339). -/
def Core.freeHands (k : Core) : Core :=
  { k with
    hand := []
    pend := k.pend.filter (fun p => match p.act with
      | .handDone .. => false
      | _ => true) }

/-- Every hand table of the tile cores that a partition's timetable runs on freed (17 R338). -/
def freePartHands (s : State) (part : Nat) (p : Partition) : State :=
  s.mapCores (fun c k => if isTile c && (s.clustersFor part p).contains (c / 8) then k.freeHands else k)

/-- What a group 0 lock does besides: hand tables are freed and island voltages may change (17 R338, 01 R29). -/
def rebaseAll (s : State) (part : Nat) (t : Timetable) : State :=
  (match s.part part with
    | some p => freePartHands s part p
    | none => s).settlePart part t.pace

/-- LOCK_REBASE: every member begins its next reach, and the generation completes (14 R280). -/
def execLockRebase (part group : Nat) (s : State) : Ans State :=
  .next (match s.tt part with
    | some t => match t.group group with
      | some g =>
        if g.rebase = 0 ∨ s.tick < g.rebase ∨ t.stop.isSome then s
        else
          let s1 := ((rebaseMembers s t g.memberList).modGroup part group Group.complete).modTt part
            (fun t => { t with dry := t.dry.filter (fun d => d.2 != group) })
          if group = 0 then
            (rebaseAll s1 part t).modTt part (fun t => { t with timedOut := false })
          else s1
      | none => s
    | none => s)

/-! Patience (14 R281, R282). -/

/-- The patience of an arrived member. -/
def patienceOf (p : Partition) (g : Group) (w : LockWait) : Nat :=
  if w.patience ≠ 0 then w.patience else if g.patience ≠ 0 then g.patience else p.csr.lpatience

/-- The members that have arrived. -/
def Group.arrivedList (g : Group) : List Nat := g.memberList.filter (bitOf g.arrivals)

/-- The deadline of an open lock generation, each arrival's with the time under keeper holds since it; none where no member has
arrived. -/
def lockDeadline (s : State) (p : Partition) (t : Timetable) (g : Group) : Option Nat :=
  let ds := g.arrivedList.filterMap (fun m =>
    (s.core m).lock.map (fun w => w.since + patienceOf p g w + (t.holdTime s.tick - w.held)))
  match ds with
  | [] => none
  | d :: ds => some (ds.foldl min d)

/-- The lock has not opened at any boundary up to and including its deadline (14 R282). -/
def lockOverdue (s : State) (p : Partition) (t : Timetable) (g : Group) : Bool :=
  g.waiting && t.stop.isNone && !lockOpens s p t g && (lockDeadline s p t g).any (fun d => decide (d ≤ s.tick))

/-- The lock waits and its deadline has not passed: it may open at the present boundary yet, by what lands there (14 R279, R282). -/
def lockInTime (s : State) (part group : Nat) : Bool :=
  (s.part part).any (fun p => p.tt.any (fun t => (t.group group).any (fun g =>
    g.waiting && (lockDeadline s p t g).any (fun d => decide (s.tick ≤ d)))))

/-- The lowest context slot that is free (16 R314). -/
def Partition.freeCtx (p : Partition) : Option Nat := (List.range 4).find? (fun i => (sget none p.ctxs i).isNone)

/-- The keeper may set the timetable aside: the frame area is valid and a context slot is free (16 R312, R314). -/
def Partition.canPreempt (p : Partition) : Bool := p.csr.ctxbase.getLsbD 0 && p.freeCtx.isSome

/-- A group 0 lock that times out is pre-empted rather than stopped (14 R282, 16 R312). -/
def Partition.preempts (p : Partition) (t : Timetable) (group : Nat) : Bool :=
  group == 0 && p.canPreempt && p.csr.tmo && decide (t.timeouts < p.csr.retries)

/-- The core on whose lock a timetable stops: the lowest that has arrived. -/
def Group.firstArrived (g : Group) : Nat := g.arrivedList.headD 0

/-- The log source of the keeper that leads a partition (01 R23). Log: DEDUCED 51. -/
def State.keeperSource (s : State) (p : Partition) : Nat := coreSource (s.activeKeeper (p.basins.headD 0))

/-- A lock ends its timetable: the keeper logs it, and the timetable stops. Log: DEDUCED 51. -/
def lockStops (s : State) (part : Nat) (p : Partition) (g : Group) (status : Nat) : State :=
  (s.log (s.keeperSource p) status 0 0 0 0 part g.num).stopTimetable part g.firstArrived true status

/-- A group 0 lock that has timed out stays held: under a hold, while its keeper is being taken over, or while the keeper may
still pre-empt at it (14 R282, 19 R377). -/
def timeoutWaits (p : Partition) (t : Timetable) (g : Group) : Bool :=
  g.num == 0 && t.timedOut && (t.hold.isSome || p.holding || p.preempts t 0)

/-- LOCK_TIMEOUT: at its deadline a group 0 lock that the keeper may pre-empt, or whose keeper is being taken over, stays held;
any other stops its timetable (14 R282, 19 R377). Log: DEDUCED 54. -/
def execLockTimeout (part group : Nat) (s : State) : Ans State :=
  .next (match s.part part with
    | some p => match p.tt with
      | some t => match t.group group with
        | some g =>
          if !lockOverdue s p t g || timeoutWaits p t g then s
          else if p.preempts t group || (group == 0 && p.holding) then
            s.modTt part (fun t => { t with timedOut := true })
          else lockStops s part p g stLockTimeout
        | none => s
      | none => s
    | none => s)

/-! Dry locks (14 R283). -/

/-- A receive entry of the timetable names flag f of core m. -/
def recvNames (s : State) (m f : Nat) : Bool :=
  let sp := s.winSpan m
  (List.range sp.2).any (fun i =>
    s.winDir (sp.1 + i) == 2 && s.winCore (sp.1 + i) == m && s.winFlag (sp.1 + i) == f)

/-- The butty stream has ended, has joined the lock, or is none. Log: DEDUCED 53. -/
def Core.buttyDone (k : Core) : Bool := k.butty.st == .ended || k.butty.st == .joined || k.butty.st == .idle

/-- An operation on its way to its start names flag f, or its increment of f is on its way. -/
def Act.produces (f : Nat) : Act → Bool
  | .rackStart _ j => j.flag == f
  | .monStart _ m => m.flag == f
  | .fenceStart fence => fence.flag == f
  | .sysStart o => o.flag == f
  | .garrive g => g.flag == f
  | .flagInc g _ => g == f
  | _ => false

/-- Flag f of member m has a producer. Log: DEDUCED 53. -/
def hasProducer (s : State) (t : Timetable) (m f : Nat) : Bool :=
  let k := s.core m
  k.pend.any (fun p => p.act.produces f) || k.racks.any (fun r => r.2.live && r.2.job.flag == f) || k.fences.any (fun x => x.flag == f) ||
    k.mons.any (fun x => x.2.state != 0 && x.2.flag == f) || k.sysops.any (fun o => o.flag == f) ||
    k.calls.any (fun r => match r.reply with
      | some x => x.1 == f
      | none => false) ||
    recvNames s m f || t.groups.any (fun g => g.mode == 2 && sget 0 g.named m == f + 1) ||
    t.incs.any (fun i => i.2.1 == m && i.2.2.1 == f) || (896 ≤ f && f ≤ 1023) || !k.buttyDone

/-- The task on a core has ended (15 R299). -/
def State.taskEnded (s : State) (c : Nat) : Bool := (s.core c).motor.st == .ended && (s.core c).motor.nextAt ≤ s.tick

/-- The lock of a group can be shown never to open, and has not timed out. -/
def dryProof (s : State) (t : Timetable) (g : Group) : Bool :=
  g.waiting && t.stop.isNone && !(t.timedOut && g.num == 0) &&
    (g.memberList.any (fun m => !bitOf g.arrivals m && s.taskEnded m) ||
     g.arrivedList.any (fun m => match (s.core m).lock with
       | some w => w.conds.any (fun x =>
           !flagHolds x.code ((s.core m).flag x.flag).toNat x.v && !hasProducer s t m x.flag)
       | none => false))

/-- DRY_LOCK: a lock that can never open stops its timetable, and the keeper does not pre-empt for it (14 R283).
Log: DEDUCED 52. -/
def execDryLock (part group : Nat) (s : State) : Ans State :=
  .next (match s.part part with
    | some p => match p.tt with
      | some t => match t.group group with
        | some g => if dryProof s t g then lockStops s part p g stDryLock else s
        | none => s
      | none => s
    | none => s)

/-! Arrivals without a wait, and casts (11 R219, R220). -/

/-- The increments that a completed garrive generation owes its members. -/
def Group.owes (g : Group) (tick : Nat) : List (Nat × Nat × Nat × Nat) :=
  g.memberList.filterMap (fun m =>
    let f := sget 0 g.named m
    if f = 0 then none else some (tick + 1, m, f - 1, 1))

/-- An arrival counted; the generation completes where it is the last. -/
def recordArrival (t : Timetable) (group tick : Nat) : Timetable :=
  match t.group group with
  | some g =>
    let g1 := { g with arrived := g.arrived + 1 }
    let put := fun (n : Group) => { t with groups := t.groups.map (fun x => if x.num = group then n else x) }
    if g1.arrived = g.members then { put g1.complete with incs := t.incs ++ g1.owes tick } else put g1
  | none => t

/-- GARRIVE_RECORDED: an arrival counts at its boundary, and the last completes the generation (11 R219). -/
def execGarriveRecorded (part group core : Nat) (s : State) : Ans State :=
  let k := s.core core
  .next (match k.garr.find? (fun g => g.group == group && g.due ≤ s.tick) with
    | some g =>
      (s.modCore core (fun k => { k with garr := k.garr.erase g })).modTt part
        (fun t => recordArrival t group s.tick)
    | none => s)

/-- GROUP_FLAG_INCREMENT: an increment owed by a completed garrive generation lands (11 R219). -/
def execGroupFlagIncrement (part idx : Nat) (s : State) : Ans State :=
  .next (match (s.tt part).bind (fun t => t.incs[idx]?) with
    | some i =>
      if i.1 ≤ s.tick then
        (s.addFlag i.2.1 i.2.2.1 i.2.2.2).modTt part (fun t => { t with incs := t.incs.eraseIdx idx })
      else s
    | none => s)

/-- The tile cores of a partition, in ascending core id. -/
def Partition.tileCores (p : Partition) : List Nat := (List.range 256).filter (fun c => p.basins.contains (c / 64))

/-- The tile cores that a partition's timetable runs on. -/
def State.workCores (s : State) (part : Nat) (p : Partition) : List Nat :=
  (List.range 256).filter (fun c => (s.clustersFor part p).contains (c / 8))

/-- The core and the place there of cast increment idx, over the cores of a list. -/
def castAt (s : State) : List Nat → Nat → Option (Nat × Nat)
  | [], _ => none
  | c :: cs, i =>
    let n := (s.core c).casts.length
    if i < n then some (c, i) else castAt s cs (i - n)

/-- No earlier cast of the sender to the same member is still to land (11 R220). -/
def castFirst (l : List (Nat × Nat × Nat × Nat)) (i : Nat) : Bool :=
  match l[i]? with
  | some x => (l.take i).all (fun y => y.1 != x.1)
  | none => false

/-- GCAST_INCREMENT: an increment of a cast lands at a member; casts of one sender land at it in issue order (11 R220). -/
def execGcastIncrement (part idx : Nat) (s : State) : Ans State :=
  .next (match (s.part part).bind (fun p => castAt s (s.workCores part p) idx) with
    | some (c, i) =>
      let l := (s.core c).casts
      match l[i]? with
      | some x =>
        if x.2.2.2 ≤ s.tick && castFirst l i then
          (s.addFlag x.1 x.2.1 x.2.2.1).modCore c (fun k => { k with casts := k.casts.eraseIdx i })
        else s
      | none => s
    | none => s)

/-! The butty wait (11 R214). -/

/-- The wait ends: o0 is written, and the stream's next bundle issues from the present cycle on; a stream that has joined a
lock stays joined. Log: DEDUCED 49. -/
def Core.endWait (k : Core) (tick pace : Nat) (v : Word) : Core :=
  { (k.setOut (outPort 10 0) v) with
    fwait := none
    butty := if k.butty.st = .fwait then { k.butty with st := .run, nextAt := ceilTo tick pace } else k.butty }

/-- The wait of a core is satisfied at the present boundary. Log: DEDUCED 49. -/
def waitHolds (s : State) (k : Core) : Bool :=
  match k.fwait with
  | some w =>
    w.start ≤ s.tick && (match w.limit with
      | some l => s.tick ≤ l
      | none => true) && flagHolds w.cond (k.flag w.flag).toNat w.v
  | none => false

/-- The limit of the wait of a core has passed. Log: DEDUCED 49. -/
def waitOver (s : State) (c : Nat) : Bool :=
  match (s.core c).fwait with
  | some w => w.start ≤ s.tick && (match w.limit with
    | some l => l + s.pace c ≤ s.tick
    | none => false)
  | none => false

/-- The flag a core waits on. -/
def Core.waitFlag (k : Core) : BitVec 32 :=
  match k.fwait with
  | some w => k.flag w.flag
  | none => 0

/-- FWAIT_SATISFIED: o0 takes the flag and the butty stream resumes (11 R214). -/
def execFwaitSatisfied (core : Nat) (s : State) : Ans State :=
  let k := s.core core
  .next (if waitHolds s k then s.setCore core (k.endWait s.tick (s.pace core) (k.waitFlag.setWidth 64)) else s)

/-- FWAIT_TIMEOUT: o0 takes the flag with bit 63 set, and the butty stream resumes (11 R214). -/
def execFwaitTimeout (core : Nat) (s : State) : Ans State :=
  let k := s.core core
  .next (if waitOver s core then
      s.setCore core (k.endWait s.tick (s.pace core) (k.waitFlag.setWidth 64 ||| BitVec.ofNat 64 (2 ^ 63)))
    else s)

/-! Overrun (14 R274). -/

/-- The reach counter of a running motor stream has reached the length of its reach. -/
def overruns (s : State) (c : Nat) : Bool :=
  (s.core c).motor.st == .run && !(s.core c).latch.live &&
    (match s.reach c with
     | some r => r.len ≤ s.rcyc c
     | none => false)

/-- REACH_OVERRUN: TIMING_FAULT at the bundle that would issue (14 R274, R287). -/
def execReachOverrun (core : Nat) (s : State) : Ans State :=
  .next (if overruns s core then raiseFault s core true (s.core core).motor.pc 8 stTiming 0 0 else s)

end Sys2Proof.Machine
end

