-- ==== Sys2Proof/Machine/Cellar.lean ====
section
/-! DEFINITION. The cellar as its base dies keep it (12 R239-R242, 18 R341-R345): lines with labels, counters and phases,
checked reads, whole and merged writes, block rewrites and access counts; host memory as racks reach it; and the
racking-and-arrival port of a scratchpad (10 R187, R188). -/

namespace Sys2Proof.Machine

/-! Lines. -/

/-- The first byte of the line, and the line, that hold a cellar address. -/
def lineAddr (pa : Nat) : Nat := pa / 64 * 64

/-- Metadata of a line. -/
def Cellar.mdOf (k : Cellar) (line : Nat) : LineMd := sget LineMd.init k.md line

/-- The line lies beneath a failed node of its stack's counter tree and has not been written since (18 R345). -/
def Cellar.isStruck (k : Cellar) (line : Nat) : Bool := k.struck.any (fun r => r.1 ≤ line && line < r.1 + r.2)

/-- A read of the line passes its checks: the tree path and the line MAC (18 R345). Log: DEDUCED 65. -/
def Cellar.lineOk (k : Cellar) (line : Nat) : Bool := (k.mdOf line).macDiff == 0 && !k.isStruck line

/-- Ranges of lines without those from a to before b. -/
def carve (a b : Nat) (rs : List (Nat × Nat)) : List (Nat × Nat) :=
  rs.flatMap (fun r => [(r.1, min a (r.1 + r.2) - r.1), (max b r.1, r.1 + r.2 - max b r.1)].filter (fun x => x.2 != 0))

/-- Stores a line whole. -/
def Cellar.store (k : Cellar) (line : Nat) (data : List Byte) (m : LineMd) : Cellar :=
  { k with
    bytes := writeBytes k.bytes (64 * line) data, md := sput LineMd.init k.md line m, struck := carve line (line + 1) k.struck }

/-- Writes a line back poisoned: zero data, label 0 and the inverted MAC (18 R341, R345). -/
def Cellar.poisonAt (k : Cellar) (line : Nat) (minor : BitVec 7) (phase : Bool) : Cellar :=
  { k with
    bytes := sclear k.bytes (64 * line) 64
    md := sput LineMd.init k.md line (LineMd.mk 0 minor phase (BitVec.allOnes 40))
    struck := carve line (line + 1) k.struck }

/-- A line poisoned in the rewrite of its block: its minor counter is 0 (18 R343). -/
def Cellar.poison (k : Cellar) (line : Nat) (phase : Bool) : Cellar := k.poisonAt line 0 phase

/-! The counter trees (18 R342). -/

/-- 4 KiB blocks of a stack. -/
def stackBlocks : Nat := 2 ^ 24

/-- The place of counter n of level L, 1–7, of a stack's tree: the counter that node n of level L − 1 has in its parent. -/
def treeKey (stack level n : Nat) : Nat := (8 * stack + level) * 2 ^ 21 + n

/-- Times that a stack has been scrubbed whole. -/
def Cellar.scrubbed (k : Cellar) (stack : Nat) : Nat := sget 0 k.scrubs stack

/-- Counter n of level L of a stack's tree: what its own writes have left, and one for each of its 8^L blocks in each scrub of the whole
stack (18 R342). -/
def Cellar.treeCtr (k : Cellar) (stack level n : Nat) : Nat :=
  (sget 0 k.tree (treeKey stack level n) + k.scrubbed stack * 8 ^ level) % 2 ^ 64

/-- The counter that node n of a level, 0–6, has in its parent (18 R342). -/
def Cellar.nodeCtr (k : Cellar) (stack level n : Nat) : Nat := k.treeCtr stack (level + 1) n

/-- Writes the path of block b: the counter of its leaf, and so on up to the root (18 R342). -/
def Cellar.bumpPath (k : Cellar) (b : Nat) : Cellar :=
  { k with tree := (List.range 7).foldl (fun t i =>
      let key := treeKey (b / stackBlocks) (i + 1) (b % stackBlocks / 8 ^ (i + 1))
      sput 0 t key ((sget 0 t key + 1) % 2 ^ 64)) k.tree }

/-- The lines beneath node n of a level, 0 a leaf, of a stack: first line and count. -/
def linesUnder (stack level n : Nat) : Nat × Nat := (64 * (stack * stackBlocks + n * 8 ^ (level + 1)), 64 * 8 ^ (level + 1))

/-- A failed node: every line beneath it is poisoned (18 R345). -/
def Cellar.strike (k : Cellar) (stack level n : Nat) : Cellar := { k with struck := linesUnder stack level n :: k.struck }

/-- The largest major counter (18 R343). -/
def majorMax : Nat := 2 ^ 64 - 1

/-- The major counter of block b: what its own rewrites have left, and one for each scrub of its whole stack. -/
def Cellar.majorOf (k : Cellar) (b : Nat) : Nat := min majorMax (sget 0 k.major b + k.scrubbed (b / stackBlocks))

/-- The major counter of a block, and the path of the tree to it, advance (18 R342, R343). -/
def Cellar.bumpMajor (k : Cellar) (b : Nat) : Cellar := { k with major := sput 0 k.major b (sget 0 k.major b + 1) }.bumpPath b

/-- A line of a block under rewrite: sealed anew with minor 0, or poisoned where its read fails (18 R343). -/
def Cellar.resealLine (k : Cellar) (phase : Bool) (line : Nat) : Cellar :=
  if k.lineOk line then
    { k with md := sput LineMd.init k.md line { k.mdOf line with minor := 0, phase := phase } }
  else k.poison line phase

/-- Block b rewritten under the active phase (18 R343); a block whose major counter is full is poisoned instead. -/
def Cellar.rewriteBlock (k : Cellar) (phase : Bool) (b : Nat) : Cellar :=
  let ls := (List.range 64).map (fun i => 64 * b + i)
  if majorMax ≤ k.majorOf b then ls.foldl (fun k l => k.poison l phase) k
  else (ls.foldl (fun k l => k.resealLine phase l) k).bumpMajor b

/-- A line written back poisoned on its own account: a write like every other, whose minor counter advances; at 127 its block is
rewritten with it (18 R343, R345). -/
def Cellar.writePoison (k : Cellar) (phase : Bool) (line : Nat) : Cellar :=
  if (k.mdOf line).minor = 127 then (k.poison line phase).rewriteBlock phase (line / 64)
  else k.poisonAt line ((k.mdOf line).minor + 1) phase

/-- cellar_write of a whole line (18 R343): its minor counter advances; at 127 its block is rewritten with it. -/
def Cellar.write (k : Cellar) (phase : Bool) (line : Nat) (data : List Byte) (label : BitVec 16) : Cellar :=
  if (k.mdOf line).minor = 127 then
    (k.store line data (LineMd.mk label 0 phase 0)).rewriteBlock phase (line / 64)
  else k.store line data (LineMd.mk label ((k.mdOf line).minor + 1) phase 0)

/-- The 64 bytes of a line. -/
def Cellar.lineBytes (k : Cellar) (line : Nat) : List Byte := readBytes k.bytes (64 * line) 64

/-- New bytes merged into a line's old contents from an offset. -/
def mergeLine (old : List Byte) (off : Nat) (new : List Byte) : List Byte :=
  old.take off ++ new ++ old.drop (off + new.length)

/-- A write to part or all of a line: merged first, and refused where part of a line that cannot be read is asked for (10
R193). -/
def Cellar.put (k : Cellar) (phase : Bool) (pa : Nat) (new : List Byte) (label : Option (BitVec 16)) : Option Cellar :=
  let line := pa / 64
  let lab := label.getD (k.mdOf line).label
  let k1 := { k with dirty := k.dirty ||| BitVec.ofNat 8 (2 ^ (pa / 2 ^ 36)) }
  if new.length = 64 then some (k1.write phase line new lab)
  else if k.lineOk line then some (k1.write phase line (mergeLine (k.lineBytes line) (pa % 64) new) lab)
  else none

/-- The lines whose check a whole or partial write of a line finds failed in rewriting its block (18 R343, R345). -/
def Cellar.rewriteFails (k : Cellar) (line : Nat) : List Nat :=
  if (k.mdOf line).minor = 127 then
    ((List.range 64).map (fun i => line / 64 * 64 + i)).filter (fun l => l != line && !k.lineOk l)
  else []

/-- The active phase of a partition's cellar stream (18 R347). -/
def Partition.phase (p : Partition) : Bool := p.cellarKeys.active % 2 == 1

/-- The active cellar phase of partition n. -/
def State.cellarPhase (s : State) (n : Nat) : Bool :=
  match s.part n with
  | some p => p.phase
  | none => false

/-- The partition that holds a stack, 0 where none does (01 R12). -/
def State.partOfStack (s : State) (st : Nat) : Nat := s.partOfBasin (st / 2)

/-- A cellar address lies in a stack of the partition (12 R239). -/
def State.ownsPa (s : State) (part pa : Nat) : Bool :=
  pa < 2 ^ 39 && (match s.part part with
    | some p => p.hasStack (pa / 2 ^ 36)
    | none => false)

/-- A state with a cellar that has been written in a stack of a partition: CFOLD.scrubbed is clear (12 R240). -/
def State.withCellar (s : State) (k : Cellar) (part : Nat) : State :=
  { s with cellar := k }.modPart part (fun p => { p with csr := { p.csr with cfScrubbed := false } })

/-! Monitors (12 R233, 10 R197). -/

/-- A monitor armed on a line fires. Log: DEDUCED 67. -/
def Monitor.hit (m : Monitor) (space part line tick : Nat) : Monitor :=
  if m.state = 3 ∧ m.space = space ∧ m.pa / 64 = line ∧ (space = 3 ∨ m.part = part) then { m with state := 4, wtick := tick } else m

/-- A write to a line by an agent other than core `by_`: the monitors armed on it are to fire. Host lines are told apart by
partition. Log: DEDUCED 67. -/
def State.hitMonitors (s : State) (part by_ space line : Nat) : State :=
  s.mapCores (fun c k =>
    if c = by_ then k else { k with mons := k.mons.map (fun m => (m.1, m.2.hit space part line s.tick)) })

/-- Failures of lines, each in the log of its memory controller (18 R345). -/
def State.logLines (s : State) (part : Nat) (lines : List Nat) : State :=
  lines.foldl (fun s l => s.log (0x220 + 64 * l / 2 ^ 36 % 8) evIntegrity 0 0 0 0 part (64 * l)) s

/-- Writes a range of bytes of the cellar that lies within one line, for an engine of core `by_`; none where a merge is
refused. The first write after a scrub clears CFOLD.scrubbed (12 R240). -/
def State.putCellar (s : State) (by_ pa : Nat) (new : List Byte) (label : Option (BitVec 16)) : Option State :=
  let n := s.partOfStack (pa / 2 ^ 36)
  (s.cellar.put (s.cellarPhase n) pa new label).map (fun k =>
    ((s.logLines n (s.cellar.rewriteFails (pa / 64))).withCellar k n).hitMonitors n by_ 3 (pa / 64))

/-- A write that has to be made: one that is refused changes nothing, and its line is logged as failing its check (18 R345). -/
def State.putOrLog (s : State) (by_ pa : Nat) (new : List Byte) (label : Option (BitVec 16)) : State :=
  (s.putCellar by_ pa new label).getD (s.logLines (s.partOfStack (pa / 2 ^ 36)) [pa / 64])

/-- A line read on its own account, whose failure is logged (18 R345). -/
def State.logRead (s : State) (part line : Nat) : State := if s.cellar.lineOk line then s else s.logLines part [line]

/-! Access counts (12 R239, R241). -/

/-- Group i of an address. -/
def foldGroup (pa i : Nat) : Nat := if i < 4 then bitsOf pa (18 + 6 * i) (13 + 6 * i) else bitsOf pa 38 37

/-- unit(pa) under a fold mask. -/
def unitOf (mask pa : Nat) : Nat :=
  (List.range 5).foldl (fun u i => if bitOf mask i then u ^^^ foldGroup pa i else u) (bitsOf pa 12 7)

/-- The granules of a range that an access reaches first in it: those whose first byte of the whole access, from `first`
on, lies in the range. -/
def newGranules (first pa n : Nat) : List Nat :=
  ((List.range (n / 128 + 2)).map (fun i => pa / 128 + i)).filter (fun g =>
    pa ≤ max (128 * g) first && max (128 * g) first < pa + n)

/-- Adds one to the counter of a granule. -/
def State.countGranule (s : State) (g : Nat) : State :=
  let pa := 128 * g
  let mask := match s.part (s.partOfStack (pa / 2 ^ 36)) with
    | some p => p.csr.cfMask.toNat
    | none => 0
  let i := 64 * (pa / 2 ^ 36) + unitOf mask pa
  { s with cellar := { s.cellar with cact := sput 0 s.cellar.cact i (sget 0 s.cellar.cact i + 1) } }

/-- Counts the granules of a range reached first in an access that began at `first`. -/
def State.countAccess (s : State) (first pa n : Nat) : State := (newGranules first pa n).foldl State.countGranule s

/-! Host memory, by partition. -/

/-- The host memory of a partition's VF, as its coherent value stands: the lines that the coherence cache holds are the same (10 R196).
Log: DESIGN CHOICE 10; DEDUCED 140. -/
def State.hostMem (s : State) (part : Nat) : Store Byte := sget [] s.host part

/-- A core id that no core has: the host, as an agent that writes. -/
def noCore : Nat := 0xFFFF

/-! The coherence cache of host lines (01 R26, 10 R196). -/

/-- Lines that the coherence cache holds: 4 MiB. -/
def cohLines : Nat := 65536

/-- A host line is held in the coherence cache. -/
def State.cached (s : State) (part line : Nat) : Bool := s.coh.contains (part, line)

/-- A monitor is armed on a host line, which therefore stays in the cache (12 R233). -/
def State.watched (s : State) (x : Nat × Nat) : Bool :=
  s.cores.any (fun q => q.2.mons.any (fun m => m.2.state == 3 && m.2.space == 4 && m.2.part == x.1 && m.2.pa / 64 == x.2))

/-- Without its last entry that a predicate does not keep. -/
def dropLast {α : Type} (keep : α → Bool) (l : List α) : List α := (l.reverse.eraseP (fun x => !keep x)).reverse

/-- A host line taken into the cache; where it is full, the oldest line without a monitor leaves it. Log: DESIGN CHOICE 146. -/
def State.cache (s : State) (part line : Nat) : State :=
  if s.cached part line then s
  else
    let l := (part, line) :: s.coh
    { s with coh := if l.length ≤ cohLines then l else dropLast s.watched l }

/-- Host lines of a partition that leave the cache. -/
def State.uncache (s : State) (part : Nat) (gone : Nat → Bool) : State :=
  { s with coh := s.coh.filter (fun x => !(x.1 == part && gone x.2)) }

/-- Host lines that the cache has given up; a line with a monitor stays (12 R233). -/
def State.giveUp (s : State) (part : Nat) (lines : List Nat) : State :=
  s.uncache part (fun l => lines.contains l && !s.watched (part, l))

/-- The lines that n bytes from an address reach. -/
def linesOver (a n : Nat) : List Nat := (List.range ((a % 64 + n + 63) / 64)).map (fun i => a / 64 + i)

/-- Writes bytes of a partition's host memory; monitors armed on its lines by engines other than that of core `by_` fire, and lines that
the host writes leave the cache (10 R196). -/
def State.putHost (s : State) (part by_ ga : Nat) (new : List Byte) : State :=
  let ls := linesOver ga new.length
  let s1 := ls.foldl (fun s l => s.hitMonitors part by_ 4 l)
    { s with host := sput [] s.host part (writeBytes (s.hostMem part) ga new) }
  if by_ = noCore then s1.uncache part (fun l => ls.contains l) else s1

/-- Writes that the host has made visible (10 R196). Log: DESIGN CHOICE 10. -/
def State.hostWrites (s : State) (part : Nat) : List (Nat × Byte) → State
  | [] => s
  | w :: ws => (s.putHost part noCore w.1 [w.2]).hostWrites part ws

/-! The racking-and-arrival port (10 R187, R188). -/

/-- The port may write these lines of a core at this boundary: it has not written them yet (10 R188), and no engine has read them there
(10 R182). -/
def Core.portFree (k : Core) (tick : Nat) (lines : List Nat) : Bool :=
  lines.all (fun l => !(k.freshNow tick).port.contains l && !(k.freshNow tick).read.contains l)

/-- Lines that an engine reads at a boundary. -/
def Core.readAt (k : Core) (tick : Nat) (lines : List Nat) : Core :=
  let f := k.freshNow tick
  { k with fresh := { f with read := lines ++ f.read } }

/-- A cellar line may be written at this boundary: no rack has read it there (10 R182). -/
def State.cellarFree (s : State) (line : Nat) : Bool := !(s.cellReads.1 == s.tick && s.cellReads.2.contains line)

/-- Cellar lines that an engine reads at this boundary. -/
def State.readCellar (s : State) (lines : List Nat) : State :=
  { s with cellReads := (s.tick, if s.cellReads.1 = s.tick then lines ++ s.cellReads.2 else lines) }

/-- A host line may be written at this boundary: no rack has read it there (10 R182). -/
def State.hostFree (s : State) (part line : Nat) : Bool :=
  !(s.hostReads.1 == s.tick && s.hostReads.2.contains (part, line))

/-- A host line that a rack reads at this boundary. -/
def State.readHost (s : State) (part line : Nat) : State :=
  { s with hostReads := (s.tick, (part, line) :: (if s.hostReads.1 = s.tick then s.hostReads.2 else [])) }

/-- Every line that these host writes reach may be written at this boundary. -/
def State.hostWritesFree (s : State) (part : Nat) (ws : List (Nat × Byte)) : Bool := ws.all (fun w => s.hostFree part (w.1 / 64))

/-- A write of the port: bytes, labels by line. It comes after every timed writer of the boundary, whose bytes stand. -/
def portStore (k : Core) (tick : Nat) (cells : List (Nat × Byte)) (labels : List (Nat × BitVec 16)) : Core :=
  let k := putStore k tick (StoreW.mk 0 .vm (cells.map (fun c => (c.1, c.2, BitVec.allOnes 8))) labels [])
  { k with fresh := { k.fresh with port := cells.map (fun c => c.1 / 64) ++ k.fresh.port } }

/-- Bytes with their addresses. -/
def cellsAt (a : Nat) (bs : List Byte) : List (Nat × Byte) := bs.zipIdx.map (fun p => (a + p.2, p.1))

/-! Records of failures (18 R345, 17 R318). -/

/-- A failed line, in the log of its memory controller and in that of the engine. -/
def State.logIntegrity (s : State) (c part pa : Nat) : State :=
  (s.log (0x220 + pa / 2 ^ 36 % 8) evIntegrity 0 0 0 0 part pa).log (engineSource c) evIntegrity 0 0 0 0 part pa

/-- A packet for another partition's stack, dropped at the basin of its target (17 R318). -/
def State.logFence (s : State) (part pa : Nat) : State :=
  s.log (0x238 + pa / 2 ^ 36 % 8 / 2) evFenceDrop 0 0 0 0 part pa

end Sys2Proof.Machine
end

