-- ==== Sys2Proof/Machine/Sealing.lean ====
section
/-! DEFINITION. Keys and what they seal (18 R340-R342, R346, R352): the streams of a partition and the derivation of their keys;
the sealed form of cellar lines, tree nodes, stack links and flits. -/

namespace Sys2Proof.Machine

/-- A list cut or filled with zeros to n bytes. -/
def fit (n : Nat) (bs : List Byte) : List Byte := (bs ++ List.replicate (n - bs.length) 0).take n

/-- A free value taken: its number, and the state that has taken it. Log: DESIGN CHOICE 5. -/
def State.takeFree (s : State) : Word × State := (Config.freeValue s.freeCtr, { s with freeCtr := s.freeCtr + 1 })

/-- A GCM IV, which the spec leaves to the implementation. -/
def freeIv (s : State) : List Byte × State :=
  let a := s.takeFree
  let b := a.2.takeFree
  (toBytes 8 a.1.toNat ++ toBytes 4 b.1.toNat, b.2)

/-! Streams (18 R346). -/

/-- The binding of a handle. -/
def Partition.binding (p : Partition) (handle : Nat) : Option Binding := p.bindings.find? (fun b => b.handle == handle)

/-- The keys of a stream of a partition. -/
def Partition.keysOf (p : Partition) (k : KeyStream) : Option Keys :=
  match k with
  | .cellar => some p.cellarKeys
  | .ucie d => p.ucieKeys[b2n d]?
  | .bottle => some p.bottleKeys
  | .fabric h false => (p.binding h).map (fun b => b.keys)
  | .fabric h true => (p.binding h).map (fun b => b.recv)

/-- Replaces the keys of a stream. -/
def Partition.setKeys (p : Partition) (k : KeyStream) (x : Keys) : Partition :=
  match k with
  | .cellar => { p with cellarKeys := x }
  | .ucie d => { p with ucieKeys := p.ucieKeys.set (b2n d) x }
  | .bottle => { p with bottleKeys := x }
  | .fabric h d => { p with bindings := p.bindings.map (fun b =>
      if b.handle = h then (if d then { b with recv := x } else { b with keys := x }) else b) }

/-- Half of a key of 64 bytes: the first, or the second. -/
def keyHalf (second : Bool) (key : List Byte) : List Byte := fit 32 (if second then key.drop 32 else key)

/-- The half of a key of both directions that serves a stream: of UCIe the second for direction true; of the fabric the second for
what the higher position sends (18 R352, R366). The other streams hold the whole key. -/
def State.halfFor (s : State) (p : Partition) (k : KeyStream) (key : List Byte) : List Byte :=
  match k with
  | .ucie d => keyHalf d key
  | .fabric h d => match p.binding h with
    | some b => keyHalf ((s.position < b.peer) == d) key
    | none => fit 32 key
  | _ => fit 64 key

/-- The ASCII bytes of "bottle". -/
def bottleName : List Byte := [0x62, 0x6F, 0x74, 0x74, 0x6C, 0x65]

/-- What the active towpath complex has in custody for a partition (01 R24). -/
def State.custody (s : State) (p : Partition) : Custody := if s.towpath.b = .active then p.custB else p.custA

/-- The active complex's custody of a partition replaced. -/
def State.inCustody (s : State) (p : Partition) (x : Custody) : Partition :=
  if s.towpath.b = .active then { p with custB := x } else { p with custA := x }

/-- The partition seed (18 R352). -/
def State.seedOf (s : State) (p : Partition) : Option (List Byte) := (s.custody p).seed

/-- The partition's own bottle key (18 R352). -/
def State.bottleKey (s : State) (p : Partition) : List Byte := Config.shake256 ((s.seedOf p).getD [] ++ bottleName) 64

/-- The name of a stream in the derivation of its keys. -/
def nameOf : KeyStream → List Byte
  | .cellar => Config.streamName 0 0
  | .ucie _ => Config.streamName 1 0
  | .fabric h _ => Config.streamName 2 h
  | .bottle => bottleName

/-- The key of a vintage of a stream (18 R352): SHAKE256 of seed, name and vintage, 64 bytes; that of the bottle stream has no
vintage in it. Log: DEDUCED 127. -/
def State.deriveKey (s : State) (p : Partition) (k : KeyStream) (vintage : Nat) : List Byte :=
  match k with
  | .bottle => s.bottleKey p
  | _ => s.halfFor p k (Config.shake256 ((s.seedOf p).getD [] ++ nameOf k ++ toBytes 4 vintage) 64)

/-- Active moves to retiring, pending to active (18 R348). -/
def Keys.promote (k : Keys) : Keys :=
  { active := k.pending, pending := 0, retiring := k.active, activeKey := k.pendingKey, pendingKey := [], retiringKey := k.activeKey }

/-- The key of a phase: active, or retiring (18 R346, R348). -/
def Keys.ofPhase (k : Keys) (phase : Nat) : List Byte := if k.active % 2 = phase % 2 then k.activeKey else k.retiringKey

/-! Identity (18 R352). -/

/-- The device identity key. -/
def identityKey : List Byte := Config.shake256 (Config.deviceSecret ++ Config.bootMeasurements) 64

/-- The attestation key, which changes with the running firmware. -/
def State.attestKey (s : State) : List Byte := Config.shake256 (identityKey ++ s.towpath.running.measurement) 64

/-! Cellar lines (18 R341). -/

/-- PA[35:6] of a line. -/
def linePa (line : Nat) : Nat := line % 2 ^ 30

/-- The counter block of AES block q of a line (18 R341). -/
def counterBlock (line major minor q : Nat) : BitVec 128 :=
  BitVec.ofNat 128 (linePa line * 2 ^ 98 + major % 2 ^ 64 * 2 ^ 34 + minor % 128 * 2 ^ 27 + q % 4 * 2 ^ 25)

/-- The keys under which a line of a phase is sealed: encryption key and MAC key. -/
def State.lineKey (s : State) (line : Nat) (phase : Bool) : List Byte :=
  match s.part (s.partOfStack (line / 2 ^ 30)) with
  | some p => p.cellarKeys.ofPhase (b2n phase)
  | none => []

/-- The ciphertext of a line, as it stands in the stack. -/
def State.lineCipher (s : State) (line : Nat) : List Byte :=
  let m := s.cellar.mdOf line
  let key := keyHalf false (s.lineKey line m.phase)
  let stream := (List.range 4).flatMap (fun q =>
    fit 16 (Config.aesBlock key (toBytes 16 (counterBlock line (s.cellar.majorOf (line / 64)) m.minor.toNat q).toNat)))
  (s.cellar.lineBytes line).zipWith (fun a b => a ^^^ b) stream

/-- The difference of a line's mac field from the MAC of its contents: a poisoned line, one beneath a failed tree node among them,
carries it inverted bit by bit (18 R341, R345). -/
def Cellar.macDiff (k : Cellar) (line : Nat) : BitVec 40 := if k.isStruck line then BitVec.allOnes 40 else (k.mdOf line).macDiff

/-- The mac field of a line: 40 bits of a GMAC over ciphertext, label, PA[35:6], major, minor and phase, with the counter block as
nonce; and the difference at which it stands. -/
def State.lineMac (s : State) (line : Nat) : BitVec 40 :=
  let m := s.cellar.mdOf line
  let major := s.cellar.majorOf (line / 64)
  let msg := s.lineCipher line ++ toBytes 2 m.label.toNat ++ toBytes 4 (linePa line) ++ toBytes 8 major ++
    toBytes 1 m.minor.toNat ++ toBytes 1 (b2n m.phase)
  BitVec.ofNat 40 (ofBytes ((Config.gmac (keyHalf true (s.lineKey line m.phase))
    (toBytes 16 (counterBlock line major m.minor.toNat 0).toNat) msg).take 5)) ^^^ s.cellar.macDiff line

/-- The 8 bytes of metadata beside a line (18 R341). -/
def State.lineMetadata (s : State) (line : Nat) : BitVec 64 :=
  let m := s.cellar.mdOf line
  BitVec.ofNat 64 (m.label.toNat * 2 ^ 48 + (s.lineMac line).toNat * 2 ^ 8 + m.minor.toNat * 2 + b2n m.phase)

/-! Counter trees (18 R342). -/

/-- The eight counters of node n of a level, 0 a leaf, of a stack's tree: a leaf's are majors. -/
def Cellar.nodeBytes (k : Cellar) (stack level n : Nat) : List Byte :=
  (List.range 8).flatMap (fun i => toBytes 8 (
    if level = 0 then k.majorOf (stack * stackBlocks + 8 * n + i) else k.treeCtr stack level (8 * n + i)))

/-- The MAC of a node other than the root: keyed by its parent's counter for it. -/
def Cellar.nodeMac (k : Cellar) (stack level n : Nat) : List Byte :=
  Config.nodeMac (k.nodeCtr stack level n) (k.nodeBytes stack level n)

/-! Paths (18 R340). -/

/-- Bytes XORed with a keystream. -/
def xorBytes (a b : List Byte) : List Byte := a.zipWith (fun x y => x ^^^ y) b

/-- AES-256-GCM sealing, a counter mode: the plaintext under the keystream of its key and IV. -/
def gcmSeal (key iv plain : List Byte) : List Byte := xorBytes plain (fit plain.length (Config.gcmStream key iv plain.length))

/-- AES-256-GCM opening: the same keystream again. -/
def gcmOpen (key iv cipher : List Byte) : List Byte := gcmSeal key iv cipher

/-- What passes on the wires between the compute die and a stack's base die. -/
def State.stackWire (s : State) (stack : Nat) (bs : List Byte) : List Byte :=
  xorBytes bs (Config.asconXof (Config.linkKey s.towpath.bootNonce stack) bs.length)

/-- A flit sealed with AES-256-GCM: ciphertext, then its tag of n bytes. -/
def sealFlit (key iv : List Byte) (n : Nat) (bs : List Byte) : List Byte :=
  let ct := gcmSeal key iv bs
  ct ++ fit n (Config.gcmTag key iv [] ct)

/-- A flit of a partition from die to die in a direction: under its UCIe key, with a 96-bit tag; a basin that it crosses relays
it as it is. -/
def Partition.ucieFlit (p : Partition) (dir : Bool) (iv bs : List Byte) : List Byte :=
  sealFlit ((p.keysOf (.ucie dir)).getD Keys.none).activeKey iv 12 bs

/-- A flit of a partition's VF on CCL: under its CXL IDE key. -/
def Partition.ideFlit (p : Partition) (iv bs : List Byte) : List Byte := sealFlit (p.ide.getD []) iv 12 bs

/-- The payload bytes of a fabric flit (13 R247). -/
def flitPayload : Nat := 240

/-- The flits of a transfer, each sealed under the stream key. -/
def fabricFlits (key iv : List Byte) : Nat → List Byte → List Byte
  | 0, _ => []
  | n + 1, bs => sealFlit key iv 16 (fit flitPayload (bs.take flitPayload)) ++ fabricFlits key iv n (bs.drop flitPayload)

end Sys2Proof.Machine
end

