-- ==== Sys2Proof/Machine/Translate.lean ====
section
/-! DEFINITION. Translation of spaces 3 and 4 (12 R234-R239): the table walk, the TLBs, the places a rack reaches, and the
reading and writing of ranges through capabilities. -/

namespace Sys2Proof.Machine

/-! The walk (12 R234, R235). -/

/-- What a walk ends with: a leaf and its level, a fault kind (1 NOT_MAPPED, 2 PERMISSION, 3 ENTRY_INVALID, 4 BOUNDS), or the
address of a table entry whose line fails its check. -/
inductive Walk where
  | leaf (level entry : Nat)
  | fault (kind : Nat)
  | broken (pa : Nat)
  deriving DecidableEq, Repr

/-- Bytes a leaf of a level maps. -/
def pageSize (level : Nat) : Nat := 2 ^ (40 - 8 * level)

/-- The addr field of an entry, in place. -/
def entryAddr (e : Nat) : Nat := bitsOf e 51 11 * 2 ^ 11

/-- A valid entry that breaks a rule of 12 R235. Log: DEDUCED 62. -/
def entryBad (s : State) (part space level e : Nat) : Bool :=
  let leaf := bitOf e 1
  bitsOf e 55 52 != 0 || bitsOf e 10 5 != 0 || (level == 0 && leaf) || (level == 3 && !leaf) ||
    (bitOf e 4 && !(leaf && level == 3)) || (leaf && entryAddr e % pageSize level != 0) ||
    ((!leaf || space == 3) && !s.ownsPa part (entryAddr e))

/-- The walk from a level. Log: DEDUCED 61, 62. -/
def walkFrom (s : State) (part space va : Nat) : Nat → Nat → Nat → Walk
  | 0, _, _ => .fault 3
  | n + 1, level, table =>
    let a := table + 8 * (va / pageSize level % 256)
    if !s.ownsPa part a then .fault 3
    else if !s.cellar.lineOk (a / 64) then .broken a
    else
      let e := readNat s.cellar.bytes a 8
      if !bitOf e 0 then .fault 1
      else if entryBad s part space level e then .fault 3
      else if bitOf e 1 then .leaf level e
      else walkFrom s part space va n (level + 1) (entryAddr e)

/-- A walk of a partition's table tree for space 3 or 4 (12 R236). -/
def walk (s : State) (part space va : Nat) : Walk :=
  match s.part part with
  | some p =>
    let root := if space = 3 then p.csr.croot else p.csr.hroot
    if !root.getLsbD 0 then .fault 1 else walkFrom s part space va 4 0 (entryAddr root.toNat)
  | none => .fault 1

/-! TLBs (12 R236, R237). -/

/-- The tag of an entry: partition and space. -/
def tlbTag (part space : Nat) : Nat := 16 * part + space

/-- The key of the page of a level that holds an address. -/
def pageKey (level va : Nat) : Nat := va / pageSize level * 4 + level

/-- An entry for an address, as (key, entry). -/
def tlbFind (tag va : Nat) (l : List (Nat × Nat × Nat)) : Option (Nat × Nat) :=
  (l.find? (fun x => x.1 == tag && (x.2.1 == pageKey 1 va || x.2.1 == pageKey 2 va || x.2.1 == pageKey 3 va))).map
    (fun x => x.2)

/-- The cluster TLB that the engine of a tile core shares: there is one for each of the 32 clusters, and no other beside the
first-level TLBs (01 R16). -/
def tlbCluster (c : Nat) : Option Nat := if isTile c then some (c / 8) else none

/-- The cluster TLB of an engine, without the partition beside its tags; nothing for an engine of no cluster. -/
def State.ctlbOf (s : State) (c : Nat) : List (Nat × Nat × Nat) :=
  match tlbCluster c with
  | some n => (sget [] s.ctlb n).map (fun x => (tlbTag x.1 x.2.1, x.2.2.1, x.2.2.2))
  | none => []

/-- Puts an entry into the first-level TLB of a core: 128 entries. -/
def State.fillFirst (s : State) (c tag key e : Nat) : State :=
  s.modCore c (fun k => { k with tlb := ((tag, key, e) :: k.tlb).take 128 })

/-- Puts an entry into the cluster TLB of an engine: 4096 entries. -/
def State.fillCluster (s : State) (c part space key e : Nat) : State :=
  match tlbCluster c with
  | some n => { s with ctlb := sput [] s.ctlb n (((part, space, key, e) :: sget [] s.ctlb n).take 4096) }
  | none => s

/-- The leaf for an address: from the first-level TLB, the cluster TLB or a walk, with the TLBs filled (12 R237). -/
def lookup (s : State) (c part space va : Nat) : State × Walk :=
  let tag := tlbTag part space
  match tlbFind tag va (s.core c).tlb with
  | some x => (s, .leaf (x.1 % 4) x.2)
  | none =>
    match tlbFind tag va (s.ctlbOf c) with
    | some x => (s.fillFirst c tag x.1 x.2, .leaf (x.1 % 4) x.2)
    | none =>
      match walk s part space va with
      | .leaf level e =>
        let key := pageKey level va
        ((s.fillCluster c part space key e).fillFirst c tag key e, .leaf level e)
      | w => (s, w)

/-! Places. -/

/-- Where a byte range within one line lies. -/
inductive Place where
  | pad (owner off : Nat)
  | cellar (pa : Nat)
  | host (part ga : Nat)
  deriving DecidableEq, Repr

/-- Why an access of an engine does not perform: a fault kind at a virtual address, a frozen page, a failed line, or a
packet dropped. -/
inductive Stop where
  | page (kind space va : Nat) (wr : Bool)
  | frozen
  | integrity (pa : Nat)
  | fence (pa : Nat)
  deriving DecidableEq, Repr

/-- What an access of an engine answers. -/
inductive Got (α : Type) where
  | ok (v : α)
  | stop (r : Stop)
  deriving DecidableEq, Repr

/-- The partition whose tables an engine uses. -/
def State.enginePart (s : State) (c : Nat) : Nat := s.viewPart c

/-- A page under migration as an access meets it: frozen, or with its rewritten line marked (12 R238). Log: DEDUCED 68. -/
def meetMigration (s : State) (part va : Nat) (wr : Bool) : Option State :=
  match (s.part part).bind (fun p => p.migr) with
  | some m =>
    if m.va / 2 ^ 16 ≠ va / 2 ^ 16 then some s
    else if m.phase = 4 then none
    else if wr then
      some (s.modPart part (fun p => { p with migr := some { m with marked := m.marked ||| 2 ^ (va % 2 ^ 16 / 64) } }))
    else some s
  | none => some s

/-- The place of a virtual address. Log: DEDUCED 61. -/
def translate (s : State) (c part space va : Nat) (wr : Bool) : State × Got Place :=
  let r := lookup s c part space va
  match r.2 with
  | .leaf level e =>
    if (wr && !bitOf e 3) || (!wr && !bitOf e 2) then (r.1, .stop (.page 2 space va wr))
    else if space = 4 then (r.1, .ok (.host part (entryAddr e + va % pageSize level)))
    else
      match meetMigration r.1 part va wr with
      | some s1 => (s1, .ok (.cellar (entryAddr e + va % pageSize level)))
      | none => (r.1, .stop .frozen)
  | .fault kind => (r.1, .stop (.page kind space va wr))
  | .broken pa => (r.1, .stop (.integrity pa))

/-- The place of an address of a partition that a capability reaches without translation: a cellar address, which the fence drops where
it lies in no stack of the partition (17 R318), or a guest-physical address (17 R326). For a control core the partition is the one that
WSEL names at the access (12 R236, 17 R329). -/
def directPlace (s : State) (part space a : Nat) (wr : Bool) : Got Place :=
  if space = 4 then (if (s.part part).isSome then .ok (.host part a) else .stop (.page 1 4 a wr))
  else if s.ownsPa part a then .ok (.cellar a) else .stop (.fence a)

/-- The place of a byte of a capability, for work of a partition. -/
def resolveFor (s : State) (part c : Nat) (cap : Cap) (off : Nat) (wr : Bool) : State × Got Place :=
  let a := cap.base + off
  if isPad cap.space then (s, .ok (.pad (ownerOf c cap.space a).1 (ownerOf c cap.space a).2))
  else if untranslated c cap then (s, directPlace s part cap.space a wr)
  else translate s c part cap.space a wr

/-- The place of a byte of a capability, for the engine of a core. -/
def resolve (s : State) (c : Nat) (cap : Cap) (off : Nat) (wr : Bool) : State × Got Place := resolveFor s (s.enginePart c) c cap off wr

/-- The lines of n bytes of a capability from an offset: offset and bytes of each. -/
def lineRuns (base : Nat) : Nat → Nat → Nat → List (Nat × Nat)
  | 0, _, _ => []
  | fuel + 1, off, n =>
    if n = 0 then []
    else
      let m := min n (64 - (base + off) % 64)
      (off, m) :: lineRuns base fuel (off + m) (n - m)

/-- The runs of a range. -/
def runsOf (cap : Cap) (off n : Nat) : List (Nat × Nat) := lineRuns cap.base (n / 64 + 2) off n

/-- The places of a list of runs, for work of a partition. -/
def resolveAllFor (s : State) (part c : Nat) (cap : Cap) (wr : Bool) : List (Nat × Nat) → State × Got (List (Place × Nat))
  | [] => (s, .ok [])
  | r :: rs =>
    match resolveFor s part c cap r.1 wr with
    | (s1, .ok p) =>
      match resolveAllFor s1 part c cap wr rs with
      | (s2, .ok ps) => (s2, .ok ((p, r.2) :: ps))
      | (s2, .stop x) => (s2, .stop x)
    | (s1, .stop x) => (s1, .stop x)

/-- The places of a list of runs, for the engine of a core. -/
def resolveAll (s : State) (c : Nat) (cap : Cap) (wr : Bool) (rs : List (Nat × Nat)) : State × Got (List (Place × Nat)) :=
  resolveAllFor s (s.enginePart c) c cap wr rs

/-! Reading and writing places. -/

/-- n bytes at a place; none of a line that fails its check. -/
def readPlace (s : State) (p : Place) (n : Nat) : Got (List Byte) :=
  match p with
  | .pad o off => .ok (readBytes (s.core o).mem.sp off n)
  | .cellar pa => if s.cellar.lineOk (pa / 64) then .ok (readBytes s.cellar.bytes pa n) else .stop (.integrity pa)
  | .host part ga => .ok (readBytes (s.hostMem part) ga n)

/-- The bytes of a list of places. -/
def readPlaces (s : State) : List (Place × Nat) → Got (List Byte)
  | [] => .ok []
  | p :: ps =>
    match readPlace s p.1 p.2 with
    | .ok bs => match readPlaces s ps with
      | .ok rest => .ok (bs ++ rest)
      | .stop x => .stop x
    | .stop x => .stop x

/-- The label of the line at a place; host memory holds none (12 R224). -/
def labelAt (s : State) (p : Place) : BitVec 16 :=
  match p with
  | .pad o off => sget 0 (s.core o).mem.labels (off / 64)
  | .cellar pa => (s.cellar.mdOf (pa / 64)).label
  | .host .. => 0

/-- Writes bytes within one line at a place, with the line's label where one is given. -/
def writePlace (s : State) (c : Nat) (p : Place) (bs : List Byte) (label : Option (BitVec 16)) : Got State :=
  match p with
  | .pad o off =>
    .ok (s.modCore o (fun k => portStore k s.tick (cellsAt off bs) (match label with
      | some l => [(off / 64, l)]
      | none => [])))
  | .cellar pa => match s.putCellar c pa bs label with
    | some s1 => .ok s1
    | none => .stop (.integrity pa)
  | .host part ga => .ok (s.putHost part c ga bs)

/-- Writes bytes over a list of places. -/
def writePlaces (s : State) (c : Nat) : List (Place × Nat) → List Byte → Option (BitVec 16) → Got State
  | [], _, _ => .ok s
  | p :: ps, bs, label =>
    match writePlace s c p.1 (bs.take p.2) label with
    | .ok s1 => writePlaces s1 c ps (bs.drop p.2) label
    | .stop x => .stop x

/-- The lines of these places may be written at this boundary (10 R182, R188). -/
def portsFree (s : State) (ps : List (Place × Nat)) : Bool :=
  ps.all (fun p => match p.1 with
    | .pad o off => (s.core o).portFree s.tick [off / 64]
    | .cellar pa => s.cellarFree (pa / 64)
    | .host part ga => s.hostFree part (ga / 64))

/-- Places that an engine has read at this boundary: the lines are not written there any more (10 R182), and a host line is held in the
coherence cache (01 R26). -/
def markPlace (s : State) (p : Place) : State :=
  match p with
  | .pad o off => s.modCore o (fun k => k.readAt s.tick [off / 64])
  | .cellar pa => s.readCellar [pa / 64]
  | .host part ga => (s.readHost part (ga / 64)).cache part (ga / 64)

/-- A list of places that an engine has read. -/
def haveRead (s : State) (ps : List (Place × Nat)) : State := ps.foldl (fun s p => markPlace s p.1) s

/-- The line that a place lies in, by the memory it belongs to, and the number of the line there. -/
def Place.line : Place → Nat × Nat
  | .pad o off => (16 + o, off / 64)
  | .cellar pa => (5, pa / 64)
  | .host part ga => (2 ^ 16 + part, ga / 64)

/-- The offset of a place in its line. -/
def Place.inLine : Place → Nat
  | .pad _ off => off % 64
  | .cellar pa => pa % 64
  | .host _ ga => ga % 64

/-- The first byte of a place's line. -/
def Place.lineStart : Place → Place
  | .pad o off => .pad o (off / 64 * 64)
  | .cellar pa => .cellar (pa / 64 * 64)
  | .host part ga => .host part (ga / 64 * 64)

/-- Host granules of a list of places (16 R310). -/
def hostGranules (ps : List (Place × Nat)) : Nat :=
  (ps.filter (fun p => match p.1 with
    | .host .. => true
    | _ => false)).length

/-- A place lies in host memory. -/
def Place.isHost : Place → Bool
  | .host .. => true
  | _ => false

/-- Counts the cellar granules of a list of places, in an access of a range that began at virtual address `first`: what it
reaches first in each granule (12 R241). -/
def countPlaces (s : State) (first : Nat) : Nat → List (Place × Nat) → State
  | _, [] => s
  | va, p :: ps =>
    let s1 := match p.1 with
      | .cellar pa => s.countAccess (pa - (va - max first (va / 128 * 128))) pa p.2
      | _ => s
    countPlaces s1 first (va + p.2) ps

/-! Invalidation (12 R236). -/

/-- An entry of a partition's space lies in the scope of an invalidation: all, or the page of a space that holds an address.
-/
def inScope (scope page space key : Nat) : Bool :=
  scope == 0 || (space == scope + 2 && key == pageKey (key % 4) (page * 2 ^ 16))

/-- Drops from every TLB the entries of a partition that a predicate on space and key names. Log: DESIGN CHOICE 63. -/
def dropTlb (s : State) (part : Nat) (gone : Nat → Nat → Bool) : State :=
  let s1 := s.mapCores (fun _ k =>
    { k with tlb := k.tlb.filter (fun x => !(x.1 / 16 == part && gone (x.1 % 16) x.2.1)) })
  { s1 with ctlb := (s1.ctlb.map (fun q =>
      (q.1, q.2.filter (fun x => !(x.1 == part && gone x.2.1 x.2.2.1))))).filter (fun q => q.2 != []) }

/-- TLBINV_COMPLETE: every first-level and cluster TLB entry in scope is gone, and busy reads 0 (12 R236).
Log: DESIGN CHOICE 63. -/
def execTlbinvComplete (part : Nat) (s : State) : Ans State :=
  .next (match s.part part with
    | some p =>
      if p.csr.tlbBusy then
        let gone := fun (space key : Nat) => inScope p.csr.tlbScope p.csr.tlbPage space key
        (dropTlb s part gone).modPart part (fun p => { p with csr := { p.csr with tlbBusy := false } })
      else s
    | none => s)

end Sys2Proof.Machine
end

