-- ==== Sys2Proof/Machine/FrameMem.lean ====
section
/-! DEFINITION. Space 3 as a keeper reads and writes it, and the context frames that lie there (16 R314, R315): their place,
their bytes, and the entries that reach them while their context is suspended. -/

namespace Sys2Proof.Machine

/-! Reading space 3 for the keeper. -/

/-- The cellar address of a readable virtual address of space 3. -/
def spaceAddr (s : State) (part va : Nat) : Option Nat :=
  match walk s part 3 va with
  | .leaf level e => if bitOf e 2 then some (entryAddr e + va % pageSize level) else none
  | _ => none

/-- The line, of a table or of a page, at which a read of runs of space 3 fails its check. -/
def failedLine (s : State) (part va : Nat) : List (Nat × Nat) → Option Nat
  | [] => none
  | r :: rs =>
    match walk s part 3 (va + r.1) with
    | .leaf level e =>
      let l := (entryAddr e + (va + r.1) % pageSize level) / 64
      if !bitOf e 2 then none else if s.cellar.lineOk l then failedLine s part va rs else some l
    | .broken a => some (a / 64)
    | .fault _ => none

/-- A read of n bytes of space 3 by a keeper, as its memory controller logs it: the line whose check fails (18 R345). -/
def logSpace (s : State) (part va n : Nat) : State :=
  match failedLine s part va (lineRuns va (n / 64 + 2) 0 n) with
  | some l => s.logLines (s.partOfStack (l / 2 ^ 30)) [l]
  | none => s

/-- Bytes of space 3 over a list of runs; none where a page is not mapped or a line fails. -/
def readRuns (s : State) (part va : Nat) : List (Nat × Nat) → Option (List Byte)
  | [] => some []
  | r :: rs =>
    match spaceAddr s part (va + r.1) with
    | some pa =>
      if s.cellar.lineOk (pa / 64) then
        (readRuns s part va rs).map (fun t => readBytes s.cellar.bytes pa r.2 ++ t)
      else none
    | none => none

/-- n bytes of space 3. -/
def readSpace (s : State) (part va n : Nat) : Option (List Byte) := readRuns s part va (lineRuns va (n / 64 + 2) 0 n)

/-- Counts the granules of n bytes of space 3 that a bottling reads or writes (12 R241). -/
def countSpace (s : State) (part va n : Nat) : State :=
  (lineRuns va (n / 64 + 2) 0 n).foldl (fun s r =>
    let a := va + r.1
    match spaceAddr s part a with
    | some pa => s.countAccess (pa - (a - max va (a / 128 * 128))) pa r.2
    | none => s) s

/-! Frames in the cellar. -/

/-- The address of a frame in space 3: slot and core (16 R314). -/
def frameVa (p : Partition) (slot c : Nat) : Nat := bits p.csr.ctxbase 47 32 * 2 ^ 32 + (256 * slot + c) * 2 ^ 22

/-- A line of a page under migration is marked as rewritten (12 R238). -/
def markLine (s : State) (part va : Nat) : State :=
  s.modPart part (fun p => { p with migr := p.migr.map (fun m =>
    if m.va / 2 ^ 16 = va / 2 ^ 16 then { m with marked := m.marked ||| 2 ^ (va % 2 ^ 16 / 64) } else m) })

/-- Writes bytes within one line of space 3 through the keeper's translation; a line that fails its check, of a table or in a merge, is
logged (18 R345). -/
def putSpace (s : State) (part by_ va : Nat) (bs : List Byte) (label : Option (BitVec 16)) : State :=
  match spaceAddr s part va with
  | some pa => (markLine s part va).putOrLog by_ pa bs label
  | none => logSpace s part va 1

/-- Writes the lines of a frame from line n − 1 down; their labels stay (04 R86). Log: DESIGN CHOICE 86. -/
def writeFrame (s : State) (part by_ va : Nat) (m : Store Byte) : Nat → State
  | 0 => s
  | n + 1 => writeFrame (putSpace s part by_ (va + 64 * n) (readBytes m (64 * n) 64) none) part by_ va m n

/-- Lines of a frame. -/
def frameLines : Nat := 65536

/-- Reads a frame; none where a line of it cannot be read. -/
def readFrame (s : State) (part va : Nat) : Option (Store Byte) :=
  (readSpace s part va (64 * frameLines)).map (fun bs =>
    (bs.zipIdx.filter (fun p => p.1 != 0)).map (fun p => (p.2, p.1)))

/-- n bytes at an offset of a frame image, as a number; 0 where they cannot be read. -/
def frameNum (s : State) (part va off n : Nat) : Nat :=
  match readSpace s part (va + off) n with
  | some bs => ofBytes bs
  | none => 0

/-- Writes bytes within one line of a frame image. -/
def frameBytes (s : State) (part by_ va off : Nat) (bs : List Byte) : State := putSpace s part by_ (va + off) bs none

/-- Adds to a flag of a frame image. -/
def frameFlag (s : State) (part by_ va f inc : Nat) : State :=
  frameBytes s part by_ va (0xC000 + 4 * f) (toBytes 4 (frameNum s part va (0xC000 + 4 * f) 4 + inc))

/-- Clears the tags of the granules of a scratchpad range in a frame image. -/
def frameUntag (s : State) (part by_ va off n : Nat) : State :=
  ((List.range (n / 16 + 2)).map (fun i => off / 16 + i)).foldl (fun s g =>
    if 16 * g < off + n then
      let a := 0x30000 + g / 8
      frameBytes s part by_ va a (toBytes 1 (frameNum s part va a 1 &&& (255 - 2 ^ (g % 8))))
    else s) s

/-- Writes bytes of a scratchpad line of a frame image, with its label where one is given. -/
def framePad (s : State) (part by_ va off : Nat) (bs : List Byte) (label : Option (BitVec 16)) : State :=
  let s1 := frameUntag (frameBytes s part by_ va (0x200000 + off) bs) part by_ va off bs.length
  match label with
  | some l => frameUntag (frameBytes s1 part by_ va (0x20000 + 2 * (off / 64)) (toBytes 2 l.toNat)) part by_ va (off / 64 * 64) 64
  | none => s1

/-! What reaches a suspended context (16 R314, R315). -/

/-- Changes a suspended context. -/
def Partition.modCtx (p : Partition) (slot : Nat) (f : Ctx → Ctx) : Partition :=
  match sget none p.ctxs slot with
  | some x => { p with ctxs := sput none p.ctxs slot (some (f x)) }
  | none => p
/-- Writes a field of a frame image. -/
def framePut (s : State) (part by_ va off n v : Nat) : State := frameBytes s part by_ va off (toBytes n v)

/-- The most entries that a frame's journal holds (16 R315). -/
def journalMax : Nat := 68

/-- Appends an entry to the journal of a frame: target, reply, address and tick, then the count (16 R315). -/
def frameJournal (s : State) (part by_ va target reply addr : Nat) : State :=
  let n := frameNum s part va 0x2A 2
  let at_ := 0x6080 + 32 * n
  let s1 := framePut (framePut s part by_ va at_ 8 target) part by_ va (at_ + 8) 8 reply
  framePut (framePut (framePut s1 part by_ va (at_ + 16) 8 addr) part by_ va (at_ + 24) 8 s.tick) part by_ va 0x2A 2 (n + 1)

/-- The journal entries of a frame as it was read: target, reply, address (16 R315). -/
def journalOf (m : Store Byte) : List (Nat × Word × Nat) :=
  (List.range (min journalMax (readNat m 0x2A 2))).map (fun i =>
    let o := 0x6080 + 32 * i
    (readNat m o 8, BitVec.ofNat 64 (readNat m (o + 8) 8), readNat m (o + 16) 8))

/-- A reply for a suspended context goes to the journal of its core's frame: target, reply, address. One that finds the journal
full changes nothing. Log: DESIGN CHOICE 124. -/
def journalReply (s : State) (part c target : Nat) (reply : Word) (va : Nat) (slot : Nat) : State :=
  match s.part part with
  | some p =>
    let f := frameVa p slot c
    if journalMax ≤ frameNum s part f 0x2A 2 then s
    else
      (frameJournal s part (s.activeKeeper (p.basins.headD 0)) f target reply.toNat va).modPart part (fun p =>
        p.modCtx slot (fun x => { x with journal := x.journal ++ [(c, target, reply, va, s.tick)] }))
  | none => s

/-- Marks a suspended context poisoned: in the header of every frame of it (16 R315, 19 R382). -/
def poisonCtx (s : State) (part slot : Nat) : State :=
  match s.part part with
  | some p => match sget none p.ctxs slot with
    | some x =>
      let s1 := x.tt.tasks.foldl (fun s k =>
        let f := frameVa p slot k.core
        framePut s part (s.activeKeeper (p.basins.headD 0)) f 0x1C 4 (frameNum s part f 0x1C 4 ||| 1)) s
      s1.modPart part (fun p => p.modCtx slot (fun x => { x with tt := { x.tt with poisoned := true } }))
    | none => s
  | none => s

end Sys2Proof.Machine
end

