-- ==== Sys2Proof/Machine/RackEngine.lean ====
section
/-! DEFINITION. The racking engine (12 R223-R233): the next part of an outstanding rack, its end, and the monitors. A part is what
one write to a destination line covers; with scales, the lines whose slots share blocks. Bytes, labels and scale slots are read and
written through translation; a part that may not run yet leaves the state unchanged. -/

namespace Sys2Proof.Machine

/-! The work of a rack (12 R223, R229). -/

/-- Replicas an operation writes: 1-4 for mcast, else 1. -/
def RackJob.reps (j : RackJob) : Nat := if j.op = 5 then rkNrep (j.port 4) + 1 else 1

/-- Bytes an operation writes, over all replicas. -/
def RackJob.work (j : RackJob) : Nat := j.total * j.reps

/-- Capability and offset of replica q (12 R223). -/
def RackJob.replica (j : RackJob) (q : Nat) : Cap × Nat :=
  if q = 0 then (j.cap 1, (j.port 2).toNat) else (j.cap (1 + q), (j.port (4 + q)).toNat)

/-- Gather or scatter. -/
def RackJob.indexed (j : RackJob) : Bool := j.op == 2 || j.op == 3

/-- The label policy of an operation. -/
def RackJob.lpol (j : RackJob) : Nat := rkLpol (j.port 4)

/-- Elements of a gather or scatter. -/
def RackJob.elems (j : RackJob) : Nat := j.len / j.esize

/-- The entries of the index list as it stands, each read as n32 (12 R229). -/
def RackJob.entries (s : State) (c : Nat) (j : RackJob) : List Nat :=
  (List.range j.elems).map (fun n =>
    let o := ownerOf c (j.cap 2).space ((j.cap 2).base + (j.port 5).toNat + 4 * n)
    readNat (s.core o.1).mem.sp o.2 4)

/-- A run of bytes of a capability: its offset and length. -/
abbrev Run := Cap × Nat × Nat

/-- A part of a rack: the runs of its source in order, or bytes given by the operation; the destination; its length; and the bytes that
the operation goes on to read in one run with its last ones. -/
structure Part where
  src : List Run
  given : List Byte
  dst : Cap × Nat
  n : Nat
  rem : Nat
  deriving DecidableEq, Repr

/-- Runs of which the last one reaches to the end of its line, as far as `rem` bytes that follow it. -/
def runsReach (rem : Nat) : List Run → List Run
  | [] => []
  | [x] => [(x.1, x.2.1, x.2.2 + min rem ((64 - (x.1.base + x.2.1 + x.2.2) % 64) % 64))]
  | x :: xs => x :: runsReach rem xs

/-- What a part reads of its source: to the end of its last source line, which is read once (10 R188, R193). -/
def Part.reads (p : Part) : List Run := runsReach p.rem p.src

/-- Bytes of a part that starts at a destination: up to the end of its line. A reduce whose words straddle lines is one part, and so are
the 8 bytes of a rel or acq, which are one access (10 R196). Log: DEDUCED 64. -/
def partLen (op daddr left : Nat) : Nat := if op = 9 ∨ op = 10 ∨ (op = 4 ∧ daddr % 4 ≠ 0) then left else min left (64 - daddr % 64)

/-- The n bytes of a fill pattern from phase p of it. -/
def patternBytes (v : Word) (p n : Nat) : List Byte := (List.range n).map (fun i => BitVec.ofNat 8 (v.toNat / 2 ^ (8 * ((p + i) % 8))))

/-- The side of a gather or scatter that its index list selects from: capability and offset. -/
def RackJob.indexedSide (j : RackJob) : Cap × Nat :=
  if j.op = 2 then (j.cap 0, (j.port 1).toNat) else (j.cap 1, (j.port 2).toNat)

/-- A gathered or scattered element lies outside its capability (12 R229). -/
def elementOut (j : RackJob) (idx : Nat) : Bool :=
  let side := j.indexedSide
  side.1.length < side.2 + (idx + 1) * j.esize || 2 ^ 48 < side.1.base + side.2 + (idx + 1) * j.esize

/-- The part of a gather: what it covers of a destination line, from one element or, where the line holds their seam, from two; it ends
at the seam where the second element lies outside its capability (10 R188, 12 R229). -/
def RackJob.gatherPart (j : RackJob) (list : List Nat) (pos : Nat) : Part :=
  let e := j.esize
  let dst := (j.cap 1, (j.port 2).toNat + pos)
  let n := partLen 2 (dst.1.base + dst.2) (j.len - pos)
  let at_ := fun (q : Nat) => (j.port 1).toNat + list.getD q 0 * e
  let m := min n (e - pos % e)
  let head : Run := (j.cap 0, at_ (pos / e) + pos % e, m)
  if m = n ∨ elementOut j (list.getD (pos / e + 1) 0) then Part.mk [head] [] dst m (e - pos % e - m)
  else Part.mk [head, (j.cap 0, at_ (pos / e + 1), n - m)] [] dst n (e - (n - m))

/-- The part of a rack that starts at byte `pos` of its work; `list` holds the entries of its index list. Log: DEDUCED 64. -/
def RackJob.part (j : RackJob) (list : List Nat) (pos : Nat) : Part :=
  let e := j.esize
  let p1 := (j.port 1).toNat
  let p2 := (j.port 2).toNat
  let given := fun (phase : Nat) (dst : Cap × Nat) (left : Nat) =>
    let n := partLen j.op (dst.1.base + dst.2) left
    Part.mk [] (patternBytes (j.port 1) phase n) dst n 0
  let copy := fun (src : Nat) (dst : Cap × Nat) (left more : Nat) =>
    let n := partLen j.op (dst.1.base + dst.2) left
    Part.mk [(j.cap 0, src, n)] [] dst n (more - n)
  match j.op with
  | 1 => given (pos % 8) (j.cap 1, p2 + pos) (j.len - pos)
  | 2 => j.gatherPart list pos
  | 3 => copy (p1 + pos) (j.cap 1, p2 + list.getD (pos / e) 0 * e + pos % e) (e - pos % e) (j.len - pos)
  | 5 =>
    let i := pos % j.len
    let r := j.replica (pos / j.len)
    copy (p1 + i) (r.1, r.2 + i) (j.len - i) (j.len - i)
  | 9 => given pos (j.cap 0, j.len + pos) (8 - pos)
  | 10 => copy (j.len + pos) (j.cap 1, p2 + pos) (8 - pos) (8 - pos)
  | _ => copy (p1 + pos) (j.cap 1, p2 + pos) (j.len - pos) (j.len - pos)

/-! What a rack accesses, and the order among the racks of an engine (10 R192, R196, 12 R228). -/

/-- The pieces of a range that lie in one 64 KiB page each: offset and length. -/
def pageRuns (base : Nat) : Nat → Nat → Nat → List (Nat × Nat)
  | 0, _, _ => []
  | fuel + 1, off, n =>
    if n = 0 then []
    else
      let m := min n (65536 - (base + off) % 65536)
      (off, m) :: pageRuns base fuel (off + m) (n - m)

/-- Where an address of space 3 or 4 lies: a class and an address. A byte of memory has one class, 5 for the cellar, 6 for host memory;
a page that is not mapped stands for itself. -/
def addressPlace (s : State) (c : Nat) (direct : Bool) (space a : Nat) : Nat × Nat :=
  if direct then (space + 2, a)
  else
    match (lookup s c (s.enginePart c) space a).2 with
    | .leaf level e => (space + 2, entryAddr e + a % pageSize level)
    | _ => (space + 4, a)

/-- Where a piece of one page of a capability lies. -/
def pagePlace (s : State) (c : Nat) (cap : Cap) (a : Nat) : Nat × Nat := addressPlace s c (untranslated c cap) cap.space a

/-- The bytes of memory that a range of a capability is: class, start and length of each piece. Those of a scratchpad have the
owner's class. Log: DEDUCED 64. -/
def capRange (s : State) (c : Nat) (cap : Cap) (off n : Nat) : List (Nat × Nat × Nat) :=
  if isPad cap.space then
    let o := ownerOf c cap.space (cap.base + off)
    [(16 + o.1, o.2, n)]
  else (pageRuns cap.base (n / 65536 + 2) off n).map (fun r =>
    let p := pagePlace s c cap (cap.base + r.1)
    (p.1, p.2, r.2))

/-- Two ranges have a byte in common. -/
def rangesMeet (a b : Nat × Nat × Nat) : Bool := a.1 == b.1 && a.2.1 < b.2.1 + b.2.2 && b.2.1 < a.2.1 + a.2.2

/-- Ranges of two lists have a byte in common. -/
def anyMeet (as bs : List (Nat × Nat × Nat)) : Bool := as.any (fun a => bs.any (rangesMeet a))

/-- The scale slots of a rack with lpol 2, on the cellar side: capability and offset of slot l. Log: DEDUCED 29. -/
def RackJob.cellarSlot (j : RackJob) (l : Nat) : Cap × Nat :=
  (if (j.cap 0).space = 3 then j.cap 0 else j.cap 1, (j.port 5).toNat + 16 * l)

/-- A rack whose lines move with their scale slots (12 R224). -/
def RackJob.scales (j : RackJob) : Bool := j.op == 0 && j.lpol == 2

/-- The side of a rack with lpol 2 that lies in a scratchpad: owner, and offset of its first line. -/
def RackJob.padSide (c : Nat) (j : RackJob) : Nat × Nat :=
  if isPad (j.cap 0).space then ownerOf c (j.cap 0).space ((j.cap 0).base + (j.port 1).toNat)
  else ownerOf c (j.cap 1).space ((j.cap 1).base + (j.port 2).toNat)

/-- The scale slots of n lines from line l: on the cellar side, and those inside the cover on the scratchpad side. -/
def slotRanges (s : State) (c : Nat) (j : RackJob) (l n : Nat) : List (Nat × Nat × Nat) :=
  if j.scales then
    let o := j.padSide c
    let cel := j.cellarSlot l
    capRange s c cel.1 cel.2 (16 * n) ++ ((List.range n).filterMap (fun i =>
      (scaleSlot j.scalemap (o.2 + 64 * (l + i))).map (fun a => (16 + o.1, a, 16))))
  else []

/-- Lines of a rack with scales, from line l on, that move as one unit: those up to where the slots of both sides end a 64-byte block,
or all the rest (04 R92, 10 R188, R193). Log: DEDUCED 64. -/
def RackJob.group (c : Nat) (j : RackJob) (l : Nat) : Nat :=
  let left := j.len / 64 - l
  let cel := (j.cellarSlot l).1.base + (j.cellarSlot l).2
  match scaleSlot j.scalemap ((j.padSide c).2 + 64 * l) with
  | Option.none => 1
  | some a =>
    if cel % 64 = a % 64 ∧ ((j.cap 0).base + (j.port 1).toNat) % 64 = 0 ∧ ((j.cap 1).base + (j.port 2).toNat) % 64 = 0 then
      min left (4 - a % 64 / 16)
    else left

/-- The part that starts at byte `pos`, with all the lines of its unit. -/
def RackJob.unit (c : Nat) (j : RackJob) (list : List Nat) (pos : Nat) : Part :=
  if j.scales then
    let n := 64 * j.group c (pos / 64)
    Part.mk [(j.cap 0, (j.port 1).toNat + pos, n)] [] (j.cap 1, (j.port 2).toNat + pos) n 0
  else j.part list pos

/-- The index list of a gather or scatter. -/
def RackJob.listRun (j : RackJob) : Run := (j.cap 2, (j.port 5).toNat, 4 * j.elems)

/-- The ranges of the indexed side of a gather or scatter: its elements, or, until its engine has read the index list, all that the
list may name. -/
def RackJob.indexedRanges (s : State) (c : Nat) (j : RackJob) (list : Option (List Nat)) : List (Nat × Nat × Nat) :=
  let side := j.indexedSide
  match list with
  | some l => l.flatMap (fun i => capRange s c side.1 (side.2 + i * j.esize) j.esize)
  | Option.none => capRange s c side.1 side.2 (side.1.length - side.2)

/-- Every range that an outstanding rack accesses; an index list only until it has been read. -/
def Rack.foot (s : State) (c : Nat) (r : Rack) : List (Nat × Nat × Nat) :=
  let j := r.job
  let src := capRange s c (j.cap 0) (j.port 1).toNat j.len
  let dst := capRange s c (j.cap 1) (j.port 2).toNat j.len
  let idx := if r.list.isSome then [] else capRange s c j.listRun.1 j.listRun.2.1 j.listRun.2.2
  match j.op with
  | 1 => dst
  | 2 => j.indexedRanges s c r.list ++ dst ++ idx
  | 3 => j.indexedRanges s c r.list ++ src ++ idx
  | 5 => src ++ (List.range j.reps).flatMap (fun q => capRange s c (j.replica q).1 (j.replica q).2 j.len)
  | 9 => capRange s c (j.cap 0) j.len 8
  | 10 => capRange s c (j.cap 0) j.len 8 ++ capRange s c (j.cap 1) (j.port 2).toNat 8
  | _ => src ++ dst ++ slotRanges s c j 0 (j.len / 64)

/-- The ranges of a part of a rack. -/
def Part.ranges (s : State) (c : Nat) (r : Rack) (p : Part) : List (Nat × Nat × Nat) :=
  capRange s c p.dst.1 p.dst.2 p.n ++ p.reads.flatMap (fun x => capRange s c x.1 x.2.1 x.2.2) ++
    slotRanges s c r.job (r.pos / 64) (p.n / 64)

/-- An operation writes host memory. -/
def RackJob.writesHost (j : RackJob) : Bool :=
  j.op == 9 || (j.op != 10 && (List.range j.reps).any (fun q => (j.replica q).1.space == 4))

/-- A part accesses host memory. -/
def Part.isHost (p : Part) : Bool := p.dst.1.space == 4 || p.src.any (fun x => x.1.space == 4)

/-- A monitor that is still to be armed on a line of these ranges: an acquire issued after it reads the line once it is armed, so that no
write of it goes unseen (12 R233, 22 R403). -/
def Monitor.armsOn (m : Monitor) (s : State) (c : Nat) (ranges : List (Nat × Nat × Nat)) : Bool :=
  let p := addressPlace s c m.direct m.space m.va
  (m.state == 1 || m.state == 2) && anyMeet [(p.1, p.2, 64)] ranges

/-- What a pour of a shard writes, in order with the racks of its engine (20 R396). -/
def SysOp.pours (o : SysOp) (s : State) (c : Nat) : List (Nat × Nat × Nat) :=
  if o.op = 9 ∧ bits (o.ports.getD 4 0) 1 0 = 1 ∧ o.acap.space ≠ 7 then capRange s c o.acap 0 o.acap.length else []

/-- The racks of a core issued before an operation do not reach these ranges any more (10 R192, 20 R396). -/
def racksBefore (s : State) (c seq : Nat) (ranges : List (Nat × Nat × Nat)) : Bool :=
  (s.core c).racks.all (fun q => !(q.2.live && q.2.seq < seq) || !anyMeet (q.2.foot s c) ranges)

/-- The earlier outstanding racks and pours of the engine, and the monitors before an acquire, let a rack access these ranges.
Log: DEDUCED 42, 64. -/
def mayRun (s : State) (c : Nat) (r : Rack) (ranges : List (Nat × Nat × Nat)) (host : Bool) : Bool :=
  (s.core c).racks.all (fun q =>
    !(q.2.live && q.2.seq < r.seq) ||
      (!anyMeet (q.2.foot s c) ranges &&
        !(r.job.op == 9 && q.2.job.writesHost) && !(q.2.job.op == 10 && q.2.pos == 0 && host))) &&
  (s.core c).sysops.all (fun o => !(o.seq ≤ r.seq) || !anyMeet (o.pours s c) ranges) &&
  (r.job.op != 10 || (s.core c).mons.all (fun m => !(m.2.seq ≤ r.seq && m.2.armsOn s c ranges)))

/-- Lines from one offset of a scratchpad up to another. -/
def lineIn (line off n : Nat) : Bool := off / 64 ≤ line && line ≤ (off + n - 1) / 64

/-- No store of the owner to a line of a run, its label included, is still to perform (11 R207). -/
def storesDone (s : State) (c : Nat) (x : Run) : Bool :=
  if isPad x.1.space then
    let o := ownerOf c x.1.space (x.1.base + x.2.1)
    (s.core o.1).pend.all (fun p => match p.act with
      | .store w =>
        w.issuer != o.1 || !(w.cells.any (fun q => lineIn (q.1 / 64) o.2 x.2.2) || w.labels.any (fun q => lineIn q.1 o.2 x.2.2))
      | .encode j => j.issuer != o.1
      | _ => true)
  else true

/-- No store is still to perform to the scale slots of n lines that a part reads in a scratchpad. -/
def slotStoresDone (s : State) (c : Nat) (j : RackJob) (l n : Nat) : Bool :=
  if j.scales ∧ isPad (j.cap 0).space then
    let o := j.padSide c
    match scaleSlot j.scalemap (o.2 + 64 * l) with
    | some a => (s.core o.1).pend.all (fun p => match p.act with
        | .store w => w.issuer != o.1 || !w.cells.any (fun q => lineIn (q.1 / 64) a (16 * n))
        | .encode e => e.issuer != o.1
        | _ => true)
    | none => true
  else true

/-! What a part stops for. -/

/-- A fault record of an engine: in its log, in the keeper's fault queue with kind, space, address, access, rack or monitor and
context, and before the keeper, whose handler it calls (12 R237, 18 R359). Log: DEDUCED 62. -/
def pageFault (s : State) (c : Nat) (mon : Bool) (idx kind space va : Nat) (wr : Bool) : State :=
  let part := s.enginePart c
  let s1 := (s.log (engineSource c) stRack kind 0 0 0 part va).modPart part (fun p =>
    { p with faultq := p.faultq ++ [PageFault.mk c mon idx kind space va wr none] })
  match s1.part part with
  | some p => s1.trapTo (s1.activeKeeper (p.basins.headD 0)) (TrapRec.mk 0 stRack (BitVec.ofNat 64 va) false idx c false none)
  | none => s1

/-- A rack that cannot go on: it waits on a fault reply, on a frozen page, or ends with its outcome (12 R227, R237, R238). -/
def rackStop (s : State) (c id : Nat) (r : Rack) (x : Stop) : State :=
  let set := fun (s : State) (r : Rack) => s.modCore c (fun k => k.setRack id r)
  match x with
  | .page kind space va wr => set (pageFault s c false id kind space va wr) { r with state := 3, va := va }
  | .frozen => set s { r with state := 4 }
  | .integrity pa => set (s.logIntegrity c (s.enginePart c) pa) { r with state := 2, outcome := 3 }
  | .fence pa => set (s.logFence (s.enginePart c) pa) { r with state := 2, outcome := 3 }

/-! Reading the source. -/

/-- A host line that a read at a place finds in the coherence cache, so that nothing is carried over CCL (01 R26). -/
def State.cacheHit (s : State) (p : Place) : Bool :=
  match p with
  | .host part ga => s.cached part (ga / 64)
  | _ => false

/-- The host tokens of a list of places, of an access of a range that began at `first`: one for each granule reached first that `held`
does not name (16 R310). Log: DEDUCED 66. -/
def hostTokens (held : Place → Bool) (first : Nat) : Nat → List (Place × Nat) → Nat
  | _, [] => 0
  | va, p :: ps => b2n (p.1.isHost && !held p.1 && (va % 64 == 0 || va == first)) + hostTokens held first (va + p.2) ps

/-- Those of a read: a line of the coherence cache costs none. Log: DESIGN CHOICE 146. -/
def readTokens (s : State) (first va : Nat) (ps : List (Place × Nat)) : Nat := hostTokens s.cacheHit first va ps

/-- Those of a write, which is carried whether the line is held or not. Log: DESIGN CHOICE 146. -/
def writeTokens (first va : Nat) (ps : List (Place × Nat)) : Nat := hostTokens (fun _ => false) first va ps

/-- Pays host tokens; traffic of the towpath is not metered (16 R310). Log: DEDUCED 66. -/
def payHost (s : State) (c n : Nat) : Option State :=
  if n = 0 ∨ isControl c then some s else payTokens s (s.enginePart c) false n

/-- Pays host tokens one granule at a time, as many as can be paid (16 R311), `k` being paid already. -/
def payEach (s : State) (c : Nat) : Nat → Nat → State × Nat
  | 0, k => (s, k)
  | n + 1, k => match payHost s c 1 with
    | some s1 => payEach s1 c n (k + 1)
    | none => (s, k)

/-- The tokens of a part: what a rack has paid for it stays paid, and the part waits for the rest (12 R228, 16 R311). -/
def payPart (s : State) (c id : Nat) (r : Rack) (need : Nat) : State × Rack × Bool :=
  let x := payEach s c (need - r.paid) r.paid
  if x.2 < need then
    let r1 := { r with paid := x.2 }
    (x.1.modCore c (fun k => k.setRack id r1), r1, false)
  else (x.1, { r with paid := x.2 - need }, true)

/-- Marks the first cellar line of a list of places as failing its check; no access shows which bits of its MAC differ.
Log: DEDUCED 65. -/
def breakLine (s : State) (ps : List (Place × Nat)) : State :=
  match ps.find? (fun p => match p.1 with
    | .cellar _ => true
    | _ => false) with
  | some (.cellar pa, _) =>
    { s with cellar := { s.cellar with
        md := sput LineMd.init s.cellar.md (pa / 64) { s.cellar.mdOf (pa / 64) with macDiff := 1 } } }
  | _ => s

/-- The source and a destination of a copying operation overlap (12 R229). Log: DEDUCED 64. -/
def RackJob.overlaps (s : State) (c : Nat) (j : RackJob) : Bool :=
  (j.op == 0 || j.op == 4 || j.op == 5) &&
    (List.range j.reps).any (fun q =>
      anyMeet (capRange s c (j.cap 0) (j.port 1).toNat j.len) (capRange s c (j.replica q).1 (j.replica q).2 j.len))

/-- A source line in hand, with the memory it lies in. -/
abbrev Held := Option ((Nat × Nat) × List Byte)

/-- n bytes at a place; a line that the rack has read before and not used up is not read again (10 R188, R193). -/
def readSource (s : State) (blk : Held) (p : Place) (n : Nat) : Got (List Byte) :=
  match blk with
  | some b => if b.1 = p.line then .ok ((b.2.drop p.inLine).take n) else readPlace s p n
  | none => readPlace s p n

/-- The bytes of a source. -/
def readSources (s : State) (blk : Held) : List (Place × Nat) → Got (List Byte)
  | [] => .ok []
  | p :: ps =>
    match readSource s blk p.1 p.2, readSources s blk ps with
    | .ok bs, .ok rest => .ok (bs ++ rest)
    | .stop x, _ => .stop x
    | _, .stop x => .stop x

/-- A line in hand: the one held, or as it stands. -/
def holdLine (s : State) (blk : Held) (p : Place) : Held :=
  let now := match readPlace s p.lineStart 64 with
    | .ok bs => some (p.line, bs)
    | .stop _ => none
  match blk with
  | some b => if b.1 = p.line then blk else now
  | none => now

/-- The source line that the next part goes on with, where `more` of the run is to come. -/
def blockLeft (s : State) (blk : Held) (ps : List (Place × Nat)) (more : Bool) : Held :=
  match ps.getLast? with
  | some (p, n) => if !more || (p.inLine + n) % 64 == 0 then none else holdLine s blk p
  | none => none

/-- Releases a guard of a rack or index list on lines that lie below `upto` (11 R205). -/
def trimGuard (c id upto : Nat) (g : Guard) : Guard :=
  if g.core = c ∧ g.isRack ∧ g.id = id ∧ g.start < upto ∧ upto ≤ g.start + g.len then
    let a := if upto = g.start + g.len then upto else max g.start (upto / 64 * 64)
    { g with start := a, len := g.start + g.len - a }
  else g

/-- The guards after a source run has been read. -/
def releaseRead (s : State) (c id : Nat) (cap : Cap) (off n : Nat) : State :=
  if isPad cap.space then
    let o := ownerOf c cap.space (cap.base + off)
    s.modCore o.1 (fun k => { k with guards := (k.guards.map (trimGuard c id (o.2 + n))).filter (fun g => g.len != 0) })
  else s

/-- The part of the source that a copy before the first write reads next: offset and length. -/
def RackJob.copyRun (j : RackJob) (q : Nat) : Nat × Nat :=
  let off := (j.port 1).toNat + q
  (off, min (64 - ((j.cap 0).base + off) % 64) (j.len - q))

/-- The next line of a source that is copied before the first write: its bytes and its label (12 R229). -/
def copyLineOf (s : State) (c id : Nat) (r : Rack) (env : LineEnv) : State :=
  let cap := r.job.cap 0
  let have_ := r.buf.getD []
  let run := r.job.copyRun have_.length
  let start := cap.base + (r.job.port 1).toNat
  if !mayRun s c r (capRange s c cap run.1 run.2) (cap.space == 4) || !storesDone s c (cap, run.1, run.2) then s
  else
    match resolveAll s c cap false [run] with
    | (s1, .stop x) => rackStop s1 c id r x
    | (s1, .ok ps) =>
      if env.hostError && ps.any (fun q => q.1.isHost) then
        s1.modCore c (fun k => k.setRack id { r with state := 2, outcome := 4 })
      else
        match payPart s1 c id r (readTokens s1 start (cap.base + run.1) ps) with
        | (s2, _, false) => s2
        | (s2, r, true) =>
          let s3 := if env.macFail then breakLine s2 ps else s2
          match readPlaces s3 ps with
          | .stop x => rackStop s3 c id r x
          | .ok bs =>
            let lab := match ps with
              | p :: _ => (labelAt s3 p.1).toNat
              | [] => 0
            (releaseRead (haveRead (countPlaces s3 start (cap.base + run.1) ps) ps) c id cap run.1 run.2).modCore c (fun k =>
              k.setRack id { r with state := 2, buf := some (have_ ++ bs), labs := r.labs ++ [lab] })

/-! Combining (12 R229). -/

/-- combine of two 32-bit words, with its status in the order of the probe word. -/
def combine (rkind d x : Nat) : Nat × BitVec 4 :=
  match rkind with
  | 0 => ((d + x) % 2 ^ 32, 0)
  | 1 =>
    let a := addV (fmtVal fp32 d) (fmtVal fp32 x)
    let r := roundFmt fp32 .rne a.1
    let st := a.2 ||| r.2
    (r.1, BitVec.ofNat 4 (b2n (st.getLsbD 0) + 2 * b2n (st.getLsbD 2) + 4 * b2n (st.getLsbD 3) + 8 * b2n (st.getLsbD 4)))
  | _ => (minmaxCode (.flt fp32) true d x, 0)

/-- combine over byte runs of whole words. -/
def combineBytes (rkind : Nat) (ds xs : List Byte) : List Byte × BitVec 4 :=
  let rs := ((fours ds).zip (fours xs)).map (fun p => combine rkind (ofBytes p.1) (ofBytes p.2))
  (rs.flatMap (fun r => toBytes 4 r.1), rs.foldl (fun a r => a ||| r.2) 0)

/-! Scale slots (12 R224). -/

/-- The places of the scale slot of line l of a rack: where they are read and written; none outside the cover. A page of the
cellar side may stop it. -/
def partSlots (s : State) (c : Nat) (j : RackJob) (l : Nat) : State × Got (Option (List (Place × Nat) × List (Place × Nat))) :=
  let cel := j.cellarSlot l
  let out := (j.cap 0).space != 3
  let o := j.padSide c
  match resolveAll s c cel.1 out (runsOf cel.1 cel.2 16) with
  | (s1, .stop x) => (s1, .stop x)
  | (s1, .ok ps) =>
    (s1, .ok ((scaleSlot j.scalemap (o.2 + 64 * l)).map (fun a =>
      let pad := [(Place.pad o.1 a, 16)]
      if out then (pad, ps) else (ps, pad))))

/-! One part. -/

/-- Everything that a part needs, resolved: places of source and destination, and of scale slots; the labels of a unit with scales, by
place of the destination; and its length. -/
structure Ready where
  src : List (Place × Nat)
  dst : List (Place × Nat)
  slotSrc : List (Place × Nat)
  slotDst : List (Place × Nat)
  labs : List (BitVec 16)
  n : Nat
  scaleError : Bool
  deriving DecidableEq, Repr

/-- Nothing resolved. -/
def Ready.none : Ready := Ready.mk [] [] [] [] [] 0 false

/-- Two runs of lines, one after the other. -/
def Ready.append (a b : Ready) : Ready :=
  Ready.mk (a.src ++ b.src) (a.dst ++ b.dst) (a.slotSrc ++ b.slotSrc) (a.slotDst ++ b.slotDst) (a.labs ++ b.labs) (a.n + b.n) false

/-- Resolves line l of a rack with scales: it can be read, it has a slot, and its places are mapped (12 R224, R237). -/
def readyLine (s : State) (c : Nat) (j : RackJob) (l : Nat) : State × Got Ready :=
  match resolveAll s c (j.cap 0) false (runsOf (j.cap 0) ((j.port 1).toNat + 64 * l) 64) with
  | (s1, .stop x) => (s1, .stop x)
  | (s1, .ok src) =>
    match resolveAll s1 c (j.cap 1) true (runsOf (j.cap 1) ((j.port 2).toNat + 64 * l) 64) with
    | (s2, .stop x) => (s2, .stop x)
    | (s2, .ok dst) =>
      match partSlots s2 c j l with
      | (s3, .stop x) => (s3, .stop x)
      | (s3, .ok none) => (s3, .ok { Ready.none with scaleError := true })
      | (s3, .ok (some q)) =>
        match readPlaces s3 (src ++ q.1) with
        | .stop x => (s3, .stop x)
        | .ok _ =>
          let lab := match src with
            | a :: _ => labelAt s3 a.1
            | [] => 0
          (s3, .ok (Ready.mk src dst q.1 q.2 (dst.map (fun _ => lab)) 64 false))

/-- A stop that a rack waits at, and does not end for. -/
def Stop.waits : Stop → Bool
  | .page .. => true
  | .frozen => true
  | _ => false

/-- Resolves n lines from line l, which move as one unit: where one waits for its page they all wait, so that no block of their slots is
read or written twice; where the rack ends at one, those before it (10 R188, R193; 12 R227). Log: DEDUCED 64. -/
def readyLines (s : State) (c : Nat) (j : RackJob) : Nat → Nat → State × Got Ready
  | 0, _ => (s, .ok Ready.none)
  | n + 1, l =>
    match readyLine s c j l with
    | (s1, .stop x) => (s1, .stop x)
    | (s1, .ok q) =>
      if q.scaleError then (s1, .ok q)
      else match readyLines s1 c j n (l + 1) with
        | (s2, .ok rest) => if rest.scaleError then (s1, .ok q) else (s2, .ok (q.append rest))
        | (s2, .stop x) => if x.waits then (s2, .stop x) else (s1, .ok q)

/-- The places of several runs, in order. -/
def resolveRuns (s : State) (c : Nat) (wr : Bool) : List Run → State × Got (List (Place × Nat))
  | [] => (s, .ok [])
  | x :: xs =>
    match resolveAll s c x.1 wr (runsOf x.1 x.2.1 x.2.2) with
    | (s1, .stop e) => (s1, .stop e)
    | (s1, .ok ps) =>
      match resolveRuns s1 c wr xs with
      | (s2, .ok rest) => (s2, .ok (ps ++ rest))
      | (s2, .stop e) => (s2, .stop e)

/-- Resolves a part (12 R237). A source copied whole is not read again. -/
def readyPart (s : State) (c : Nat) (r : Rack) (p : Part) : State × Got Ready :=
  if r.job.scales then readyLines s c r.job (p.n / 64) (r.pos / 64)
  else
    match resolveRuns s c false (if r.buf.isSome then [] else p.src) with
    | (s1, .stop x) => (s1, .stop x)
    | (s1, .ok src) =>
      match resolveAll s1 c p.dst.1 true (runsOf p.dst.1 p.dst.2 p.n) with
      | (s2, .stop x) => (s2, .stop x)
      | (s2, .ok dst) => (s2, .ok (Ready.mk src dst [] [] [] p.n false))

/-- The bytes of a part's source. -/
def partBytes (s : State) (r : Rack) (p : Part) (rd : Ready) : Got (List Byte) :=
  match p.src with
  | [] => .ok p.given
  | x :: _ =>
    match r.buf with
    | some b => .ok ((b.drop (x.2.1 - (r.job.port 1).toNat)).take p.n)
    | none => readSources s r.blk rd.src

/-- The label that a part of one line writes with it (12 R224): that of the source line that holds the part's first byte.
Log: DESIGN CHOICE 163. -/
def partLabel (s : State) (r : Rack) (p : Part) (rd : Ready) : Option (BitVec 16) :=
  if r.job.lpol = 0 ∨ (r.job.op ≠ 0 ∧ r.job.op ≠ 5) then none
  else
    match r.buf, p.src with
    | some _, x :: _ =>
      let p1 := (r.job.port 1).toNat
      some (BitVec.ofNat 16 (r.labs.getD ((((r.job.cap 0).base + p1) % 64 + (x.2.1 - p1)) / 64) 0))
    | _, _ => some (match rd.src with
        | a :: _ => labelAt s a.1
        | [] => 0)

/-- The labels that a part writes, by place of its destination. -/
def partLabels (s : State) (r : Rack) (p : Part) (rd : Ready) : List (Option (BitVec 16)) :=
  if r.job.scales then rd.labs.map some else rd.dst.map (fun _ => partLabel s r p rd)

/-- Bytes that an operation still has to write when `pos` bytes of its work are done (12 R230). -/
def RackJob.left (j : RackJob) (pos : Nat) : Nat :=
  if j.op = 5 then (if pos / j.total + 1 < j.reps then j.total else j.work - pos) else j.total - pos

/-- The guards after a part: its source lines and its scale slots. -/
def releasePart (s : State) (c id : Nat) (r : Rack) (p : Part) : State :=
  let s := if r.buf.isSome ∨ (r.job.op = 5 ∧ r.pos / r.job.len + 1 < r.job.reps) then s
    else p.reads.foldl (fun s x => releaseRead s c id x.1 x.2.1 x.2.2) s
  let o := r.job.padSide c
  match (if r.job.scales ∧ isPad (r.job.cap 0).space then scaleSlot r.job.scalemap (o.2 + r.pos / 64 * 64) else none) with
  | some a => s.modCore o.1 (fun k => { k with guards := (k.guards.map (trimGuard c (slotGuard id) (a + p.n / 64 * 16))).filter (fun g => g.len != 0) })
  | none => s

/-- The destination of a reduce is read and combined in the same unit (10 R194). -/
def partData (s : State) (r : Rack) (rd : Ready) (bs : List Byte) : Got (List Byte × BitVec 4) :=
  if r.job.op = 4 then
    match readPlaces s rd.dst with
    | .ok ds => .ok (combineBytes (rkKind (r.job.port 4)) ds bs)
    | .stop x => .stop x
  else .ok (bs, 0)

/-- Where the access that an address of a part belongs to began: each gathered or scattered element, each replica and each
reduced block is an access of its own (12 R241). -/
def accessStart (r : Rack) (a : Nat) : Nat :=
  if r.job.op = 4 then a else if r.job.indexed then a - r.pos % r.job.esize
  else if r.job.op = 5 then a - r.pos % r.job.len else a - r.pos

/-- The runs of a part's source by virtual address: where the access of each began, its address, and its places. -/
def sourceRuns (r : Rack) : List Run → List (Place × Nat) → List (Nat × Nat × List (Place × Nat))
  | [], _ => []
  | x :: xs, ps =>
    let a := x.1.base + x.2.1
    let k := (runsOf x.1 x.2.1 x.2.2).length
    (accessStart r a, a, ps.take k) :: (sourceRuns { r with pos := r.pos + x.2.2 } xs (ps.drop k))

/-- The virtual address of a part's destination. -/
def Part.dstAt (p : Part) : Nat := p.dst.1.base + p.dst.2

/-- Counts the accesses of a part (12 R241), those to the scale slots of its lines among them. -/
def countPart (s : State) (r : Rack) (p : Part) (rd : Ready) : State :=
  let s1 := (sourceRuns r p.src rd.src).foldl (fun s x => countPlaces s x.1 x.2.1 x.2.2) s
  let s2 := countPlaces s1 (accessStart r p.dstAt) p.dstAt rd.dst
  let s3 := if r.job.op = 4 then countPlaces s2 p.dstAt p.dstAt rd.dst else s2
  let first := (r.job.cellarSlot 0).1.base + (r.job.cellarSlot 0).2
  let at_ := first + 16 * (r.pos / 64)
  countPlaces (countPlaces s3 first at_ rd.slotSrc) first at_ rd.slotDst

/-- Scratchpad, cellar and host lines that a part has read: its source, its slots, and what a reduce combines with. -/
def partRead (s : State) (r : Rack) (rd : Ready) : State :=
  haveRead s (rd.src ++ rd.slotSrc ++ (if r.job.op = 4 then rd.dst else []))

/-- The last act of a part: the rack's progress, guards and counters; `blk` is the source line in hand. -/
def advanceRack (s : State) (c id : Nat) (r : Rack) (p : Part) (rd : Ready) (blk : Held) (st : BitVec 4) : State :=
  let pos := r.pos + p.n
  (releasePart (countPart (partRead s r rd) r p rd) c id r p).modCore c (fun k => k.setRack id
    { r with state := 2, pos := pos, left := r.job.left pos, astat := r.astat ||| st, blk := blk, wtick := s.tick })

/-- Runs of bytes that follow each other in one line, as one. -/
def joinPlaces : List (Place × Nat) → List (Place × Nat)
  | [] => []
  | p :: ps => match joinPlaces ps with
    | [] => [p]
    | q :: qs => if q.1.line = p.1.line ∧ q.1.inLine = p.1.inLine + p.2 then (p.1, p.2 + q.2) :: qs else p :: q :: qs

/-- Moves the scale slots of a part's lines: those in one block are written as one. -/
def writeSlots (s : State) (c : Nat) (rd : Ready) : Got State :=
  match readPlaces s rd.slotSrc with
  | .ok v => writePlaces s c (joinPlaces rd.slotDst) v none
  | .stop x => .stop x

/-- Writes bytes over a list of places, each with the label listed for it. A part that lies in two lines labels both; a part that covers
a piece of a line labels the line. Log: DESIGN CHOICE 163. -/
def writeLabelled (s : State) (c : Nat) : List (Place × Nat) → List (Option (BitVec 16)) → List Byte → Got State
  | [], _, _ => .ok s
  | p :: ps, labels, bs =>
    match writePlace s c p.1 (bs.take p.2) (labels.headD none) with
    | .ok s1 => writeLabelled s1 c ps labels.tail (bs.drop p.2)
    | .stop x => .stop x

/-- Writes a part: its scale slots, and its data with the labels, as one unit (04 R92, 12 R224). The line in hand is that of the source
before the write. -/
def writePart (s : State) (c id : Nat) (r : Rack) (p : Part) (rd : Ready) (bs : List Byte) (labels : List (Option (BitVec 16)))
    (st : BitVec 4) : State :=
  match writeSlots s c rd with
  | .stop x => rackStop s c id r x
  | .ok s1 =>
    match writeLabelled s1 c rd.dst labels bs with
    | .stop x => rackStop s c id r x
    | .ok s2 => advanceRack s2 c id r p rd (blockLeft s r.blk rd.src (p.rem != 0)) st

/-- The tokens of a part: what it reads and what it writes. -/
def partTokens (s : State) (r : Rack) (p : Part) (rd : Ready) : Nat :=
  (sourceRuns r p.src rd.src).foldl (fun n x => n + readTokens s x.1 x.2.1 x.2.2) (writeTokens (accessStart r p.dstAt) p.dstAt rd.dst)

/-- A part whose places are resolved: host errors, tokens, reading, combining and writing. -/
def movePart (s0 s : State) (c id : Nat) (r : Rack) (p : Part) (rd : Ready) (env : LineEnv) : State :=
  let all := rd.src ++ rd.dst
  if rd.scaleError then s.modCore c (fun k => k.setRack id { r with state := 2, outcome := 5 })
  else if env.hostError && all.any (fun q => q.1.isHost) then s.modCore c (fun k => k.setRack id { r with state := 2, outcome := 4 })
  else if !portsFree s rd.dst || !portsFree s rd.slotDst then s0
  else
    match payPart s c id r (partTokens s r p rd) with
    | (s1, _, false) => s1
    | (s1, r, true) =>
      let s2 := if env.macFail then breakLine s1 all else s1
      match partBytes s2 r p rd with
      | .stop x => rackStop s2 c id r x
      | .ok bs =>
        match partData s2 r rd bs with
        | .stop x => rackStop s2 c id r x
        | .ok d => writePart s2 c id r p rd d.1 (partLabels s2 r p rd) d.2

/-- The end of a rack at an element outside its capability: PAGE_ABORT, with a fault record of kind BOUNDS at the element (12
R229, R237). -/
def boundsFault (s : State) (c id : Nat) (r : Rack) (idx : Nat) : State :=
  let side := r.job.indexedSide
  (pageFault s c false id 4 side.1.space (side.1.base + side.2 + idx * r.job.esize) (r.job.op == 3)).modCore c (fun k =>
    k.setRack id { r with state := 2, outcome := 2 })

/-- The entries of a rack's index list, as its engine has read them. -/
def Rack.entries (r : Rack) : List Nat := r.list.getD []

/-- The index of the element that a part of a rack belongs to. -/
def Rack.index (r : Rack) : Nat := r.entries.getD (r.pos / r.job.esize) 0

/-- A rack that may take its next part: outstanding, not waiting on a reply, not ending, not finished. -/
def Rack.moves (r : Rack) : Bool :=
  (r.state == 1 || r.state == 2 || r.state == 4) && !r.cancel && r.outcome == 0 && decide (r.pos < r.job.work)

/-- The keeper holds the timetable for a bottle (20 R390). -/
def Timetable.bottleHeld (t : Timetable) : Bool :=
  match t.hold with
  | some h => h.why == .bottle
  | none => false

/-- The racks of a core have stopped at a line boundary for a pre-emption or a bottle (16 R314, 20 R390). -/
def State.racksStopped (s : State) (c : Nat) : Bool :=
  match s.timetable c with
  | some t => 2 ≤ t.pre || t.bottleHeld
  | none => false

/-- Starts every queued rack of an engine up to one: racks start in issue order (12 R228). -/
def startUpTo (s : State) (c seq : Nat) : State :=
  s.modCore c (fun k => { k with racks := k.racks.map (fun r =>
    (r.1, if r.2.state = 1 ∧ r.2.seq ≤ seq then { r.2 with state := 2 } else r.2)) })

/-- A gather or scatter that has started reads its index list, whole, at one boundary, once no earlier rack or store has still to write
it; the guard of the list is released (11 R205, R207, R208; 10 R192). Log: DEDUCED 64. -/
def readList (s : State) (c id : Nat) : State :=
  let r := (s.core c).rack id
  let x := r.job.listRun
  let o := ownerOf c x.1.space (x.1.base + x.2.1)
  if r.live && r.state != 1 && !r.cancel && r.job.indexed && r.list.isNone && mayRun s c r (capRange s c x.1 x.2.1 x.2.2) false &&
      storesDone s c x then
    releaseRead ((s.modCore o.1 (fun k => k.readAt s.tick (linesOver o.2 x.2.2))).modCore c (fun k =>
      k.setRack id { r with list := some (r.job.entries s c) })) c (indexGuard id) x.1 x.2.1 x.2.2
  else s

/-- The index lists of an engine's racks. -/
def readLists (s : State) (c : Nat) : State := (s.core c).racks.foldl (fun s r => readList s c r.1) s

/-- A rack still has source to copy before its first write (12 R229). -/
def copying (s : State) (c : Nat) (r : Rack) : Bool :=
  match r.buf with
  | some b => decide (b.length < r.job.len)
  | none => r.pos == 0 && r.job.overlaps s c

/-- The next part of a rack that has started. -/
def rackPart (s : State) (c id : Nat) (env : LineEnv) : State :=
  let r := (s.core c).rack id
  let p := r.job.unit c r.entries r.pos
  if copying s c r then copyLineOf s c id r env
  else if r.job.indexed && r.list.isNone then s
  else if !mayRun s c r (p.ranges s c r) p.isHost || !p.reads.all (storesDone s c) ||
      !slotStoresDone s c r.job (r.pos / 64) (p.n / 64) then s
  else if r.job.indexed && elementOut r.job r.index then boundsFault s c id r r.index
  else
    match readyPart s c r p with
    | (s1, .stop x) => rackStop s1 c id r x
    | (s1, .ok rd) => movePart s s1 c id r { p with n := rd.n } rd env

/-- RACK_LINE_TRANSFER: the engine translates and moves the next part of an outstanding rack, after the host writes that
became visible before it (12 R229); a host write to a line that has been read at this boundary comes at a later one (10 R182). -/
def execRackLineTransfer (core rack : Nat) (env : LineEnv) (s : State) : Ans State :=
  let s1 := (s.hostWrites (s.enginePart core) env.hostWrites).giveUp (s.enginePart core) env.drops
  let r := (s1.core core).rack rack
  .next (if !s.hostWritesFree (s.enginePart core) env.hostWrites then s
    else if r.moves && !s1.racksStopped core then rackPart (readLists (startUpTo s1 core r.seq) core) core rack env else s1)

/-! The end of a rack (12 R227). -/

/-- A rack that has performed every write it will ever perform. -/
def Rack.ending (r : Rack) : Bool := r.live && (r.outcome != 0 || r.job.work ≤ r.pos || r.cancel)

/-- A rack whose cancellation reaches its engine at the end of the present cycle, or has reached it (12 R231). -/
def Core.cancelled (k : Core) (id : Nat) : Bool := (k.rack id).cancel || k.pend.any (fun p => p.act == .rackCancel id)

/-- The outcome a rack ends with: CANCELLED for one that was outstanding at its cancel, whatever it had come to (12 R231). -/
def Rack.endsWith (r : Rack) : Nat := if r.cancel then 1 else r.outcome

/-- The keeper's queue without the records of a rack or monitor that a reply answers; those of kind BOUNDS stay. -/
def dropFaults (s : State) (c : Nat) (mon : Bool) (idx : Nat) : State :=
  s.modPart (s.enginePart c) (fun p =>
    { p with faultq := p.faultq.filter (fun f => !(f.core == c && f.mon == mon && f.idx == idx && f.ctx.isNone && f.kind != 4)) })

/-- The end of a rack: guards released, the flag incremented, the id freed. -/
def endRack (s : State) (c id : Nat) : State :=
  let r := { (s.core c).rack id with cancel := (s.core c).cancelled id }
  let s := dropFaults (dropGuards (dropGuards (dropGuards s c true id) c true (indexGuard id)) c true (slotGuard id)) c false id
  (s.modCore c (fun k => k.setRack id { r with state := 5, outcome := r.endsWith, buf := none, labs := [], list := none, blk := none, paid := 0 })).addFlag
    c r.job.flag r.job.inc

/-- RACK_COMPLETE: at a boundary after its last write the rack's guards are released and its flag is incremented (10 R190, 12
R227). -/
def execRackComplete (core rack : Nat) (s : State) : Ans State :=
  let r := (s.core core).rack rack
  .next (if r.ending && (r.wtick < s.tick || r.pos == 0) then endRack s core rack else s)

/-! Monitors (12 R233). -/

/-- A monitor that ends unarmed: it is free, and its flag is added once (12 R233). -/
def endMonitor (s : State) (c id : Nat) (m : Monitor) : State := (s.modCore c (fun k => k.setMon id Monitor.free)).addFlag c m.flag m.inc

/-- A monitor translated by the engine: armed on its line, which the coherence cache holds where it is a host line; waiting on a fault
reply; ended, where its packet is dropped by the fence or its walk meets a line that fails its check; or, where its host token cannot
be paid, as it was (12 R233, R237; 17 R318). Once armed it keeps its line whatever becomes of the table entry, but for the migration of
its page. Log: DESIGN CHOICE 161. -/
def armMonitor (s : State) (c id : Nat) (m : Monitor) : State :=
  let set := fun (s : State) (m : Monitor) => s.modCore c (fun k => k.setMon id m)
  let got := if m.direct then (s, directPlace s (s.enginePart c) m.space m.va false) else translate s c m.part m.space m.va false
  match got with
  | (s1, .ok (.cellar pa)) => set s1 { m with state := 3, pa := pa }
  | (s1, .ok (.host part ga)) =>
    match payHost s1 c (if s1.cached part (ga / 64) then 0 else 1) with
    | some s2 => (set s2 { m with state := 3, pa := ga }).cache part (ga / 64)
    | none => s
  | (s1, .stop (.page kind space va wr)) => set (pageFault s1 c true id kind space va wr) { m with state := 2 }
  | (s1, .stop (.fence pa)) => endMonitor (s1.logFence (s1.enginePart c) pa) c id m
  | (s1, .stop (.integrity pa)) => endMonitor (s1.logIntegrity c (s1.enginePart c) pa) c id m
  | _ => s

/-- MONITOR_ARMED: the line's address is translated and the line is held in the coherence cache; or the monitor waits on a
fault reply (12 R233, R237). A monitor disarmed by a pre-emption or a bottle is not armed again before the restore or the release of
the hold (16 R314, 20 R390). -/
def execMonitorArmed (core mon : Nat) (s : State) : Ans State :=
  let m := (s.core core).mon mon
  let disarmed := match s.timetable core with
    | some t => 3 ≤ t.pre || t.bottleHeld
    | none => false
  .next (if m.state = 1 ∧ !disarmed then armMonitor s core mon m else s)

/-- MONITOR_FIRE: at a boundary after another agent's write of its line became visible, the flag of a monitor is incremented, and
it is disarmed (10 R197). -/
def execMonitorFire (core mon : Nat) (s : State) : Ans State :=
  let m := (s.core core).mon mon
  .next (if m.state = 4 ∧ m.wtick < s.tick then
      (s.modCore core (fun k => k.setMon mon Monitor.free)).addFlag core m.flag m.inc
    else s)

/-! Fault replies (12 R237, 16 R314-R316). -/

/-- The record in a keeper's queue that a reply answers. -/
def State.faultRec (s : State) (part c : Nat) (mon : Bool) (idx : Nat) : Option PageFault :=
  (s.part part).bind (fun p => p.faultq.find? (fun f => f.core == c && f.mon == mon && f.idx == idx))

/-- The partition whose keeper holds the record that a reply answers: that of the running context, or of a suspended one, which may have
run on basins of another (16 R314, R317). -/
def State.faultPart (s : State) (c : Nat) (mon : Bool) (idx : Nat) : Nat :=
  if (s.faultRec (s.enginePart c) c mon idx).isSome then s.enginePart c
  else match s.parts.find? (fun p => (s.faultRec p.1 c mon idx).any (fun f => f.ctx.isSome)) with
    | some p => p.1
    | none => s.enginePart c

/-- A reply to a fault of the running context. -/
def replyNow (s : State) (c : Nat) (mon : Bool) (idx : Nat) (abort : Bool) : State :=
  if mon then
    let m := (s.core c).mon idx
    if m.state ≠ 2 then s
    else if abort then endMonitor s c idx m
    else s.modCore c (fun k => k.setMon idx { m with state := 1 })
  else
    let r := (s.core c).rack idx
    if r.state ≠ 3 then s
    else if abort then
      s.modCore c (fun k => k.setRack idx { r with state := 2, outcome := if r.cancel then r.outcome else 2 })
    else s.modCore c (fun k => k.setRack idx { r with state := 2 })

/-- A fault reply: to the running context, or into the journal of the context the record belongs to. -/
def faultReply (s : State) (c : Nat) (mon : Bool) (idx : Nat) (abort : Bool) : State :=
  let part := s.faultPart c mon idx
  match s.faultRec part c mon idx with
  | none => s
  | some f =>
    let s1 := s.modPart part (fun p => { p with faultq := p.faultq.erase f })
    match f.ctx with
    | none => replyNow s1 c mon idx abort
    | some slot => journalReply s1 part c (b2n mon * 128 + idx) (b2w abort) f.va slot

/-- FAULT_REPLY_RESUME: the rack or monitor translates again from the faulting line (12 R237). -/
def execFaultReplyResume (core : Nat) (mon : Bool) (idx : Nat) (s : State) : Ans State :=
  .next (faultReply s core mon idx false)

/-- FAULT_REPLY_ABORT: the rack ends with PAGE_ABORT; a monitor is disarmed and adds its flag once (12 R233, R237). -/
def execFaultReplyAbort (core : Nat) (mon : Bool) (idx : Nat) (s : State) : Ans State :=
  .next (faultReply s core mon idx true)

/-! Migration of a page (12 R238). -/

/-- The leaf of level 3 of a page, as the address of its entry; none where a table line fails its check (18 R345). -/
def leafAddr (s : State) (part va : Nat) : Nat → Nat → Nat → Option Nat
  | 0, _, _ => none
  | n + 1, level, table =>
    let a := table + 8 * (va / pageSize level % 256)
    let e := readNat s.cellar.bytes a 8
    if !s.ownsPa part a || !s.cellar.lineOk (a / 64) || !bitOf e 0 || entryBad s part 3 level e then none
    else if level = 3 then some a
    else if bitOf e 1 then none
    else leafAddr s part va n (level + 1) (entryAddr e)

/-- The entry of a 64 KiB page of space 3. -/
def State.pageEntry (s : State) (part va : Nat) : Option Nat :=
  (s.part part).bind (fun p => if p.csr.croot.getLsbD 0 then leafAddr s part va 4 0 (entryAddr p.csr.croot.toNat) else none)

/-- Drops a page of space 3 from every TLB of the partition. -/
def dropPage (s : State) (part va : Nat) : State :=
  dropTlb s part (fun space key => space == 3 && key == pageKey (key % 4) va)

/-- The keeper writes a table entry. -/
def writeEntry (s : State) (part a e : Nat) : State :=
  s.putOrLog (s.activeKeeper (match s.part part with
    | some p => p.basins.headD 0
    | none => 0)) a (toBytes 8 e) none

/-- Copies a line of the page from its old frame to the new one, with its label; one whose check fails is logged, and its copy is
poisoned (18 R345). -/
def copyLine (s : State) (part old new i : Nat) : State :=
  let a := old / 64 + i
  let b := new / 64 + i
  let s1 := (s.logRead part a).logLines part (s.cellar.rewriteFails b)
  if s.cellar.lineOk a then
    { s1 with cellar := s.cellar.write (s.cellarPhase part) b (s.cellar.lineBytes a) (s.cellar.mdOf a).label }
  else { s1 with cellar := s.cellar.writePoison (s.cellarPhase part) b }

/-- A monitor of a page that has moved watches its line in the new frame (10 R197, 12 R238). -/
def Monitor.moveTo (m : Monitor) (part va frame : Nat) : Monitor :=
  if 3 ≤ m.state ∧ m.space = 3 ∧ m.direct = false ∧ m.part = part ∧ m.va / 2 ^ 16 = va / 2 ^ 16 then
    { m with pa := frame + m.va % 2 ^ 16 }
  else m

/-- The monitors of a page that has moved. -/
def moveMonitors (s : State) (part va frame : Nat) : State :=
  s.mapCores (fun _ k => { k with mons := k.mons.map (fun m => (m.1, m.2.moveTo part va frame)) })

/-- Copies the lines of a page that a bit set names. -/
def copyLines (s : State) (part old new marked : Nat) : State :=
  ((List.range 1024).filter (bitOf marked)).foldl (fun s i => copyLine s part old new i) s

/-- Lines marked. -/
def markCount (n : Nat) : Nat := ((List.range 1024).filter (bitOf n)).length

/-- One phase of a migration, `a` being the address of the page's entry. -/
def migrateStep (s : State) (part va frame a : Nat) (m : Option Migration) (phase : MigPhase) : State :=
  let e := readNat s.cellar.bytes a 8
  let set := fun (s : State) (m : Option Migration) => s.modPart part (fun p => { p with migr := m })
  match phase, m with
  | .start, none =>
    if frame % 2 ^ 16 = 0 ∧ s.ownsPa part frame then
      set (dropPage (writeEntry s part a (e ||| 16)) part va) (some (Migration.mk (va / 2 ^ 16 * 2 ^ 16) frame 1 0 0))
    else s
  | .copy, some m =>
    if m.phase = 1 then set (copyLines s part (entryAddr e) m.frame (2 ^ 1024 - 1)) (some { m with phase := 2 }) else s
  | .round, some m =>
    if (m.phase = 2 ∨ m.phase = 3) ∧ m.rounds < 8 then
      set (copyLines s part (entryAddr e) m.frame m.marked) (some { m with marked := 0, rounds := m.rounds + 1, phase := 3 })
    else s
  | .freeze, some m =>
    if m.phase = 3 ∧ (markCount m.marked ≤ 16 ∨ m.rounds = 8) then set s (some { m with phase := 4 }) else s
  | .finish, some m =>
    if m.phase = 4 then
      let s1 := copyLines s part (entryAddr e) m.frame m.marked
      let s2 := writeEntry s1 part a (m.frame + e % 16 + e / 2 ^ 56 * 2 ^ 56)
      set (moveMonitors (dropPage s2 part va) part va m.frame) none
    else s
  | _, _ => s

/-- PAGE_MIGRATION: mark and invalidate the page, copy it, copy in rounds what was rewritten, freeze it, and finish (12 R238). A start
while another page of the partition is under migration changes nothing. A table line that fails its check is logged, and the migration
stays where it is (18 R345). Log: DEDUCED 68; DESIGN CHOICE 162. -/
def execPageMigration (part va frame : Nat) (phase : MigPhase) (s : State) : Ans State :=
  .next (match s.part part, s.pageEntry part va with
    | some p, some a =>
      match p.migr with
      | some m => if m.va = va / 2 ^ 16 * 2 ^ 16 then migrateStep s part va frame a (some m) phase else s
      | none => migrateStep s part va frame a none phase
    | some _, none => logSpace s part va 1
    | none, _ => s)

/-! Host writes over CXL.mem (12 R233). -/

/-- Writes a run of bytes of the cellar, line by line. -/
def putRuns (s : State) (pa : Nat) : List (Nat × Nat) → List Byte → State
  | [], _ => s
  | r :: rs, bs => putRuns (s.putOrLog noCore (pa + r.1) (bs.take r.2) none) pa rs (bs.drop r.2)

/-- HOST_CXL_MEM_WRITE: the host writes cellar bytes of a partition over CXL.mem; monitors armed on the lines fire (12 R233).
-/
def execHostCxlMemWrite (pa : Nat) (data : List Byte) (s : State) : Ans State :=
  .next (if s.partOfStack (pa / 2 ^ 36) ≠ 0 ∧ pa + data.length ≤ 2 ^ 39 then
      putRuns s pa (lineRuns pa (data.length / 64 + 2) 0 data.length) data
    else s)

end Sys2Proof.Machine
end

