-- ==== Sys2Proof/Machine/Traps.lean ====
section
/-! DEFINITION. Handler entry, replies to service calls, and what the keeper does with a halted butty stream (18 R358, R359,
19 R373). -/

namespace Sys2Proof.Machine

/-- A keeper or control core may enter its handler: a record waits, no handler runs, its stream is between bundles.
Log: DEDUCED 22. -/
def canEnter (k : Core) (tick : Nat) : Bool :=
  !k.traps.isEmpty && !k.csr.tepc.inside && k.butty.st == .run && k.butty.nextAt ≤ tick && !k.halted && !k.latch.live

/-- A firmware core enters its handler now: no reply is awaited, the package is not held in reset, and a keeper's basin has not
been stopped by a trip (01 R28, R31; 18 R358). -/
def State.mayEnter (s : State) (c : Nat) : Bool :=
  !isTile c && canEnter (s.core c) s.tick && (s.core c).butty.call.isNone && !s.inReset &&
    !s.clockOff c && !s.complexOut c

/-- TRAP_HANDLER_ENTRY: the core takes a record, saves TEPC and continues at TVEC (18 R359). Log: DEDUCED 22. -/
def execTrapHandlerEntry (core : Nat) (s : State) : Ans State := .next (if s.mayEnter core then trapEntry s core else s)

/-- The reply reaches a stream: o0 for a halted butty stream, then the reply flag (18 R358). -/
def replyCall (s : State) (c : Nat) (r : TrapRec) (v : Word) : State :=
  let s1 := s.modCore c (fun k =>
    let k := { k with calls := k.calls.erase r }
    if k.butty.call = some r.id then
      { k.setOut (outPort 11 0) v with
        butty := { k.butty with call := none, nextAt := max k.butty.nextAt (ceilTo s.tick (s.pace c)) } }
    else k)
  match r.reply with
  | some x => s1.addFlag c x.1 x.2
  | none => s1

/-- The call of a core that a record names. -/
def Core.call (k : Core) (recId : Nat) : Option TrapRec := k.calls.find? (fun r => r.id == recId)

/-- The suspended context whose saved core awaits the reply to a record, with that core. -/
def Partition.callCtx (p : Partition) (c recId : Nat) : Option (Nat × Core) :=
  p.ctxs.findSome? (fun x => x.2.bind (fun y =>
    (y.cores.find? (fun q => q.1 == c && (q.2.call recId).isSome)).map (fun q => (x.1, q.2))))

/-- The partition of the suspended context whose saved core awaits the reply to a record: that of the core, or one whose context had been
re-placed onto its basins (16 R314, R317). -/
def State.callPart (s : State) (c recId : Nat) : Nat :=
  let waits := fun (n : Nat) => ((s.part n).bind (fun p => p.callCtx c recId)).isSome
  ((s.partId c :: s.parts.map (fun q => q.1)).find? waits).getD (s.partId c)

/-- A call taken out of a saved core. -/
def Core.dropCall (k : Core) (recId : Nat) : Core := { k with calls := k.calls.filter (fun r => r.id != recId) }

/-- The reply to a record of a suspended context (16 R314, R315). That to its waiting butty stream goes to the context's journal,
whose target word is 64; that to a motor stream's record, which reaches no port, adds its flag in the flag image of the frame
at once. Log: DESIGN CHOICE 124. -/
def replySuspended (s : State) (part slot c recId : Nat) (v : Word) (saved : Core) : State :=
  if saved.butty.call == some recId then journalReply s part c 64 v 0 slot
  else
    let s1 := s.modPart part (fun p => p.modCtx slot (fun x =>
      { x with cores := x.cores.map (fun q => if q.1 = c then (q.1, q.2.dropCall recId) else q) }))
    match (saved.call recId).bind TrapRec.reply, s1.part part with
    | some f, some p => frameFlag s1 part (s1.activeKeeper (p.basins.headD 0)) (frameVa p slot c) f.1 f.2
    | _, _ => s1

/-- ECALL_REPLY: the receiver answers a record; a reply for a suspended context never reaches the one that is running (16 R314,
18 R358). -/
def execEcallReply (core recId : Nat) (v : Word) (s : State) : Ans State :=
  .next (match (s.core core).call recId with
    | some r => replyCall s core r v
    | none =>
      let part := s.callPart core recId
      match (s.part part).bind (fun p => p.callCtx core recId) with
      | some (slot, k) => replySuspended s part slot core recId v k
      | none => s)

/-- The butty stream of a tile task is halted by a fault, trap or stop. -/
def Core.buttyHalted (k : Core) : Bool :=
  match k.butty.st with
  | .halted .. => true
  | _ => false

/-- The halted bundle of a butty stream: a fault or stop halts before its bundle, a trap after it (19 R373). -/
def resumeButty (s : State) (c pc : Nat) : State :=
  s.modCore c (fun k =>
    { k with butty := { k.butty with st := .run, pc := pc, nextAt := max k.butty.nextAt (ceilTo s.tick (s.pace c)) } })

/-- The keeper may resume the butty stream of a core: a tile core whose timetable no event has stopped (19 R373, R374). -/
def mayResume (s : State) (c : Nat) : Bool :=
  isTile c && (match s.timetable c with
    | some t => t.stop.isNone
    | none => false)

/-- BUTTY_RESUME_AT: the stream goes on at the halted bundle: the one that faulted, or for a trap the one it would issue next
(19 R373). Log: DEDUCED 60. -/
def execButtyResumeAt (core : Nat) (s : State) : Ans State :=
  .next (if mayResume s core && (s.core core).buttyHalted then resumeButty s core (s.core core).butty.pc else s)

/-- BUTTY_RESUME_NEXT: the stream goes on at the bundle after the halted one (19 R373). Log: DEDUCED 60. -/
def execButtyResumeNext (core : Nat) (s : State) : Ans State :=
  .next (
    let b := (s.core core).butty
    match b.st with
    | .halted .trap _ => if mayResume s core then resumeButty s core b.pc else s
    | .halted _ _ => if mayResume s core then resumeButty s core (b.pc + 1) else s
    | _ => s)

/-- BUTTY_END: the keeper ends the stream (19 R373). -/
def execButtyEnd (core : Nat) (s : State) : Ans State :=
  .next (if isTile core && (s.core core).buttyHalted then
      s.modCore core (fun k => { k with butty := { k.butty with st := .ended } })
    else s)

end Sys2Proof.Machine
end

