-- ==== Sys2Proof/Machine/Keeper.lean ====
section
/-! DEFINITION. The lock-keeper (14 R264-R269, R284, R285; 16 R303-R309, R312; 19 R374-R376): launch queues, selection,
images, launches, holds, and how a timetable ends. -/

namespace Sys2Proof.Machine

/-! Journal and completions (16 R306, 19 R375). -/

/-- Queue q of a partition. -/
def Partition.queue (p : Partition) (q : Nat) : Queue := sget Queue.init p.queues q

/-- Replaces a queue. -/
def Partition.setQueue (p : Partition) (q : Nat) (x : Queue) : Partition := { p with queues := sput Queue.init p.queues q x }


/-- The 64 bytes of a committed journal entry (19 R375). -/
def Partition.entryBytes (p : Partition) (op queue slot status : Nat) (cmd : Option Cmd) : List Byte :=
  let q := p.queue queue
  let ofQueue := fun (n : Nat) => if queue = 255 then 0 else n
  let ofCmd := fun (f : Cmd → Nat) => (cmd.map f).getD 0
  toBytes 8 p.jseq ++ toBytes 1 op ++ toBytes 1 queue ++ toBytes 1 slot ++ [0] ++ toBytes 2 (ofQueue q.head.toNat) ++
    toBytes 2 (ofQueue q.tail.toNat) ++ toBytes 4 status ++ toBytes 12 0 ++ toBytes 8 (ofCmd Cmd.compl) ++
    toBytes 8 (ofCmd (fun c => c.cookie.toNat)) ++ toBytes 2 (ofCmd Cmd.seq) ++ toBytes 6 0 ++ toBytes 8 p.jseq

/-- Writes bytes into a core's memory; the tags of their granules are cleared (17 R327). -/
def Core.putMem (k : Core) (a : Nat) (bs : List Byte) : Core :=
  { k with mem := { k.mem with
      sp := writeBytes k.mem.sp a bs, tags := sclear k.mem.tags (a / 16) ((a + bs.length + 15) / 16 - a / 16) } }

/-- The active keeper core writes and commits a journal entry in the SRAM of the basin that leads the partition, as one event, behind
those that its firmware has committed; while that keeper is being taken over there is none to write (19 R375, R377). Log: DEDUCED
118. -/
def State.note (s : State) (part op queue slot status : Nat) (cmd : Option Cmd) : State :=
  match s.part part with
  | some p =>
    if p.holding then s
    else
      let n := s.nextEntry p
      (s.modCore (256 + 2 * p.basins.headD 0) (fun k =>
        k.putMem (journalAt n) ({ p with jseq := n }.entryBytes op queue slot status cmd))).setPart part
          { p with jseq := n + 1, soft := p.soft ++ s.softEntries p }
  | none => s

/-- Classes of a completion (16 R306). -/
def clComplete : Nat := 0
def clRefused : Nat := 1
def clStopped : Nat := 2
def clInvalid : Nat := 3

/-- The 16 bytes of a completion record (16 R306). -/
def completionBytes (cmd : Cmd) (cls detail : Nat) : List Byte :=
  toBytes 2 cmd.seq ++ toBytes 1 cls ++ toBytes 1 0 ++ toBytes 4 detail ++ toBytes 8 cmd.cookie.toNat

/-- The keeper writes a completion that it owes, and journals it as written (19 R375). -/
def writeOwed (s : State) (part : Nat) (p : Partition) (cmd : Cmd) (cls detail : Nat) : State :=
  (s.putHost part (s.activeKeeper (p.basins.headD 0)) cmd.compl (completionBytes cmd cls detail)).note part 13 cmd.queue 255
    (cls * 2 ^ 24 + detail) (some cmd)

/-- The keeper owes a completion and writes it (19 R375). -/
def writeCompletion (s : State) (part : Nat) (p : Partition) (cmd : Cmd) (cls detail : Nat) : State :=
  writeOwed (s.note part 12 cmd.queue 255 (cls * 2 ^ 24 + detail) (some cmd)) part p cmd cls detail

/-- A completion, written, or held back during a take-over (19 R375, R377). -/
def complete (s : State) (part : Nat) (cmd : Cmd) (cls detail : Nat) : State :=
  match s.part part with
  | some p =>
    if p.holding then s.setPart part { p with heldItems := p.heldItems ++ [(cmd, cls, detail)] }
    else writeCompletion s part p cmd cls detail
  | none => s

/-- Pays tokens one granule at a time, as many as can be paid, `k` being paid already (16 R311). -/
def payGranules (s : State) (part : Nat) : Nat → Nat → State × Nat
  | 0, k => (s, k)
  | n + 1, k => match payTokens s part false 1 with
    | some s1 => payGranules s1 part n (k + 1)
    | none => (s, k)

/-- The tokens of the keeper's host traffic, one for each granule; what has been paid stays paid while the rest waits, and the
answer says whether all is paid (16 R310, R311). Log: DEDUCED 71. -/
def payKeeper (s : State) (part n : Nat) : State × Bool :=
  match s.part part with
  | some p =>
    let x := payGranules s part (n - p.prepaid) p.prepaid
    (x.1.modPart part (fun p => { p with prepaid := if x.2 < n then x.2 else x.2 - n }), decide (n ≤ x.2))
  | none => (s, false)

/-- Goes on once the keeper's tokens are paid. -/
def whenPaid (s : State) (part n : Nat) (go : State → State) : State :=
  let x := payKeeper s part n
  if x.2 then go x.1 else x.1

/-- A completion of a scrub: its host token is paid at once, or the completion waits for it (16 R310, R311). -/
def completeOwed (s : State) (part : Nat) (cmd : Cmd) (cls detail : Nat) : State :=
  let x := payKeeper s part 1
  if x.2 then complete x.1 part cmd cls detail
  else x.1.modPart part (fun p => { p with owed := p.owed ++ [(cmd, cls, detail)] })

/-- The first completion that waits for its token goes out, where the token can be paid. -/
def payOwed (s : State) (part : Nat) : State :=
  match s.part part with
  | some p => match p.owed with
    | [] => s
    | x :: rest =>
      whenPaid s part 1 (fun s => complete (s.modPart part (fun p => { p with owed := rest })) part x.1 x.2.1 x.2.2)
  | none => s

/-! The queue page (16 R303, R304). -/

/-- A queue configuration that may be enabled. -/
def Queue.valid (q : Queue) : Bool :=
  q.base % 4096 == 0 && (List.range 9).any (fun i => q.size == 16 * 2 ^ i) && q.cls ≤ 2

/-- An FLR of the partition's VF is accepted at this tick and has still to take effect (19 R381). -/
def flrDue (s : State) (part : Nat) : Bool :=
  s.agenda.any (fun e => e.1 ≤ s.tick && (match e.2 with
    | .flr n => n == part
    | _ => false))

/-- HOST_QUEUE_NOTIFY: the latch takes the tail in its tick and sets the kick bit, or finds an overrun, whatever enable says; the
keeper takes note of it, or finds it by the re-scan of a take-over (24 R408). One that arrives at the acceptance tick of an FLR, before
the FLR or after it in the agenda, is dropped and logged (16 R304, 19 R375, R376, R381). Log: DEDUCED 70. -/
def execHostQueueNotify (part q : Nat) (tail : BitVec 16) (writes : List (Nat × Byte)) (s : State) : Ans State :=
  let s1 := s.hostWrites part writes
  .next (match s1.part part with
    | some p =>
      let x := p.queue q
      if 15 < q then s1
      else if p.flrAt = some s.tick || flrDue s part then s1.log (s1.keeperSource p) evNotifyDropped 0 0 0 0 part q
      else if x.size < (tail - x.head).toNat then s1.setPart part (p.setQueue q { x with err := 1, enable := false })
      else (s1.setPart part (p.setQueue q { x with tail := tail, kick := true })).note part 1 q 255 0 none
    | none => s1)

/-- QUEUE_ENABLE_WRITE: bits 7:1 must be zero; an invalid queue stays disabled with err 2 (16 R303). Log: DEDUCED 70. -/
def execQueueEnableWrite (part q : Nat) (v : Byte) (s : State) : Ans State :=
  .next (match s.part part with
    | some p =>
      let x := p.queue q
      if 15 < q ∨ 1 < v.toNat then s
      else if v = 0 then s.setPart part (p.setQueue q { x with enable := false })
      else if x.valid then s.setPart part (p.setQueue q { x with enable := true })
      else s.setPart part (p.setQueue q { x with enable := false, err := 2 })
    | none => s)

/-- QUEUE_ERR_CLEAR (16 R303). -/
def execQueueErrClear (part q : Nat) (s : State) : Ans State :=
  .next (s.modPart part (fun p => if 15 < q then p else p.setQueue q { p.queue q with err := 0 }))

/-- QUEUE_PAGE_WRITE: base, size and class change only while the queue is disabled (16 R303). -/
def execQueuePageWrite (part q : Nat) (field : QueueField) (v : Word) (s : State) : Ans State :=
  .next (s.modPart part (fun p =>
    let x := p.queue q
    if 15 < q ∨ x.enable then p
    else
      match field with
      | .base => p.setQueue q { x with base := v.toNat }
      | .size => p.setQueue q { x with size := v.toNat % 2 ^ 16 }
      | .cls => p.setQueue q { x with cls := v.toNat % 2 ^ 8 }))

/-! The image (03 R67-R71). -/

/-- A timetable image as bytes. -/
abbrev Image := List Byte

/-- n bytes of an image from an offset, as a number. -/
def Image.num (m : Image) (off n : Nat) : Nat := ofBytes ((m.drop off).take n)

/-- n bytes of an image. -/
def Image.slice (m : Image) (off n : Nat) : List Byte := (m.drop off).take n

/-- The whole image of a launch; none where it cannot be read. Log: DEDUCED 73. -/
def readImage (s : State) (part image : Nat) : Option Image :=
  match readSpace s part image 64 with
  | some h => readSpace s part image (max 64 (Image.num h 0x38 4))
  | none => none

/-- A read of an image as its memory controller logs it (18 R345). -/
def logImage (s : State) (part image : Nat) : State :=
  match readSpace s part image 64 with
  | some h => logSpace s part image (max 64 (Image.num h 0x38 4))
  | none => logSpace s part image 64

def Image.pace (m : Image) : Nat := m.num 0x06 1
def Image.tasks (m : Image) : Nat := m.num 0x08 2
def Image.groups (m : Image) : Nat := m.num 0x0A 2
def Image.windows (m : Image) : Nat := m.num 0x0C 2
def Image.formats (m : Image) : Nat := m.num 0x0E 1
def Image.taskOff (m : Image) (k : Nat) : Nat := m.num 0x10 4 + 32 * k
def Image.groupOff (m : Image) (k : Nat) : Nat := m.num 0x14 4 + 8 * k
def Image.windowOff (m : Image) (k : Nat) : Nat := m.num 0x18 4 + 64 * k
def Image.formatOff (m : Image) (k : Nat) : Nat := m.num 0x1C 4 + 8 * k
def Image.rate (m : Image) (p : Nat) : Nat := m.num 0x20 16 / 2 ^ (4 * p) % 16
def Image.features (m : Image) : Nat := m.num 0x30 8
def Image.length (m : Image) : Nat := m.num 0x38 4

/-- A table of n entries of a size lies in the image on an 8-byte boundary; an empty one has offset 0. -/
def Image.tableOk (m : Image) (off n size : Nat) : Bool :=
  if n = 0 then off == 0 else off % 8 == 0 && decide (off + n * size ≤ m.length)

/-- The header is well formed (03 R67). -/
def Image.headerOk (m : Image) : Bool :=
  m.num 0 4 == 0xA4800717 && m.num 4 2 == 1 && (m.pace == 1 || m.pace == 2 || m.pace == 4) && m.num 7 1 == 0 &&
    1 ≤ m.tasks && m.tasks ≤ 256 && m.groups ≤ 255 && m.windows ≤ 1024 && m.num 0x0F 1 == 0 && m.num 0x3C 4 == 0 &&
    64 ≤ m.length && m.tableOk (m.num 0x10 4) m.tasks 32 && m.tableOk (m.num 0x14 4) m.groups 8 &&
    m.tableOk (m.num 0x18 4) m.windows 64 && m.tableOk (m.num 0x1C 4) m.formats 8 &&
    (List.range 32).all (fun p => m.rate p ≤ 4)

/-- A segment descriptor (03 R69). -/
structure Segment where
  kind : Nat
  target : Nat
  dest : Nat
  len : Nat
  data : Nat
  deriving DecidableEq, Repr

/-- Segment i of task k. -/
def Image.segment (m : Image) (k i : Nat) : Segment :=
  let o := m.num (m.taskOff k + 0x18) 4 + 16 * i
  Segment.mk (m.num o 1) (m.num (o + 1) 1) (m.num (o + 4) 4) (m.num (o + 8) 4) (m.num (o + 12) 4)

/-- How many segments task k has. -/
def Image.segCount (m : Image) (k : Nat) : Nat := m.num (m.taskOff k + 0x1C) 2

/-- The segments of task k. -/
def Image.segments (m : Image) (k : Nat) : List Segment := (List.range (m.segCount k)).map (m.segment k)

/-- Bytes of the image that a segment takes: scratchpad lines are followed by their labels. -/
def Segment.size (g : Segment) : Nat := if g.kind = 2 then g.len + g.len / 32 else g.len

/-- Unit of a segment's length, by kind. -/
def Segment.unit (g : Segment) : Nat :=
  match g.kind with
  | 0 => 32
  | 1 => 16
  | 2 => 64
  | 3 => 256
  | _ => 64

/-- A segment descriptor is well formed, `o` being its offset; a reach table, like every table, lies on an 8-byte boundary, and the
format registers of a kind 4 segment have bits 63:32 zero (00 R8, 03 R69-R72, 04 R84). -/
def Image.segOk (m : Image) (o : Nat) (g : Segment) : Bool :=
  m.num (o + 2) 2 == 0 && g.kind ≤ 4 && (if g.kind = 3 then g.target ≤ 3 else g.target == 0) &&
    g.len % g.unit == 0 && (g.kind != 4 || (g.len == 64 && (List.range 8).all (fun i => m.num (g.data + 8 * i + 4) 4 == 0))) &&
    (g.kind != 1 || g.data % 8 == 0) && g.data + g.size ≤ m.length &&
    (match g.kind with
     | 0 => g.dest + g.len / 32 ≤ 16384
     | 2 => g.dest % 64 == 0 && g.dest + g.len ≤ 2 ^ 21
     | 3 => g.dest % 256 == 0 && g.dest + g.len ≤ 65536
     | _ => g.dest == 0)

/-- The range of a segment in the store it is loaded into, with a number for the store. -/
def Segment.range (g : Segment) : Nat × Nat × Nat :=
  match g.kind with
  | 0 => (0, 32 * g.dest, g.len)
  | 2 => (1, g.dest, g.len)
  | 3 => (2 + g.target, g.dest, g.len)
  | n => (16 + n, 0, 1)

/-- No two ranges of a list meet. -/
def rangesApart : List (Nat × Nat × Nat) → Bool
  | [] => true
  | r :: rs => rs.all (fun x => !rangesMeet r x) && rangesApart rs

/-- Entry i of a reach table whose data lies at `off` (03 R70). -/
def Image.reach (m : Image) (off i : Nat) : Reach :=
  Reach.mk (m.num (off + 16 * i) 2) (m.num (off + 16 * i + 4) 4) (m.num (off + 16 * i + 8) 8)

/-- The reaches of a reach-table segment. -/
def Image.reaches (m : Image) (g : Segment) : List Reach := (List.range (g.len / 16)).map (m.reach g.data)

/-- The reach table of task k. -/
def Image.reachTable (m : Image) (k : Nat) : List Reach :=
  match (m.segments k).find? (fun g => g.kind == 1) with
  | some g => m.reaches g
  | none => []

/-- Slot i of the groups of task k. -/
def Image.slotWord (m : Image) (k i : Nat) : Nat := m.num (m.taskOff k + 8 + 2 * i) 2

/-- The declared groups a task names. -/
def Image.taskGroups (m : Image) (k : Nat) : List Nat :=
  ((List.range 4).filter (fun i => bitOf (m.slotWord k i) 15)).map (fun i => m.slotWord k i % 256)

/-- The tile of task k: its core id. -/
def Image.tile (m : Image) (k : Nat) : Nat := m.num (m.taskOff k) 1

/-- The butty entry of task k. -/
def Image.buttyEntry (m : Image) (k : Nat) : Option Nat :=
  let n := m.num (m.taskOff k + 4) 2
  if n = 0xFFFF then none else some n

/-- Task k as it is launched at T0. -/
def Image.task (m : Image) (t0 k : Nat) : Task :=
  { core := m.tile k, motorEntry := m.num (m.taskOff k + 2) 2, buttyEntry := m.buttyEntry k, groups := m.taskGroups k
    offset := m.num (m.taskOff k + 0x10) 8, start := t0 + m.num (m.taskOff k + 0x10) 8, reaches := m.reachTable k }

/-- Group numbers that are declared. -/
def Image.groupNums (m : Image) : List Nat := (List.range m.groups).map (fun i => m.num (m.groupOff i) 1)

/-- What an image is held to when it is read: the tile cores that are unavailable, and the longest reach in ticks, none where the launch
has been held to it already (14 R275). -/
structure Limits where
  unavail : Nat
  reach : Option Nat
  deriving DecidableEq, Repr

/-- A reach of n ticks is within the limit. -/
def Limits.allows (l : Limits) (n : Nat) : Bool :=
  match l.reach with
  | some k => n ≤ k
  | none => true

/-- An image that a launch has been held to already: it is read again for its form alone (14 R275, R285, 16 R316). -/
def Limits.again : Limits := Limits.mk 0 none

/-- A task entry is well formed (03 R68, R70, R72); a reach of length 0 is none, and an entry or a reach's first bundle above 16,383
is none. Log: DESIGN CHOICE 128. -/
def Image.taskOk (m : Image) (p : Partition) (l : Limits) (k : Nat) : Bool :=
  let o := m.taskOff k
  let segs := m.segments k
  let so := m.num (o + 0x18) 4
  m.num (o + 1) 1 == 0 && m.num (o + 6) 2 == 0 && m.num (o + 0x1E) 2 == 0 &&
    p.basins.contains (m.tile k / 64) && !bitOf l.unavail (m.tile k) && m.num (o + 2) 2 ≤ 16383 &&
    (match m.buttyEntry k with
     | some n => n ≤ 16383
     | none => true) &&
    (List.range 4).all (fun i => bitsOf (m.slotWord k i) 14 8 == 0) &&
    (m.taskGroups k).all (fun g => g != 0 && m.groupNums.contains g) && decide (m.taskGroups k).Nodup &&
    m.num (o + 0x10) 8 % m.pace == 0 && 1 ≤ m.segCount k && so % 8 == 0 && so + 16 * m.segCount k ≤ m.length &&
    (List.range (m.segCount k)).all (fun i => m.segOk (so + 16 * i) (m.segment k i)) &&
    segs.countP (fun g => g.kind == 1) == 1 && segs.countP (fun g => g.kind == 4) ≤ 1 &&
    rangesApart ((segs.filter (fun g => g.len != 0)).map Segment.range) && !(m.reachTable k).isEmpty &&
    (segs.filter (fun g => g.kind == 1)).all (fun g =>
      (List.range (g.len / 16)).all (fun i => m.num (g.data + 16 * i + 2) 2 == 0)) &&
    (m.reachTable k).all (fun r => r.first ≤ 16383 && 1 ≤ r.len && l.allows (r.len * m.pace))

/-- Tasks that name a group. -/
def Image.members (m : Image) (g : Nat) : List Nat :=
  ((List.range m.tasks).filter (fun k => (m.taskGroups k).contains g)).map m.tile

/-- A group declaration is well formed: 1–256 members (03 R71, R72, 11 R216). -/
def Image.groupOk (m : Image) (i : Nat) : Bool :=
  let o := m.groupOff i
  m.num o 1 != 0 && m.num (o + 1) 1 == 0 && 1 ≤ m.num (o + 2) 2 && m.num (o + 2) 2 ≤ 256 &&
    m.num (o + 2) 2 == (m.members (m.num o 1)).length

/-- The format table that an image declares (04 R87). -/
def Image.formatTable (m : Image) : Store (BitVec 32) :=
  (List.range m.formats).foldl (fun t i =>
    sput 0 t (m.num (m.formatOff i) 1) (BitVec.ofNat 32 (m.num (m.formatOff i + 4) 4))) []

/-- The format entries are well formed: an index names one entry, and scidx an entry that is not empty (04 R87). -/
def Image.formatsOk (m : Image) : Bool :=
  (List.range m.formats).all (fun i =>
    m.num (m.formatOff i) 1 != 0 && m.num (m.formatOff i + 1) 3 == 0 &&
      entryValid m.formatTable (BitVec.ofNat 32 (m.num (m.formatOff i + 4) 4))) &&
    decide ((List.range m.formats).map (fun i => m.num (m.formatOff i) 1)).Nodup

/-- The image breaks a rule of 03 R72: TIMETABLE_INVALID; so does a group number declared twice, and an image that does not lie at
a multiple of 64 (16 R305). Log: DEDUCED 72; DESIGN CHOICE 128. -/
def imageBad (p : Partition) (l : Limits) (image : Nat) (m : Image) : Bool :=
  image % 64 != 0 || !m.headerOk || p.csr.fwinCount < m.windows ||
    !((List.range m.tasks).all (fun k => m.taskOk p l k)) || !decide ((List.range m.tasks).map m.tile).Nodup ||
    !((List.range m.groups).all m.groupOk) || !decide m.groupNums.Nodup || !m.formatsOk

/-- A port state meets a rate class (13 R247). -/
def meetsClass (st cls : Nat) : Bool :=
  cls == 0 || (cls == 1 && st != 0) || (cls == 2 && 2 ≤ st) || ((cls == 3 || cls == 4) && st == 4)

/-- A declared class is above the rate of its port. -/
def rateUnmet (s : State) (m : Image) : Bool :=
  (List.range 32).any (fun p => !meetsClass (sget Port.down s.ports p).state (m.rate p))

/-! Windows (13 R252, R253). -/

/-- Window entry i of an image breaks a rule of 13 R253; an unused entry has no byte that is not zero. Log: DEDUCED 74; DESIGN CHOICE
143. -/
def windowBad (s : State) (p : Partition) (m : Image) (i : Nat) : Bool :=
  let o := m.windowOff i
  let n := fun (a b : Nat) => m.num (o + a) b
  let dir := n 0 1
  let opts := n 2 1
  let peer := n 4 1
  let loop := bitOf opts 0
  let base := n 0x10 4
  let len := n 0x14 4
  let spare := n 3 1 != 0 || n 5 1 != 0 || n 9 1 != 0 || n 0x0E 2 != 0 || n 0x1A 38 != 0 || bitsOf opts 7 5 != 0
  let place := !p.basins.contains (n 8 1 / 64) || base % 64 != 0 || len % 64 != 0 || len < 64 || 2 ^ 21 < len ||
    2 ^ 21 < base + len
  if dir = 0 then n 0 64 != 0
  else if dir = 1 then
    spare || place || n 1 1 != 0 || bitsOf opts 2 1 == 3 || bitsOf opts 4 3 == 3 || 127 < peer || 1023 < n 6 2 ||
      n 0x0A 2 != 0 || n 0x0C 2 != 0 || (loop != (peer == s.position)) ||
      ((p.binding (n 0x18 2)).isNone && !(loop && n 0x18 2 == 0))
  else if dir = 2 then
    spare || place || 3 < n 1 1 || bitsOf opts 2 0 != 0 || bitsOf opts 4 3 == 3 || (127 < peer && peer != 255) ||
      n 6 2 != 0 || 1023 < n 0x0A 2 || n 0x0C 2 == 0 || n 0x18 2 != 0 || (n 1 1 != 0 && bitsOf opts 4 3 != 0)
  else true

/-- The window entry of an image as the table holds it: the peer window mapped through the peer's wbase (13 R253).
Log: DEDUCED 74. -/
def windowBytes (p : Partition) (m : Image) (i : Nat) : List Byte :=
  let b := m.slice (m.windowOff i) 64
  if Image.num b 0 1 = 1 then
    let wb := if bitOf (Image.num b 2 1) 0 then p.csr.fwinBase
      else match p.binding (Image.num b 0x18 2) with
        | some x => x.wbase
        | none => 0
    b.take 6 ++ toBytes 2 (wb + Image.num b 6 2) ++ b.drop 8
  else b

/-- Writes the windows of a timetable into the partition's span of the table; their status starts anew. -/
def loadWindows (s : State) (p : Partition) (m : Image) : Nat → State
  | 0 => s
  | n + 1 =>
    let s1 := loadWindows s p m n
    let e := p.csr.fwinBase + n
    { s1 with
      windows := writeBytes (sclear s1.windows (64 * e) 64) (64 * e) (windowBytes p m n)
      wstat := sput WStat.init s1.wstat e WStat.init }

/-- Frees the receive entries among n entries from `first` (15 R299, 19 R374). -/
def freeReceive (s : State) (first : Nat) : Nat → State
  | 0 => s
  | n + 1 =>
    let s1 := freeReceive s first n
    if s1.winDir (first + n) = 2 then { s1 with windows := sclear s1.windows (64 * (first + n)) 64 } else s1

/-! Cores at launch (14 R266, R267; 17 R329). -/

/-- The capability registers of a task (17 R329). -/
def taskCaps (p : Partition) (c : Nat) : Store Cap :=
  let h := c % 8
  let ss := (if p.csr.taskcap.getLsbD 0 then pSeal else 0) + (if p.csr.taskcap.getLsbD 1 then pScrub else 0)
  let rw := pRead + pWrite + pLabel + pDerive
  let mk := fun (space perm len base : Nat) => Cap.make space perm h len base
  [(0, mk 0 (rw + pHand + ss) (2 ^ 21) 0), (1, mk 2 (pRead + pWrite + pDerive) 4096 0), (2, mk 3 (rw + ss) (2 ^ 48) 0),
   (3, { mk 4 rw (2 ^ 48) 0 with tag := p.csr.taskcap.getLsbD 2 }), (4, mk 1 (rw + pHand) (2 ^ 24) 0),
   (5, mk 6 rw (2 ^ 21) 0), (6, mk 5 (pRead + pGlobal + pDerive) p.csr.fwinCount p.csr.fwinBase),
   (7, { mk 7 ss 0 0xFFF with tag := ss != 0 })]

/-- GMEMB of a task (11 R217). -/
def Image.gmemb (m : Image) (k : Nat) : Word := BitVec.ofNat 64 (m.num (m.taskOff k + 8) 8)

/-- Loads a segment into a core (03 R69, 06 R113); format registers take their descriptors as given, and one that is not valid faults
where the register is used (04 R84). Log: DEDUCED 129. -/
def loadSegment (m : Image) (k : Core) (g : Segment) : Core :=
  let data := m.slice g.data g.len
  match g.kind with
  | 0 => { k with mem := { k.mem with bundles := writeBytes k.mem.bundles (32 * g.dest) data } }
  | 2 =>
    { k with mem := { k.mem with
      sp := writeBytes k.mem.sp g.dest data
      labels := (List.range (g.len / 64)).foldl (fun t i =>
        sput 0 t (g.dest / 64 + i) (BitVec.ofNat 16 (m.num (g.data + g.len + 2 * i) 2))) k.mem.labels } }
  | 3 => { k with press := { k.press with codes := writeBytes k.press.codes (65536 * g.target + g.dest) data } }
  | 4 =>
    let f := (List.range 8).foldl (fun t i => sput 0 t i (BitVec.ofNat 64 (m.num (g.data + 8 * i) 8))) k.regs.f
    { k with regs := { k.regs with f := f } }
  | _ => k

/-- The core of task k, loaded and armed. Its TLB keeps the partition's translations. -/
def taskCore (p : Partition) (m : Image) (t0 k : Nat) (old : Core) : Core :=
  let t := m.task t0 k
  let c0 : Core := { Core.init with
    regs := { Regs.init with c := taskCaps p t.core }
    csr := { CoreCsr.init with gmemb := m.gmemb k }
    motor := { Stream.init with st := .armed, pc := t.motorEntry, nextAt := t.start }
    butty := match t.buttyEntry with
      | some n => { Stream.init with st := .armed, pc := n, nextAt := t.start }
      | none => Stream.init
    tlb := old.tlb
    seq := old.seq }
  (m.segments k).foldl (loadSegment m) c0

/-- Loads and arms tasks 0 to n−1. Log: DEDUCED 72. -/
def armTasks (s : State) (p : Partition) (m : Image) (t0 : Nat) : Nat → State
  | 0 => s
  | n + 1 => (armTasks s p m t0 n).modCore (m.tile n) (taskCore p m t0 n)

/-- A bit set of core ids. -/
def coreSet (l : List Nat) : Nat := l.foldl (fun n c => n ||| 2 ^ c) 0

/-- The group table of a launch: group 0 of every task, then the declared groups (11 R216). -/
def Image.groupTable (m : Image) : List Group :=
  let mk := fun (n : Nat) (ms : List Nat) (pat : Nat) => Group.mk n ms.length 0 0 0 pat (coreSet ms) 0 [] 0
  mk 0 ((List.range m.tasks).map m.tile) 0 ::
    (List.range m.groups).map (fun i =>
      mk (m.num (m.groupOff i) 1) (m.members (m.num (m.groupOff i) 1)) (m.num (m.groupOff i + 4) 4))

/-! Launch (14 R264-R266, 16 R309). -/

/-- Half-even rounding of t / 4, times 4 (14 R266). -/
def nearest4 (t : Nat) : Nat :=
  let q := t / 4
  4 * (if t % 4 < 2 ∨ (t % 4 = 2 ∧ q % 2 = 0) then q else q + 1)

/-- The tick at which a TAI instant falls by the servo's mapping; `servo` is what the servo says where it says anything.
Log: DESIGN CHOICE 14. -/
def tickOfTai (s : State) (servo : Option Nat) (when_ : Nat) : Nat :=
  servo.getD (3 * (when_ - s.towpath.taiBase))

/-- T0 of a launch that commits now (14 R266). -/
def launchT0 (s : State) (cmd : Cmd) (servo : Option Nat) : Nat :=
  if cmd.start = 0 then ceilTo (s.tick + 1200) 4 else nearest4 (tickOfTai s servo cmd.start)

/-- A group-table entry breaks 11 R216: its counts disagree, or its map names a core outside the partition. -/
def groupBad (p : Partition) (g : Group) : Bool :=
  g.members == 0 || decide (256 < g.members) || g.members != ((List.range 256).filter (bitOf g.map)).length ||
    (List.range 256).any (fun c => bitOf g.map c && !p.basins.contains (c / 64))

/-- The status of the refusal of a launch: the first row of 14 R265 whose cause holds. Every island of the partition counts as one
of the launch's; a reserved bit of the feature mask is a feature that no core has. Log: DEDUCED 73; DESIGN CHOICE 130, 147. -/
def launchRefusal (s : State) (p : Partition) (cmd : Cmd) (img : Option Image) (servo : Option Nat) : Option Nat :=
  if p.tdi ≠ .run then some stTdiNotRun
  else if p.basins.any (bitOf s.tripped) then some stThermal
  else
    match img with
    | none => some stImageUnreadable
    | some m =>
      if imageBad p (Limits.mk s.unavail (some p.csr.reachlim)) cmd.image m then some stTtInvalid
      else if rateUnmet s m then some stRateClass
      else if m.groupTable.any (groupBad p) then some stGroupInvalid
      else if (List.range m.windows).any (windowBad s p m) then some stWindowInvalid
      else if m.features &&& featuresOf 0 ≠ m.features then some stFeature
      else if !s.svc.getLsbD 0 && (m.pace != 4 || !p.basins.all (fun b => s.svc.getLsbD (4 + b))) then some stReduced
      else if m.pace = 1 && p.clusters.any (bitOf s.limited) then some stPowerLimited
      else if p.basins.any (fun b => !s.cellar.up.getLsbD (2 * b) || !s.cellar.up.getLsbD (2 * b + 1)) then some stStackUnavail
      else if cmd.start ≠ 0 && s.towpath.tstate != 2 then some stTimeUnlocked
      else if launchT0 s cmd servo < s.tick + 1200 then some stLaunchLate
      else none

/-- The timetable of a launch. -/
def launchTimetable (cmd : Cmd) (cls t0 : Nat) (m : Image) : Timetable :=
  { cmd := cmd, cls := cls, pace := m.pace, armed := true, t0 := t0, tasks := (List.range m.tasks).map (m.task t0)
    groups := m.groupTable, featureMask := m.features, windows := m.windows, hold := none, held := 0, timedOut := false
    dry := [], stop := none, stopped := false, timeouts := 0, poisoned := false, incs := [], pre := 0, heldArr := [] }

/-- An accepted launch: windows and format table loaded, islands set, every hand table emptied, every core loaded and armed (14 R266,
17 R338). -/
def armLaunch (s : State) (part : Nat) (p : Partition) (cmd : Cmd) (m : Image) (t0 : Nat) : State :=
  let tt := launchTimetable cmd (p.queue cmd.queue).cls t0 m
  let s1 := (armTasks (freePartHands (loadWindows s p m m.windows) part p) p m t0 m.tasks).settlePart part m.pace
  (s1.modPart part (fun p => { p with fmts := m.formatTable, tt := some tt, taken := none })).note part 3 cmd.queue 255 0
    (some cmd)

/-- LAUNCH_COMMIT: the image that the keeper has taken is loaded and armed, or the launch is refused (14 R264-R266). `servo`
is the tick that the servo's mapping gives for an absolute start. While the keeper is being taken over nothing is committed (19 R377).
Log: DEDUCED 72. -/
def execLaunchCommit (part : Nat) (servo : Option Nat) (s : State) : Ans State :=
  .next (match s.part part with
    | some p => match if p.holding then none else p.taken with
      | some cmd =>
        let img := readImage s part cmd.image
        match launchRefusal s p cmd img servo, img with
        | none, some m => armLaunch s part p cmd m (launchT0 s cmd servo)
        | some st, _ =>
          whenPaid s part 1 (fun s1 =>
            complete (((logImage s1 part cmd.image).modPart part (fun p => { p with taken := none })).note part 4 cmd.queue 255 st
              (some cmd)) part cmd clRefused st)
        | none, none => s
      | none => s
    | none => s)

/-- A task armed for a tick that has come. -/
def Core.startsNow (k : Core) (tick : Nat) : Bool := k.motor.st == .armed && k.motor.nextAt ≤ tick

/-- TASK_START: reach 0 begins (14 R269). -/
def execTaskStart (core : Nat) (s : State) : Ans State :=
  .next (if (s.core core).startsNow s.tick then
      s.modCore core (fun k =>
        { k with
          motor := { k.motor with st := .run }
          butty := if k.butty.st = .armed then { k.butty with st := .run } else k.butty
          reachix := 0
          reachtick := k.motor.nextAt })
    else s)

/-! Selection (16 R305, R307). -/

/-- The head entry of a queue: 64 bytes of the partition's host memory. -/
def headEntry (s : State) (part : Nat) (q : Queue) : List Byte :=
  readBytes (s.hostMem part) (q.base + 64 * (q.head.toNat % q.size)) 64

/-- A command entry as the keeper takes it (16 R305). -/
def cmdOf (q : Nat) (b : List Byte) : Cmd :=
  { queue := q, op := Image.num b 0 1, seq := Image.num b 2 2, image := Image.num b 8 8, start := Image.num b 0x10 8
    compl := Image.num b 0x18 8, cookie := BitVec.ofNat 64 (Image.num b 0x20 8) }

/-- A reserved op or a nonzero reserved field (16 R305). -/
def cmdBad (b : List Byte) : Bool :=
  (Image.num b 0 1 != 1 && Image.num b 0 1 != 2) || Image.num b 1 1 != 0 || Image.num b 4 4 != 0 || Image.num b 0x28 24 != 0

/-- Contexts that are suspended, with their slots. -/
def Partition.contexts (p : Partition) : List (Nat × Ctx) := p.ctxs.filterMap (fun x => x.2.map (fun y => (x.1, y)))

/-- The lowest slot with an eligible context of a queue (16 R316). -/
def Partition.eligibleCtx (p : Partition) (q : Nat) : Option Nat :=
  (p.contexts.find? (fun x => x.2.eligible && x.2.tt.cmd.queue == q)).map (fun x => x.1)

/-- A suspended context holds window entries. -/
def Partition.windowsHeld (p : Partition) : Bool := p.contexts.any (fun x => x.2.tt.windows != 0)

/-- The head entry of a queue launches an image that declares windows. -/
def declaresWindows (s : State) (part q : Nat) (x : Queue) : Bool :=
  let b := headEntry s part x
  !cmdBad b && (cmdOf q b).op == 1 && (match readSpace s part (cmdOf q b).image 64 with
    | some h => Image.num h 0x0C 2 != 0
    | none => false)

/-- A queue that has something to select: an eligible context, or an entry that may be taken now. -/
def queuePending (s : State) (part : Nat) (p : Partition) (q : Nat) : Bool :=
  let x := p.queue q
  (p.eligibleCtx q).isSome ||
    (x.enable && x.tail != x.head && !(p.windowsHeld && declaresWindows s part q x))

/-- The queues of a class that are pending, in ascending order after the class's last, wrapping (16 R307). -/
def candidates (s : State) (part : Nat) (p : Partition) (cls : Nat) : List Nat :=
  let last := p.lastClass.getD cls 15
  ((List.range 16).map (fun i => (last + 1 + i) % 16)).filter (fun q => (p.queue q).cls == cls && queuePending s part p q)

/-- select(): class and queue (16 R307). -/
def selectQueue (s : State) (part : Nat) (p : Partition) : Option (Nat × Nat) :=
  [0, 1, 2].findSome? (fun cls => (candidates s part p cls).head?.map (fun q => (cls, q)))

/-- The keeper scans the kicked queues of a list: it journals each scan and then clears the kick bit (19 R375, R376). -/
def scanQueues (s : State) (part : Nat) : List Nat → State
  | [] => s
  | q :: qs =>
    scanQueues (match s.part part with
      | some p =>
        if (p.queue q).kick && !p.holding then
          (s.note part 5 q 255 0 none).modPart part (fun p => p.setQueue q { p.queue q with kick := false })
        else s
      | none => s) part qs

/-- Takes the head entry of a queue: a marker or an invalid entry completes at once; a launch goes on to be committed. -/
def takeEntry (s : State) (part q : Nat) (p : Partition) : State :=
  let x := p.queue q
  let b := headEntry s part x
  let cmd := cmdOf q b
  let p1 := { p.setQueue q { x with head := x.head + 1 } with
    taken := if !cmdBad b && cmd.op == 1 then some cmd else none }
  let s1 := (s.setPart part p1).note part 2 q 255 0 none
  if cmdBad b then complete s1 part cmd clInvalid 0 else if cmd.op = 2 then complete s1 part cmd clComplete 0 else s1

/-- The host tokens for taking the head entry of a queue: one for the entry, and one for a completion written at once.
Log: DEDUCED 71. -/
def takeTokens (s : State) (part : Nat) (p : Partition) (q : Nat) : Nat :=
  let b := headEntry s part (p.queue q)
  if !cmdBad b && (cmdOf q b).op == 1 then 1 else 2

/-- The keeper selects by class and turn, and takes an entry, which it journals as taken (24 R408), or chooses an eligible context (16
R307), whose selection it journals before (19 R375). Log: DESIGN CHOICE 89; DEDUCED 154. -/
def selectNext (s : State) (part : Nat) (p : Partition) : State :=
  match selectQueue s part p with
  | some (cls, q) =>
    let last := p.lastClass.set cls q
    match p.eligibleCtx q with
    | some slot =>
      ((s.setPart part { p with lastClass := last, chosen := some slot }).note part 11 q slot cls none).note part 2 q slot 0 none
    | none =>
      whenPaid s part (takeTokens s part p q) (fun s1 =>
        let s2 := s1.modPart part (fun y => { y with lastClass := last })
        match s2.part part with
        | some p2 => takeEntry s2 part q p2
        | none => s)
  | none => s

/-- SELECT_TIMETABLE: the keeper scans the queues that have been kicked, and where no timetable runs and none is being loaded or
restored it selects (16 R307, 19 R375, R376). Log: DESIGN CHOICE 89. -/
def execSelectTimetable (part : Nat) (s : State) : Ans State :=
  .next (match s.part part with
    | some p =>
      if p.holding then s
      else
        let s1 := scanQueues s part (List.range 16)
        match s1.part part with
        | some q => if q.tt.isSome || q.taken.isSome || q.chosen.isSome || q.lent.isSome then s1 else selectNext s1 part q
        | none => s1
    | none => s)

/-! Holds (14 R284, R285). -/

/-- A pre-emption point of a group 0 lock: a timeout, or some other queue of a higher class with every member arrived (16 R312); a
bottle that is asked for comes first (20 R390). -/
def preemptPoint (s : State) (part : Nat) (p : Partition) (t : Timetable) (g : Group) : Bool :=
  p.canPreempt && !bottleFirst s p t g &&
    ((t.timedOut && p.preempts t 0) ||
     (p.csr.prio && g.arrived == g.members &&
       (List.range t.cls).any (fun cls => (candidates s part p cls).any (fun q => q != t.cmd.queue))))

/-- The keeper may place a hold for a reason at a group 0 lock that has not opened. -/
def canHold (s : State) (part : Nat) (p : Partition) (t : Timetable) (why : HoldReason) : Bool :=
  t.armed && t.hold.isNone && t.stop.isNone && !p.holding && (match t.group 0 with
    | some g => g.waiting && 1 ≤ g.arrived && (match why with
      | .preempt => preemptPoint s part p t g
      | .bottle => g.arrived == g.members && !t.timedOut
      | _ => !t.timedOut)
    | none => false)

/-- Places a hold. -/
def placeHold (s : State) (part : Nat) (why : HoldReason) : State :=
  (s.modTt part (fun t => { t with hold := some (Hold.mk why s.tick), pre := if why = .preempt then 1 else t.pre })).note part 6
    255 255 0 none

/-- KEEPER_HOLD: the lock stays closed and butty streams halt until the release (14 R284). -/
def execKeeperHold (part : Nat) (why : HoldReason) (s : State) : Ans State :=
  .next (match s.part part with
    | some p => match p.tt with
      | some t => if canHold s part p t why then placeHold s part why else s
      | none => s
    | none => s)

/-- Rewrites the bundle memory of a task from its image (14 R285). -/
def reloadTask (m : Image) (k : Nat) (c : Core) : Core :=
  ((m.segments k).filter (fun g => g.kind == 0)).foldl (loadSegment m)
    { c with mem := { c.mem with bundles := [] } }

/-- Rewrites the bundle memories of a timetable's tasks, each on the core that it runs on (14 R285, 16 R316). -/
def reloadTasks (s : State) (m : Image) (tasks : List Task) : State :=
  tasks.zipIdx.foldl (fun s x => s.modCore x.1.core (reloadTask m x.2)) s

/-- What the keeper has done under a hold by its release: islands moved within their band (01 R29), or bundle memory reloaded
from the image (14 R285). An image that cannot be read, breaks a rule of 03 R72 by now, or is that of other tasks is refused whole: the
bundle memories stay as they are (00 R8). Log: DESIGN CHOICE 160. -/
def holdWork (s : State) (part : Nat) (t : Timetable) (why : HoldReason) : State :=
  match why with
  | .voltage => s.settlePart part t.pace
  | .reload => match s.part part, readImage s part t.cmd.image with
    | some p, some m =>
      if imageBad p Limits.again t.cmd.image m || m.tasks != t.tasks.length then s else reloadTasks s m t.tasks
    | _, _ => logImage s part t.cmd.image
  | _ => s

/-- Releases a hold: its time is added to the lock's deadline, and the lock is evaluated again (14 R279, R281).
Log: DEDUCED 75. -/
def releaseHold (s : State) (part : Nat) (h : Hold) : State :=
  (s.modTt part (fun t => { t with hold := none, held := t.held + (s.tick - h.since), pre := 0 })).note part 7 255 255 0 none

/-- KEEPER_HOLD_RELEASE: for a hold that no pre-emption has taken past its first step, under which no bottle is being written (14
R284, 20 R390), by a keeper that is not being taken over (19 R377). -/
def execKeeperHoldRelease (part : Nat) (s : State) : Ans State :=
  .next (match s.part part with
    | some p => match p.tt with
      | some t => match t.hold with
        | some h =>
          if t.pre ≤ 1 && p.bottle.isNone && !p.holding then releaseHold (holdWork s part t h.why) part h else s
        | none => s
      | none => s
    | none => s)

/-! The end of a timetable (15 R299, 19 R374). -/

/-- No access, rack, send, fence, arrival, cast or system operation of a core is outstanding. -/
def Core.quiet (k : Core) : Bool :=
  !k.latch.live && k.pend.isEmpty && !k.racks.any (fun r => r.2.live) && !k.sends.any (fun x => x.2.isSome) &&
    k.fences.isEmpty && k.sysops.isEmpty && k.garr.isEmpty && k.casts.isEmpty

/-- A core as its stopped clocks leave it: its system operations, casts and flits that still have to depart go no further. -/
def Core.frozen (k : Core) : Core :=
  { k with
    sysops := [], casts := []
    sends := k.sends.filter (fun x => !x.2.any (fun y => y.st == .booked || 0 < y.tail)) }

/-- Nothing of a core of a stopped timetable has still to end; in a basin that has tripped, nothing that can (01 R31, 19 R374).
Log: DESIGN CHOICE 170. -/
def State.stilled (s : State) (c : Nat) : Bool := if s.clockOff c then (s.core c).frozen.quiet else (s.core c).quiet

/-- A motor stream that has ended, with its butty stream. -/
def State.taskOver (s : State) (c : Nat) : Bool := s.taskEnded c && (s.core c).quiet

/-- The timetable leaves the partition: receive entries are freed, an open bottle is closed, islands rest, and the command is
completed. -/
def endTimetable (s : State) (part : Nat) (p : Partition) (t : Timetable) (cls detail : Nat) : State :=
  let s1 := (freeReceive s p.csr.fwinBase t.windows).leaveTiles part p
  let s2 := s1.modPart part (fun p =>
    { p with tt := none, bottle := none, csr := { p.csr with botOpen := false, bottling := false } })
  complete s2 part t.cmd cls detail

/-- TIMETABLE_COMPLETE: every task has ended and every operation with it (15 R299); a poisoned context reads STOPPED (19 R382).
-/
def execTimetableComplete (part : Nat) (s : State) : Ans State :=
  .next (match s.part part with
    | some p => match p.tt with
      | some t =>
        if t.armed && t.stop.isNone && t.incs.isEmpty && t.tasks.all (fun k => s.taskOver k.core) then
          whenPaid s part 1 (fun s1 =>
            if t.poisoned then endTimetable s1 part p t clStopped stCtxPoisoned else endTimetable s1 part p t clComplete 0)
        else s
      | none => s
    | none => s)

/-- A stream of a stopped timetable issues nothing more. -/
def Stream.haltFor (t : Stream) (status : Nat) : Stream :=
  match t.st with
  | .ended => t
  | .halted .. => t
  | .idle => t
  | _ => { t with st := .halted .fault status }

/-- Sends of which nothing has departed are withdrawn (19 R374). -/
def withdrawn (x : Option Send) : Bool :=
  match x with
  | some y => y.st == .booked && y.gone == 0
  | none => false

/-- A core of a stopped timetable: its streams halt, its racks are cancelled, its fences, monitors and arrivals end (19 R374).
-/
def Core.stopped (k : Core) (status : Nat) : Core :=
  { k with
    motor := k.motor.haltFor status
    butty := k.butty.haltFor status
    lock := none
    fwait := none
    racks := k.racks.map (fun r => (r.1, if r.2.live then { r.2 with cancel := true } else r.2))
    mons := []
    sends := k.sends.filter (fun x => !withdrawn x.2)
    fences := []
    garr := []
    calls := [] }

/-- The ids of a core's sends that a stop withdraws. -/
def Core.withdraws (k : Core) : List Nat := (k.sends.filter (fun x => withdrawn x.2)).map (fun x => x.1)

/-- The stop reaching a core: the guards of withdrawn sends go with them; their flits stay counted until their slots have passed, and the
credit and layby tokens of a withdrawn sendr stay taken (13 R258). Log: DESIGN CHOICE 132, 166. -/
def stopCore (s : State) (c status : Nat) : State :=
  let ids := (s.core c).withdraws
  let s1 := ids.foldl (fun s i => dropGuards s c false i) s
  { s1.modCore c (fun k => k.stopped status) with
    bookings := s1.bookings.map (fun b => if b.core = c ∧ ids.contains b.send ∧ b.part ≠ 0 then { b with done := true } else b) }

/-- The stop reaching every core of the timetable. -/
def stopCores (s : State) (status : Nat) : List Nat → State
  | [] => s
  | c :: cs => stopCores (stopCore s c status) status cs

/-- Arrivals that a port held for a pre-emption go back to their port, in arrival order (16 R314). -/
def State.unhold (s : State) (ts : List Transfer) : State :=
  { s with backlog := s.backlog ++ ts }

/-- First part of a stop: issue ends, group generations are discarded; arrivals that the port held land after all, and an open bottle
is closed (13 R263, 19 R374, 20 R396). -/
def haltTimetable (s : State) (part : Nat) (t : Timetable) (status : Nat) : State :=
  (((stopCores s status (t.tasks.map (fun k => k.core))).unhold t.heldArr).modPart part (fun p =>
    { p with bottle := none, csr := { p.csr with botOpen := false, bottling := false } })).modTt part (fun t =>
    { t with
      stopped := true, hold := none, incs := [], pre := 0, heldArr := []
      groups := t.groups.map (fun g => { g with arrived := 0, mode := 0, arrivals := 0, named := [], rebase := 0 }) })

/-- A butty stream of the timetable is halted with a status: the keeper may stop the timetable with it (19 R373).
Log: DEDUCED 59. -/
def haltedWith (s : State) (t : Timetable) (status : Nat) : Option Nat :=
  (t.tasks.find? (fun k => match (s.core k.core).butty.st with
    | .halted _ code => code == status
    | _ => false)).map (fun k => k.core)

/-- TIMETABLE_STOP: the keeper stops a timetable for a halted butty stream; a stopping event halts every core; and when the
last operation has ended the receive entries are freed and a completion of class STOPPED carries the status (19 R373, R374).
Log: DEDUCED 57. -/
def execTimetableStop (part status : Nat) (s : State) : Ans State :=
  .next (match s.part part with
    | some p => match p.tt with
      | some t => match t.stop with
        | none => match haltedWith s t status with
          | some c => s.stopTimetable part c false status
          | none => s
        | some e =>
          if e.2.2.2 ≠ status then s
          else if !t.stopped then haltTimetable s part t status
          else if t.tasks.all (fun k => s.stilled k.core) then
            whenPaid s part 1 (fun s1 => endTimetable s1 part p t clStopped status)
          else s
      | none => s
    | none => s)

end Sys2Proof.Machine
end

