-- ==== Sys2Proof/Machine/Frame.lean ====
section
/-! DEFINITION. Context frames (16 R315): a core written as 4 MiB of bytes, and read back. What a frame does not hold (which
kind of transfer is pending, the capabilities of a rack at its issue) comes from the core as it was saved. -/

namespace Sys2Proof.Machine

/-! Small encodings. -/

/-- A signed exponent as thirteen bits. -/
def exp13 (e : Int) : Nat := (e % 8192).toNat

/-- Thirteen bits as a signed exponent. -/
def ofExp13 (n : Nat) : Int := if n < 4096 then n else (n : Int) - 8192

/-- A scale word (16 R315). -/
def scaleWord : Val → Nat
  | .fin s n _ e => b2n s * 2 ^ 31 + exp13 e * 2 ^ 16 + n % 256
  | .inf s => b2n s * 2 ^ 31 + 2 ^ 29
  | .nan => 2 ^ 30

/-- The value of a scale word. -/
def ofScaleWord (w : Nat) : Val :=
  match bitsOf w 30 29 with
  | 0 => (Val.fin (bitOf w 31) (w % 256) 1 (ofExp13 (bitsOf w 28 16))).norm
  | 1 => .inf (bitOf w 31)
  | _ => .nan

/-- Writes a run of fields of one size. -/
def putFields (m : Store Byte) (off size : Nat) : List Nat → Store Byte
  | [] => m
  | v :: vs => putFields (writeNat m off size v) (off + size) size vs

/-- Reads n fields of one size. -/
def getFields (m : Store Byte) (off size n : Nat) : List Nat := (List.range n).map (fun i => readNat m (off + size * i) size)

/-- A store of bytes moved up by an offset. -/
def shiftUp (off : Nat) (m : Store Byte) : Store Byte := m.map (fun p => (p.1 + off, p.2))

/-- The bytes of a range of a frame, moved down to 0. -/
def sliceDown (m : Store Byte) (off n : Nat) : Store Byte :=
  (m.filter (fun p => off ≤ p.1 && p.1 < off + n)).map (fun p => (p.1 - off, p.2))

/-- A store of values rebuilt from a list, entry i at key i. -/
def ofList {α : Type} [DecidableEq α] (d : α) (l : List α) : Store α :=
  l.zipIdx.foldl (fun t p => sput d t p.2 p.1) []

/-! Control blocks (15 R302). -/

/-- A loop entry: 24 bytes. -/
def loopFields (l : Loop) : List Nat :=
  toFields [(4, l.count), (4, l.idx), (4, l.len), (2, l.pcLoop), (2, l.last), (1, l.stages), (1, b2n l.rot), (6, 0)]
where
  /-- Fields of given sizes as bytes. -/
  toFields (fs : List (Nat × Nat)) : List Nat := fs.flatMap (fun f => (toBytes f.1 f.2).map BitVec.toNat)

/-- A call frame of 112 bytes: return index, loops, cbase. -/
def frameFields (ret cbase : Nat) (loops : List Loop) : List Nat :=
  let ls := loops.reverse
  loopFields.toFields [(2, ret), (1, ls.length), (5, 0), (8, cbase)] ++ ls.flatMap loopFields ++
    List.replicate (24 * (4 - ls.length)) 0

/-- The levels of a stream, outermost first: return index, cbase and loops of each. -/
def levels (t : Stream) : List (Nat × Nat × List Loop) :=
  let outer := t.frames.reverse
  let rets := 0 :: outer.map CFrame.ret
  let states := outer.map (fun f => (f.cbase, f.loops)) ++ [(t.cbase, t.loops)]
  rets.zip states

/-- A control block: 1,024 bytes. -/
def controlFields (t : Stream) : List Nat :=
  let d : Nat × Nat := match t.delay with
    | some x => (x.cnt, x.tgt)
    | none => (0, 0)
  loopFields.toFields [(2, t.pc), (1, d.1), (1, t.frames.length), (2, d.2), (2, 0), (8, t.lcount.toNat)] ++
    (levels t).flatMap (fun l => frameFields l.1 l.2.1 l.2.2)

/-- A loop read back; its start cycle is that of the saved loop of its level. -/
def readLoop (m : Store Byte) (off : Nat) (old : Option Loop) : Loop :=
  { count := readNat m off 4, idx := readNat m (off + 4) 4, len := readNat m (off + 8) 4, pcLoop := readNat m (off + 12) 2
    last := readNat m (off + 14) 2, stages := readNat m (off + 16) 1, rot := readNat m (off + 17) 1 != 0
    start := match old with
      | some l => l.start
      | none => 0 }

/-- The loops of a level read back, innermost first. -/
def readLoops (m : Store Byte) (off : Nat) (old : List Loop) : List Loop :=
  ((List.range (min 4 (readNat m (off + 2) 1))).map (fun i => readLoop m (off + 16 + 24 * i) (old.reverse[i]?))).reverse

/-- A control block read back. -/
def readControl (m : Store Byte) (off : Nat) (t : Stream) : Stream :=
  let depth := min 8 (readNat m (off + 3) 1)
  let at_ := fun (i : Nat) => off + 16 + 112 * i
  let oldLoops := (levels t).map (fun l => l.2.2)
  let lv := (List.range (depth + 1)).map (fun i => (readNat m (at_ i + 8) 8, readLoops m (at_ i) (oldLoops.getD i [])))
  let cnt := readNat m (off + 2) 1
  let cur := lv.getD depth (0, [])
  { t with
    pc := readNat m off 2
    delay := if cnt = 0 then none else some (Delay.mk cnt (readNat m (off + 4) 2) (match t.delay with
      | some x => x.kind
      | none => .jump))
    lcount := BitVec.ofNat 64 (readNat m (off + 8) 8)
    frames := ((List.range depth).map (fun i =>
      CFrame.mk (readNat m (at_ (i + 1)) 2) (lv.getD i (0, [])).1 (lv.getD i (0, [])).2)).reverse
    cbase := cur.1
    loops := cur.2 }

/-! The frame (16 R315). -/

/-- The facts of a suspension that a frame's header holds. -/
structure FrameInfo where
  image : Nat
  poisoned : Bool
  byTimeout : Bool
  tick : Nat
  timeouts : Nat
  pace : Nat
  deriving DecidableEq, Repr

/-- Bits of the state of the butty stream, with those of the suspension. -/
def frameFlags (k : Core) (f : FrameInfo) : Nat :=
  b2n f.poisoned + 2 * b2n f.byTimeout + 4 * b2n (k.butty.st == .joined) + 8 * b2n k.fwait.isSome + 16 * b2n k.buttyHalted +
    32 * b2n (k.butty.st == .ended) + 64 * b2n k.butty.call.isSome

/-- sy.i3 of the waiting sy.ecall. -/
def callPort (k : Core) : Nat :=
  match (k.butty.call.bind k.call).bind TrapRec.reply with
  | some x => 2 ^ 63 + x.2 * 2 ^ 16 + x.1
  | none => 0

/-- Core cycles that a limited wait still has; 0 without a limit. -/
def waitLeft (w : FWait) (tick pace : Nat) : Nat :=
  match w.limit with
  | some l => max 1 ((l - tick) / pace)
  | none => 0

/-- The header and scalar block. -/
def headerFields (c : Nat) (k : Core) (f : FrameInfo) : Store Byte :=
  let r := k.regs
  let m := writeNat [] 0 4 0xA4800F3A
  let m := writeNat (writeNat (writeNat m 4 2 1) 6 2 c) 8 8 (featuresOf c)
  let m := writeNat (writeNat (writeNat m 0x10 8 f.image) 0x18 4 k.reachix) 0x1C 4 (frameFlags k f)
  let m := writeNat (writeNat (writeNat m 0x20 8 f.tick) 0x28 2 f.timeouts) 0x2C 8 (callPort k)
  let m := putFields m 0x40 8 ((List.range 64).map (fun i => (k.x i).toNat))
  let m := putFields m 0x240 1 [r.p.toNat ||| 1, r.rotb]
  let m := putFields m 0x242 2 [(~~~r.dead).toNat]
  let m := putFields m 0x244 1 [k.press.lent.toNat, k.press.mode]
  let m := putFields m 0x248 8 [k.press.fa.sel + k.press.fa.desc * 2 ^ 32, k.press.fb.sel + k.press.fb.desc * 2 ^ 32]
  let m := putFields m 0x258 8 [k.csr.seed.toNat * 2 ^ 32 + k.csr.drnd.toNat, k.csr.astat.toNat, k.csr.scalemap.toNat]
  let m := putFields m 0x270 8 ((List.range 8).map (fun i => (k.freg i).toNat))
  let m := putFields m 0x2B0 16 ((List.range 16).map (fun i => (k.capReg i).bits.toNat))
  let m := putFields m 0x3B0 2 [(List.range 16).foldl (fun n i => n + b2n (k.capReg i).tag * 2 ^ i) 0]
  let m := putFields m 0x3C0 8 [k.sbuf.base, k.sbuf.len, k.sbuf.head, k.sbuf.fill]
  let m := match k.fwait with
    | some w => putFields m 0x3E0 8 [w.flag, w.cond, w.v, waitLeft w f.tick f.pace]
    | none => m
  let m := putFields m 0x400 8 ((List.range 12).flatMap (fun u =>
    (List.range 14).map (fun i => (k.inp u i).toNat) ++ (List.range 4).map (fun i => (sget 0 r.out (outPort u i)).toNat)))
  let m := putFields m 0xB00 1 (controlFields k.motor)
  let m := putFields m 0xF00 1 (controlFields k.butty)
  putFields m 0x1300 8 ((List.range 8).flatMap (fun q =>
    let l := (sget [] r.q q).map BitVec.toNat
    l.length :: l ++ List.replicate (16 - l.length) 0))

/-- A rack record. -/
def rackFields (r : Rack) : List Nat :=
  loopFields.toFields ((List.range 8).map (fun i => (8, (r.job.port i).toNat)) ++
    [(8, r.job.len), (1, r.job.op), (1, r.state), (1, r.outcome), (1, r.astat.toNat), (4, 0), (8, r.job.total - r.left), (40, 0)])

/-- A monitor record: the armed bit, and the capability register, the offset and the flag's index with its increment as issued. -/
def monFields (m : Monitor) : List Nat :=
  loopFields.toFields [(8, b2n (m.state != 0)), (8, m.capReg), (8, m.off), (8, m.inc * 2 ^ 16 + m.idx)]

/-- A system-operation record. -/
def sysFields (o : SysOp) : List Nat :=
  let port := fun (i : Nat) => (o.ports.getD i 0).toNat
  loopFields.toFields [(8, 1 + o.op * 2 ^ 8), (8, port 0), (8, port 2 % 2 ^ 32 + port 3 % 2 ^ 32 * 2 ^ 32), (8, o.issue)]

/-- Rows of a register file at an offset, 1,024 bytes each. -/
def putRows (m : Store Byte) (off : Nat) (rows : Store Row) : Store Byte :=
  rows.foldl (fun m p => writeNat m (off + 1024 * p.1) 1024 p.2.toNat) m

/-- The scale planes. -/
def planeFields (p : Press) : Store Byte :=
  (List.range 4).foldl (fun m q => putFields m (0x0C0000 + 0x10000 * q) 4
    ((List.range 8192).flatMap (fun i =>
      [scaleWord (sget Val.one p.bsc (8192 * q + i)), scaleWord (sget Val.one p.lsc (8192 * q + i))]))) []

/-- The first 64 KiB of a frame: header, records, generators, masks and flags. -/
def lowFields (c : Nat) (k : Core) (f : FrameInfo) : Store Byte :=
  let m := headerFields c k f
  let m := putFields m 0x4000 1 ((List.range 64).flatMap (fun i =>
    if (k.rack i).state = 0 then List.replicate 128 0 else rackFields (k.rack i)))
  let m := putFields m 0x6000 1 ((List.range 4).flatMap (fun i => monFields (k.mon i)))
  let m := putFields m 0x6900 1 (k.sysops.flatMap sysFields)
  let m := putFields m 0x8000 4 ((List.range 2048).map (fun i => k.gens.cur i))
  let m := putFields m 0xA000 256 ((List.range 8).map (fun i => (k.mask i).toNat))
  putFields m 0xC000 4 ((List.range 1024).map (fun i => (k.flag i).toNat))

/-- The frame of a core. Log: DEDUCED 76. -/
def frameOf (c : Nat) (k : Core) (f : FrameInfo) : Store Byte :=
  let r := k.regs
  let live := r.v.filter (fun p => !r.dead.getLsbD p.1)
  let labels := k.mem.labels.foldl (fun m p => writeNat m (0x20000 + 2 * p.1) 2 p.2.toNat) []
  let tags := k.mem.tags.foldl (fun m p =>
    let a := 0x30000 + p.1 / 8
    writeByte m a (readByte m a ||| BitVec.ofNat 8 (2 ^ (p.1 % 8)))) []
  lowFields c k f ++ putRows [] 0x10000 live ++ labels ++ tags ++ putRows [] 0x40000 r.m ++
    shiftUp 0x80000 k.press.codes ++ planeFields k.press ++ shiftUp 0x100000 k.mem.bundles ++ shiftUp 0x200000 k.mem.sp

/-! Reading back. -/

/-- Reserved ranges of a frame: offset and length. -/
def frameReserved : List (Nat × Nat) :=
  [(0x34, 12), (0x246, 2), (0x3B2, 14), (0xAC0, 64), (0x1740, 10432), (0x6980, 5760), (0xA800, 6144), (0xD000, 12288),
   (0x14000, 49152), (0x34000, 49152), (0x180000, 524288)]

/-- A reserved byte of a control block is nonzero: bytes 6-7, those of its nine call frames, and those of their loop entries
(16 R315). -/
def blockReserved (m : Store Byte) (o : Nat) : Bool :=
  readNat m (o + 6) 2 != 0 || (List.range 9).any (fun i =>
    readNat m (o + 16 + 112 * i + 3) 5 != 0 ||
      (List.range 4).any (fun j => readNat m (o + 16 + 112 * i + 16 + 24 * j + 18) 6 != 0))

/-- A capability of 16 bytes at an offset has a nonzero bit of 107:97. -/
def capReserved (m : Store Byte) (off : Nat) : Bool := bitsOf (readNat m off 16) 107 97 != 0

/-- A tagged capability of a frame, in a register or in a tagged granule of the scratchpad, has a reserved bit set; or a scale word has
(00 R8, 16 R315, 17 R324). -/
def valuesReserved (m : Store Byte) : Bool :=
  (List.range 16).any (fun i => bitOf (readNat m 0x3B0 2) i && capReserved m (0x2B0 + 16 * i)) ||
    m.any (fun p =>
      (0x30000 ≤ p.1 && p.1 < 0x34000 && (List.range 8).any (fun b =>
        p.2.getLsbD b && capReserved m (0x200000 + 16 * (8 * (p.1 - 0x30000) + b)))) ||
      (0xC0000 ≤ p.1 && p.1 < 0x100000 && p.1 % 4 == 1 && p.2 != 0))

/-- A reserved bit of ARITH, ASTAT, SCALEMAP or a format register of a frame is set (00 R8; 04 R84, R90; 05 R107, R108). -/
def registersReserved (m : Store Byte) : Bool :=
  bitsOf (readNat m 0x258 8) 31 2 != 0 || readNat m 0x260 8 / 2 ^ 11 != 0 ||
    (let w := readNat m 0x268 8
     bitsOf w 63 48 != 0 || bitOf w 31 || bitOf w 15) ||
    (List.range 8).any (fun i => readNat m (0x270 + 8 * i + 4) 4 != 0)

/-- A wrong magic or version, or a nonzero reserved field (16 R316). -/
def frameInvalid (m : Store Byte) : Bool :=
  readNat m 0 4 != 0xA4800F3A || readNat m 4 2 != 1 || readNat m 0x1C 4 / 2 ^ 7 != 0 || registersReserved m ||
    frameReserved.any (fun r => m.any (fun p => r.1 ≤ p.1 && p.1 < r.1 + r.2 && p.2 != 0)) ||
    (List.range 64).any (fun i => readNat m (0x4000 + 128 * i + 76) 4 != 0 || readNat m (0x4000 + 128 * i + 88) 40 != 0) ||
    blockReserved m 0xB00 || blockReserved m 0xF00 || valuesReserved m

/-- A store read back from n fields of a size, entry i at key i. -/
def readFields {α : Type} [DecidableEq α] (d : α) (m : Store Byte) (off size n : Nat) (f : Nat → α) : Store α :=
  ofList d ((getFields m off size n).map f)

/-- A capability read back from a frame: one with a space, holder, kind or length that no tagged capability has loses its tag (17 R324).
Log: DESIGN CHOICE 169. -/
def readCap (w : Nat) (tag : Bool) : Cap :=
  let c := Cap.mk (BitVec.ofNat 128 w) tag
  { c with tag := tag && c.space < 8 && c.holder < 9 && c.kind < 4 && c.length ≤ 2 ^ 48 }

/-- The register files of a frame. -/
def readRegs (m : Store Byte) (r : Regs) : Regs :=
  let caps := getFields m 0x2B0 16 16
  let tags := readNat m 0x3B0 2
  let ports := getFields m 0x400 8 216
  { r with
    x := sput 0 (readFields 0 m 0x40 8 64 (BitVec.ofNat 64)) 0 0
    p := BitVec.ofNat 8 (readNat m 0x240 1 / 2 * 2)
    rotb := readNat m 0x241 1 % 8
    dead := ~~~(BitVec.ofNat 16 (readNat m 0x242 2))
    f := readFields 0 m 0x270 8 8 (BitVec.ofNat 64)
    c := ofList Cap.null (caps.zipIdx.map (fun p => readCap p.1 (bitOf tags p.2)))
    inp := ofList 0 ((List.range 12).flatMap (fun u => (List.range 14).map (fun i => BitVec.ofNat 64 (ports.getD (18 * u + i) 0))))
    out := ofList 0 ((List.range 12).flatMap (fun u => (List.range 4).map (fun i => BitVec.ofNat 64 (ports.getD (18 * u + 14 + i) 0))))
    q := ofList [] ((List.range 8).map (fun q =>
      (getFields m (0x1300 + 136 * q + 8) 8 (min 16 (readNat m (0x1300 + 136 * q) 8))).map (BitVec.ofNat 64)))
    e := sput 0 (readFields 0 m 0xA000 256 8 (BitVec.ofNat 2048)) 0 0
    v := readFields 0 m 0x10000 1024 16 (BitVec.ofNat 8192)
    m := readFields 0 m 0x40000 1024 256 (BitVec.ofNat 8192) }

/-- The press of a frame. -/
def readPress (m : Store Byte) : Press :=
  let fmt := fun (o : Nat) => PFmt.mk (readNat m o 8 % 16) (readNat m o 8 / 2 ^ 32)
  let plane := fun (odd : Nat) => ofList Val.one ((List.range 4).flatMap (fun q =>
    (List.range 8192).map (fun i => ofScaleWord (readNat m (0x0C0000 + 0x10000 * q + 8 * i + 4 * odd) 4))))
  { fa := fmt 0x248, fb := fmt 0x250, mode := readNat m 0x245 1, lent := BitVec.ofNat 8 (readNat m 0x244 1)
    codes := sliceDown m 0x80000 0x40000, bsc := plane 0, lsc := plane 1 }

/-- The stores of a frame. -/
def readMem (m : Store Byte) (k : CMem) : CMem :=
  { k with
    sp := sliceDown m 0x200000 0x200000
    labels := readFields 0 m 0x20000 2 32768 (BitVec.ofNat 16)
    tags := ofList false ((List.range 131072).map (fun g =>
      (readCap (readNat m (0x200000 + 16 * g) 16) (bitOf (readNat m (0x30000 + g / 8) 1) (g % 8))).tag))
    bundles := sliceDown m 0x100000 0x80000
    flags := readFields 0 m 0xC000 4 1024 (BitVec.ofNat 32) }

/-- A rack read back: its record over the rack as it was saved. -/
def readRack (m : Store Byte) (i : Nat) (r : Rack) : Rack :=
  let o := 0x4000 + 128 * i
  let written := readNat m (o + 80) 8
  let job := { r.job with ports := (getFields m o 8 8).map (BitVec.ofNat 64), len := readNat m (o + 64) 8, op := readNat m (o + 72) 1 }
  { r with
    job := job
    state := readNat m (o + 73) 1
    outcome := readNat m (o + 74) 1
    astat := BitVec.ofNat 4 (readNat m (o + 75) 1)
    pos := if written = r.job.total - r.left then r.pos else written
    left := job.total - written }

/-- A monitor read back from its record over the monitor as it was saved: armed, or waiting on a fault reply where it waited with the
same capability register and offset. The flag is that of the index in the record, under the flag capability of its arming.
Log: DEDUCED 76. -/
def readMon (m : Store Byte) (i : Nat) (old : Monitor) : Monitor :=
  let o := 0x6000 + 32 * i
  let reg := readNat m (o + 8) 8
  let off := readNat m (o + 16) 8
  let idx := readNat m (o + 24) 2
  if bitOf (readNat m o 8) 0 then
    { old with
      state := if old.state = 2 ∧ old.capReg = reg ∧ old.off = off then 2 else 1
      flag := old.flag - old.idx + idx, inc := readNat m (o + 26) 2, capReg := reg, off := off, idx := idx }
  else Monitor.free

/-- The state of the butty stream that a frame's flags give. -/
def readButtySt (flags : Nat) (t : Status) : Status :=
  if bitOf flags 2 then .joined
  else if bitOf flags 5 then .ended
  else if bitOf flags 4 then (match t with
    | .halted w c => .halted w c
    | _ => .halted .trap stTaskTrap)
  else if bitOf flags 3 then .fwait
  else if t = .idle then .idle else .run

/-- The wait of a frame: it evaluates again after the re-base. -/
def readWait (m : Store Byte) (flags : Nat) : Option FWait :=
  if bitOf flags 3 then
    let n := readNat m 0x3F8 8
    some (FWait.mk (readNat m 0x3E0 8) (readNat m 0x3E8 8) (readNat m 0x3F0 8) forever (if n = 0 then none else some n))
  else none

/-- A core read back from its frame, over the core as it was saved, whose reachtick it keeps: in the butty stream, rcyc counts the ticks
of the suspension until the next re-base (09 R181). Log: DEDUCED 76. -/
def coreOf (m : Store Byte) (k : Core) : Core :=
  let flags := readNat m 0x1C 4
  let sb := getFields m 0x3C0 8 4
  { k with
    regs := readRegs m k.regs
    mem := readMem m k.mem
    sbuf := SBuf.mk (sb.getD 0 0) (sb.getD 1 0) (sb.getD 2 0) (sb.getD 3 0)
    press := readPress m
    csr := { k.csr with
      seed := BitVec.ofNat 32 (readNat m 0x25C 4), drnd := BitVec.ofNat 2 (readNat m 0x258 1)
      astat := BitVec.ofNat 11 (readNat m 0x260 8), scalemap := BitVec.ofNat 64 (readNat m 0x268 8) }
    gens := Gens.mk (readNat m 0x25C 4) (ofList 0 ((List.range 2048).map (fun i =>
      let g := readNat m (0x8000 + 4 * i) 4
      if g = genSeeded (readNat m 0x25C 4) i then 0 else g)))
    motor := readControl m 0xB00 k.motor
    butty := { readControl m 0xF00 k.butty with st := readButtySt flags k.butty.st, call := if bitOf flags 6 then k.butty.call else none }
    reachix := readNat m 0x18 4
    fwait := readWait m flags
    hand := []
    mons := ofList Monitor.free ((List.range 4).map (fun i => readMon m i (k.mon i)))
    racks := ofList Rack.none ((List.range 64).map (fun i => if (k.rack i).state = 0 then k.rack i else readRack m i (k.rack i))) }

end Sys2Proof.Machine
end

