-- ==== Sys2Proof/Machine/FabricEvents.lean ====
section
/-! DEFINITION. What the fabric does: beacons, departures, falls and retraining of ports, arrivals and their receipts, fences,
and the layby (13 R246-R251, R257-R263). -/

namespace Sys2Proof.Machine

/-! Ports and slots. -/

/-- Replaces a port. -/
def State.setPort (s : State) (p : Nat) (x : Port) : State := { s with ports := sput Port.down s.ports p x }

/-- A port carries flits in slot n: it is up and past its fall, its beacon did not fail, and its peer is another position
present in the pod (13 R244, R246, R247). -/
def State.carries (s : State) (p n : Nat) : Bool :=
  let x := s.port p
  1 ≤ x.state && x.resumeSlot ≤ n && x.deadSlot != some n && !bitOf s.absent (s.slotPeer p n) &&
    s.slotPeer p n != s.position

/-- The guard interval of the current slot has ended (13 R244). -/
def State.guardOver (s : State) : Bool :=
  s.forigin.toNat ≤ s.tick && 192 ≤ (s.tick - s.forigin.toNat) % 4800

/-- The relay reserve of a port in a slot (13 R249). -/
def State.reserve (s : State) (p : Nat) : Nat := 64 * portCap (s.port p).state / 560

/-- Flits of the relay reserve of a port not yet used in a slot; its uses are booked under part 0 (13 R249). -/
def State.reserveLeft (s : State) (p n : Nat) : Nat := s.reserve p - s.booked 0 p n

/-- The relay reserve of a port in state 4, the most that a slot holds (13 R249). -/
def reserveMax : Nat := 64

/-- What departs at once of a tail of n flits that asks for the relay reserve of a port in a slot: all of it; of a tail that no reserve
ever holds, a piece as large as the largest reserve; none where that does not fit (13 R251). Log: DEDUCED 83. -/
def State.reserveTakes (s : State) (p slot n : Nat) : Option Nat :=
  let k := min n reserveMax
  if 0 < k ∧ k ≤ s.reserveLeft p slot then some k else none

/-- What departs at once of n flits of a layby item: as many as the relay reserve of the port in the slot still holds, so that the
grants for a destination leave in three slots (13 R258). Log: DEDUCED 83. -/
def State.relayTakes (s : State) (p slot n : Nat) : Option Nat :=
  let k := min n (s.reserveLeft p slot)
  if 0 < k then some k else none

/-- The next hop of a send. -/
def Send.hop (s : State) (x : Send) : Nat := x.via.getD (s.winPeer x.entry)

/-- Flits that the send still has in its own slot (13 R251). -/
def State.headFlits (s : State) (c id : Nat) : Nat :=
  match s.bookings.find? (fun b => b.isOf c id) with
  | some b => b.flits
  | none => 0

/-- The number of a send's first flit in its slot, counted across all partitions in the order of their bookings
(13 R250). -/
def firstFlit (c id port slot : Nat) : List Booking → Nat
  | [] => 0
  | b :: bs =>
    if b.isOf c id then 0
    else (if b.port = port ∧ b.slot = slot ∧ b.part ≠ 0 then b.flits else 0) + firstFlit c id port slot bs

/-- The tick at which flit f of slot n departs on port p (13 R250). -/
def State.flitAt (s : State) (p n f : Nat) : Nat := s.slotOpen n + 192 + portPitch (s.port p).state * f

/-! Spills (13 R251). -/

/-- Takes n of a send's flits out of its own slot: they spill, and the send is late. -/
def spill (s : State) (c id n : Nat) : State :=
  if n = 0 then s
  else
    { s.modCore c (fun k => match k.send id with
        | some x => k.setSend id (some
            { x with tail := x.tail + n, late := true, first := s.tick, st := if x.st = .departed then .spilled else x.st })
        | none => k) with
      bookings := s.bookings.map (fun b => if b.isOf c id then { b with flits := b.flits - n } else b) }

/-- Spills every booking of a port in a slot whole. -/
def spillSlot (s : State) (p n : Nat) : List Booking → State
  | [] => s
  | b :: bs => spillSlot (if b.port = p ∧ b.slot = n ∧ b.isLive then spill s b.core b.send b.flits else s) p n bs

/-- Flits of a booking's send that have departed in its slot. -/
def State.goneOf (s : State) (b : Booking) : Nat := (((s.core b.core).send b.send).map Send.gone).getD 0

/-- Spills the flits of a slot that have not departed by now. -/
def spillRest (s : State) (p n : Nat) : List Booking → State
  | [] => s
  | b :: bs =>
    spillRest (if b.port = p ∧ b.slot = n ∧ b.isLive then spill s b.core b.send (b.flits - s.goneOf b) else s) p n bs

/-- Flits that the bookings before this one hold in the share of a partition. -/
def heldBefore (part port slot : Nat) (done : List Booking) : Nat :=
  done.foldl (fun n b => if b.part == part && b.port == port && b.slot == slot then n + b.flits else n) 0

/-- Spills what a shrunken effective share no longer holds in the slots from n on: the latest bookings lose first, and what has departed
stays. -/
def spillShare (s : State) (p n : Nat) (done : List Booking) : List Booking → State
  | [] => s
  | b :: bs =>
    if b.port = p ∧ n ≤ b.slot ∧ b.isLive then
      let keep := min b.flits (max (s.goneOf b) (s.effShare b.part p - heldBefore b.part p b.slot done))
      spillShare (spill s b.core b.send (b.flits - keep)) p n (done ++ [b]) bs
    else spillShare s p n (done ++ [b]) bs

/-- SLOT_BEACON: a beacon that names another position than the peer, or none at all, closes the port for the slot
(13 R246). -/
def execSlotBeacon (port : Nat) (named : Option Nat) (s : State) : Ans State :=
  .next (match s.curSlot with
    | some n =>
      let x := s.port port
      if s.guardOver || x.state == 0 || x.deadSlot == some n || named == some (s.slotPeer port n) then s
      else
        spillSlot ((s.setPort port { x with deadSlot := some n }).log (0x200 + port) evPeerMismatch 0 0 0 0 0
          (s.slotPeer port n)) port n s.bookings
    | none => s)

/-! Departures (13 R250, R251). -/

/-- Sends with spilled flits toward a next hop, in the order of spilling; sends that spilled at one tick in booking order. Those of a basin
whose clocks have stopped keep no other waiting (01 R31). -/
def spilledTo (s : State) (hop : Nat) : List (Nat × Nat × Nat) :=
  s.bookings.filterMap (fun b =>
    if !b.isLive || s.clockOff b.core then none
    else match (s.core b.core).send b.send with
      | some x => if 0 < x.tail ∧ x.hop s = hop then some (x.first, b.core, b.send) else none
      | none => none)

/-- No other tail toward the same next hop spilled earlier. -/
def spillTurn (s : State) (c id : Nat) (x : Send) : Bool :=
  let l := spilledTo s (x.hop s)
  match l.find? (fun y => l.all (fun z => y.1 ≤ z.1)) with
  | some y => y.2 == (c, id)
  | none => false

/-- The lowest port of a slot toward a hop whose relay reserve takes something: matched to it, with room by `takes`. -/
def reservePort (s : State) (m hop : Nat) (takes : Nat → Option Nat) : Option Nat :=
  (List.range 32).find? (fun p => s.carries p m && s.slotPeer p m == hop && (takes p).isSome)

/-- The port of the current slot that can carry a tail of a send. -/
def tailPort (s : State) (x : Send) : Option (Nat × Nat) :=
  match s.curSlot with
  | some m => if m ≤ x.slot then none else (reservePort s m (x.hop s) (fun p => s.reserveTakes p m x.tail)).map (fun p => (p, m))
  | none => none

/-! Sealing (13 R256). -/

/-- The keys of a send's stream. -/
def sendKeys (s : State) (x : Send) : Keys := ((s.part x.part).bind (fun p => p.keysOf (.fabric (s.winKey x.entry) false))).getD Keys.none

/-- The key phase of a send's stream (18 R348). -/
def sendPhase (s : State) (x : Send) : Nat := (sendKeys s x).active % 2

/-- The labels of n lines of a send's source from an offset; none where its policy carries none. -/
def sendLabels (s : State) (c : Nat) (x : Send) : List (BitVec 16) :=
  let a := s.winBase x.entry + x.off
  if s.winLpol x.entry = 0 then [] else (List.range (x.len / 64)).map (fun i => sget 0 (s.core c).mem.labels (a / 64 + i))

/-- The scale bytes of a send's source, where SCALEMAP put them at issue (12 R224); none where its policy carries none. -/
def sendScales (s : State) (c : Nat) (x : Send) : List Byte :=
  let a := s.winBase x.entry + x.off
  let k := s.core c
  if s.winLpol x.entry ≠ 2 then []
  else (List.range (x.len / 64)).flatMap (fun i => match scaleSlot x.scalemap (a + 64 * i) with
    | some b => readBytes k.mem.sp b 16
    | none => List.replicate 16 0)

/-- The bytes of a send's source as they stand. Log: DEDUCED 81. -/
def sendBytes (s : State) (c : Nat) (x : Send) : List Byte := readBytes (s.core c).mem.sp (s.winBase x.entry + x.off) x.len

/-- A send with its source read: the engine reads it whole, every line, label and scale slot at one boundary, before its first flit
departs (13 R256). Log: DEDUCED 83. -/
def Send.read (s : State) (c : Nat) (x : Send) : Send :=
  if x.src ≠ [] then x
  else { x with src := sendBytes s c x, labs := sendLabels s c x, scales := sendScales s c x }

/-- The source lines that a departure reads, if it reads them, and the lines of the scale slots that go with them: the port does not
write them at this boundary any more (10 R182). -/
def readFor (s : State) (c : Nat) (x : Send) : State :=
  let slots := match sendSlots s x with
    | some r => linesOver r.1 r.2
    | none => []
  if x.src ≠ [] ∨ x.len = 0 then s
  else s.modCore c (fun k => k.readAt s.tick (linesOver (s.winBase x.entry + x.off) x.len ++ slots))

/-- What goes with a send's source bytes: its labels and then its scale bytes. -/
def Send.side (x : Send) : List Byte := x.labs.flatMap (fun l => toBytes 2 l.toNat) ++ x.scales

/-- The sealed form of n flits of a send from flit f, under the active key of its stream; the first brings the labels and scales.
Log: DEDUCED 83. -/
def sealFlits (s : State) (x : Send) (f n : Nat) (iv : List Byte) : List Byte :=
  let key := (sendKeys s x).activeKey
  (if f = 0 ∧ x.side ≠ [] then sealFlit key iv 16 x.side else []) ++ fabricFlits key iv n (x.src.drop (flitPayload * f))

/-- n flits of a send depart from flit f on: they are sealed, and carry the phase of the stream's active key. -/
def departFlits (s : State) (c id : Nat) (x : Send) (f n : Nat) : State :=
  let iv := freeIv s
  let y := x.read s c
  (readFor iv.2 c x).modCore c (fun k => k.setSend id (some
    { y with wire := x.wire ++ sealFlits s y f n iv.1, phase := if x.wire = [] then sendPhase s x else x.phase }))

/-- The next flit in a send's own slot is due to depart: the one that counts its number in the slot (13 R250). -/
def headDue (s : State) (c id : Nat) (x : Send) : Bool :=
  x.st == .booked && (if x.loopback then s.slotOpen x.slot + 192 ≤ s.tick
    else x.gone < s.headFlits c id &&
      s.flitAt x.port x.slot (firstFlit c id x.port x.slot s.bookings + x.gone) ≤ s.tick)

/-- A spilled tail may depart now. -/
def tailDue (s : State) (c id : Nat) (x : Send) : Bool :=
  0 < x.tail && (x.st != .booked || s.headFlits c id == x.gone) && s.guardOver &&
    (tailPort s x).isSome && spillTurn s c id x

/-- The next flit of a send in its own slot departs; where the port does not carry, what is left spills. Log: DEDUCED 83. -/
def departHead (s : State) (c id : Nat) (x : Send) : State :=
  let done := if x.tail = 0 then SendSt.departed else .spilled
  let n := s.headFlits c id
  if x.loopback then (readFor s c x).modCore c (fun k => k.setSend id (some { x.read s c with st := done }))
  else if s.carries x.port x.slot && s.curSlot == some x.slot then
    departFlits s c id { x with gone := x.gone + 1, st := if x.gone + 1 = n then done else x.st } x.gone 1
  else spill s c id (n - x.gone)

/-- A spilled tail departs in the relay reserve. Log: DEDUCED 83. -/
def departTail (s : State) (c id : Nat) (x : Send) : State :=
  match tailPort s x with
  | some (p, m) => match s.reserveTakes p m x.tail with
    | some n =>
      let y := { x with tail := x.tail - n, st := if n = x.tail then SendSt.departed else .spilled }
      let s1 := departFlits s c id y (x.flits - x.tail) n
      { s1 with bookings := s1.bookings ++ [Booking.mk p m 0 c id n false] }
    | none => s
  | none => s

/-- SEND_DEPARTURE: a flit of a send departs in its slot, or its tail in a later one (13 R250, R251). Log: DEDUCED 83. -/
def execSendDeparture (core send : Nat) (s : State) : Ans State :=
  .next (match (s.core core).send send with
    | some x =>
      if headDue s core send x then departHead s core send x
      else if tailDue s core send x then departTail s core send x
      else s
    | none => s)

/-! Falls and retraining (13 R247, R248). -/

/-- SVCSTAT.ports after a change of a port (19 R384). -/
def svcPort (v : Word) (p st : Nat) : Word :=
  let b := BitVec.ofNat 64 (2 ^ (32 + p))
  if 2 ≤ st then v ||| b else v &&& ~~~b

/-- What a fall costs the bookings of a port: the rest of this slot, all of the next, and what the shares no longer hold. -/
def spillFall (s : State) (p n : Nat) : State :=
  let s1 := spillSlot s p (n + 1) s.bookings
  spillShare s1 p (n + 2) [] s1.bookings

/-- PORT_FALLBACK: the port falls to a lower state, carries nothing for the rest of this slot and in the next, and counts
the fall (13 R247, R248, R251). Log: DEDUCED 84. -/
def execPortFallback (port st : Nat) (s : State) : Ans State :=
  .next (
    let x := s.port port
    if x.state ≤ st || !(st == 0 || st == 1 || st == 2) || 32 ≤ port then s
    else
      let n := s.curSlot.getD 0
      let s1 := spillRest s port n s.bookings
      let s2 := s1.setPort port { x with state := st, fallbacks := x.fallbacks + 1, resumeSlot := n + 2, fell := true }
      spillFall ({ s2 with svc := svcPort s2.svc port st }.log (0x200 + port) evFallback 0 0 0 0 0 st) port n)

/-- PORT_RETRAIN: a port returns to a higher state between timetables; PAM4 only in full service (13 R247, 19 R384). One that
has fallen counts as fallen until it is back in state 4. -/
def execPortRetrain (port st : Nat) (s : State) : Ans State :=
  .next (
    let x := s.port port
    let running := s.parts.any (fun q => match q.2 with
      | some p => p.tt.isSome
      | none => false)
    if st ≤ x.state || !(st == 1 || st == 2 || (st == 4 && s.svc.getLsbD 0)) || running || 32 ≤ port then s
    else { s.setPort port { x with state := st, fell := x.fell && st != 4 } with svc := svcPort s.svc port st })

/-! Receipts and fences (13 R259, R263). -/

/-- RECEIPT: the receipt of a send that has departed whole returns; that of a late transfer does not read LANDED (13 R251,
R263). -/
def execReceipt (core send status : Nat) (s : State) : Ans State :=
  .next (match (s.core core).send send with
    | some x =>
      if x.st == .departed && x.tail == 0 && !x.loopback && status ≤ 5 && !(x.late && status == 0) then endSend s core send x status
      else s
    | none => s)

/-- The bookings of sends that have ended, and uses of the relay reserve, whose slots have passed. -/
def State.oldBooking (s : State) (b : Booking) : Bool := !b.isLive && b.slot < s.curSlot.getD 0

/-- The core's oldest fence has no receipt left to wait for. Log: DEDUCED 85. -/
def fenceReady (s : State) (c : Nat) : Bool :=
  match (s.core c).fences with
  | f :: _ => f.waits.isEmpty && f.since ≤ s.tick
  | [] => false

/-- FENCE_COMPLETE: the oldest fence adds its increment (13 R259). Log: DEDUCED 85. -/
def execFenceComplete (core : Nat) (s : State) : Ans State :=
  .next (if fenceReady s core then
      match (s.core core).fences with
      | f :: fs => (s.modCore core (fun k => { k with fences := fs })).addFlag core f.flag f.inc
      | [] => s
    else s)

/-! Arrivals (13 R262). -/

/-- The combination of a receive kind, as reduce numbers it; kind 0 copies. -/
def kindOp (kind : Nat) : Nat := if kind = 1 then 1 else if kind = 2 then 0 else 2

/-- The partition's receive entry that a transfer names: its own wbase plus the peer window of the sender's timetable. -/
def recvIndex (p : Partition) (tr : Transfer) : Nat := p.csr.fwinBase + tr.window

/-- A key of these keys opens what carries a phase (18 R348). -/
def Keys.opens (k : Keys) (phase : Nat) : Bool :=
  k.active != 0 && (k.active % 2 == phase % 2 || k.retiring != 0 || k.pending != 0)

/-- The first flit of a new phase promotes the receiver's copy of the stream (18 R363). -/
def Keys.promotedBy (k : Keys) (phase : Nat) : Bool :=
  k.active != 0 && k.active % 2 != phase % 2 && k.retiring == 0 && k.pending != 0

/-- The status of the checks of R262, in their order; 0 where all pass. -/
def arrivalStatus (s : State) (tr : Transfer) : Nat :=
  match s.part tr.dstPart with
  | none => 3
  | some p =>
    let e := recvIndex p tr
    let kind := s.winKind e
    if !tr.loopback && !(p.bindings.any (fun b => b.handle == tr.handle && b.peer == tr.src && b.part == tr.srcPart &&
        b.recv.opens tr.phase)) then 3
    else if !tr.tagOk then 5
    else if p.csr.fwinCount ≤ tr.window || s.winDir e != 2 || s.winLpol e != tr.lpol ||
        !(s.winPeer e == tr.src || s.winPeer e == 255) then 4
    else if s.winLen e < tr.offset + tr.data.length ||
        (kind != 0 && (tr.offset % 4 != 0 || tr.data.length % 4 != 0)) then 2
    else 0

/-- Where a receive entry's bytes lie: the core's scratchpad, or the frame of a suspended context (16 R314). -/
inductive Target where
  | core (c : Nat)
  | frame (slot va c : Nat)
  deriving DecidableEq, Repr

/-- The target of a partition's receive entries for a core. -/
def recvTarget (p : Partition) (c : Nat) : Target :=
  match p.tt.bind (fun t => if t.windows = 0 then none else some t), p.contexts.find? (fun x => x.2.tt.windows != 0) with
  | none, some x => .frame x.1 (frameVa p x.1 c) c
  | _, _ => .core c

/-- Bytes at a target. -/
def targetBytes (s : State) (part : Nat) (t : Target) (off n : Nat) : List Byte :=
  match t with
  | .core c => readBytes (s.core c).mem.sp off n
  | .frame _ va _ => toBytes n (frameNum s part va (0x200000 + off) n)

/-- A read of bytes at a target as it is logged: a frame may lie in lines whose check fails (18 R345). -/
def logTarget (s : State) (part : Nat) (t : Target) (off n : Nat) : State :=
  match t with
  | .core _ => s
  | .frame _ va _ => logSpace s part (va + 0x200000 + off) n

/-- SCALEMAP of the core that a target belongs to. -/
def targetScalemap (s : State) (p : Partition) (t : Target) : Word :=
  match t with
  | .core c => (s.core c).csr.scalemap
  | .frame slot _ c => match (p.contexts.find? (fun x => x.1 == slot)).bind (fun x => x.2.cores.find? (fun y => y.1 == c)) with
    | some y => y.2.csr.scalemap
    | none => 0

/-- Writes bytes of one line, with its label where one is given, at a target (10 R188). -/
def targetPut (s : State) (part : Nat) (t : Target) (off : Nat) (bs : List Byte) (label : Option (BitVec 16)) : State :=
  match t with
  | .core c => s.modCore c (fun k => portStore k s.tick (cellsAt off bs) (match label with
      | some l => [(off / 64, l)]
      | none => []))
  | .frame _ va c => framePad s part c va off bs label

/-- Adds to a flag at a target. -/
def targetFlag (s : State) (part : Nat) (t : Target) (f inc : Nat) : State :=
  match t with
  | .core c => s.addFlag c f inc
  | .frame _ va c => frameFlag s part c va f inc

/-- The lines of a transfer: target offset, place in the data, and bytes. -/
def transferRuns (base : Nat) (tr : Transfer) : List (Nat × Nat × Nat) :=
  (lineRuns (base + tr.offset) (tr.data.length / 64 + 2) 0 tr.data.length).map (fun r => (base + tr.offset + r.1, r.1, r.2))

/-- Lands the lines of a transfer: label and scales with each whole line (12 R224), each element combined as the kind says.
Log: DEDUCED 80. -/
def landLines (s : State) (part kind : Nat) (t : Target) (map : Word) (tr : Transfer) : List (Nat × Nat × Nat) →
    State × BitVec 4
  | [] => (s, 0)
  | r :: rs =>
    let bs := (tr.data.drop r.2.1).take r.2.2
    let line := r.2.1 / 64
    let out := if kind = 0 then (bs, 0) else combineBytes (kindOp kind) (targetBytes s part t r.1 r.2.2) bs
    let s1 := match scaleSlot map r.1 with
      | some a => if tr.lpol = 2 then targetPut s part t a ((tr.scales.drop (16 * line)).take 16) none else s
      | none => s
    let s2 := targetPut s1 part t r.1 out.1 (if tr.lpol = 0 then none else tr.labels[line]?)
    let q := landLines s2 part kind t map tr rs
    (q.1, out.2 ||| q.2)

/-- The flag of an arrival or a system operation that has written its last byte at the present boundary: added at the next (10
R190); in a frame, whose context does not run, at once. -/
def laterFlag (s : State) (part : Nat) (t : Target) (f inc : Nat) : State :=
  match t with
  | .core c => s.modCore c (fun k => { k with pend := k.pend ++ [Pend.mk (s.tick + 1) s.tick k.seq (.flagInc f inc)] })
  | .frame .. => targetFlag s part t f inc

/-- A transfer that passed its checks lands: its lines, then its flag, and the entry's status (13 R261, R262). -/
def landTransfer (s : State) (p : Partition) (tr : Transfer) : State :=
  let e := recvIndex p tr
  let t := recvTarget p (s.winCore e)
  let q := landLines s tr.dstPart (s.winKind e) t (targetScalemap s p t) tr (transferRuns (s.winBase e) tr)
  (laterFlag q.1 tr.dstPart t (s.winFlag e) (s.winInc e)).modWst e (fun w =>
    { w with late := w.late || tr.late, astat := w.astat ||| q.2, count := w.count + 1 })

/-- A refused transfer: nothing is written but the status of the receive entry it names, and the event is logged by the port matched to
the sender (13 R261, R263). Log: DESIGN CHOICE 79. -/
def refuseTransfer (s : State) (tr : Transfer) (status : Nat) : State :=
  let n := s.curSlot.getD 0
  let port := ((List.range 32).find? (fun p => s.slotPeer p n == tr.src)).getD 0
  let s1 := match s.part tr.dstPart with
    | some p => if tr.window < p.csr.fwinCount ∧ s.winDir (recvIndex p tr) = 2 then
        s.modWst (recvIndex p tr) (fun w => { w with fail := true, last := status, late := w.late || tr.late })
      else s
    | none => s
  s1.log (0x200 + port) (if status = 5 then evIntegrity else stFabric) 0 0 0 0 tr.dstPart status

/-- Judges a transfer and lands or refuses it; the receipt's status. Log: DEDUCED 77; DESIGN CHOICE 86. -/
def receive (s : State) (tr : Transfer) : State × Nat :=
  match s.part tr.dstPart, arrivalStatus s tr with
  | some p, 0 => (landTransfer s p tr, if tr.late then 1 else 0)
  | _, n => (refuseTransfer s tr n, n)

/-- The path of two transfers is one: sending core, destination and route (10 R198). -/
def samePath (a b : Transfer) : Bool := a.src == b.src && a.srcCore == b.srcCore && a.dst == b.dst && a.via == b.via

/-- The transfer of an event of the agenda. -/
def arrivalOf : Instr → Option Transfer
  | .arrival tr => some tr
  | _ => none

/-- The transfers that ports hold for pre-emptions (16 R314). -/
def State.heldTransfers (s : State) : List Transfer :=
  s.parts.flatMap (fun q => match q.2.bind (fun p => p.tt) with
    | some t => t.heldArr
    | none => [])

/-- The departures of the transfers of a path that are held behind another now: on the way, by a pre-emption, or since one. -/
def heldBehind (s : State) (tr : Transfer) : List Nat :=
  s.agenda.filterMap (fun e => match arrivalOf e.2 with
    | some y => if e.1 ≤ s.tick && samePath y tr then some y.depart else none
    | none => none) ++
  ((s.heldTransfers ++ s.backlog).filter (fun y => samePath y tr)).map (fun y => y.depart)

/-- The path of a transfer. -/
def LatePath.isOf (l : LatePath) (tr : Transfer) : Bool := l.src == tr.src && l.core == tr.srcCore && l.dst == tr.dst && l.via == tr.via

/-- A transfer is late: a tail of it spilled, or it has been held until a late one of its path landed (13 R251). -/
def lateBy (s : State) (tr : Transfer) : Bool := tr.late || s.latePaths.any (fun l => l.isOf tr && tr.depart ≤ l.upTo)

/-- A late transfer has landed: those of its path that were held behind it are late too (13 R251). -/
def lateAfter (s : State) (tr : Transfer) : State :=
  if tr.late then
    { s with latePaths := LatePath.mk tr.src tr.srcCore tr.dst tr.via ((heldBehind s tr).foldl max 0) ::
        s.latePaths.filter (fun l => !l.isOf tr) }
  else s

/-- The keys of the stream on which a peer's transfer came, promoted where it is the first of a new phase (18 R363). -/
def promoteRecv (s : State) (tr : Transfer) : State :=
  if tr.tagOk then
    s.modPart tr.dstPart (fun p => { p with bindings := p.bindings.map (fun b =>
      if b.handle = tr.handle ∧ b.peer = tr.src ∧ b.part = tr.srcPart ∧ b.recv.promotedBy tr.phase then { b with recv := b.recv.promote }
      else b) })
  else s

/-- A peer's transfer is judged, and lands or is refused; its receipt waits for its slot (13 R262, R263). -/
def receivePeer (s : State) (tr : Transfer) : State :=
  let tr := { tr with late := lateBy s tr }
  let q := receive s tr
  let s1 := lateAfter (promoteRecv q.1 tr) tr
  { s1 with receipts := s1.receipts ++ [Receipt.mk tr.src tr.srcCore tr.sendId q.2 s.tick] }

/-- The receipts that may depart now: after the landing, in a slot in which a port that carries is matched to the sender, once the
guard interval has ended (13 R263). -/
def State.receiptDue (s : State) (r : Receipt) : Bool :=
  r.since < s.tick && s.guardOver && (match s.curSlot with
    | some n => (List.range 32).any (fun p => s.carries p n && s.slotPeer p n == r.dst)
    | none => false)

/-- Receipts depart in control flits outside every share (13 R263). -/
def sendReceipts (s : State) : State := { s with receipts := s.receipts.filter (fun r => !s.receiptDue r) }

/-- The lines that the port writes for a transfer: its data, and the scale slots that come with it (12 R224). -/
def transferLines (s : State) (p : Partition) (tr : Transfer) : List Nat :=
  let e := recvIndex p tr
  let runs := transferRuns (s.winBase e) tr
  runs.map (fun r => r.1 / 64) ++
    (if tr.lpol = 2 then runs.filterMap (fun r =>
        (scaleSlot (targetScalemap s p (recvTarget p (s.winCore e))) r.1).map (fun a => a / 64))
      else [])

/-- The port may write every line of a transfer at this boundary (10 R188). Log: DEDUCED 82. -/
def arrivalFree (s : State) (tr : Transfer) : Bool :=
  match s.part tr.dstPart with
  | some p => (s.core (s.winCore (recvIndex p tr))).portFree s.tick (transferLines s p tr)
  | none => true

/-- The port holds arrivals for the partition's timetable from step 2 of a pre-emption to its fifth (16 R314). -/
def holdsArrivals (s : State) (part : Nat) : Bool :=
  match s.tt part with
  | some t => 2 ≤ t.pre && t.windows != 0
  | none => false

/-- The transfer that a loop-back send makes: its source bytes, labels and scales, read by its departure; the window that its entry
names among the timetable's own (13 R253, R256, R257). Log: DEDUCED 81. -/
def loopTransfer (s : State) (c id : Nat) (x : Send) : Transfer :=
  let y := x.read s c
  { src := s.position, srcCore := c, sendId := id, dst := s.position, via := none, loopback := true, handle := 0
    srcPart := x.part, dstPart := x.part
    window := s.winPeerWin x.entry - ((s.part x.part).map (fun p => p.csr.fwinBase)).getD 0
    lpol := s.winLpol x.entry, offset := x.off
    data := y.src, labels := y.labs, scales := y.scales
    phase := 0, depart := s.slotOpen x.slot + 192, tagOk := true, late := x.late }

/-- No loop-back send of the core has still to land before this one (10 R198). -/
def loopFirst (s : State) (c : Nat) (x : Send) : Bool :=
  (s.core c).sends.all (fun q => match q.2 with
    | some y => !(y.loopback && y.st != .landed && (y.slot < x.slot || (y.slot == x.slot && y.seq < x.seq)))
    | none => true)

/-- A loop-back send may land now: between open + 192 and open + 1,092 (13 R257). -/
def loopDue (s : State) (c : Nat) (x : Send) : Bool :=
  x.loopback && x.st != .landed && s.slotOpen x.slot + 192 ≤ s.tick && loopFirst s c x

/-- A loop-back send lands; its flag and its receipt follow at the next boundary (10 R190, 13 R257, R263). -/
def landLoop (s : State) (c id : Nat) (x : Send) : State :=
  let tr := loopTransfer s c id x
  if !arrivalFree s tr then s
  else
    let q := receive s tr
    q.1.modCore c (fun k => { k.setSend id (some { x with st := .landed }) with
      pend := k.pend ++ [Pend.mk (s.tick + 1) s.tick k.seq (.sendEnd id q.2)] })

/-- ARRIVAL: a transfer reaches this package. One for another position does not come here; one for a timetable under
pre-emption is held; one that finds its port busy at a line waits for a later boundary (10 R188, 13 R262, 16 R314).
Log: DEDUCED 77. -/
def execArrival (tr : Transfer) (s : State) : Ans State :=
  .next (
    if tr.loopback then
      match (s.core tr.srcCore).send tr.sendId with
      | some x => if loopDue s tr.srcCore x then landLoop s tr.srcCore tr.sendId x else s
      | none => s
    else if tr.dst ≠ s.position || tr.src == s.position then s
    else if holdsArrivals s tr.dstPart then s.modTt tr.dstPart (fun t => { t with heldArr := t.heldArr ++ [tr] })
    else if !arrivalFree s tr then s
    else receivePeer s tr)

/-! The layby (13 R258). -/

/-- Bytes that an item of the layby holds, in whole lines. -/
def LayItem.size (x : LayItem) : Nat := (x.tr.data.length + 63) / 64 * 64

/-- An offset in the layby's area that is free for n bytes. Log: DESIGN CHOICE 78. -/
def laybySpace (l : List LayItem) (n : Nat) : Nat :=
  ((0 :: l.map (fun x => x.at_ + x.size)).find? (fun a =>
    l.all (fun x => decide (a + n ≤ x.at_) || decide (x.at_ + x.size ≤ a)))).getD 0

/-- Writes the ciphertext of a relayed transfer into the layby's area of the cellar, line by line: monitors fire, and its granules
are counted (12 R233, R240, R241). The area is written whole, padded with zeros. -/
def layDown (s : State) (pa : Nat) (bs : List Byte) : Nat → State
  | 0 => s
  | n + 1 =>
    let s1 := layDown s pa bs n
    let a := pa + 64 * n
    (s1.putOrLog noCore a (fit 64 ((bs.drop (64 * n)).take 64)) none).countAccess pa a 64

/-- LAYBY_LANDING: a relayed transfer lies over in this package; its data is the ciphertext, which is all that this package sees.
Log: DESIGN CHOICE 78. -/
def execLaybyLanding (tr : Transfer) (s : State) : Ans State :=
  .next (match s.curSlot with
    | some n =>
      if tr.dst == s.position || tr.src == s.position then s
      else
        let at_ := laybySpace s.layby ((tr.data.length + 63) / 64 * 64)
        let s1 := layDown s (Config.laybyBase + at_) tr.data ((tr.data.length + 63) / 64)
        { s1 with layby := s1.layby ++ [LayItem.mk tr n (flitsOf tr.data.length) at_] }
    | none => s)

/-- The port on which an item of the layby may depart now: directly matched to its destination in a slot after its arrival
slot, with room for it in the relay reserve. -/
def laybyPort (s : State) (x : LayItem) : Option (Nat × Nat) :=
  match s.curSlot with
  | some m =>
    if m ≤ x.slot || !s.guardOver then none
    else (reservePort s m x.tr.dst (fun p => s.relayTakes p m x.left)).map (fun p => (p, m))
  | none => none

/-- An item of the layby is the first for its destination. -/
def laybyFirst (s : State) (idx : Nat) (x : LayItem) : Bool := !(s.layby.take idx).any (fun y => y.tr.dst == x.tr.dst)

/-- An item of this package's layby departs, in arrival order for its destination; what the reserve cannot hold waits for the next such
slot. Log: DEDUCED 83. -/
def relayItem (s : State) (idx : Nat) : State :=
  match s.layby[idx]? with
  | some x =>
    if !laybyFirst s idx x then s
    else match laybyPort s x with
      | some (p, m) => match s.relayTakes p m x.left with
        | some n =>
          { s with
            layby := if n = x.left then s.layby.eraseIdx idx else s.layby.set idx { x with left := x.left - n }
            bookings := s.bookings ++ [Booking.mk p m 0 noCore 0 n false] }
        | none => s
      | none => s
  | none => s

/-- LAYBY_RELAY: a relayed transfer departs its intermediate's layby. Where this package is the intermediate the item leaves in the
relay reserve; where it is the sender its credit returns (13 R258). Log: DESIGN CHOICE 78. -/
def execLaybyRelay (r : Relay) (s : State) : Ans State :=
  .next (match r with
    | .here idx => relayItem s idx
    | .away core send => match (s.core core).send send with
      | some x =>
        if x.st == .departed && x.tail == 0 && !x.relayed && x.via.isSome then
          (creditBack s x).modCore core (fun k => k.setSend send (some { x with relayed := true }))
        else s
      | none => s)

end Sys2Proof.Machine
end

