-- ==== Sys2Proof/Machine/Preempt.lean ====
section
/-! DEFINITION. Pre-emption in the six steps of 16 R314, eligibility, and restore (16 R316). Each step is one event; a restore
is one event, between whose steps nothing of the context can be seen. -/

namespace Sys2Proof.Machine

/-- A pre-emption step in the keeper's journal (19 R375). -/
def noteStep (s : State) (part slot step : Nat) : State :=
  s.note part 8 ((s.tt part).map (fun t => t.cmd.queue) |>.getD 255) slot step none

/-- The context slot that the running timetable's frames have been written to. -/
def Partition.preSlot (p : Partition) (t : Timetable) : Option Nat :=
  (p.contexts.find? (fun x => x.2.tt.cmd == t.cmd)).map (fun x => x.1)

/-- A system operation that has to end before a context is saved: a seal, scrub or decant of core state (16 R314). -/
def SysOp.coreObject (o : SysOp) : Bool := (o.op == 8 || o.op == 9 || o.op == 10) && (o.acap.space == 0 || o.acap.space == 7)

/-- A task's core has settled for its frame: no stream issues, every timed operation has delivered, every busy bit is clear,
sends and fences have ended, and no flag increment is on its way. -/
def Core.settled (k : Core) (tick : Nat) : Bool :=
  !k.latch.live && k.motor.st != .run && k.motor.st != .armed && k.pend.isEmpty && k.busy.all (fun b => b.2 ≤ tick) &&
    !k.sends.any (fun x => x.2.isSome) && k.fences.isEmpty && k.garr.isEmpty && k.casts.isEmpty &&
    !k.sysops.any SysOp.coreObject

/-- Every rack of a core has stopped at a line boundary or waits on a fault reply: those that are ending have ended (16 R314). -/
def Core.racksSettled (k : Core) : Bool := !k.racks.any (fun r => r.2.ending)

/-- No monitor of a core has been hit and is still to add its flag: the increment is on its way (10 R197). -/
def Core.monsSettled (k : Core) : Bool := !k.mons.any (fun m => m.2.state == 4)

/-- Step 3 may end. Log: DEDUCED 87. -/
def settledAll (s : State) (t : Timetable) : Bool :=
  t.incs.isEmpty && t.groups.all (fun g => g.rebase == 0) &&
    t.tasks.all (fun k =>
      (s.core k.core).settled s.tick && (s.core k.core).racksSettled && (s.core k.core).monsSettled)

/-- A monitor no longer watches its line: one that waits on a fault reply goes on waiting; one that has been hit fires (10 R197). -/
def Monitor.disarm (m : Monitor) : Monitor := if m.state = 3 then { m with state := 1 } else m

/-- Monitors of the running timetable are disarmed (16 R314, 20 R390). -/
def disarmMonitors (s : State) (part : Nat) : State :=
  match s.tt part with
  | some t => s.modCores (fun k => { k with mons := k.mons.map (fun m => (m.1, m.2.disarm)) }) (t.tasks.map (fun k => k.core))
  | none => s

/-- What the frames of a timetable record of its suspension. -/
def suspendInfo (s : State) (t : Timetable) : FrameInfo :=
  FrameInfo.mk t.cmd.image t.poisoned t.timedOut s.tick (t.timeouts + b2n t.timedOut) t.pace

/-- Writes the frame of every task of a list of cores. -/
def writeFrames (s : State) (part : Nat) (p : Partition) (slot : Nat) (f : FrameInfo) : List Nat → State
  | [] => s
  | c :: cs =>
    let by_ := s.activeKeeper (p.basins.headD 0)
    writeFrames (writeFrame s part by_ (frameVa p slot c) (frameOf c (s.core c) f) frameLines) part p slot f cs

/-- The context of a timetable that is being set aside. -/
def contextOf (s : State) (t : Timetable) : Ctx :=
  let cs := t.tasks.map (fun k => k.core)
  { tt := { t with hold := none, held := 0, timedOut := false, dry := [], timeouts := t.timeouts + b2n t.timedOut, pre := 0
                   heldArr := [] }
    tick := s.tick, byTimeout := t.timedOut, eligible := false, journal := []
    cores := cs.map (fun c => (c, s.core c))
    sysops := cs.flatMap (fun c => (s.core c).sysops.map (fun o => (c, o))) }

/-- Cores whose state has gone into frames. -/
def clearCores (s : State) : List Nat → State
  | [] => s
  | c :: cs => clearCores (s.modCore c (fun k => { Core.init with tlb := k.tlb, seq := k.seq })) cs

/-- Step 4: the frames, and with them the replies still to come, belong to the context slot. Log: DEDUCED 87. -/
def saveContext (s : State) (part : Nat) (p : Partition) (t : Timetable) (slot : Nat) : State :=
  let cs := t.tasks.map (fun k => k.core)
  let s1 := writeFrames s part p slot (suspendInfo s t) cs
  (clearCores s1 cs).modPart part (fun q =>
    { q with
      ctxs := sput none q.ctxs slot (some (contextOf s t))
      faultq := q.faultq.map (fun f => if f.ctx.isNone && cs.contains f.core then { f with ctx := some slot } else f) })

/-- The held arrivals of a partition land in their order. -/
def landHeld (s : State) (part : Nat) : List Transfer → State
  | [] => s
  | tr :: rest => landHeld (receivePeer (s.modTt part (fun t => { t with heldArr := rest })) tr) part rest

/-- Step 5: receive entries and result targets point at the frames, and the held arrivals land there in order. -/
def repoint (s : State) (part : Nat) : State :=
  match s.tt part with
  | some t => landHeld (s.modTt part (fun t => { t with windows := 0 })) part t.heldArr
  | none => s

/-- Step 6: the cores are free; an open bottle closes (20 R396). -/
def releaseCores (s : State) (part : Nat) (p : Partition) : State :=
  (s.leaveTiles part p).modPart part (fun p => { p with tt := none, csr := { p.csr with botOpen := false } })

/-- Marks step n of the running timetable as ended. -/
def stepDone (s : State) (part slot n : Nat) : State := (noteStep s part slot n).modTt part (fun t => { t with pre := n })

/-- One step of a pre-emption, where the step before it has ended and it may end. -/
def preemptStep (s : State) (part : Nat) (p : Partition) (t : Timetable) (n : Nat) : State :=
  let slot := p.freeCtx.getD 0
  let mine := (p.preSlot t).getD 0
  if n = 1 then if canHold s part p t .preempt then noteStep (placeHold s part .preempt) part slot 1 else s
  else if t.pre + 1 ≠ n ∨ !t.hold.isSome ∨ t.stop.isSome ∨ p.holding then s
  else match n with
    | 2 => stepDone s part slot 2
    | 3 =>
      if settledAll s t then
        stepDone (disarmMonitors s part) part slot 3
      else s
    | 4 => stepDone (saveContext s part p t slot) part slot 4
    | 5 => stepDone (repoint s part) part mine 5
    | 6 => releaseCores (noteStep s part mine 6) part p
    | _ => s

/-- PREEMPT: one step of a pre-emption (16 R314). Log: DEDUCED 87. -/
def execPreempt (part stepNo : Nat) (s : State) : Ans State :=
  .next (match s.part part with
    | some p => match p.tt with
      | some t => preemptStep s part p t stepNo
      | none => s
    | none => s)

/-- A suspended context may be selected: at once if it was set aside for priority; if at a timeout, when a reply has come or
the delay of PREEMPT has passed (16 R316). -/
def Ctx.due (x : Ctx) (tick rdelay : Nat) : Bool := !x.byTimeout || !x.journal.isEmpty || decide (x.tick + rdelay ≤ tick)

/-- CONTEXT_ELIGIBLE: a suspended context stands ahead of its queue's next entry (16 R307, R316). -/
def execContextEligible (part slot : Nat) (s : State) : Ans State :=
  .next (s.modPart part (fun p => p.modCtx slot (fun x =>
    if x.due s.tick p.csr.rdelay then { x with eligible := true } else x)))

/-! Restore (16 R316). -/

/-- Frames of a context by core; none where one cannot be read. -/
def readFrames (s : State) (part : Nat) (p : Partition) (slot : Nat) : List Nat → Option (List (Nat × Store Byte))
  | [] => some []
  | c :: cs =>
    match readFrame s part (frameVa p slot c), readFrames s part p slot cs with
    | some m, some r => some ((c, m) :: r)
    | _, _ => none

/-- A tile that cannot take the frame saved for it (16 R316). -/
def tileUnfit (s : State) (c : Nat) (m : Store Byte) : Bool := bitOf s.unavail c || readNat m 8 8 != featuresOf c

/-- The core of another partition in the place of a core, basin for basin in ascending order. -/
def relocate (src dst : List Nat) (c : Nat) : Nat :=
  match (src.zip dst).find? (fun b => b.1 == c / 64) with
  | some b => 64 * b.2 + c % 64
  | none => c

/-- A partition with a stack that is marked unavailable (12 R242). -/
def State.stackDown (s : State) (p : Partition) : Bool :=
  p.basins.any (fun b => !s.cellar.up.getLsbD (2 * b) || !s.cellar.up.getLsbD (2 * b + 1))

/-- The partition whose tiles a context was saved on: its own, or the one that it had been re-placed onto. -/
def Ctx.tilesOf (x : Ctx) (s : State) (part : Nat) : Nat :=
  match x.tt.tasks with
  | k :: _ => s.partOfBasin (basinOf k.core)
  | [] => part

/-- The tiles of partition n are free for a context of `part`: idle, and its own or of a partition that runs nothing. -/
def tilesFree (s : State) (part n : Nat) : Bool :=
  (s.part n).any (fun y => n == part ||
    (y.tt.isNone && y.taken.isNone && y.chosen.isNone && y.lent.isNone && y.tdi == .run && !s.stackDown y))

/-- An idle partition of the same shape, with no basin stopped by a trip and no stack unavailable, whose tiles can take every
frame; `src` names the tiles that the frames were saved on. Log: DEDUCED 88. -/
def replacement (s : State) (part src : Nat) (old : List Nat) (fs : List (Nat × Store Byte)) : Option Nat :=
  (s.parts.find? (fun q => match q.2 with
    | some y => q.1 != src && y.basins.length == old.length && tilesFree s part q.1 && !y.basins.any (bitOf s.tripped) &&
        fs.all (fun f => !tileUnfit s (relocate old y.basins f.1) f.2)
    | none => false)).map (fun q => q.1)

/-- The status with which a restore ends its context instead; none where it goes on. A context is poisoned where the keeper or
the header of a frame says so; one whose tiles lie in a basin stopped by a trip ends with THERMAL_TRIP (01 R31); one whose image or
windows, which are read again, break their rules ends with the status of a launch (00 R8); a REACHLIM written since its launch counts
from the next launch only (14 R275). Log: DEDUCED 88; DESIGN CHOICE 125. -/
def restoreRefusal (s : State) (p : Partition) (x : Ctx) (basins : List Nat) (fs : Option (List (Nat × Store Byte)))
    (img : Option Image) : Option Nat :=
  if x.tt.poisoned then some stCtxPoisoned
  else if basins.any (bitOf s.tripped) then some stThermal
  else match fs with
    | none => some stFrameInvalid
    | some l =>
      if l.any (fun f => frameInvalid f.2) then some stFrameInvalid
      else if l.any (fun f => bitOf (readNat f.2 0x1C 4) 0) then some stCtxPoisoned
      else if s.stackDown p then some stStackUnavail
      else match img with
        | none => some stImageUnreadable
        | some m =>
          if imageBad p Limits.again x.tt.cmd.image m then some stTtInvalid
          else if (List.range m.windows).any (windowBad s p m) then some stWindowInvalid
          else none

/-- A core as a restore loads it onto its tile: what its frame does not hold comes from its saving; GMEMB is rebuilt from the
image; it waits again from now (14 R282); its guards name the engines where they are now (11 R205); its reachtick is the saved one until
the next re-base (09 R181). Log: DEDUCED 55, 76. -/
def restoreCore (s : State) (at_ : Nat → Nat) (saved : Core) (m : Store Byte) (gmemb : Word) (old : Core) : Core :=
  let k := coreOf m saved
  { k with
    csr := { k.csr with gmemb := gmemb }
    tlb := old.tlb
    seq := max k.seq old.seq
    guards := k.guards.map (fun g => { g with core := at_ g.core })
    lock := k.lock.map (fun w => { w with since := s.tick, held := 0 })
    motor := { k.motor with nextAt := s.tick }
    butty := { k.butty with nextAt := s.tick } }

/-- A journal entry of core c applied: the reply to the waiting sy.ecall where bit 6 of its target is set, else a fault reply (16
R315, R316). -/
def applyReply (s : State) (c : Nat) (e : Nat × Word × Nat) : State :=
  if bitOf e.1 6 then
    match (s.core c).butty.call.bind (s.core c).call with
    | some r => replyCall s c r e.2.1
    | none => s
  else replyNow s c (bitOf e.1 7) (e.1 % 64) (e.2.1 == 1)

/-- The journal of a frame applied, in entry order. -/
def applyJournal (s : State) (at_ : Nat → Nat) (f : Nat × Store Byte) : State :=
  (journalOf f.2).foldl (fun s e => applyReply s (at_ f.1) e) s

/-- Every monitor of a core that was armed fires once and is free; one that waits on a fault reply waits on. -/
def fireMonitors (s : State) (c : Nat) : State :=
  (s.core c).mons.foldl (fun s m =>
    if m.2.state = 0 ∨ m.2.state = 2 then s
    else (s.addFlag c m.2.flag m.2.inc).modCore c (fun k => k.setMon m.1 Monitor.free)) s

/-- Loads the frames of a context onto its tiles. -/
def loadFrames (s : State) (x : Ctx) (img : Image) (at_ : Nat → Nat) : List (Nat × Store Byte) → State
  | [] => s
  | f :: fs =>
    let saved := match x.cores.find? (fun q => q.1 == f.1) with
      | some q => q.2
      | none => Core.init
    let task := (x.tt.tasks.findIdx? (fun k => k.core == f.1)).getD 0
    loadFrames (s.modCore (at_ f.1) (fun old =>
      { restoreCore s at_ saved f.2 (img.gmemb task) old with
        sysops := (x.sysops.filter (fun o => o.1 == f.1)).map (fun o => o.2) })) x img at_ fs

/-- A bit set of cores moved. -/
def moveSet (at_ : Nat → Nat) (n : Nat) : Nat := coreSet (((List.range 256).filter (bitOf n)).map at_)

/-- A group whose members have moved. -/
def moveGroup (at_ : Nat → Nat) (g : Group) : Group :=
  { g with
    map := moveSet at_ g.map, arrivals := moveSet at_ g.arrivals
    named := (List.range 256).foldl (fun n c => sput 0 n (at_ c) (sget 0 g.named c)) [] }

/-- The timetable of a context, on the tiles it is restored to. -/
def Timetable.moved (t : Timetable) (at_ : Nat → Nat) : Timetable :=
  { t with
    tasks := t.tasks.map (fun k => { k with core := at_ k.core })
    groups := t.groups.map (moveGroup at_) }

/-- A context ended by a restore: its slot and its receive entries are free, and its command is completed STOPPED. -/
def endContext (s : State) (part slot : Nat) (p : Partition) (x : Ctx) (status : Nat) : State :=
  let s1 := (freeReceive s p.csr.fwinBase x.tt.windows).modPart part (fun p =>
    { p with
      ctxs := sput none p.ctxs slot none
      faultq := p.faultq.filter (fun f => f.ctx != some slot) })
  complete (s1.note part 10 x.tt.cmd.queue slot status (some x.tt.cmd)) part x.tt.cmd clStopped status

/-- The notes of a restore's steps (19 R375). -/
def noteRestore (s : State) (part slot : Nat) (x : Ctx) : List Nat → State
  | [] => s
  | n :: ns => noteRestore (s.note part 9 x.tt.cmd.queue slot n (some x.tt.cmd)) part slot x ns

/-- The cores of n entries of the window table from `first`, as a restore moves them (13 R253, 16 R316). -/
def moveWindows (s : State) (at_ : Nat → Nat) (first : Nat) : Nat → State
  | 0 => s
  | n + 1 =>
    let s1 := moveWindows s at_ first n
    let e := first + n
    if s1.winDir e = 0 then s1
    else { s1 with windows := writeNat s1.windows (64 * e + 8) 1 (at_ (s1.winCore e)) }

/-- The window bytes of a timetable rebuilt from its image, for the tiles it is restored to; their status since launch stays. -/
def rebuildWindows (s : State) (p : Partition) (at_ : Nat → Nat) (m : Image) : State :=
  { moveWindows (loadWindows s p m m.windows) at_ p.csr.fwinBase m.windows with wstat := s.wstat }

/-- Restores a context onto the tiles of a partition `home`, its own or its replacement, from those of basins `old`. It stays its own
partition's: only its tiles and core ids are new (16 R317). The core ids of its image are those of its own partition. Log: DEDUCED 88. -/
def restoreOn (s : State) (part slot home : Nat) (p : Partition) (old : List Nat) (x : Ctx) (img : Image)
    (fs : List (Nat × Store Byte)) : State :=
  let at_ := match s.part home with
    | some y => relocate old y.basins
    | none => id
  let fromImage := match s.part home with
    | some y => relocate p.basins y.basins
    | none => id
  let cs := x.tt.tasks.map (fun k => at_ k.core)
  let s0 := (s.modPart home (fun y => if home = part then y else { y with lent := some part })).modPart part (fun p =>
    { p with
      ctxs := sput none p.ctxs slot none, chosen := none
      faultq := p.faultq.map (fun f => if f.ctx == some slot then { f with ctx := none, core := at_ f.core } else f) })
  let s1 := (rebuildWindows (loadFrames s0 x img at_ fs) p fromImage img).modPart part (fun p =>
    { p with tt := some (x.tt.moved at_), fmts := img.formatTable })
  let s2 := fs.foldl (fun s f => applyJournal s at_ f) s1
  noteRestore ((cs.foldl fireMonitors s2).settlePart part x.tt.pace) part slot x [1, 2, 3, 4, 5, 6]

/-- The reads of a restore that ends its context, as they are logged (18 R345). -/
def logRestore (s : State) (part slot : Nat) (p : Partition) (x : Ctx) (status : Nat) : State :=
  if status = stFrameInvalid then
    x.tt.tasks.foldl (fun s k => logSpace s part (frameVa p slot k.core) (64 * frameLines)) s
  else if status = stImageUnreadable then logImage s part x.tt.cmd.image else s

/-- The selected context restored, re-placed, or ended; one whose tiles another partition uses waits for them. -/
def restoreContext (s : State) (part slot : Nat) (p : Partition) (x : Ctx) : State :=
  let fs := readFrames s part p slot (x.tt.tasks.map (fun k => k.core))
  let img := readImage s part x.tt.cmd.image
  let src := x.tilesOf s part
  let old := ((s.part src).map (fun y => y.basins)).getD []
  let finish := fun (st : Nat) => whenPaid s part 1 (fun s1 =>
    endContext ((logRestore s1 part slot p x st).modPart part (fun p => { p with chosen := none })) part slot p x st)
  match restoreRefusal s p x old fs img, fs, img with
  | some st, _, _ => finish st
  | none, some l, some m =>
    if l.any (fun f => tileUnfit s f.1 f.2) then
      match replacement s part src old l with
      | some home => restoreOn s part slot home p old x m l
      | none => finish stFeature
    else if tilesFree s part src then restoreOn s part slot src p old x m l
    else s
  | _, _, _ => s

/-- RESTORE: the keeper restores the context it has selected (16 R316). Log: DESIGN CHOICE 86. -/
def execRestore (part slot : Nat) (s : State) : Ans State :=
  .next (match s.part part with
    | some p =>
      if p.chosen != some slot || p.tt.isSome || p.lent.isSome || p.holding then s
      else match sget none p.ctxs slot with
        | some x => restoreContext s part slot p x
        | none => s
    | none => s)

end Sys2Proof.Machine
end

