-- ==== Sys2Proof/Machine/SystemOps.lean ====
section
/-! DEFINITION. The ends of the untimed system operations: keyld, keyrot, seal, decant, scrub, fbind and attest, and the events of
their keys (18 R346-R352, R361-R367; 20 R392-R396). -/

namespace Sys2Proof.Machine

/-! Accesses of a system operation. -/

/-- What an access of a system operation gives: a value, a wait for the keeper's reply, an abort reply, or a failed line. -/
inductive Io (α : Type) where
  | ok (v : α)
  | wait
  | abort
  | integrity
  deriving DecidableEq, Repr

/-- The issuer of a system operation: its core, the target that its own scratchpad stands for, its partition, and whether its
accesses of the cellar are counted, as those of a bottling are (12 R241). -/
structure Issuer where
  core : Nat
  target : Target
  part : Nat
  counts : Bool
  deriving DecidableEq, Repr

/-- The partition whose tables an operation's accesses go through: that of its task, wherever it runs, also while its context is
suspended (16 R314, R317); for a control core the one that WSEL names. -/
def State.tablesOf (s : State) (i : Issuer) : Nat := if isTile i.core then i.part else s.enginePart i.core

/-- A stop of the engine's access, as a system operation meets it: a failed line and a dropped packet are logged (17 R318, 18
R345). Log: DEDUCED 92. -/
def sysStop {α : Type} (s : State) (i : Issuer) (env : SysEnv) : Stop → State × Io α
  | .page .. => (s, if env.pageAbort then .abort else .wait)
  | .frozen => (s, .wait)
  | .integrity pa => (s.logIntegrity i.core i.part pa, .integrity)
  | .fence pa => (s.logFence i.part pa, .integrity)

/-- Counts the cellar granules of places that an operation reaches, in an access that began at `first` (12 R241). -/
def sysCount (s : State) (i : Issuer) (first va : Nat) (ps : List (Place × Nat)) : State :=
  if i.counts then countPlaces s first va ps else s

/-- n bytes at an offset of a capability's range. -/
def sysRead (s : State) (i : Issuer) (env : SysEnv) (cap : Cap) (off n : Nat) : State × Io (List Byte) :=
  if cap.space = 0 then (logTarget s i.part i.target (cap.base + off) n, .ok (targetBytes s i.part i.target (cap.base + off) n))
  else match resolveAllFor s (s.tablesOf i) i.core cap false (runsOf cap off n) with
    | (s1, .stop x) => sysStop s1 i env x
    | (s1, .ok ps) => match readPlaces s1 ps with
      | .ok bs => (sysCount s1 i (cap.base + off) (cap.base + off) ps, .ok bs)
      | .stop x => sysStop s1 i env x

/-- The label of each 64 bytes of a capability's range: that of the line which holds the first of them (20 R392). Log: DEDUCED 94. -/
def sysLabels (s : State) (i : Issuer) (env : SysEnv) (cap : Cap) (n : Nat) : State × Io (List (BitVec 16)) :=
  let firsts := (List.range ((n + 63) / 64)).map (fun k => (64 * k, 1))
  if cap.space = 0 then
    (s, .ok (firsts.map (fun r =>
      let line := (cap.base + r.1) / 64
      match i.target with
      | .core c => sget 0 (s.core c).mem.labels line
      | .frame _ va _ => BitVec.ofNat 16 (frameNum s i.part va (0x20000 + 2 * line) 2))))
  else match resolveAllFor s (s.tablesOf i) i.core cap false firsts with
    | (s1, .stop x) => sysStop s1 i env x
    | (s1, .ok ps) => (s1, .ok (ps.map (fun p => labelAt s1 p.1)))

/-- Writes lines of an access that began at `first`: each run with its bytes and its label, where one is given. Lines before one
that stops it stay written. -/
def sysWriteRuns (s : State) (i : Issuer) (env : SysEnv) (cap : Cap) (first : Nat) :
    List (Nat × Nat) → List Byte → List (Option (BitVec 16)) → State × Io Unit
  | [], _, _ => (s, .ok ())
  | r :: rs, bs, ls =>
    let label := ls.headD none
    let next := fun (s : State) => sysWriteRuns s i env cap first rs (bs.drop r.2) ls.tail
    if cap.space = 0 then next (targetPut s i.part i.target (cap.base + r.1) (bs.take r.2) label)
    else match resolveFor s (s.tablesOf i) i.core cap r.1 true with
      | (s1, .stop x) => sysStop s1 i env x
      | (s1, .ok p) => match writePlace s1 i.core p (bs.take r.2) label with
        | .ok s2 => next (sysCount s2 i first (cap.base + r.1) [(p, r.2)])
        | .stop x => sysStop s1 i env x

/-- Writes bytes at an offset of a capability's range; their lines keep their labels. -/
def sysWrite (s : State) (i : Issuer) (env : SysEnv) (cap : Cap) (off : Nat) (bs : List Byte) : State × Io Unit :=
  sysWriteRuns s i env cap (cap.base + off) (runsOf cap off bs.length) bs []

/-- The line of a capability's range that holds an offset fails its check from now on. -/
def breakAt (s : State) (i : Issuer) (cap : Cap) (off : Nat) : State :=
  match resolveFor s (s.tablesOf i) i.core cap (off / 64 * 64) false with
  | (_, .ok p) => breakLine s [(p, 64)]
  | _ => s

/-- What the environment does to the lines that an operation meets: one whose check fails, named by its offset in acap, or, past
the end of that, in xcap. Log: DEDUCED 92. -/
def meetEnv (s : State) (i : Issuer) (env : SysEnv) (o : SysOp) : State :=
  if !env.integrity then s
  else if o.acap.space = 3 ∧ env.bytes < o.acap.length then breakAt s i o.acap env.bytes
  else
    let off := if o.acap.space = 3 then env.bytes - o.acap.length else env.bytes
    if o.xcap.space = 3 ∧ off < o.xcap.length then breakAt s i o.xcap off else s

/-- How a system operation ends: status, detail and value of its result record; none while it cannot end. -/
abbrev SysEnd := State × Option (Nat × Nat × Nat)

/-- Goes on with what an access gave; an abort or a failed line ends the operation with the statuses named. -/
def Io.then {α : Type} (x : State × Io α) (abort integrity : Nat × Nat) (go : State → α → SysEnd) : SysEnd :=
  match x with
  | (s, .ok v) => go s v
  | (s, .wait) => (s, none)
  | (s, .abort) => (s, some (abort.1, 0, abort.2))
  | (s, .integrity) => (s, some (integrity.1, 0, integrity.2))

/-! Keys (18 R346-R352). -/

/-- A promotion may take place (18 R347). -/
def Keys.canPromote (k : Keys) : Bool := k.pending != 0 && k.retiring == 0 && k.active != 0

/-- The stream that a keyrot names (18 R363). -/
def SysOp.rotates (o : SysOp) : KeyStream :=
  if bits o.trig 7 0 = 0 then .cellar else .fabric (bits o.trig 31 16) false

/-- A keyrot of the partition for a stream that has still to be decided, promotable by now: P is no earlier than T+2 (18 R363). -/
def SysOp.wants (o : SysOp) (part tick : Nat) (k : KeyStream) : Bool :=
  o.op == 7 && o.part == part && o.stage == 0 && o.rotates == k && o.ready ≤ tick

/-- The outstanding keyrots of a list, one of them marked. -/
def markFirst (f : SysOp → Bool) (g : SysOp → SysOp) : List SysOp → List SysOp
  | [] => []
  | o :: os => if f o then g o :: os else o :: markFirst f g os

/-- The first core, running or set aside, with a keyrot that wants a promotion. -/
def wantsAt (s : State) (part : Nat) (k : KeyStream) : Option Nat :=
  (s.cores.find? (fun q => q.2.sysops.any (fun o => o.wants part s.tick k))).map (fun q => q.1)

/-- The slot of a suspended context with such a keyrot. -/
def wantsSlot (s : State) (p : Partition) (part : Nat) (k : KeyStream) : Option Nat :=
  (p.contexts.find? (fun x => x.2.sysops.any (fun o => o.2.wants part s.tick k))).map (fun x => x.1)

/-- Changes every outstanding system operation, running or set aside, that a predicate accepts. -/
def State.mapSysOps (s : State) (f : SysOp → SysOp) : State :=
  let s1 := s.mapCores (fun _ k => { k with sysops := k.sysops.map f })
  { s1 with parts := s1.parts.map (fun q => (q.1, q.2.map (fun p =>
      { p with ctxs := p.ctxs.map (fun x => (x.1, x.2.map (fun y =>
        { y with sysops := y.sysops.map (fun o => (o.1, f o.2)) }))) }))) }

/-- The cellar stacks of a partition, two to a basin. -/
def Partition.stacks (p : Partition) : List Nat := p.basins.flatMap (fun b => [2 * b, 2 * b + 1])

/-- The keys after a promotion; that of the cellar starts the walkers, one for each stack (18 R348, R349). -/
def promoteStream (s : State) (part : Nat) (p : Partition) (k : KeyStream) (x : Keys) : State :=
  let p1 := p.setKeys k x.promote
  s.setPart part (if k = .cellar then { p1 with walk := p1.stacks.map (fun _ => 0), rewritten := 0 } else p1)

/-- The first operation of a list of pairs that a predicate accepts, changed. -/
def markPair (f : SysOp → Bool) (g : SysOp → SysOp) : List (Nat × SysOp) → List (Nat × SysOp)
  | [] => []
  | o :: os => if f o.2 then (o.1, g o.2) :: os else o :: markPair f g os

/-- KEY_PROMOTION: a keyrot's promotion (18 R348, R363). Of several keyrots that wait, the first is served and the others meet the
retiring key. A receiver's copy of a fabric stream is promoted by the first flit of its new phase, not here. Log: DEDUCED 90. -/
def execKeyPromotion (part : Nat) (stream : KeyStream) (s : State) : Ans State :=
  .next (match s.part part with
    | some p => match p.keysOf stream with
      | some x =>
        if !x.canPromote then s
        else
          let one := fun (o : SysOp) => { o with stage := 1, aux := x.pending }
          match wantsAt s part stream, wantsSlot s p part stream with
          | some c, _ =>
            let s1 := s.modCore c (fun k => { k with sysops := markFirst (fun o => o.wants part s.tick stream) one k.sysops })
            promoteStream s1 part p stream x
          | none, some slot =>
            promoteStream s part (p.modCtx slot (fun y => { y with
              sysops := markPair (fun o => o.wants part s.tick stream) one y.sysops })) stream x
          | none, none => s
      | none => s
    | none => s)

/-- Some line of a block carries a phase. -/
def Cellar.blockHas (k : Cellar) (b : Nat) (phase : Bool) : Bool :=
  (List.range 64).any (fun i => (k.mdOf (64 * b + i)).phase == phase)

/-- No block of a stack from i to before j carries a phase. -/
def walkClear (k : Cellar) (stack : Nat) (phase : Bool) (i j : Nat) : Bool :=
  (List.range (j - i)).all (fun n => !k.blockHas (stack * stackBlocks + i + n) phase)

/-- The lines of a block whose check fails: a rewrite writes them back poisoned (18 R343, R345). -/
def Cellar.badLines (k : Cellar) (b : Nat) : List Nat :=
  ((List.range 64).map (fun i => 64 * b + i)).filter (fun l => !k.lineOk l)

/-- Lines that a rewrite of a block poisons: those that fail, or all where the major counter is full (18 R343). -/
def Cellar.poisons (k : Cellar) (b : Nat) : Nat := if majorMax ≤ k.majorOf b then 64 else (k.badLines b).length

/-- The walkers after that of stack n has passed the blocks below one: none is left once every one has passed its whole stack. -/
def walkTo (walk : List Nat) (n passed : Nat) : List Nat :=
  let w := walk.set n passed
  if w.all (fun i => i == stackBlocks) then [] else w

/-- CELLAR_KEY_WALK: a walker looks at the next block of its stack that carries the retiring phase and rewrites it; the lines that
fail are logged (18 R345, R349). `block` counts the partition's blocks in ascending address, 2^24 to a stack. -/
def execCellarKeyWalk (part block : Nat) (s : State) : Ans State :=
  .next (match s.part part with
    | some p =>
      let n := block / stackBlocks
      let b := block % stackBlocks
      match p.walk[n]?, p.stacks[n]? with
      | some i, some st =>
        let old := p.cellarKeys.retiring % 2 == 1
        if b < i || !walkClear s.cellar st old i b then s
        else
          let blk := st * stackBlocks + b
          let p1 := { p with walk := walkTo p.walk n (b + 1) }
          if s.cellar.blockHas blk old then
            { s.logLines part (s.cellar.badLines blk) with
              cellar := s.cellar.rewriteBlock (p.cellarKeys.active % 2 == 1) blk }.setPart part
              { p1 with rewritten := p.rewritten + 1 + s.cellar.poisons blk * 2 ^ 48 }
          else s.setPart part p1
      | _, _ => s
    | none => s)

/-- A departed send of the old phase of a fabric stream is still without its receipt (18 R348). -/
def oldSends (s : State) (part h phase : Nat) : Bool :=
  s.cores.any (fun q => q.2.sends.any (fun x => match x.2 with
    | some y => y.part == part && !y.loopback && s.winKey y.entry == h && (y.st != .booked || y.wire != []) && y.phase == phase
    | none => false))

/-- A transfer of the old phase of a fabric stream is still to be opened (18 R348). -/
def oldArrivals (s : State) (part h phase : Nat) : Bool :=
  let old := fun (tr : Transfer) => tr.dstPart == part && tr.handle == h && !tr.loopback && tr.phase == phase
  s.agenda.any (fun e => (arrivalOf e.2).any old) ||
    (match s.tt part with
     | some t => t.heldArr.any old
     | none => false)

/-- The retiring key of a stream is needed by nothing any more (18 R348). A request of the cellar performs and completes at one
boundary, so none is outstanding. Log: DEDUCED 133. -/
def retiringFree (s : State) (part : Nat) (p : Partition) (k : KeyStream) (x : Keys) : Bool :=
  x.retiring != 0 && (match k with
    | .cellar => p.walk.isEmpty
    | .fabric h false => !oldSends s part h (x.retiring % 2)
    | .fabric h true => !oldArrivals s part h (x.retiring % 2)
    | _ => true)

/-- A keyrot at the end of its rotation, with what its result holds settled; one that met the retiring key is turned away (18 R363).
-/
def SysOp.rotated (o : SysOp) (part : Nat) (k : KeyStream) (active value : Nat) : SysOp :=
  if o.op = 7 ∧ o.part = part ∧ o.rotates = k then
    (if o.stage = 0 then { o with stage := 3, aux := active }
     else if o.stage = 1 then { o with stage := 2, aux := o.aux + value * 2 ^ 64 }
     else o)
  else o

/-- RETIRING_KEY_DESTROYED: the key goes; the rotation has ended, and a keyrot that met it ends RETIRING_HELD (18 R348, R350,
R363). Log: DEDUCED 90. -/
def execRetiringKeyDestroyed (part : Nat) (stream : KeyStream) (s : State) : Ans State :=
  .next (match s.part part with
    | some p => match p.keysOf stream with
      | some x =>
        if retiringFree s part p stream x then
          (s.setPart part (p.setKeys stream { x with retiring := 0, retiringKey := [] })).mapSysOps (fun o =>
            o.rotated part stream x.active (if stream = .cellar then p.rewritten else 0))
        else s
      | none => s
    | none => s)

/-- PENDING_KEY_DERIVE: the keeper derives the next vintage of a stream with an empty pending slot and no retiring key
(18 R347, R352). -/
def execPendingKeyDerive (part : Nat) (stream : KeyStream) (s : State) : Ans State :=
  .next (match s.part part with
    | some p => match p.keysOf stream with
      | some x =>
        if x.active != 0 && x.pending == 0 && x.retiring == 0 then
          s.setPart part (p.setKeys stream { x with pending := x.active + 1, pendingKey := s.deriveKey p stream (x.active + 1) })
        else s
      | none => s
    | none => s)

/-! keyld, keyrot. -/

/-- The streams that a keyld names (18 R362): of UCIe and the fabric, both directions. -/
def keyldStreams (v : Word) : List KeyStream :=
  if bits v 7 0 = 0 then [.cellar]
  else if bits v 7 0 = 1 then [.ucie false, .ucie true]
  else [.fabric (bits v 31 16) false, .fabric (bits v 31 16) true]

/-- A session of the responder. -/
def Spdm.session (x : Spdm) (id : Nat) : Option Session := x.sessions.find? (fun y => y.id == id)

/-- The partition's wrapping key, from the SPDM session of its tenant; none where that session has ended (18 R362).
Log: DEDUCED 91. -/
def State.wrapping (s : State) (p : Partition) : Option (List Byte) :=
  (p.session.bind s.towpath.spdm.session).map (fun x => Config.wrapKey x.secret)

/-- The vintage that a key loaded into a pending slot takes. -/
def Keys.nextVintage (k : Keys) : Nat := if k.pending = 0 then k.active + 1 else k.pending

/-- Loads a key into the pending slot of a stream. -/
def State.loadPending (s : State) (part : Nat) (key : List Byte) (k : KeyStream) : State :=
  s.modPart part (fun p => match p.keysOf k with
    | some x => p.setKeys k { x with pending := x.nextVintage, pendingKey := s.halfFor p k key }
    | none => p)

/-- keyld: a blob of 96 bytes unwrapped into a pending slot (18 R362). Log: DEDUCED 91. -/
def endKeyld (s : State) (i : Issuer) (env : SysEnv) (o : SysOp) : SysEnd :=
  let v := o.ports.getD 1 0
  let part := bits v 10 8
  let ks := keyldStreams v
  Io.then (sysRead s i env o.acap 0 96) (2, 0) (2, 0) (fun s blob =>
    match s.part part with
    | none => (s, some (2, 0, 0))
    | some p =>
      let xs := ks.filterMap p.keysOf
      if xs.any (fun x => x.retiring != 0) then (s, some (1, 0, 0))
      else match xs, (s.wrapping p).bind (fun w => Config.unwrapKey w blob) with
        | x :: _, some key => (ks.foldl (fun s k => s.loadPending part key k) s, some (0, x.nextVintage, 0))
        | _, _ => (s, some (2, 0, 0)))

/-- keyrot: the statuses that promote nothing, or the end of the rotation. -/
def endKeyrot (s : State) (o : SysOp) : SysEnd :=
  match (s.part o.part).bind (fun p => p.keysOf o.rotates) with
  | none => (s, some (3, 0, 0))
  | some x =>
    if o.stage = 3 then (s, some (2, o.aux, 0))
    else if o.stage = 2 then (s, some (0, o.aux % 2 ^ 64, o.aux / 2 ^ 64))
    else if o.stage = 1 then (s, none)
    else if x.retiring ≠ 0 then (s, some (2, x.active, 0))
    else if x.pending = 0 then (s, some (1, x.active, 0))
    else (s, none)

/-! Objects of seal, decant and scrub. -/

/-- The tiles and casks of a space 7 capability. -/
def Cap.tiles (c : Cap) : List Nat := (List.range 8).filter (bitOf c.base)
def Cap.casks (c : Cap) : List Nat := (List.range 4).filter (fun q => bitOf c.base (8 + q))

/-- Bytes of an object: its range, or what 20 R392 counts for tiles and casks. -/
def Cap.objLen (c : Cap) : Nat := if c.space = 7 then 32768 * c.tiles.length + 131072 * c.casks.length else c.length

/-- The bytes of tiles and casks in the order of a shard (20 R392). -/
def coreObject (k : Core) (cap : Cap) : List Byte :=
  cap.tiles.flatMap (fun t => (List.range 32).flatMap (fun r => rowBytes (sget 0 k.regs.m (32 * t + r)))) ++
  cap.casks.flatMap (fun q =>
    readBytes k.press.codes (65536 * q) 65536 ++
    (List.range 8192).flatMap (fun n =>
      toBytes 4 (scaleWord (sget Val.one k.press.bsc (8192 * q + n))) ++
      toBytes 4 (scaleWord (sget Val.one k.press.lsc (8192 * q + n)))))

/-- Writes a tile from its 32 KiB. -/
def putTile (k : Core) (t : Nat) (bs : List Byte) : Core :=
  (List.range 32).foldl (fun k r => k.setM (32 * t + r) (bytesRow ((bs.drop (1024 * r)).take 1024)) allRow) k

/-- Writes a cask from its codes and scale plane. -/
def putCask (k : Core) (q : Nat) (bs : List Byte) : Core :=
  let w := fun (n odd : Nat) => ofScaleWord (ofBytes ((bs.drop (65536 + 8 * n + 4 * odd)).take 4))
  let plane := fun (old : Store Val) (odd : Nat) => (List.range 8192).foldl (fun p n => sput Val.one p (8192 * q + n) (w n odd)) old
  { k with press := { k.press with
      codes := writeBytes k.press.codes (65536 * q) (bs.take 65536)
      bsc := plane k.press.bsc 0, lsc := plane k.press.lsc 1 } }

/-- Writes the tiles and casks of a capability from a payload. -/
def putObject (k : Core) (cap : Cap) (bs : List Byte) : Core :=
  let nt := cap.tiles.length
  let k1 := cap.tiles.zipIdx.foldl (fun k x => putTile k x.1 (bs.drop (32768 * x.2))) k
  cap.casks.zipIdx.foldl (fun k x => putCask k x.1 (bs.drop (32768 * nt + 131072 * x.2))) k1

/-- The payload of a shard: an object's bytes, with the label of each line for spaces 0 and 3 (20 R392). -/
def payloadOf (s : State) (i : Issuer) (env : SysEnv) (cap : Cap) : State × Io (List Byte) :=
  if cap.space = 7 then (s, .ok (coreObject (s.core i.core) cap))
  else match sysRead s i env cap 0 cap.length with
    | (s1, .ok bs) => match sysLabels s1 i env cap cap.length with
      | (s2, .ok ls) => (s2, .ok (bs ++ ls.flatMap (fun l => toBytes 2 l.toNat)))
      | (s2, .wait) => (s2, .wait)
      | (s2, .abort) => (s2, .abort)
      | (s2, .integrity) => (s2, .integrity)
    | (s1, x) => (s1, x)

/-- The payload written back over an object; capability tags are cleared (17 R327). Where a line cannot be written, none is (20 R396).
-/
def putPayload (s : State) (i : Issuer) (env : SysEnv) (cap : Cap) (bs : List Byte) : State × Io Unit :=
  if cap.space = 7 then (s.modCore i.core (fun k => putObject k cap bs), .ok ())
  else
    let runs := runsOf cap 0 cap.length
    let labels := runs.map (fun r =>
      let n := (r.1 + 63) / 64
      if 64 * n < cap.length then some (BitVec.ofNat 16 (ofBytes ((bs.drop (cap.length + 2 * n)).take 2))) else none)
    match sysWriteRuns s i env cap cap.base runs bs labels with
    | (s1, .ok u) => (s1, .ok u)
    | (s1, x) => ({ s with logs := s1.logs }, x)

/-! Shards and manifests (20 R392, R393). -/

/-- The bottle key of an origin and vintage: the partition's own, or one received from the origin (20 R395). -/
def keyFor (s : State) (part : Nat) (p : Partition) (pos origin vintage : Nat) : Option (List Byte) :=
  if pos = s.position ∧ origin = part ∧ vintage ≠ 0 ∧ vintage ≤ p.bottleKeys.active then some (s.bottleKey p)
  else ((s.custody p).peerKeys.find? (fun k => k.pos == pos && k.part == origin && k.vintage == vintage)).map (fun k => k.key)

/-- n bytes from an offset, as a number. -/
def fieldAt (bs : List Byte) (off n : Nat) : Nat := ofBytes ((bs.drop off).take n)

/-- Every byte from an offset is zero. -/
def zeroAt (bs : List Byte) (off n : Nat) : Bool := fieldAt bs off n == 0

/-- The first 48 bytes of a shard header. -/
def shardHead (s : State) (part : Nat) (space step len vintage : Nat) (iv : List Byte) : List Byte :=
  toBytes 4 0xA4805EA1 ++ toBytes 2 1 ++ toBytes 1 space ++ toBytes 1 part ++ toBytes 8 step ++ toBytes 8 len ++
    toBytes 1 s.position ++ toBytes 3 0 ++ toBytes 4 vintage ++ fit 12 iv ++ toBytes 4 0

/-- A whole shard, padded to a line. -/
def shardBytes (head key iv payload : List Byte) : List Byte :=
  let ct := gcmSeal key iv payload
  let tag := fit 16 (Config.gcmTag key iv head ct)
  let digest := fit 32 (Config.shake256 (head ++ tag ++ ct) 32)
  let body := head ++ tag ++ digest ++ toBytes 160 0 ++ ct
  body ++ List.replicate ((64 - body.length % 64) % 64) 0

/-- A shard header with its magic, version and reserved fields in order. -/
def shardHeadOk (b : List Byte) : Bool :=
  fieldAt b 0 4 == 0xA4805EA1 && fieldAt b 4 2 == 1 && (fieldAt b 6 1 == 0 || fieldAt b 6 1 == 3 || fieldAt b 6 1 == 7) &&
    1 ≤ fieldAt b 7 1 && fieldAt b 7 1 ≤ 4 && fieldAt b 0x18 1 ≤ 127 && zeroAt b 0x19 3 && zeroAt b 0x2C 4 && zeroAt b 0x60 160

/-- A shard's digest checks, against itself and against a manifest entry's. -/
def shardDigest (b : List Byte) (payload : Nat) : List Byte :=
  fit 32 (Config.shake256 (b.take 0x40 ++ (b.drop 0x100).take payload) 32)

/-- A shard's tag checks under a key. -/
def shardTagOk (key b : List Byte) (payload : Nat) : Bool :=
  fit 16 (Config.gcmTag key ((b.drop 0x20).take 12) (b.take 0x30) ((b.drop 0x100).take payload)) == (b.drop 0x30).take 16

/-- The payload length that a shard's space and object length give: whole lines for spaces 0 and 3. -/
def payloadFor (space len : Nat) : Nat := if space = 7 then len else len + 2 * ((len + 63) / 64)

/-- The length of a shard of that payload. -/
def shardSize (payload : Nat) : Nat := (256 + payload + 63) / 64 * 64

/-- Bytes of a manifest. -/
def manifestLen (b : List Byte) : Nat := 0x240 + 64 * fieldAt b 6 2

/-- Entry n of a manifest. -/
def manifestEntry (b : List Byte) (n : Nat) : List Byte := (b.drop (0x240 + 64 * n)).take 64

/-- The entries of a manifest. -/
def manifestEntries (b : List Byte) : List (List Byte) := (List.range (fieldAt b 6 2)).map (manifestEntry b)

/-- The IV of a manifest: creation tick, origin position and partition, two zero bytes. -/
def manifestIv (b : List Byte) : List Byte := (b.drop 0x10).take 8 ++ (b.drop 0x29).take 2 ++ [0, 0]

/-- A manifest's tag, over every other byte. -/
def manifestTag (key b : List Byte) : List Byte :=
  fit 16 (Config.gcmTag key (manifestIv b) [] (b.take 0x30 ++ b.drop 0x40))

/-- Bytes replaced at an offset. -/
def patch (b : List Byte) (off : Nat) (new : List Byte) : List Byte := b.take off ++ new ++ b.drop (off + new.length)

/-- A manifest entry after its shard's header has been read: its lengths and digest (20 R394). -/
def fillEntry (e hd : List Byte) : List Byte :=
  let pl := payloadFor (fieldAt hd 6 1) (fieldAt hd 0x10 8)
  (e.take 8) ++ toBytes 8 (shardSize pl) ++ (hd.drop 0x10).take 8 ++ (e.drop 24).take 8 ++ (hd.drop 0x40).take 32

/-- Fills the entries of a draft manifest from the shard headers: none where a header's step differs (status 1), or a header is no
shard's or of another space than its entry (status 4). -/
def fillEntries (s : State) (i : Issuer) (env : SysEnv) (area : Cap) (step : Nat) :
    List (List Byte) → State × Io (Option (List (List Byte)) × Nat)
  | [] => (s, .ok (some [], 0))
  | e :: es =>
    match sysRead s i env area (fieldAt e 0 8) 256 with
    | (s1, .wait) => (s1, .wait)
    | (s1, .abort) => (s1, .abort)
    | (s1, .integrity) => (s1, .integrity)
    | (s1, .ok hd) =>
      if !shardHeadOk hd || fieldAt hd 6 1 != fieldAt e 24 1 then (s1, .ok (none, 4))
      else if fieldAt hd 8 8 ≠ step then (s1, .ok (none, 1))
      else match fillEntries s1 i env area step es with
        | (s2, .ok (some r, n)) => (s2, .ok (some (fillEntry e hd :: r), n))
        | x => x

/-- The head of a sealed manifest: step, creation tick, origin and vintage, and its tag. -/
def sealManifest (s : State) (part : Nat) (p : Partition) (draft : List Byte) (es : List (List Byte)) (step : Nat) : List Byte :=
  let b := patch draft 8 (toBytes 8 step ++ toBytes 8 s.tick)
  let b := patch b 0x29 (toBytes 1 s.position ++ toBytes 1 part)
  let b := patch b 0x2C (toBytes 4 p.bottleKeys.active)
  let b := b.take 0x240 ++ es.flatten
  patch b 0x30 (manifestTag (s.bottleKey p) b)

/-- seal mode 0: the object into a shard under the active bottle key (20 R394). Log: DEDUCED 94. -/
def sealShard (s : State) (i : Issuer) (env : SysEnv) (o : SysOp) (p : Partition) : SysEnd :=
  if p.bottleKeys.active = 0 then (s, some (6, 0, 0))
  else
    Io.then (payloadOf s i env o.acap) (7, 0) (8, 0) (fun s pl =>
      let iv := freeIv s
      let head := shardHead iv.2 o.part o.acap.space (o.ports.getD 1 0).toNat o.acap.objLen p.bottleKeys.active iv.1
      let shard := shardBytes head (s.bottleKey p) iv.1 pl
      Io.then (sysWrite iv.2 i env o.xcap o.trig.toNat shard) (7, 0) (8, 0) (fun s _ => (s, some (0, 0, shard.length))))

/-- A manifest's magic, version, reserved fields and counts (20 R393). -/
def manifestOk (b : List Byte) : Bool :=
  fieldAt b 0 4 == 0xA480B071 && fieldAt b 4 2 == 1 && 1 ≤ fieldAt b 6 2 && fieldAt b 6 2 ≤ 8192 && zeroAt b 0x2B 1 &&
    bitsOf (fieldAt b 0x18 8) 7 3 == 0 && bitsOf (fieldAt b 0x18 8) 63 12 == 0 && 1 ≤ fieldAt b 0x28 1 && fieldAt b 0x28 1 ≤ 4 &&
    zeroAt b (0x40 + 128 * fieldAt b 0x28 1) (128 * (4 - fieldAt b 0x28 1)) &&
    (manifestEntries b).all (fun e => zeroAt e 25 7)

/-- seal mode 1: the manifest of the shards of an area, from a draft that holds everything but what the seal writes (00 R8, 20 R394).
-/
def sealBottle (s : State) (i : Issuer) (env : SysEnv) (o : SysOp) (p : Partition) : SysEnd :=
  if p.bottleKeys.active = 0 then (s, some (6, 0, 0))
  else
    let step := (o.ports.getD 1 0).toNat
    Io.then (sysRead s i env o.acap o.trig.toNat 0x240) (7, 0) (8, 0) (fun s hd =>
      let n := fieldAt hd 6 2
      if n = 0 ∨ 8192 < n then (s, some (4, 0, 0))
      else Io.then (sysRead s i env o.acap o.trig.toNat (manifestLen hd)) (7, 0) (8, 0) (fun s draft =>
        if !manifestOk draft then (s, some (4, 0, 0))
        else Io.then (fillEntries s i env o.xcap step (manifestEntries draft)) (7, 0) (8, 0) (fun s r =>
          match r.1 with
          | none => (s, some (r.2, if r.2 = 1 then 98 else 0, 0))
          | some es =>
            let m := sealManifest s o.part p draft es step
            Io.then (sysWrite s i env o.acap o.trig.toNat m) (7, 0) (8, 0) (fun s _ => (s, some (0, 0, m.length))))))

/-! Decanting (20 R394-R396). -/

/-- The shape of a partition as a manifest holds it. -/
def Partition.shape (p : Partition) : Nat := p.basins.length + 2 * p.basins.length * 2 ^ 8

/-- The policy of a manifest is met by the running firmware. -/
def policyMet (s : State) (b : List Byte) : Bool :=
  (List.range (fieldAt b 0x28 1)).any (fun n =>
    (b.drop (0x40 + 128 * n)).take 128 == fit 64 s.towpath.running.measurement ++ fit 64 s.towpath.keeper.measurement) &&
    fieldAt b 0x20 4 ≤ s.towpath.running.secver && fieldAt b 0x24 4 ≤ s.towpath.keeper.secver

/-- Reads the shard of a manifest entry and checks it: its form, its step, then its digests and its tag (20 R395); status 0 where it
passes, with the shard's bytes. -/
def checkShard (s : State) (i : Issuer) (env : SysEnv) (area : Cap) (key : List Byte) (step : Nat) (e : List Byte) :
    State × Io (Nat × List Byte) :=
  let pl := payloadFor (fieldAt e 24 1) (fieldAt e 16 8)
  match sysRead s i env area (fieldAt e 0 8) (256 + pl) with
  | (s1, .wait) => (s1, .wait)
  | (s1, .abort) => (s1, .abort)
  | (s1, .integrity) => (s1, .integrity)
  | (s1, .ok b) =>
    (s1, .ok (
      if !shardHeadOk b || fieldAt b 0x10 8 != fieldAt e 16 8 || fieldAt b 6 1 != fieldAt e 24 1 ||
        fieldAt e 8 8 != shardSize pl then 4
      else if fieldAt b 8 8 ≠ step then 1
      else if shardDigest b pl != (e.drop 32).take 32 || shardDigest b pl != (b.drop 0x40).take 32 || !shardTagOk key b pl then 4
      else 0, b))

/-- Checks every shard of a list. -/
def checkShards (s : State) (i : Issuer) (env : SysEnv) (area : Cap) (key : List Byte) (step : Nat) :
    List (List Byte) → State × Io Nat
  | [] => (s, .ok 0)
  | e :: es =>
    match checkShard s i env area key step e with
    | (s1, .ok (0, _)) => checkShards s1 i env area key step es
    | (s1, .ok (n, _)) => (s1, .ok n)
    | (s1, .wait) => (s1, .wait)
    | (s1, .abort) => (s1, .abort)
    | (s1, .integrity) => (s1, .integrity)

/-- A step mismatch at open is logged in the keeper's log (20 R394). -/
def logStep (s : State) (part : Nat) (p : Partition) (status : Nat) : State :=
  if status = 1 then s.log (s.keeperSource p) stRestoreStep 0 0 0 0 part 0 else s

/-- decant mode 0: the checks of 20 R395, and the bottle open. Log: DEDUCED 93. -/
def openBottle (s : State) (i : Issuer) (env : SysEnv) (o : SysOp) (p : Partition) : SysEnd :=
  if p.csr.botOpen then (s, some (5, 0, 0))
  else
    let step := (o.ports.getD 1 0).toNat
    Io.then (sysRead s i env o.acap o.trig.toNat 0x240) (7, 0) (8, 0) (fun s hd =>
      match keyFor s o.part p (fieldAt hd 0x29 1) (fieldAt hd 0x2A 1) (fieldAt hd 0x2C 4) with
      | none => (s, some (6, 0, 0))
      | some key =>
        if fieldAt hd 6 2 = 0 ∨ 8192 < fieldAt hd 6 2 then (s, some (4, 0, 0))
        else Io.then (sysRead s i env o.acap o.trig.toNat (manifestLen hd)) (7, 0) (8, 0) (fun s b =>
          if !manifestOk b || manifestTag key b != (b.drop 0x30).take 16 then (s, some (4, 0, 0))
          else if fieldAt b 0x18 8 ≠ p.shape then (s, some (2, 0, 0))
          else if !policyMet s b then (s, some (3, 0, 0))
          else if fieldAt b 8 8 ≠ step then (logStep s o.part p 1, some (1, 98, 0))
          else Io.then (checkShards s i env o.xcap key step (manifestEntries b)) (7, 0) (8, 0) (fun s st =>
            if st ≠ 0 then (logStep s o.part p st, some (st, if st = 1 then 98 else 0, 0))
            else
              (s.modPart o.part (fun p =>
                { p with
                  openB := some (OpenBottle.mk (Config.shake256 b 32) step (manifestEntries b))
                  csr := { p.csr with botOpen := true } }), some (0, 0, 0)))))

/-- Closes the open bottle; what was recorded of its manifest stays (20 R395). -/
def closeBottle (s : State) (part : Nat) : State := s.modPart part (fun p => { p with csr := { p.csr with botOpen := false } })

/-- A refused pour closes the bottle (20 R396). Log: DEDUCED 93. -/
def closeOn (part : Nat) (x : SysEnd) : SysEnd :=
  match x.2 with
  | some (0, _, _) => x
  | some _ => (closeBottle x.1 part, x.2)
  | none => x

/-- decant mode 1: a shard of the open bottle poured over its object. Log: DEDUCED 93, 94. -/
def pourShard (s : State) (i : Issuer) (env : SysEnv) (o : SysOp) (p : Partition) (b : OpenBottle) : SysEnd :=
  match b.entries.find? (fun e => fieldAt e 0 8 == o.trig.toNat && fieldAt e 16 8 == o.acap.objLen &&
      fieldAt e 24 1 == o.acap.space) with
  | none => (s, some (4, 0, 0))
  | some e =>
    if (o.ports.getD 1 0).toNat ≠ b.step then (s, some (1, 98, 0))
    else Io.then (sysRead s i env o.xcap o.trig.toNat 256) (7, 0) (8, 0) (fun s hd =>
      match keyFor s o.part p (fieldAt hd 0x18 1) (fieldAt hd 7 1) (fieldAt hd 0x1C 4) with
      | none => (s, some (if shardHeadOk hd then 6 else 4, 0, 0))
      | some key =>
        Io.then (checkShard s i env o.xcap key b.step e) (7, 0) (8, 0) (fun s r =>
          if r.1 ≠ 0 then (s, some (r.1, if r.1 = 1 then 98 else 0, 0))
          else
            let pl := payloadLen o.acap
            let ct := (r.2.drop 0x100).take pl
            let pt := gcmOpen key ((r.2.drop 0x20).take 12) ct
            Io.then (putPayload s i env o.acap pt) (7, 0) (8, 0) (fun s _ => (s, some (0, 0, o.acap.objLen)))))

/-- seal, by its mode. -/
def endSeal (s : State) (i : Issuer) (env : SysEnv) (o : SysOp) : SysEnd :=
  match s.part o.part with
  | none => (s, some (6, 0, 0))
  | some p => if bits (o.ports.getD 4 0) 1 0 = 0 then sealShard s i env o p else sealBottle s i env o p

/-- decant, by its mode. -/
def endDecant (s : State) (i : Issuer) (env : SysEnv) (o : SysOp) : SysEnd :=
  match s.part o.part with
  | none => (s, some (6, 0, 0))
  | some p =>
    match bits (o.ports.getD 4 0) 1 0 with
    | 0 => openBottle s i env o p
    | 1 => match if p.csr.botOpen then p.openB else none with
      | none => (s, some (5, 0, 0))
      | some b => closeOn o.part (pourShard s i env o p b)
    | _ => (closeBottle s o.part, some (0, 0, 0))

/-! scrub (18 R365). -/

/-- A scrubbed block: zero data, labels 0, minors 0, the active phase, and its major one higher; one whose major counter is full is
poisoned instead (18 R343, R365). -/
def Cellar.scrubBlock (k : Cellar) (phase : Bool) (b : Nat) : Cellar :=
  if majorMax ≤ k.majorOf b then (List.range 64).foldl (fun k i => k.poison (64 * b + i) phase) k
  else
    { k with
      bytes := sclear k.bytes (4096 * b) 4096
      md := (List.range 64).foldl (fun m i => sput LineMd.init m (64 * b + i) (LineMd.mk 0 0 phase 0)) k.md
      struck := carve (64 * b) (64 * b + 64) k.struck }.bumpMajor b

/-- Every line of a block of a page under migration is marked as rewritten (12 R238). -/
def markBlock (s : State) (part va : Nat) : State := (List.range 64).foldl (fun s n => markLine s part (va + 64 * n)) s

/-- Scrubs n blocks of 4 KiB of a cellar range from `done` bytes on (18 R365). A packet that the fence drops, or a table line that
fails its check, ends it PAGE_ABORT. Log: DESIGN CHOICE 141. -/
def scrubBlocks (s : State) (i : Issuer) (env : SysEnv) (cap : Cap) : Nat → Nat → SysEnd
  | 0, done => (s, some (0, 0, done))
  | n + 1, done =>
    match resolveFor s (s.tablesOf i) i.core cap done true with
    | (s1, .stop x) => match sysStop (α := Unit) s1 i env x with
      | (s2, .wait) => (s2, none)
      | (s2, _) => (s2, some (2, 0, done))
    | (s1, .ok p) =>
      let s2 := match p with
        | .cellar pa =>
          let s2 := if untranslated i.core cap then s1 else markBlock s1 i.part (cap.base + done)
          { s2 with cellar := s2.cellar.scrubBlock (s2.cellarPhase (s2.partOfStack (pa / 2 ^ 36))) (pa / 4096) }
        | _ => s1
      scrubBlocks s2 i env cap n (done + 4096)

/-- Scrubs the tiles and casks of a space 7 object: bytes 0, codes 0, scale planes 1. -/
def scrubCore (k : Core) (cap : Cap) : Core :=
  let k1 := cap.tiles.foldl (fun k t => k.modRegs (fun r => { r with m := sclear r.m (32 * t) 32 })) k
  cap.casks.foldl (fun k q => { k with press := { k.press with
    codes := sclear k.press.codes (65536 * q) 65536
    bsc := sclear k.press.bsc (8192 * q) 8192, lsc := sclear k.press.lsc (8192 * q) 8192 } }) k1

/-- A range of global space 3 covers a whole stack. -/
def Cap.coversStack (cap : Cap) (st : Nat) : Bool := cap.base ≤ st * 2 ^ 36 && (st + 1) * 2 ^ 36 ≤ cap.base + cap.length

/-- A keeper's scrub through a global space 3 capability that covers every stack of its partition sets CFOLD.scrubbed (18 R365);
the stacks that a global scrub covers have not been written since (01 R20). -/
def markScrubbed (s : State) (o : SysOp) (core : Nat) : State :=
  if untranslated core o.acap && o.acap.space == 3 then
    let clean := (List.range 8).foldl (fun n st => if o.acap.coversStack st then n + 2 ^ st else n) 0
    { s with cellar := { s.cellar with dirty := s.cellar.dirty &&& ~~~(BitVec.ofNat 8 clean) } }.modPart o.part (fun p =>
      if isKeeper core && p.stacks.all o.acap.coversStack then { p with csr := { p.csr with cfScrubbed := true } } else p)
  else s

/-- scrub, by the space of its object. Log: DEDUCED 95. -/
def endScrub (s : State) (i : Issuer) (env : SysEnv) (o : SysOp) : SysEnd :=
  match o.acap.space with
  | 7 => (s.modCore i.core (fun k => scrubCore k o.acap), some (0, 0, o.acap.objLen))
  | 3 =>
    let x := scrubBlocks s i env o.acap (o.acap.length / 4096) 0
    match x.2 with
    | some (0, _, _) => (markScrubbed x.1 o i.core, x.2)
    | _ => x
  | _ =>
    let runs := runsOf o.acap 0 o.acap.length
    let x := sysWriteRuns s i env o.acap o.acap.base runs (List.replicate o.acap.length 0) (runs.map (fun _ => some 0))
    (x.1, some (0, 0, o.acap.length))

end Sys2Proof.Machine
end

