-- ==== Sys2Proof/Machine/SystemEnd.lean ====
section
/-! DEFINITION. Attestation, the fbind exchange, and the common end of every system operation: its result record and its flag
(18 R361, R366, R367). -/

namespace Sys2Proof.Machine

/-! attest (18 R367). -/

/-- The code of a TDISP state in a report. -/
def Tdi.code : Tdi → Nat
  | .unlocked => 0
  | .locked => 1
  | .run => 2
  | .error => 3

/-- The configuration of a partition whose digest a report holds: shape, TASKCAP, FSHARE, budgets, FWIN. -/
def Partition.configBytes (p : Partition) : List Byte :=
  toBytes 8 p.shape ++ toBytes 1 p.csr.taskcap.toNat ++ (List.range 32).flatMap (fun i => toBytes 2 (sget 0 p.csr.fshare i)) ++
    [p.host, p.layby].flatMap (fun m => toBytes 3 m.debtcap ++ toBytes 3 m.allot) ++
    toBytes 2 p.csr.fwinCount ++ toBytes 2 p.csr.fwinBase

/-- The signed part of a report on a partition over a nonce. -/
def reportBody (s : State) (part : Nat) (p : Partition) (nonce : List Byte) : List Byte :=
  toBytes 4 0xA4800A7E ++ toBytes 2 1 ++ toBytes 1 part ++ toBytes 1 p.tdi.code ++ fit 16 Config.deviceSerial ++
    fit 32 nonce ++ fit 64 s.towpath.running.measurement ++ fit 64 s.towpath.keeper.measurement ++
    fit 64 (Config.shake256 p.configBytes 64) ++ toBytes 4 s.towpath.running.secver ++ toBytes 4 p.cellarKeys.active ++
    toBytes 8 s.tick ++ toBytes 248 0

/-- An attestation report, signed by the attestation key (18 R352, R367). -/
def attestReport (s : State) (part : Nat) (p : Partition) (nonce : List Byte) : List Byte :=
  let b := reportBody s part p nonce
  b ++ fit 29792 (Config.slhSign s.attestKey b)

/-- The bytes of a report that lie before the place where its write stopped. -/
def writtenBefore (s : State) (i : Issuer) (env : SysEnv) (cap : Cap) : List (Nat × Nat) → Nat
  | [] => 0
  | r :: rs =>
    match resolveFor s (s.tablesOf i) i.core cap r.1 true with
    | (s1, .ok (.cellar pa)) =>
      if s1.cellar.lineOk (pa / 64) || (r.2 == 64) then r.2 + writtenBefore s1 i env cap rs else 0
    | (s1, .ok _) => r.2 + writtenBefore s1 i env cap rs
    | _ => 0

/-- attest: the report written through acap. Log: DEDUCED 96. -/
def endAttest (s : State) (i : Issuer) (env : SysEnv) (o : SysOp) : SysEnd :=
  match s.part o.part with
  | none => (s, none)
  | some p =>
    let nonce := [4, 5, 6, 7].flatMap (fun n => toBytes 8 (o.ports.getD n 0).toNat)
    let rep := attestReport s o.part p nonce
    let runs := runsOf o.acap 0 rep.length
    let n := writtenBefore s i env o.acap runs
    Io.then (sysWrite s i env o.acap 0 rep) (2, n) (3, n) (fun s _ => (s, some (0, 0, 30304)))

/-! fbind (18 R366). -/

/-- Bytes of the policy record. -/
def policyLen : Nat := 0x120

/-- A policy record that breaks its table. -/
def policyBad (s : State) (b : List Byte) : Bool :=
  let n := fieldAt b 5 1
  127 < fieldAt b 0 1 || fieldAt b 0 1 == s.position || fieldAt b 1 1 == 0 || 4 < fieldAt b 1 1 || fieldAt b 2 2 == 0 ||
    3 < fieldAt b 4 1 || n == 0 || 4 < n || !zeroAt b 6 2 || !zeroAt b 0xC 20 || !zeroAt b (0x20 + 64 * n) (64 * (4 - n))

/-- The handle of a record is installed. -/
def handleUsed (s : State) (part : Nat) (b : List Byte) : Bool :=
  match s.part part with
  | some p => p.bindings.any (fun x => x.handle == fieldAt b 2 2)
  | none => true

/-- A digest is one of those the record accepts. -/
def digestAccepted (b digest : List Byte) : Bool :=
  (List.range (fieldAt b 5 1)).any (fun n => (b.drop (0x20 + 64 * n)).take 64 == digest)

/-- The stage of an exchange (18 R366): the peer's evidence accepted, accepted by the peer, bound, rejected, the peer's request
received. -/
def fbAccepted (o : SysOp) : Bool := bitOf o.stage 0
def fbByPeer (o : SysOp) : Bool := bitOf o.stage 1
def fbBound (o : SysOp) : Bool := bitOf o.stage 2
def fbRejected (o : SysOp) : Bool := bitOf o.stage 3
def fbRequested (o : SysOp) : Bool := bitOf o.stage 4

/-- The bottle key that the options let the peer send has come, or they let it send none. -/
def fbKeyed (o : SysOp) : Bool := bitOf o.stage 5

/-- Own options and the peer's let a bottle key pass: the sender sends its key and the receiver accepts it (18 R366). -/
def passesKey (sender receiver : Nat) : Bool := bitOf sender 0 && bitOf receiver 1

/-- Both sides have accepted each other's evidence, and the stream is not installed yet. -/
def fbAgreed (o : SysOp) : Bool := fbAccepted o && fbByPeer o && !fbBound o && !fbRejected o

/-- The credit this package grants a peer: within 0-192 and within what the other grants leave of three slots of relay
reserve (13 R258). Its size is left to the operator. Log: DESIGN CHOICE 5, 97. -/
def grantOf (v : Word) (given : Nat) : Nat := v.toNat % (193 - min 192 given)

/-- What an outstanding fbind has announced to its peer and not yet installed. -/
def SysOp.granted (o : SysOp) : Nat := if o.op = 11 ∧ fbAgreed o then o.aux else 0

/-- All that a package has granted: to installed bindings, and in the exchanges under way. -/
def State.givenAll (s : State) : Nat :=
  s.parts.foldl (fun n q => match q.2 with
    | some p => p.bindings.foldl (fun n b => n + b.given) (p.contexts.foldl (fun n x =>
        x.2.sysops.foldl (fun n o => n + o.2.granted) n) n)
    | none => n) (s.cores.foldl (fun n q => q.2.sysops.foldl (fun n o => n + o.granted) n) 0)

/-- Four free values as 32 bytes: a nonce. -/
def freeNonce (s : State) : List Byte × State :=
  let a := freeIv s
  let b := freeIv a.2
  let c := freeIv b.2
  (fit 32 (a.1 ++ b.1 ++ c.1), c.2)

/-- The transcript that both sides hash: what the lower position sent, then what the higher sent. Log: DEDUCED 134. -/
def transcript (s : State) (peer : Nat) (o : SysOp) (own : List Byte) : List Byte :=
  if s.position < peer then own ++ o.data else o.data ++ own

/-- The stream key that both sides derive, 64 bytes. -/
def bindKey (s : State) (peer : Nat) (own theirs transcript : List Byte) : List Byte :=
  Config.shake256 ((if s.position < peer then own ++ theirs else theirs ++ own) ++ transcript) 64

/-- The peer's request: this side answers with its own, its nonce, ephemeral key and options, and with its report over the peer's nonce
(18 R366). -/
def fbRequest (s : State) (b : List Byte) (o : SysOp) (nonce ephemeral : List Byte) (opts : Nat) : State × SysOp :=
  let n := freeNonce s
  let rep := match s.part o.part with
    | some p => attestReport s o.part p nonce
    | none => []
  (n.2, { o with
    stage := o.stage + 16, nonce := n.1, peerNonce := nonce, ephemeral := ephemeral, peerOpts := opts
    sent := o.sent ++ [n.1 ++ Config.ephemeralKey ++ (b.drop 4).take 1, rep]
    data := o.data ++ nonce ++ ephemeral ++ toBytes 1 opts })

/-- The peer's report passes: its nonce, its signature, the digest of its measurements and its security version (18 R366, R367).
Log: DEDUCED 134. -/
def evidenceOk (b : List Byte) (o : SysOp) (rep : List Byte) : Bool :=
  fit 32 (rep.drop 0x18) == o.nonce && Config.slhVerify [] (rep.take 0x200) (rep.drop 0x200) &&
    digestAccepted b (fit 64 (Config.shake256 ((rep.drop 0x38).take 128) 64)) && decide (fieldAt b 8 4 ≤ fieldAt rep 0xF8 4)

/-- Both sides have accepted each other: this side sends its encapsulation to the peer's ephemeral key, its wbase, and the layby
credit that it grants (18 R366). -/
def fbAnnounce (s : State) (o : SysOp) : State × SysOp :=
  if !fbAgreed o then (s, o)
  else
    let f := s.takeFree
    let given := grantOf f.1 s.givenAll
    let wbase := ((s.part o.part).map (fun p => p.csr.fwinBase)).getD 0
    (f.2, { o with sent := o.sent ++ [(Config.mlkemEncap o.ephemeral).1, toBytes 2 wbase ++ toBytes 2 given], aux := given })

/-- What a side says of the other's evidence. Log: DESIGN CHOICE 142. -/
def fbVerdict (ok : Bool) : List Byte := [if ok then 1 else 0]

/-- The peer's evidence, accepted or rejected; a rejection is sent in the exchange. -/
def fbEvidence (s : State) (b : List Byte) (o : SysOp) (rep : List Byte) : State × SysOp :=
  let ok := evidenceOk b o rep
  let o1 := { o with data := o.data ++ rep, sent := o.sent ++ [fbVerdict ok] }
  if ok then fbAnnounce s { o1 with stage := o.stage + 1 } else (s, { o1 with stage := o.stage + 8, aux := 0 })

/-- The partition's bottle key under the stream key, with its IV and vintage, sent where the options of both ends allow it (18 R366). -/
def fbSendBottle (s : State) (b : List Byte) (o : SysOp) (key : List Byte) : State × SysOp :=
  match s.part o.part with
  | some p =>
    if passesKey (fieldAt b 4 1) o.peerOpts then
      let iv := freeIv s
      (iv.2, { o with sent := o.sent ++ [iv.1 ++ sealFlit key iv.1 16 (s.bottleKey p) ++ toBytes 4 p.bottleKeys.active] })
    else (s, o)
  | none => (s, o)

/-- The peer's encapsulation after both have accepted: the stream is installed at vintage 1, its halves by position, with the
peer's grant and this side's (18 R366). -/
def installBinding (s : State) (b : List Byte) (o : SysOp) (cipher : List Byte) (wbase credit : Nat) : State × SysOp :=
  let peer := fieldAt b 0 1
  let e := Config.mlkemEncap o.ephemeral
  let o1 := { o with data := o.data ++ cipher }
  let key := bindKey s peer e.2 (Config.mlkemDecap cipher) (transcript s peer o1 ((o.sent.take 2).flatten ++ e.1))
  let own := keyHalf (decide (peer < s.position)) key
  let credit := min credit 192
  let x := Binding.mk (fieldAt b 2 2) peer (fieldAt b 1 1) wbase credit credit o.aux (Keys.first own)
    (Keys.first (keyHalf (decide (s.position < peer)) key))
  let q := fbSendBottle (s.modPart o.part (fun p => { p with bindings := p.bindings ++ [x] })) b o1 own
  (q.1, { q.2 with
    stage := o.stage + 4 + 32 * b2n (!passesKey o.peerOpts (fieldAt b 4 1)), aux := credit + o.aux * 2 ^ 16 + fieldAt b 2 2 * 2 ^ 32 })

/-- The peer's bottle key, opened with the key of what it sends, and held where the options of both ends allow it; one whose tag fails is
none. -/
def fbBottle (s : State) (b : List Byte) (o : SysOp) (iv sealed : List Byte) (vintage : Nat) : State × SysOp :=
  match s.part o.part with
  | some p =>
    let key := ((p.binding (fieldAt b 2 2)).map (fun x => x.recv.activeKey)).getD []
    if fbKeyed o || sealed.drop 64 != fit 16 (Config.gcmTag key iv [] (sealed.take 64)) then (s, o)
    else
      let c := s.custody p
      let k := PeerKey.mk (fieldAt b 0 1) (fieldAt b 1 1) vintage (gcmOpen key iv (sealed.take 64))
      (s.setPart o.part (s.inCustody p { c with peerKeys := c.peerKeys ++ [k] }), { o with stage := o.stage + 32 })
  | none => (s, o)

/-- A message of the exchange, over a record that may be bound. One that comes out of turn changes nothing. Log: DESIGN CHOICE 97;
DEDUCED 134. -/
def fbindStep (s : State) (b : List Byte) (o : SysOp) (msg : FbindMsg) : State × SysOp :=
  let ended := fbBound o || fbRejected o
  match msg with
  | .request nonce ephemeral opts => if ended || fbRequested o then (s, o) else fbRequest s b o nonce ephemeral opts
  | .evidence report => if ended || !fbRequested o || fbAccepted o then (s, o) else fbEvidence s b o report
  | .accept => if ended || !fbRequested o || fbByPeer o then (s, o) else fbAnnounce s { o with stage := o.stage + 2 }
  | .reject => if ended then (s, o) else (s, { o with stage := o.stage + 8, aux := 1 })
  | .key cipher wbase credit => if fbAgreed o then installBinding s b o cipher wbase credit else (s, o)
  | .bottleKey iv sealed vintage => if fbBound o then fbBottle s b o iv sealed vintage else (s, o)

/-! Operations of running and suspended tasks. -/

/-- The operations of suspended contexts that were issued on a core, with their slots: of every partition, since a context may have run
on basins of another (16 R314, R316). -/
def suspendedOps (s : State) (core : Nat) : List (SysOp × Option Nat) :=
  s.parts.flatMap (fun q => match q.2 with
    | some p => p.contexts.flatMap (fun x => (x.2.sysops.filter (fun y => y.1 == core)).map (fun y => (y.2, some x.1)))
    | none => [])

/-- System operation idx of a core: those of its running task, then those of suspended contexts, with their slot. -/
def sysAt (s : State) (core idx : Nat) : Option (SysOp × Option Nat) :=
  let l := (s.core core).sysops
  match l[idx]? with
  | some o => some (o, none)
  | none => (suspendedOps s core)[idx - l.length]?

/-- Replaces a system operation; none takes it away. -/
def swapOp (o : SysOp) (n : Option SysOp) : List SysOp → List SysOp
  | [] => []
  | x :: xs => if x = o then n.toList ++ xs else x :: swapOp o n xs

/-- The same over operations with their cores. -/
def swapPair (c : Nat) (o : SysOp) (n : Option SysOp) : List (Nat × SysOp) → List (Nat × SysOp)
  | [] => []
  | x :: xs => if x = (c, o) then (n.map (fun y => (c, y))).toList ++ xs else x :: swapPair c o n xs

/-- Replaces an outstanding operation where it is held. -/
def State.putOp (s : State) (core : Nat) (slot : Option Nat) (o : SysOp) (n : Option SysOp) : State :=
  match slot with
  | none => s.modCore core (fun k => { k with sysops := swapOp o n k.sysops })
  | some i => s.modPart o.part (fun p => p.modCtx i (fun x => { x with sysops := swapPair core o n x.sysops }))

/-- Where an operation's scratchpad and flags lie: its core, or its context's frame (16 R314). -/
def issuerOf (s : State) (core : Nat) (slot : Option Nat) (o : SysOp) : Issuer :=
  let t := match slot, s.part o.part with
    | some i, some p => Target.frame i (frameVa p i core) core
    | _, _ => Target.core (sramOf core)
  Issuer.mk core t o.part (o.op == 8 || o.op == 9)

/-- Ticks of the 10 ms of an exchange. -/
def fbindLimit : Nat := 30000000

/-- How an operation ends now, if it can. An fbind that is bound ends once the bottle key that it expects has come, or its 10 ms have
passed. Log: DESIGN CHOICE 97. -/
def sysEnd (s : State) (i : Issuer) (env : SysEnv) (o : SysOp) : SysEnd :=
  match o.op with
  | 6 => endKeyld s i env o
  | 7 => endKeyrot s o
  | 8 => endSeal s i env o
  | 9 => endDecant s i env o
  | 10 => endScrub s i env o
  | 11 =>
    if fbBound o then
      (if fbKeyed o || o.issue + fbindLimit ≤ s.tick then (s, some (0, o.aux % 2 ^ 32, o.aux / 2 ^ 32)) else (s, none))
    else if fbRejected o then (s, some (3, o.aux, 0))
    else if o.stage ≠ 0 then (s, none)
    else Io.then (sysRead s i env o.acap 0 policyLen) (5, 0) (6, 0) (fun s b =>
      if policyBad s b then (s, some (1, 0, 0))
      else if handleUsed s o.part b then (s, some (2, 0, 0))
      else (s, none))
  | _ => endAttest s i env o

/-- The result record (18 R361). -/
def resultBytes (status detail value : Nat) : List Byte :=
  toBytes 2 status ++ [0, 0] ++ toBytes 4 detail ++ toBytes 8 value

/-- Marks the record of a suspended operation as ended in its frame (16 R315). -/
def markEnded (s : State) (core : Nat) (slot : Option Nat) (o : SysOp) : State :=
  match slot, s.part o.part with
  | some i, some p =>
    let va := frameVa p i core
    (List.range 4).foldl (fun s n =>
      let a := 0x6900 + 32 * n
      if frameNum s o.part va a 1 = 1 ∧ frameNum s o.part va (a + 24) 8 = o.issue then
        frameBytes s o.part core va a [3]
      else s) s
  | _, _ => s

/-- The end of a system operation: the result record through the racking-and-arrival port, then, at the next boundary, the flag (10
R190); what it held is free. -/
def finishSys (s : State) (core : Nat) (slot : Option Nat) (o : SysOp) (r : Nat × Nat × Nat) : State :=
  let i := issuerOf s core slot o
  let s1 := (markEnded s core slot o).putOp core slot o none
  let s2 := targetPut s1 o.part i.target (o.rcap.base + bits (o.ports.getD 2 0) 20 0) (resultBytes r.1 r.2.1 r.2.2) none
  let s3 := laterFlag s2 o.part (if slot.isSome then i.target else .core core) o.flag o.inc
  if slot.isSome then s3
  else
    let held := match sysObject o with
      | some cap => objResources cap
      | none => []
    (dropGuards s3 core true (sealGuard o)).modCore core (fun k =>
      { k with busy := k.busy.filter (fun b => !held.contains b.1) })

/-- The lines of its own scratchpad that an operation writes: its result record, and the object of a pour, a scrub or a report. -/
def SysOp.portLines (o : SysOp) : List Nat :=
  (o.rcap.base + bits (o.ports.getD 2 0) 20 0) / 64 ::
    (if o.acap.space = 0 ∧ (o.op = 10 ∨ o.op = 12 ∨ (o.op = 9 ∧ bits (o.ports.getD 4 0) 1 0 = 1)) then
      (runsOf o.acap 0 (if o.op = 12 then min o.acap.length 30304 else o.acap.length)).map (fun r => (o.acap.base + r.1) / 64)
    else [])

/-- The port may write what the operation writes at this boundary (10 R188). Log: DEDUCED 82. -/
def recordFree (s : State) (core : Nat) (slot : Option Nat) (o : SysOp) : Bool :=
  slot.isSome || (s.core (sramOf core)).portFree s.tick o.portLines

/-- SYSTEM_OP_COMPLETE: an outstanding system operation ends (18 R361). What it reads and writes is done at this boundary; it
stays outstanding where it cannot end. -/
def execSystemOpComplete (core idx : Nat) (env : SysEnv) (s : State) : Ans State :=
  .next (match sysAt s core idx with
    | some (o, slot) =>
      let i := issuerOf s core slot o
      if s.tick < o.issue + 2 || !recordFree s core slot o || !racksBefore s core o.seq (o.pours s core) then s
      else match sysEnd (meetEnv s i env o) i env o with
        | (s1, some r) => finishSys s1 core slot o r
        | (_, none) => s
    | none => s)

/-- FBIND_EXCHANGE: a message of the peer reaches an outstanding fbind whose record can be bound; after 10 ms without an acceptance or a
rejection none does (18 R366). -/
def execFbindExchange (core idx : Nat) (msg : FbindMsg) (s : State) : Ans State :=
  .next (match sysAt s core idx with
    | some (o, slot) =>
      match sysRead s (issuerOf s core slot o) (SysEnv.mk false false 0) o.acap 0 policyLen with
      | (s1, .ok b) =>
        if o.op ≠ 11 || policyBad s b || (!fbBound o && handleUsed s o.part b) ||
            (!fbByPeer o && decide (o.issue + fbindLimit ≤ s.tick)) then s
        else
          let x := fbindStep s1 b o msg
          x.1.putOp core slot o (some x.2)
      | _ => s
    | none => s)

/-- FBIND_TIMEOUT: 10 ms without the peer's request, acceptance or rejection end the operation PEER_UNREACHABLE (18 R366). -/
def execFbindTimeout (core idx : Nat) (s : State) : Ans State :=
  .next (match sysAt s core idx with
    | some (o, slot) =>
      if o.op ≠ 11 || fbBound o || fbRejected o || fbByPeer o || s.tick < o.issue + fbindLimit || !recordFree s core slot o then s
      else finishSys s core slot o (4, 0, 0)
    | none => s)

end Sys2Proof.Machine
end

