-- ==== Sys2Proof/Machine/Firmware.lean ====
section
/-! DEFINITION. What the firmware cores, the board and the operator do to the package: take-overs, failover, signed commands,
resets, partitions, power, heat, health and bring-up (01 R20-R33, 19 R375-R384, 20 R386, R387). -/

namespace Sys2Proof.Machine

/-! Loading firmware (01 R25). -/

/-- Size of the SRAM that space 0 of a firmware core reaches. -/
def sramSize (c : Nat) : Nat := if isKeeper c then 2 ^ 20 else 2 ^ 23

/-- A firmware core loaded with an image; it begins at an index, or stands halted. What the SRAM it holds for its pair or
complex contains stays, and what the core has issued takes its effect on what lies outside its registers (24 R407).
Log: DEDUCED 99, 114. -/
def loadCore (s : State) (c : Nat) (image : List Byte) (begin_ : Option Nat) : State :=
  s.modCore c (fun k =>
    { Core.firmware (sramSize c) with
      mem := { k.mem with bundles := writeBytes [] 0 image, flags := [] }
      pend := k.pend.filter (fun p => p.act.rank == 2 || p.act.rank == 6 || p.act.rank == 8)
      seq := k.seq
      guards := k.guards
      racks := k.racks
      rackSeq := k.rackSeq
      sysops := k.sysops
      butty := match begin_ with
        | some pc => { Stream.init with st := .run, pc := pc, nextAt := s.tick }
        | none => Stream.init })

/-- Both keeper cores of a basin loaded: core 0 begins, core 1 stands as shadow. -/
def loadKeepers (s : State) (b : Nat) : State :=
  loadCore (loadCore s (256 + 2 * b) s.towpath.keeper.image (some 0)) (257 + 2 * b) s.towpath.keeper.image none

/-- The four control cores of a complex loaded from the boot flash. -/
def loadComplex (s : State) (first : Nat) (image : List Byte) : State :=
  (List.range 4).foldl (fun s j => loadCore s (first + j) image (some 0)) s

/-- The lowest core of the first task of a timetable, to which a stop from outside is charged. Log: DEDUCED 58. -/
def Timetable.firstCore (t : Timetable) : Nat := (t.tasks.map (fun k => k.core)).foldl min 0xFFFF

/-- A running timetable stops for a reason of its partition (19 R374). -/
def stopFor (s : State) (part status : Nat) : State :=
  match s.tt part with
  | some t => s.stopTimetable part t.firstCore true status
  | none => s

/-! Lock-keeper take-over (19 R375-R377). -/

/-- Writes the held completions in order and journals each as owed and written (19 R375, R377). -/
def deliverHeld (s : State) (part : Nat) : List (Cmd × Nat × Nat) → State
  | [] => s
  | h :: hs =>
    deliverHeld (match s.part part with
      | some p => writeCompletion s part p h.1 h.2.1 h.2.2
      | none => s) part hs

/-- Writes the completions that the journal leaves owed, in order (19 R377). -/
def deliverOwed (s : State) (part : Nat) : List (Cmd × Nat × Nat) → State
  | [] => s
  | h :: hs =>
    deliverOwed (match s.part part with
      | some p => writeOwed s part p h.1 h.2.1 h.2.2
      | none => s) part hs

/-- The command that a journal entry names. -/
def Core.entryCmd (k : Core) (n : Nat) : Cmd :=
  Cmd.mk (k.entry n 9 1) 1 (k.entry n 0x30 2) 0 0 (k.entry n 0x20 8) (BitVec.ofNat 64 (k.entry n 0x28 8))

/-- Two commands are one, as far as a journal entry tells. -/
def Cmd.isSame (a b : Cmd) : Bool := a.queue == b.queue && a.seq == b.seq && a.compl == b.compl && a.cookie == b.cookie

/-- A queue entry taken, as its journal entry says: the head after it, and the command at the place before. -/
def replayTaken (s : State) (part : Nat) (p : Partition) (q head : Nat) : Partition :=
  let x := { p.queue q with head := BitVec.ofNat 16 head }
  let b := headEntry s part { x with head := x.head - 1 }
  { p.setQueue q x with taken := if !cmdBad b && (cmdOf q b).op == 1 then some (cmdOf q b) else none }

/-- What an entry that the firmware committed with its own stores changes, replayed: a head and the command in hand or the context chosen,
the class last served, and the completions owed and written. What another entry names is done again by its own event (19 R375, R377).
Log: DESIGN CHOICE 171. -/
def replayEntry (s : State) (part : Nat) (k : Core) (x : Partition × List (Cmd × Nat × Nat)) (n : Nat) :
    Partition × List (Cmd × Nat × Nat) :=
  let p := x.1
  let q := k.entry n 9 1
  let slot := k.entry n 10 1
  let st := k.entry n 0x10 4
  let c := k.entryCmd n
  if !k.committed n then x
  else match k.entry n 8 1 with
    | 2 =>
      if p.tt.isSome || p.taken.isSome || p.chosen.isSome || p.lent.isSome || 15 < q then x
      else if slot = 255 then (replayTaken s part p q (k.entry n 12 2), x.2)
      else if (sget none p.ctxs slot).isSome then ({ p with chosen := some slot }, x.2) else x
    | 11 => ({ p with lastClass := p.lastClass.set st q }, x.2)
    | 12 => ({ p with taken := if p.taken.any c.isSame then none else p.taken }, x.2 ++ [(c, st / 2 ^ 24, st % 2 ^ 16)])
    | 13 => (p, x.2.erase (c, st / 2 ^ 24, st % 2 ^ 16))
    | _ => x

/-- The replay of a partition's journal by the shadow of its leading keeper: the entries that the model wrote itself stand with their
change; those of the firmware take theirs (19 R377, 24 R407). -/
def replayJournal (s : State) (part : Nat) (p : Partition) : Partition × List (Cmd × Nat × Nat) :=
  let x := (p.soft ++ s.softEntries p).foldl (replayEntry s part (s.core (256 + 2 * p.basins.headD 0))) (p, [])
  ({ x.1 with jseq := s.nextEntry p, soft := [] }, x.2)

/-- Every queue whose latched tail differs from its head has its kick bit set. -/
def Partition.rescan (p : Partition) : Partition :=
  { p with queues := p.queues.map (fun q => (q.1, if q.2.tail = q.2.head then q.2 else { q.2 with kick := true })) }

/-- A bottle under way starts again from its first shard (20 R390). -/
def BottleJob.restart (b : BottleJob) : BottleJob := { b with entry := 0, off := 0, areaOff := 2 ^ 20, shards := [] }

/-- The hold at the keeper of a basin ends, its pair with a shadow or without. Where that keeper leads the partition, it has scanned
the queues that the re-scan found, and what the journal left owed goes out, and then what was held, in its order; the leading keeper of a
partition of several basins holds on for itself (01 R23, 19 R376, R377, 24 R408). -/
def endHold (s : State) (part basin : Nat) (shadow : Bool) (owed held : List (Cmd × Nat × Nat)) : State :=
  let s1 := s.modPart part (fun p => { p with csr := p.csr.upAgain basin shadow })
  match s1.part part with
  | some p =>
    if p.basins.headD 0 = basin then
      deliverHeld (deliverOwed (scanQueues (s1.setPart part { p.rescan with heldItems := [] }) part (List.range 16)) part owed) part held
    else s1
  | none => s1

/-- Both keeper cores of a basin reloaded; what was held goes out. The journal is not replayed: queue state comes from the queue pages (19
R383). -/
def resetKeepers (s : State) (basin : Nat) : State :=
  let part := s.partOfBasin basin
  match s.part part with
  | some p =>
    let q := if p.basins.headD 0 = basin then { p with jseq := s.nextEntry p, soft := [] } else p
    endHold ((loadKeepers s basin).setPart part q) part basin true [] p.heldItems
  | none => loadKeepers s basin

/-- The tick at which the active keeper core of a basin stopped, where it has and no other has become active. -/
def keeperStopTick (s : State) (basin : Nat) : Option Nat := (s.part (s.partOfBasin basin)).bind (fun p => p.csr.downAt basin)

/-- The active keeper core of a basin has stopped. -/
def keeperStopped (s : State) (basin : Nat) : Bool := (keeperStopTick s basin).isSome

/-- KEEPER_HEARTBEAT_TIMEOUT: the active core is stopped before its next bundle issues, and its take-over begins: for want of a
heartbeat for 30,000 ticks, or for an uncorrectable error in the bundle it fetches (19 R377, 24 R407). Log: DEDUCED 100. -/
def execKeeperHeartbeatTimeout (basin : Nat) (s : State) : Ans State :=
  .next (
    let c := s.activeKeeper basin
    if 4 ≤ basin || (s.core c).halted || (s.core c).butty.st == .idle then s else s.keeperDown c (s.core c).butty.pc)

/-- The shadow of a stopped keeper core becomes active at index 16; the stopped core is reloaded as the new shadow where its
self-test passes. Records that waited for the old core wait for the new, and with them those that came under the hold. -/
def takeOver (s : State) (basin : Nat) (selfTest : Bool) : State :=
  let a := if (s.core (256 + 2 * basin)).halted then 256 + 2 * basin else 257 + 2 * basin
  let b := if a % 2 = 0 then a + 1 else a - 1
  let traps := (s.core a).traps ++ (s.core b).traps
  let s1 := (loadCore s b s.towpath.keeper.image (some 16)).modCore b (fun k => { k with traps := traps })
  if selfTest then loadCore s1 a s.towpath.keeper.image none
  else s1.modCore a (fun k => { k with traps := [] })

/-- The shadow may read keeper SRAM: 64 ticks have passed since the active core stopped (24 R407). -/
def takeoverRipe (s : State) (basin : Nat) : Bool := (keeperStopTick s basin).any (fun h => decide (h + 64 ≤ s.tick))

/-- A take-over has to end at this boundary at the latest: 120,000 ticks after its stop, or at once where no shadow is ready and the
keeper is reset (19 R377). Log: DEDUCED 100. -/
def takeoverDue (s : State) (basin : Nat) : Bool :=
  (keeperStopTick s basin).any (fun h => decide (h + 120000 ≤ s.tick) ||
    !((s.part (s.partOfBasin basin)).any (fun p => p.csr.holdAt basin)))

/-- KEEPER_TAKEOVER: the shadow replays the journal, re-scans the queues, writes what was held and becomes active, from h + 64 on;
without a shadow the keeper is reset (19 R377, 24 R407). Log: DEDUCED 100. -/
def execKeeperTakeover (basin : Nat) (selfTest : Bool) (s : State) : Ans State :=
  .next (
    let part := s.partOfBasin basin
    if !keeperStopped s basin then s
    else match s.part part with
      | some p =>
        if !p.csr.holdAt basin then stopFor (resetKeepers s basin) part stKeeperReset
        else if !takeoverRipe s basin then s
        else
          let lead := p.basins.headD 0 == basin
          let x := if lead then replayJournal s part p else (p, [])
          let s1 := (takeOver s basin selfTest).setPart part
            { x.1 with
              bottle := if lead then p.bottle.map BottleJob.restart else p.bottle
              csr := { p.csr with keepCount := p.csr.keepCount + 1 } }
          endHold s1 part basin selfTest x.2 p.heldItems
      | none => s)

/-! Towpath complexes (19 R379, R380). -/

/-- Complex B is the active one. -/
def State.activeB (s : State) : Bool := s.towpath.b == .active

/-- A complex is active. -/
def State.towpathUp (s : State) : Bool := s.towpath.a == .active || s.towpath.b == .active

/-- A basin belongs to a partition with a timetable of its own or another's, a command in hand or a suspended context. -/
def basinBusy (s : State) (b : Nat) : Bool :=
  match s.part (s.partOfBasin b) with
  | some p => p.tt.isSome || p.taken.isSome || p.lent.isSome || !p.contexts.isEmpty
  | none => false

/-- STATE_TABLE_WRITE is due: 1 ms after the last. -/
def tableDue (s : State) : Bool :=
  s.towpathUp && (match s.towpath.table with
    | some t => t.tick + 3000000 ≤ s.tick
    | none => 3000000 ≤ s.tick)

/-- The state table as the active complex writes it now: its version, partitions, servo state, sessions, counter and log positions (19
R379, R380). -/
def tableNow (s : State) : TableCopy :=
  { tick := s.tick, version := s.towpath.running.tableVersion, counter := s.towpath.counter
    sessions := s.towpath.spdm.sessions, terr := s.towpath.terr, tstate := s.towpath.tstate
    parts := s.parts.filterMap (fun q => q.2.map (fun p => (q.1, p.basins, p.csr)))
    logs := s.logs.map (fun l => (l.1, l.2.next)) }

/-- STATE_TABLE_WRITE: what a failover takes over from. -/
def execStateTableWrite (s : State) : Ans State :=
  .next (if tableDue s then { s with towpath := { s.towpath with table := some (tableNow s) } } else s)

/-- The state that a standby takes up from the last state table: sessions and servo state; a sender of a later command sees no response.
The counter is that of the boot flash. -/
def Towpath.fromTable (t : Towpath) : Towpath :=
  match t.table with
  | some x => { t with spdm := { t.spdm with sessions := x.sessions, reply := [] }, terr := x.terr, tstate := x.tstate }
  | none => { t with spdm := { t.spdm with sessions := [], reply := [] } }

/-- The partitions that a state table has: number, basins and registers. -/
def Towpath.tableParts (t : Towpath) : List (Nat × List Nat × PartCsr) :=
  match t.table with
  | some x => x.parts
  | none => []

/-- A partition that a state table has is formed again, where its basins are free. -/
def reform (s : State) (x : Nat × List Nat × PartCsr) : State :=
  if (s.part x.1).isSome || x.2.1.any (fun b => (s.part (s.partOfBasin b)).isSome) then s
  else (x.2.1.foldl loadKeepers s).setPart x.1
    { Partition.init x.2.1 with csr := { x.2.2 with keepDown := [], keepAlone := [] } }

/-- Partitions created or dissolved after the last state table: those commands are lost, where nothing runs in their basins (19 R380).
Log: DEDUCED 119. -/
def partsFromTable (s : State) : State :=
  let xs := s.towpath.tableParts
  let s1 := s.parts.foldl (fun s q => match q.2 with
    | some p =>
      if xs.any (fun x => x.1 == q.1 && x.2.1 == p.basins) || p.tdi != .unlocked || p.basins.any (basinBusy s) then s
      else s.freeBasins q.1 p
    | none => s) s
  xs.foldl reform s1

/-- Partition seeds recovered by the new active complex from the custody escrow; keys received from peers went with the old one.
Log: DEDUCED 119. -/
def recoverSeeds (s : State) : State :=
  { s with parts := s.parts.map (fun q => (q.1, q.2.map (fun p =>
      s.inCustody p (Custody.mk (if sget [] s.escrow q.1 = [] then none else some (sget [] s.escrow q.1)) [])))) }

/-- Where the active complex has halted or missed its heartbeat and its peer stands by: whether it is complex B that takes over. -/
def standbyFor (s : State) : Option Bool :=
  let t := s.towpath
  if t.b == .standby && (t.a == .active || t.a == .failed) then some true
  else if t.a == .standby && (t.b == .active || t.b == .failed) then some false
  else none

/-- The standby becomes active, from the last state table. -/
def failOver (s : State) (toB : Bool) : State :=
  let t := s.towpath.fromTable
  let s1 := { s with towpath := { t with
    a := if toB then .failed else .active, b := if toB then .active else .failed, downAt := none } }
  (recoverSeeds (partsFromTable s1)).log (if toB then 0x234 else 0x230) evTowpathTakeover 0 0 0 0 0 0

/-- TOWPATH_FAILOVER: the active complex has halted or missed its heartbeat for 10 ms, and the standby takes over (19 R380).
Log: DEDUCED 119. -/
def execTowpathFailover (s : State) : Ans State :=
  .next (match standbyFor s with
    | some toB => failOver s toB
    | none => s)

/-- A complex that halted has missed its heartbeat for 10 ms, and its peer stands by (19 R380). -/
def failoverDue (s : State) : Bool :=
  s.towpath.downAt.any (fun h => decide (h + 30000000 ≤ s.tick)) && (standbyFor s).isSome

/-! Signed remote commands (19 R383). -/

/-- The signed bytes of a command. -/
def commandBytes (c : Command) : List Byte :=
  toBytes 2 c.op ++ toBytes 1 c.target ++ toBytes 1 c.flags ++ toBytes 4 c.reserved ++ toBytes 8 c.counter ++ toBytes 48 0

/-- The operator's key, provisioned in boot flash: the empty key name. Log: DESIGN CHOICE 98. -/
def operatorKey : List Byte := []

/-- A command that is accepted: its fields, its counter and its signature. -/
def commandOk (s : State) (c : Command) : Bool :=
  c.reserved == 0 && s.towpath.counter < c.counter && Config.slhVerify operatorKey (commandBytes c) c.sig &&
    (match c.op with
     | 1 => c.target < 4 && c.flags == 0
     | 2 => 1 ≤ c.target && c.target ≤ 4 && c.flags == 0
     | 5 => 1 ≤ c.target && c.target ≤ 4 && c.flags < 2
     | 3 => c.target == 0 && c.flags == 0
     | 4 => c.target == 0 && c.flags == 0
     | _ => false)

/-- A response to the management interface. Log: DESIGN CHOICE 111. -/
def State.reply (s : State) (bs : List Byte) : State :=
  { s with towpath := { s.towpath with spdm := { s.towpath.spdm with reply := bs } } }

/-- A response that carries a status code. Log: DESIGN CHOICE 111. -/
def State.answer (s : State) (status : Nat) : State := s.reply (toBytes 2 status)

/-- The new counter is written to the boot flash before the command takes effect. -/
def takeCommand (s : State) (c : Command) : State := { s with towpath := { s.towpath with counter := c.counter } }

/-- A command of one op: refused with COMMAND_REJECTED, also where its counter cannot be written and read back; or its counter kept and
its effect taken. -/
def command (s : State) (c : Command) (op : Nat) (effect : State → State) : State :=
  if c.op = op && commandOk s c && c.counterKept then effect (takeCommand s c) else s.answer stCmdRejected

/-- KEEPER_RESET: both keeper cores reloaded; the running timetable stops; queue state, contexts and the cellar stay.
Log: DEDUCED 101. -/
def execKeeperReset (cmd : Command) (s : State) : Ans State :=
  .next (command s cmd 1 (fun s =>
    (stopFor (resetKeepers s cmd.target) (s.partOfBasin cmd.target) stKeeperReset).answer 0))

/-! Scrubbing a partition (18 R355). -/

/-- Discards every suspended context: each command is completed STOPPED where the host may still be written. -/
def discardContexts (s : State) (part status : Nat) (host : Bool) : List (Nat × Ctx) → State
  | [] => s
  | x :: xs =>
    let s1 := (s.modPart part (fun p => { p with ctxs := sput none p.ctxs x.1 none })).note part 10 x.2.tt.cmd.queue x.1 status
      (some x.2.tt.cmd)
    discardContexts (if host then completeOwed s1 part x.2.tt.cmd clStopped status else s1) part status host xs

/-- Scrubbed cores: nothing of a task is left. -/
def scrubCores (s : State) : List Nat → State
  | [] => s
  | c :: cs => scrubCores (s.setCore c Core.init) cs

/-- A stack scrubbed whole: every block is rewritten with zero data, labels 0, minors 0 and its major one higher, its path with it; a block
whose major counter is full is poisoned instead (18 R343, R355, R365). -/
def Cellar.scrubStack (k : Cellar) (st : Nat) : Cellar :=
  let full := (k.major.filter (fun x => x.1 / stackBlocks == st && majorMax ≤ k.majorOf x.1)).map (fun x => x.1)
  full.foldl (fun k b => (List.range 64).foldl (fun k i => k.poison (64 * b + i) false) k)
    { k with
      bytes := sclear k.bytes (st * 2 ^ 36) (2 ^ 36), md := sclear k.md (st * 2 ^ 30) (2 ^ 30)
      scrubs := sput 0 k.scrubs st (k.scrubbed st + 1)
      struck := carve (st * 2 ^ 30) ((st + 1) * 2 ^ 30) k.struck
      dirty := k.dirty &&& ~~~(BitVec.ofNat 8 (2 ^ st)) }

/-- Scrubbed stacks. -/
def scrubStacks (s : State) : List Nat → State
  | [] => s
  | st :: sts => scrubStacks { s with cellar := s.cellar.scrubStack st } sts

/-- Window entries and their status emptied. -/
def clearWindows (s : State) (first n : Nat) : State :=
  { s with windows := sclear s.windows (64 * first) (64 * n), wstat := sclear s.wstat first n }

/-- The keeper's queue and journal areas for a partition emptied: the records that wait, and the ring (18 R355). -/
def scrubKeepers (s : State) (basins : List Nat) : State :=
  let s1 := basins.foldl (fun s b =>
    (s.modCore (256 + 2 * b) (fun k => { k with traps := [] })).modCore (257 + 2 * b) (fun k => { k with traps := [] })) s
  s1.modCore (sramOf (256 + 2 * basins.headD 0)) (fun k => { k with mem := { k.mem with
    sp := sclear k.mem.sp journalBase 0x40000, tags := sclear k.mem.tags (journalBase / 16) 0x4000 } })

/-- The partition's own part of a scrub: keys, bindings, queues, contexts and, where the host may no longer be written, what the keeper
has still to write. -/
def Partition.scrubbed (p : Partition) (tdi : Tdi) (host : Bool) : Partition :=
  { p with
    tdi := tdi, ide := none, custA := Custody.none, custB := Custody.none
    cellarKeys := Keys.none, ucieKeys := [], bottleKeys := Keys.none, bindings := [], fmts := [], queues := [], lastClass := [15, 15, 15], tt := none, ctxs := [], faultq := [], migr := none, soft := []
    evicted := [], bottle := none, openB := none, walk := [], rewritten := 0, session := none, prepaid := 0, taken := none
    heldItems := if host then p.heldItems else [], owed := if host then p.owed else [], chosen := none
    csr := { p.csr with cfScrubbed := true, botOpen := false, bottling := false } }

/-- Another partition's timetable on the tiles of a partition ends with them: its command is completed STOPPED (16 R316).
Log: DEDUCED 88. -/
def endGuest (s : State) (p : Partition) (status : Nat) : State :=
  match p.lent with
  | some g => match s.part g with
    | some y => match y.tt with
      | some t =>
        let s1 := ((freeReceive (s.unhold t.heldArr) y.csr.fwinBase t.windows).leaveTiles g y).modPart g (fun y =>
          { y with tt := none, bottle := none, csr := { y.csr with botOpen := false, bottling := false } })
        completeOwed s1 g t.cmd clStopped status
      | none => s
    | none => s
  | none => s

/-- Everything that 18 R355 does after the timetable has stopped, in its order. `host` is false where the VF may no longer be
written. Log: DEDUCED 95, 102. -/
def scrubPartition (s : State) (part status : Nat) (host : Bool) (tdi : Tdi) : State :=
  match s.part part with
  | some p =>
    let s := endGuest s p status
    let s1 := match p.tt with
      | some t =>
        let s0 := s.unhold t.heldArr
        if host then completeOwed s0 part t.cmd clStopped status else s0
      | none => s
    let s2 := match p.taken with
      | some c => if host then completeOwed s1 part c clStopped status else s1
      | none => s1
    let s3 := discardContexts s2 part status host p.contexts
    let cs := p.tileCores ++ (s.workCores part p).filter (fun c => !p.tileCores.contains c)
    let s4 := scrubKeepers (scrubStacks (scrubCores s3 cs) p.stacks) p.basins
    let s5 := (dropTlb (clearWindows (s4.leaveTiles part p) p.csr.fwinBase p.csr.fwinCount) part (fun _ _ => true)).uncache part
      (fun _ => true)
    let s6 := { s5 with
      islands := s5.islands.filter (fun i => !p.clusters.contains i.1)
      bookings := s5.bookings.map (fun (b : Booking) => if b.part = part then { b with done := true } else b)
      escrow := sput [] s5.escrow part [] }
    s6.modPart part (fun p => p.scrubbed tdi host)
  | none => s

/-- The halted core of a basin's keeper returns as shadow: reloaded, where its partner runs, else after the take-over by its
partner; where both have halted, both are reloaded (01 R25, 19 R377, R383). -/
def reviveKeeper (s : State) (b : Nat) : State :=
  let h := fun (c : Nat) => (s.core c).halted
  let c0 := 256 + 2 * b
  let c1 := c0 + 1
  if h c0 && h c1 then loadKeepers s b
  else if !(h c0 || h c1) then s
  else if (s.core (if h c0 then c1 else c0)).butty.st == .idle then takeOver s b true
  else loadCore s (if h c0 then c0 else c1) s.towpath.keeper.image none

/-- The keepers of a list of basins revived. -/
def reviveKeepers (s : State) (bs : List Nat) : State := bs.foldl reviveKeeper s

/-- PARTITION_RESET: the timetable stops, the partition is scrubbed, trips and halted cores are cleared.
Log: DEDUCED 102. -/
def execPartitionReset (cmd : Command) (s : State) : Ans State :=
  .next (command s cmd 2 (fun s =>
    match s.part cmd.target with
    | some p =>
      let s1 := reviveKeepers (scrubPartition s cmd.target stPartReset true .unlocked) p.basins
      let s2 := { s1 with tripped := p.basins.foldl (fun n b => if bitOf n b then n - 2 ^ b else n) s1.tripped }
      let held := ((s2.part cmd.target).map Partition.heldItems).getD []
      (deliverHeld (s2.modPart cmd.target (fun p =>
        { p with heldItems := [], csr := { p.csr with keepDown := [], keepAlone := [] } })) cmd.target held).answer 0
    | none => s.answer 0))

/-- The events that are still to come, after the time base has lost n ticks. -/
def shiftAgenda (n : Nat) (l : List (Nat × Instr)) : List (Nat × Instr) := l.map (fun e => (e.1 - n, e.2))

/-- What a warm reset keeps of a package: time, place, what lies outside it, fuses and boot flash. Log: DEDUCED 103. -/
def warmState (s : State) : State :=
  let f := s.takeFree
  let r := State.reset
  { r with
    tick := s.tick, position := s.position, absent := s.absent, host := s.host
    laybyCap := s.laybyCap, unavail := s.unavail, limited := s.limited, agenda := s.agenda, freeCtr := f.2.freeCtr
    health := { r.health with windowEnd := 3000000000 * (s.tick / 3000000000 + 1) }
    budgetAt := 300000 * (s.tick / 300000 + 1)
    towpath := { r.towpath with
      counter := s.towpath.counter, staged := s.towpath.staged, keeper := s.towpath.keeper
      flash := s.towpath.flash, runA := s.towpath.flash, runB := s.towpath.flash
      minSecver := s.towpath.minSecver, taiBase := s.towpath.taiBase, pps := s.towpath.pps, bootNonce := f.1.toNat } }

/-- PACKAGE_RESET: a warm reset; logs and keys are lost, fuses and boot flash kept. Log: DEDUCED 103. -/
def execPackageReset (cmd : Command) (s : State) : Ans State :=
  .next (command s cmd 3 (fun s =>
    let w := warmState s
    (loadComplex (loadComplex w 264 w.towpath.flash.image) 268 w.towpath.flash.image).answer 0))

/-- Seeds and custody keys handed from one complex to the other, which zeroises its own (19 R379). -/
def Partition.handOver (p : Partition) (toB : Bool) : Partition :=
  if toB then { p with custA := Custody.none, custB := p.custA } else { p with custA := p.custB, custB := Custody.none }

/-- The standby runs an image and is active; the other complex, which has handed over its custody and the records that wait for it,
stands by. The image is the boot flash's active one from now on (19 R379). -/
def switchTo (s : State) (f : Firmware) (toB : Bool) : State :=
  let t := s.towpath
  let old := if toB then 264 else 268
  let new := if toB then 268 else 264
  let s1 := { s with
    parts := s.parts.map (fun q => (q.1, q.2.map (fun p => p.handOver toB)))
    towpath := { t with
      a := if toB then .standby else .active, b := if toB then .active else .standby
      runA := if toB then t.runA else f, runB := if toB then f else t.runB, flash := f, staged := none } }
  let s2 := loadComplex s1 new f.image
  (s2.modCore new (fun k => { k with traps := (s.core old).traps })).modCore old (fun k => { k with traps := [] })

/-- LIVE_UPDATE: the standby boots the staged image, takes the active complex's state and custody and becomes active; or the update is
refused: for its security version, for a measurement that fails, which `accepts` says, or for the version of the state table, which
the new firmware has to take (19 R379). Log: DEDUCED 119. -/
def execLiveUpdate (cmd : Command) (accepts : Bool) (s : State) : Ans State :=
  .next (command s cmd 4 (fun s =>
    let t := s.towpath
    let toB := t.a == .active && t.b == .standby
    let toA := t.b == .active && t.a == .standby
    match t.staged with
    | some f =>
      if accepts && f.tableVersion == t.running.tableVersion && t.minSecver ≤ f.secver && (toA || toB) then
        (switchTo s f toB).answer 0
      else s.answer stUpdRefused
    | none => s.answer stUpdRefused))

/-- A receive entry of a partition names a flag of a core, from a package outside the migrating set (19 R382). -/
def blockedFlag (s : State) (p : Partition) (setv : List Nat) (c f : Nat) : Bool :=
  (List.range p.csr.fwinCount).any (fun i =>
    let e := p.csr.fwinBase + i
    s.winDir e == 2 && s.winCore e == c && s.winFlag e == f && !setv.contains (s.winPeer e))

/-- A core waits at a lock or in a fwait on such a flag. -/
def blockedCore (s : State) (p : Partition) (setv : List Nat) (c : Nat) (k : Core) : Bool :=
  (match k.lock with
    | some w => w.conds.any (fun x => blockedFlag s p setv c x.flag)
    | none => false) ||
  (match k.fwait with
    | some w => blockedFlag s p setv c w.flag
    | none => false)

/-- The migration is blocked by a task of a running timetable that no event has stopped, or of a suspended one. -/
def migrateBlocked (s : State) (p : Partition) (setv : List Nat) : Bool :=
  (match p.tt with
    | some t => t.stop.isNone && t.tasks.any (fun k => blockedCore s p setv k.core (s.core k.core))
    | none => false) ||
  p.contexts.any (fun x => x.2.cores.any (fun q => blockedCore s p setv q.1 q.2))

/-- The locks at which tasks of the running timetable wait on such flags. -/
def blockedLocks (s : State) (p : Partition) (t : Timetable) (setv : List Nat) : List Group :=
  t.groups.filter (fun g => g.waiting && g.arrivedList.any (fun m => match (s.core m).lock with
    | some w => w.group == g.num && w.conds.any (fun x => blockedFlag s p setv m x.flag)
    | none => false))

/-- Each of these locks times out at once: pre-empted at group 0, else its timetable stops. Log: DEDUCED 105. -/
def forceTimeouts (s : State) (part : Nat) (p : Partition) (t : Timetable) : List Group → State
  | [] => s
  | g :: gs =>
    forceTimeouts (if p.preempts t g.num then s.modTt part (fun t => { t with timedOut := true })
      else lockStops s part p g stLockTimeout) part p t gs

/-- The answer to a request to migrate a partition: MIGRATE_BLOCKED while a task waits on an outsider. -/
def migrateAnswer (s : State) (part : Nat) (setv : List Nat) : State :=
  s.answer (if (s.part part).any (fun p => migrateBlocked s p setv) then stMigrBlocked else 0)

/-- MIGRATE: refused with MIGRATE_BLOCKED while a task waits on an outsider; with cancel, those locks time out first, and the request is
evaluated again (19 R382). Log: DEDUCED 105. -/
def execMigrate (cmd : Command) (setv : List Nat) (s : State) : Ans State :=
  .next (command s cmd 5 (fun s =>
    match s.part cmd.target with
    | some p => match p.tt with
      | some t =>
        if cmd.flags = 0 || !migrateBlocked s p setv then migrateAnswer s cmd.target setv
        else migrateAnswer (forceTimeouts s cmd.target p t (blockedLocks s p t setv)) cmd.target setv
      | none => migrateAnswer s cmd.target setv
    | none => s.answer 0))

/-! Host-side events (19 R381, R382). -/

/-- FLR: at its acceptance tick the timetable stops with FLR, which the keeper's log shows; nothing more is written to the host for the
VF, suspended contexts are discarded, the partition is scrubbed and every queue is disabled. Log: DEDUCED 102. -/
def execFlr (part : Nat) (s : State) : Ans State :=
  .next (match s.part part with
    | some p =>
      let s1 := if p.tt.isSome || !p.contexts.isEmpty then s.log (s.keeperSource p) stFlr 0 0 0 0 part 0 else s
      (scrubPartition s1 part stFlr false .unlocked).modPart part (fun p => { p with flrAt := some s.tick })
    | none => s)

/-- Bytes of a cellar page that is evicted or returned. -/
def evictSize : Nat := pageSize 3

/-- The lines of the page at a cellar address. -/
def pageLines (pa : Nat) : List Nat := (List.range (evictSize / 64)).map (fun i => pa / 64 + i)

/-- The copy of a page in host memory: the ciphertext of its lines, then the 8 bytes of metadata of each, with its MAC and minor
counter, then the major counters of its blocks, then the version (19 R382). Log: DESIGN CHOICE 157. -/
def evictCopy (s : State) (pa version : Nat) : List Byte :=
  (pageLines pa).flatMap s.lineCipher ++ (pageLines pa).flatMap (fun l => toBytes 8 (s.lineMetadata l).toNat) ++
    (List.range (evictSize / 4096)).flatMap (fun i => toBytes 8 (s.cellar.majorOf (pa / 4096 + i))) ++ toBytes 8 version

/-- Bytes of the copy. -/
def copySize : Nat := evictSize + evictSize / 8 + evictSize / 512 + 8

/-- Tokens of a page that the keeper carries over CCL (16 R310). -/
def pageTokens : Nat := (copySize + 63) / 64

/-- What the keeper knows of a page that it evicts now. -/
def evictedPage (s : State) (p : Partition) (page : EvictTo) : Evicted :=
  { version := p.evictVer + 1
    bytes := s.cellar.bytes.filter (fun c => page.pa ≤ c.1 && c.1 < page.pa + evictSize)
    labels := ((pageLines page.pa).map (fun l => (l, (s.cellar.mdOf l).label))).filter (fun x => x.2 != 0)
    bad := (pageLines page.pa).filter (fun l => !s.cellar.lineOk l)
    at_ := page.host
    copy := evictCopy s page.pa (p.evictVer + 1)
    owner := match page.ctx with
      | some n => (sget none p.ctxs n).map (fun x => x.tt.cmd)
      | none => p.tt.map (fun t => t.cmd) }

/-- PAGE_EVICTION: the keeper writes the page to host memory, under a version that rises with each eviction, once its tokens are paid.
The page's frame in the cellar stays as it is. Log: DEDUCED 104. -/
def execPageEviction (part : Nat) (page : EvictTo) (s : State) : Ans State :=
  .next (
    if !s.ownsPa part page.pa || page.pa % evictSize != 0 ||
        (s.part part).any (fun p => (sget none p.evicted page.pa).isSome) then s
    else whenPaid s part pageTokens (fun s =>
      match s.part part with
      | some p =>
        let e := evictedPage s p page
        (s.putHost part (s.activeKeeper (p.basins.headD 0)) page.host e.copy).modPart part (fun p =>
          { p with evicted := sput none p.evicted page.pa (some e), evictVer := p.evictVer + 1 })
      | none => s))

/-- A line of a page written back as it was, under the active phase; one that had failed stays poisoned (18 R343, R345). -/
def lineBack (e : Evicted) (phase : Bool) (k : Cellar) (l : Nat) : Cellar :=
  if e.bad.contains l then k.writePoison phase l else k.write phase l (readBytes e.bytes (64 * l) 64) (sget 0 e.labels l)

/-- The page's lines have been written by the keeper: CFOLD.scrubbed is clear and monitors on them fire (12 R233, R240). -/
def pageBack (s : State) (part pa : Nat) (p : Partition) (k : Cellar) : State :=
  (pageLines pa).foldl (fun s l => s.hitMonitors part (s.activeKeeper (p.basins.headD 0)) 3 l)
    (s.withCellar { k with dirty := k.dirty ||| BitVec.ofNat 8 (2 ^ (pa / 2 ^ 36)) } part)

/-- The context of a command is poisoned: the running one, whose completion then reads STOPPED, or a suspended one (19 R382). -/
def poisonOwner (s : State) (part : Nat) (p : Partition) (c : Cmd) : State :=
  (p.contexts.filter (fun x => x.2.tt.cmd == c)).foldl (fun s x => poisonCtx s part x.1)
    (s.modTt part (fun t => if t.cmd == c then { t with poisoned := true } else t))

/-- PAGE_RETURN: a page that comes back with its version and a MAC that checks, as it stands in host memory, is written back as it was;
another is written back poisoned, and its context is poisoned (19 R382). Log: DEDUCED 104. -/
def execPageReturn (part pa version : Nat) (macOk : Bool) (s : State) : Ans State :=
  .next (match s.part part with
    | some p => match sget none p.evicted pa with
      | some e =>
        whenPaid s part pageTokens (fun s =>
          let s := s.modPart part (fun p => { p with evicted := sput none p.evicted pa none })
          if macOk && version == e.version && readBytes (s.hostMem part) e.at_ copySize == e.copy then
            pageBack s part pa p ((pageLines pa).foldl (lineBack e p.phase) s.cellar)
          else
            let s1 := pageBack s part pa p ((pageLines pa).foldl (fun k l => k.writePoison p.phase l) s.cellar)
            match e.owner with
            | some c => poisonOwner s1 part p c
            | none => s1)
      | none => s
    | none => s)

/-! Partitions (01 R20, R21, R25). -/

/-- The basin sets that may form a partition. Log: DEDUCED 106. -/
def basinSets : List (List Nat) :=
  [[0, 1, 2, 3], [0, 1], [2, 3], [0, 2], [1, 3], [0], [1], [2], [3]]

/-- A stack of a basin has been written since it was scrubbed (01 R20). -/
def basinDirty (s : State) (b : Nat) : Bool := s.cellar.dirty.getLsbD (2 * b) || s.cellar.dirty.getLsbD (2 * b + 1)

/-- PARTITION_CREATE: idle and scrubbed basins of a permitted set that are in no partition form one, and their keepers are loaded; a
request that names a basin with a running timetable is refused (01 R20), and so is every other. Log: DEDUCED 106; DESIGN CHOICE
136. -/
def execPartitionCreate (basins : List Nat) (s : State) : Ans State :=
  .next (
    if basins.any (basinBusy s) then s.answer stPartBusy
    else if !basinSets.contains basins || basins.any (fun b => (s.part (s.partOfBasin b)).isSome || basinDirty s b) then
      s.answer stPartBusy
    else
      let n := basins.headD 0 + 1
      ((basins.foldl loadKeepers s).setPart n (Partition.init basins)).answer 0)

/-- PARTITION_DISSOLVE: an idle and scrubbed partition is set free, with its keepers; one that is not is refused (01 R20).
Log: DESIGN CHOICE 136. -/
def execPartitionDissolve (part : Nat) (s : State) : Ans State :=
  .next (match s.part part with
    | some p =>
      if p.basins.any (basinBusy s) || !p.csr.cfScrubbed || p.tdi != .unlocked then s.answer stPartBusy
      else
        (s.freeBasins part p).answer 0
    | none => s)

/-! Resets and bring-up (01 R18, R24, R28; 19 R384). -/

/-- COLD_RESET: the time base is zero; complex A boots if its firmware verifies, else B with A held in reset and an event
logged. What lies outside the package, its fuses and its boot flash stay; nothing else does (01 R32), and no power limit stands.
Log: DESIGN CHOICE 11, 135; DEDUCED 103. -/
def execColdReset (okA okB : Bool) (s : State) : Ans State :=
  .next (
    let w := warmState s
    let t := w.towpath
    let r := { w with
      tick := 0, budgetAt := 300000, limited := 0, unavail := 0, agenda := shiftAgenda s.tick s.agenda
      health := State.reset.health
      towpath := { t with
        a := if okA then .active else .inReset
        b := if okA then (if okB then .standby else .inReset) else if okB then .active else .inReset
        terr := 0xFFFF, tstate := 0, taiBase := 0, pps := 0 } }
    let r1 := if okA then loadComplex r 264 t.flash.image else { r with cores := r.cores.filter (fun q => q.1 < 264 || 268 ≤ q.1) }
    let r2 := if okB then loadComplex r1 268 t.flash.image else { r1 with cores := r1.cores.filter (fun q => q.1 < 268) }
    if okA then r2 else r2.log (if okB then 0x234 else 0x240) evBootFailover 0 0 0 0 0 0)

/-- FULL_SERVICE: link training reports the ports, stacks and basins that it has trained. Once every basin has trained and
between timetables, the package passes to full service: PAM4 ports and a cellar at 12 Gb/s; before that, NRZ and 6 Gb/s
(19 R384). A port that has fallen rises only between timetables (13 R247). Log: DEDUCED 107. -/
def execFullService (portMask stackMask basinMask : Nat) (s : State) : Ans State :=
  .next (
    let idle := s.parts.all (fun q => match q.2 with
      | some p => p.tt.isNone
      | none => true)
    let full := s.svc.getLsbD 0 || (basinMask % 16 == 15 && idle)
    let st := if full then 4 else 2
    let ports := (List.range 32).foldl (fun ps p =>
      let x := sget Port.down ps p
      if bitOf portMask p && x.state < st && (idle || !x.fell) then sput Port.down ps p { x with state := st, fell := x.fell && st != 4 } else ps) s.ports
    let up := (List.range 32).foldl (fun n p => if 2 ≤ (sget Port.down ports p).state then n + 2 ^ p else n) 0
    { s with
      ports := ports
      cellar := { s.cellar with
        up := if full then BitVec.ofNat 8 stackMask else s.cellar.up
        fast := if full then BitVec.ofNat 8 stackMask else 0 }
      svc := BitVec.ofNat 64 (up * 2 ^ 32 + stackMask % 256 * 2 ^ 8 + basinMask % 16 * 2 ^ 4 + b2n full) })

/-- CELLAR_CHANNEL_DEGRADE: a channel retrains at 6 Gb/s, or its stack is unavailable (12 R242). -/
def execCellarChannelDegrade (stack : Nat) (holds6 : Bool) (s : State) : Ans State :=
  .next (
    let b := ~~~(BitVec.ofNat 8 (2 ^ stack))
    if 8 ≤ stack then s
    else { s with
      cellar := { s.cellar with fast := s.cellar.fast &&& b, up := if holds6 then s.cellar.up else s.cellar.up &&& b }
      svc := if holds6 then s.svc else s.svc &&& ~~~(BitVec.ofNat 64 (2 ^ (8 + stack))) })

/-- TILE_CORE_UNAVAILABLE: a faulty tile core is marked in the keeper's availability map (01 R33). -/
def execTileCoreUnavailable (core : Nat) (s : State) : Ans State :=
  .next (if isTile core then { s with unavail := s.unavail ||| 2 ^ core } else s)

/-- PLDM_FIRMWARE_UPDATE: an image is staged in the boot flash's inactive bank (19 R379). -/
def execPldmFirmwareUpdate (img : Firmware) (s : State) : Ans State :=
  .next { s with towpath := { s.towpath with staged := some img } }

/-! Time (01 R27, 14 R268). -/

/-- PTP_MESSAGE: the servo takes a time message: its state, its error estimate, and the TAI nanoseconds of now.
Log: DESIGN CHOICE 14. -/
def execPtpMessage (state terr taiNum : Nat) (s : State) : Ans State :=
  .next (if 3 < state then s
    else { s with towpath := { s.towpath with
      tstate := state, terr := min terr 65535, taiBase := taiNum - s.tick / 3 } })

/-- PPS_PULSE: an edge is sampled against the time base. -/
def execPpsPulse (edge : Nat) (s : State) : Ans State :=
  .next (if edge ≤ s.tick then { s with towpath := { s.towpath with pps := edge } } else s)

/-- HOLDOVER: the servo leaves locked; running timetables are not affected. -/
def execHoldover (terr : Nat) (s : State) : Ans State :=
  .next (if s.towpath.tstate = 2 then { s with towpath := { s.towpath with tstate := 3, terr := min terr 65535 } } else s)

/-! Power and heat (01 R28, R30, R31). -/

/-- INPUT_VOLTAGE: outside 40-60 V the board holds the package in reset and the event is logged. -/
def execInputVoltage (mV : Nat) (s : State) : Ans State :=
  .next (if mV < 40000 ∨ 60000 < mV then { s with inReset := true }.log 0x240 evInputVoltage 0 0 0 0 0 mV else s)

/-- POWER_LIMIT_ASSERT: a limit on some islands, until the board clears it. -/
def execPowerLimitAssert (islands : List Nat) (s : State) : Ans State :=
  .next { s with limited := islands.foldl (fun n i => if i < 32 then n ||| 2 ^ i else n) s.limited }

/-- POWER_LIMIT_CLEAR. -/
def execPowerLimitClear (s : State) : Ans State := .next { s with limited := 0 }

/-- The partition whose timetable runs on the tiles of a basin: its own, unless that runs elsewhere, or one that has been re-placed
there (16 R316). -/
def State.partAt (s : State) (basin : Nat) : Nat :=
  let part := s.workPart (64 * basin)
  if (s.part part).any (fun p => (s.clustersFor part p).contains (8 * basin)) then part else 0

/-- A basin trips: its clocks stop, its timetable ends THERMAL_TRIP, and the trip is logged (01 R31). -/
def tripBasin (s : State) (basin : Nat) : State :=
  stopFor ({ s with tripped := s.tripped ||| 2 ^ basin }.log 0x240 stThermal 0 0 0 0 (s.partOfBasin basin) basin)
    (s.partAt basin) stThermal

/-- THERMAL_TRIP of a basin. -/
def execThermalTrip (basin : Nat) (s : State) : Ans State := .next (if 4 ≤ basin then s else tripBasin s basin)

/-! Health (20 R386, R387). -/

/-- The log source that a health source is reported as (19 R371). -/
def healthSource (k : HealthSrc) (idx : Nat) : Nat :=
  match k with
  | .cellar => 0x220 + idx
  | .lane => 0x200 + idx
  | .droop => 0x240
  | .temperature => 0x240

/-- The threshold of a source; 0 disables it. -/
def State.threshold (s : State) (k : HealthSrc) : Nat :=
  match k with
  | .cellar => s.hthresh.ce
  | .lane => s.hthresh.lane
  | .droop => s.hthresh.droop
  | .temperature => s.hthresh.temp

/-- The count of a source in this window; for a basin, its junction temperature in °C. -/
def State.count (s : State) (k : HealthSrc) (idx : Nat) : Nat :=
  match k with
  | .cellar => sget 0 s.health.ce idx
  | .lane => sget 0 s.health.lane idx
  | .droop => sget 0 s.health.droop idx
  | .temperature => sget 0 s.health.temp idx

/-- The key of a source among those already raised. -/
def healthKey (k : HealthSrc) (idx : Nat) : Nat :=
  (match k with
   | .cellar => 0
   | .lane => 1
   | .droop => 2
   | .temperature => 3) * 64 + idx

/-- A source has reached its threshold: its count, or a basin's temperature. Log: DEDUCED 108. -/
def reached (s : State) (k : HealthSrc) (idx : Nat) : Bool := s.threshold k != 0 && s.threshold k ≤ s.count k idx

/-- A source warns partition n: for a droop, the one whose timetable runs on the island, where it has been placed (16 R316).
Log: DEDUCED 108. -/
def warns (s : State) (n : Nat) (p : Partition) (k : HealthSrc) (idx : Nat) : Bool :=
  match k with
  | .cellar => p.stacks.contains idx
  | .lane => sget 0 p.csr.fshare idx != 0
  | .droop => (s.clustersFor n p).contains idx && p.tt.isSome
  | .temperature => p.basins.contains idx

/-- Warns the partitions of a list: warn is set and the warning logged. -/
def warnAll (s : State) (k : HealthSrc) (idx : Nat) : List (Nat × Option Partition) → State
  | [] => s
  | (n, some p) :: qs =>
    warnAll (if warns s n p k idx then
        (s.modPart n (fun p => { p with csr := { p.csr with botWarn := true } })).log 0x240 evWarning 0 0 0 0 n (healthSource k idx)
      else s) k idx qs
  | (_, none) :: qs => warnAll s k idx qs

/-- FAILURE_WARNING: a count or a temperature has reached its threshold. Log: DEDUCED 108. -/
def execFailureWarning (src : HealthSrc) (idx : Nat) (s : State) : Ans State :=
  .next (if reached s src idx then
      warnAll { s with health := { s.health with raised := sput false s.health.raised ((healthKey src idx)) true } } src idx s.parts
    else s)

/-- The junction temperature at which a basin trips, whatever HTHRESH says, °C (01 R31, 20 R387). -/
def tripCelsius : Nat := 105

/-- HEALTH_EVENT: an event is counted; a lane error advances FPORT.lerr; a basin's temperature is taken in, and at 105 °C the basin trips
(01 R31, 20 R386). -/
def execHealthEvent (src : HealthInput) (idx : Nat) (s : State) : Ans State :=
  .next (
    let h := s.health
    match src with
    | .cellar => if 8 ≤ idx then s else { s with health := { h with ce := sput 0 h.ce idx (sget 0 h.ce idx + 1) } }
    | .lane =>
      if 32 ≤ idx then s
      else { s.setPort idx { s.port idx with lerr := (s.port idx).lerr + 1 } with
        health := { h with lane := sput 0 h.lane idx (sget 0 h.lane idx + 1) } }
    | .droop => if 32 ≤ idx then s else { s with health := { h with droop := sput 0 h.droop idx (sget 0 h.droop idx + 1) } }
    | .temperature c =>
      if 4 ≤ idx then s
      else
        let s1 := { s with health := { h with temp := sput 0 h.temp idx c } }
        if tripCelsius ≤ c && !bitOf s.tripped idx then tripBasin s1 idx else s1)

/-- Every source that has reached its threshold and has not warned in this window. -/
def pendingWarning (s : State) : Option (HealthSrc × Nat) :=
  let all := (List.range 8).map (fun i => (HealthSrc.cellar, i)) ++ (List.range 32).map (fun i => (HealthSrc.lane, i)) ++
    (List.range 32).map (fun i => (HealthSrc.droop, i)) ++ (List.range 4).map (fun i => (HealthSrc.temperature, i))
  all.find? (fun x => reached s x.1 x.2 && !sget false s.health.raised (healthKey x.1 x.2))

/-- HEALTH_WINDOW_END: the counts restart; the temperatures stand. -/
def execHealthWindowEnd (s : State) : Ans State :=
  .next (if s.health.windowEnd ≤ s.tick then
      { s with health := Health.mk [] [] [] s.health.temp [] (3000000000 * (s.tick / 3000000000 + 1)) }
    else s)

end Sys2Proof.Machine
end

