-- ==== Sys2Proof/Machine/Bottling.lean ====
section
/-! DEFINITION. Keeper bottling (20 R388-R393): the declaration table, and the three kinds of step of a bottle. -/

namespace Sys2Proof.Machine

/-- Base of the staging area in space 3 (20 R388). -/
def Partition.staging (p : Partition) : Nat := bits p.csr.botcfg 39 16 * 2 ^ 24

/-- Bytes of a bottle area in host memory. -/
def Partition.areaSize (p : Partition) : Nat := bits p.csr.bothost 11 0 * 2 ^ 30

/-- The host address of an area: A where the flag is false. -/
def Partition.areaBase (p : Partition) (b : Bool) : Nat := bits p.csr.bothost 51 12 * 2 ^ 12 + b2n b * p.areaSize

/-- The area that does not hold the last complete bottle. -/
def Partition.freeArea (p : Partition) : Bool := p.csr.botValid && !p.csr.botArea

/-- The declaration table: bases and lengths; none where it breaks its rules (20 R389). -/
def declaration (s : State) (part : Nat) (p : Partition) : Option (List (Nat × Nat)) :=
  match readSpace s part p.staging 0x2010 with
  | none => none
  | some b =>
    let n := fieldAt b 0 2
    let es := (List.range n).map (fun i => (fieldAt b (16 + 16 * i) 8, fieldAt b (24 + 16 * i) 8))
    let bad := fun (e : Nat × Nat) =>
      e.1 % 4096 != 0 || e.2 % 4096 != 0 || decide (2 ^ 48 < e.1 + e.2) ||
        (decide (e.1 < p.staging + 257 * 2 ^ 20) && decide (p.staging < e.1 + e.2))
    if n = 0 ∨ 512 < n ∨ !zeroAt b 2 6 ∨ es.any bad then none else some es

/-- Object bytes of one keeper shard at most. -/
def shardMax : Nat := 96 * 2 ^ 20

/-- Offsets after the shards of an object that starts at one. -/
def afterShards : Nat → Nat → Nat → Nat
  | 0, _, off => off
  | n + 1, len, off =>
    if len = 0 then off
    else afterShards n (len - min len shardMax) (off + shardSize (payloadFor 3 (min len shardMax)))

/-- The end of a bottle of a declaration in its area. -/
def bottleEnd (es : List (Nat × Nat)) : Nat := es.foldl (fun off e => afterShards (e.2 / shardMax + 1) e.2 off) (2 ^ 20)

/-- The hold for a bottle is in place and the timetable has settled. -/
def bottleReady (s : State) (t : Timetable) : Bool := t.bottleHeld && settledAll s t

/-- Releases the hold of a bottle. -/
def releaseBottle (s : State) (part : Nat) : State :=
  match (s.tt part).bind (fun t => t.hold) with
  | some h => if h.why = .bottle then releaseHold s part h else s
  | none => s

/-- The bottle begins, or ends at once where it cannot be written (20 R389). Log: DEDUCED 109. -/
def beginBottle (s : State) (part : Nat) (p : Partition) : State :=
  let q := { p with lastBottle := some s.tick }
  let bad := match declaration s part p with
    | none => true
    | some es => p.areaSize == 0 || decide (p.areaSize < bottleEnd es)
  let s := countSpace (logSpace s part p.staging 0x2010) part p.staging 0x2010
  if bad then
    releaseBottle ((s.setPart part q).log 0x240 evWarning 0 0 0 0 part 0xFFFF) part
  else
    disarmMonitors (s.setPart part { q with
      bottle := some (BottleJob.mk 0 0 0 (2 ^ 20) [])
      csr := { p.csr with bottling := true, botWarn := false } }) part

/-- The labels of n lines of space 3. -/
def spaceLabels (s : State) (part va n : Nat) : List (BitVec 16) :=
  (List.range n).map (fun i => match spaceAddr s part (va + 64 * i) with
    | some pa => (s.cellar.mdOf (pa / 64)).label
    | none => 0)

/-- Writes bytes over lines of space 3. -/
def putLines (s : State) (part by_ va : Nat) (bs : List Byte) : Nat → State
  | 0 => s
  | n + 1 => putLines (putSpace s part by_ (va + 64 * n) ((bs.drop (64 * n)).take 64) none) part by_ va bs n

/-- The entry of a shard in its manifest. -/
def keeperEntry (off objLen : Nat) (shard : List Byte) : List Byte :=
  toBytes 8 off ++ toBytes 8 shard.length ++ toBytes 8 objLen ++ toBytes 1 3 ++ toBytes 7 0 ++ (shard.drop 0x40).take 32

/-- Seals the next shard into the free staging half and copies it to the area, once its host tokens are paid (16 R310). -/
def bottleShard (s : State) (part : Nat) (p : Partition) (b : BottleJob) (e : Nat × Nat) : State :=
  let by_ := s.activeKeeper (p.basins.headD 0)
  let va := e.1 + b.off
  let n := min shardMax (e.2 - b.off)
  match readSpace s part va n with
  | none => logSpace s part va n
  | some obj =>
    let payload := obj ++ (spaceLabels s part va (n / 64)).flatMap (fun l => toBytes 2 l.toNat)
    let lines := shardSize payload.length / 64
    whenPaid s part lines (fun s =>
      let iv := freeIv s
      let shard := shardBytes (shardHead s part 3 p.csr.botStep.toNat n p.bottleKeys.active iv.1) (s.bottleKey p) iv.1 payload
      let half := p.staging + 2 ^ 20 + b.half * (128 * 2 ^ 20)
      let s1 := countSpace (countSpace iv.2 part va n) part half shard.length
      let s2 := (putLines s1 part by_ half shard lines).putHost part by_ (p.areaBase p.freeArea + b.areaOff) shard
      let last := b.off + n == e.2
      let job : BottleJob := { b with
        entry := if last then b.entry + 1 else b.entry
        off := if last then 0 else b.off + n
        half := 1 - b.half
        areaOff := b.areaOff + shard.length
        shards := b.shards ++ [keeperEntry b.areaOff n shard] }
      s2.modPart part (fun p => { p with bottle := some job }))

/-- The next shard of a bottle; an entry of no bytes is cut into no shard (20 R390). -/
def bottleNext (s : State) (part : Nat) (p : Partition) (b : BottleJob) (e : Nat × Nat) : State :=
  if e.2 = 0 then s.setPart part { p with bottle := some { b with entry := b.entry + 1, off := 0 } } else bottleShard s part p b e

/-- The manifest of a keeper bottle: its policy is the running firmware and the fused minimum versions (20 R393). -/
def keeperManifest (s : State) (part : Nat) (p : Partition) (shards : List (List Byte)) : List Byte :=
  let head := toBytes 4 0xA480B071 ++ toBytes 2 1 ++ toBytes 2 shards.length ++ toBytes 8 p.csr.botStep.toNat ++
    toBytes 8 s.tick ++ toBytes 8 p.shape ++ toBytes 4 s.towpath.minSecver ++ toBytes 4 s.towpath.minSecver ++ toBytes 1 1 ++
    toBytes 1 s.position ++ toBytes 1 part ++ toBytes 1 0 ++ toBytes 4 p.bottleKeys.active ++ toBytes 16 0 ++
    fit 64 s.towpath.running.measurement ++ fit 64 s.towpath.keeper.measurement ++ toBytes 384 0 ++ shards.flatten
  patch head 0x30 (manifestTag (s.bottleKey p) head)

/-- The manifest completes the bottle (20 R390). -/
def bottleDone (s : State) (part : Nat) (p : Partition) (b : BottleJob) : State :=
  whenPaid s part ((0x240 + 64 * b.shards.length + 63) / 64) (fun s =>
    let m := keeperManifest s part p b.shards
    releaseBottle ((s.putHost part (s.activeKeeper (p.basins.headD 0)) (p.areaBase p.freeArea) m).modPart part (fun p =>
      { p with
        bottle := none
        csr := { p.csr with botArea := p.freeArea, botValid := true, botCount := (p.csr.botCount + 1) % 256, bottling := false } })) part)

/-- KEEPER_BOTTLING: a step of a keeper bottle: it holds and begins, seals its next shard, or seals its manifest (20 R390).
Log: DEDUCED 109. -/
def execKeeperBottling (part : Nat) (phase : BottlePhase) (s : State) : Ans State :=
  .next (match s.part part with
    | some p => match p.tt with
      | some t =>
        if p.holding || t.stop.isSome then s
        else match phase, p.bottle with
          | .start, none =>
            if !bottleWanted s p then s
            else if bottleReady s t then beginBottle s part p
            else if canHold s part p t .bottle then placeHold s part .bottle
            else s
          | .shard, some b => match (declaration s part p).bind (fun es => es[b.entry]?) with
            | some e => if t.bottleHeld then bottleNext s part p b e else s
            | none => s
          | .manifest, some b => match declaration s part p with
            | some es => if t.bottleHeld && b.entry == es.length then bottleDone s part p b else s
            | none => s
          | _, _ => s
      | none => s
    | none => s)

end Sys2Proof.Machine
end

