-- ==== Sys2Proof/Machine/CsrEvents.lean ====
section
/-! DEFINITION. Writes of control registers as steps of their own (17 R321, R322): each is the write that csrw, csrs or csrc
performs. -/

namespace Sys2Proof.Machine

/-- ARITH_WRITE (05 R107). -/
def execArithWrite (core : Nat) (kind : CsrKind) (v : Word) (s : State) : Ans State := .next (arithWrite s core kind v)

/-- ASTAT_WRITE (05 R109). -/
def execAstatWrite (core : Nat) (kind : CsrKind) (v : Word) (s : State) : Ans State := .next (astatWrite s core kind v)

/-- CFOLD_WRITE (12 R240). -/
def execCfoldWrite (core : Nat) (kind : CsrKind) (v : Word) (s : State) : Ans State := .next (cfoldWrite s core kind v)

/-- FORIGIN_WRITE (13 R245). -/
def execForiginWrite (core : Nat) (kind : CsrKind) (v : Word) (s : State) : Ans State := .next (foriginWrite s core kind v)

/-- FSHARE_WRITE (13 R249). -/
def execFshareWrite (core port : Nat) (kind : CsrKind) (v : Word) (s : State) : Ans State :=
  .next (fshareWrite s core port kind v)

/-- BUDGET_WRITE (16 R310). -/
def execBudgetWrite (core : Nat) (layby : Bool) (kind : CsrKind) (v : Word) (s : State) : Ans State :=
  .next (budgetWrite s core layby kind v)

/-- FWIN_WRITE (13 R252). -/
def execFwinWrite (core : Nat) (kind : CsrKind) (v : Word) (s : State) : Ans State := .next (fwinWrite s core kind v)

/-- REACHLIM_WRITE (14 R275). -/
def execReachlimWrite (core : Nat) (kind : CsrKind) (v : Word) (s : State) : Ans State :=
  .next (reachlimWrite s core kind v)

/-- LPATIENCE_WRITE (14 R281). -/
def execLpatienceWrite (core : Nat) (kind : CsrKind) (v : Word) (s : State) : Ans State :=
  .next (lpatienceWrite s core kind v)

/-- TASKCAP_WRITE (17 R323). -/
def execTaskcapWrite (core : Nat) (kind : CsrKind) (v : Word) (s : State) : Ans State :=
  .next (taskcapWrite s core kind v)

/-- HTHRESH_WRITE (20 R387). -/
def execHthreshWrite (core : Nat) (kind : CsrKind) (v : Word) (s : State) : Ans State :=
  .next (hthreshWrite s core kind v)

/-- TLBINV_WRITE (12 R236). -/
def execTlbinvWrite (core : Nat) (kind : CsrKind) (v : Word) (s : State) : Ans State :=
  .next (tlbinvWrite s core kind v)

/-- REGISTER_WRITE (17 R321): to the register that a number names, by its own rule where it has one. -/
def execRegisterWrite (core num : Nat) (kind : CsrKind) (v : Word) (s : State) : Ans State :=
  .next (csrWrite s core num kind v)

end Sys2Proof.Machine
end

