-- ==== Sys2Proof/Machine/ScalarArith.lean ====
section
/-! DEFINITION. The scalar functions of sa and sb on 64-bit values (09 R173-R178). a is i0, b the trigger operand,
c is i1. -/

namespace Sys2Proof.Machine

/-- shl: 0 for counts of 64 or more (09 R174). -/
def shl64 (a b : Word) : Word := if b.toNat < 64 then a <<< b.toNat else 0

/-- shr: 0 for counts of 64 or more (09 R174). -/
def shr64 (a b : Word) : Word := if b.toNat < 64 then a >>> b.toNat else 0

/-- sar: all copies of the sign for counts of 64 or more (09 R174). -/
def sar64 (a b : Word) : Word := BitVec.sshiftRight a (min b.toNat 63)

/-- rol: the count taken modulo 64 (09 R174). -/
def rol64 (a b : Word) : Word := a.rotateLeft (b.toNat % 64)

/-- Leading zero bits of the low n bits. -/
def clzFrom (v : Word) : Nat → Nat
  | 0 => 0
  | n + 1 => if v.getLsbD n then 0 else 1 + clzFrom v n

/-- clz: 64 for 0 (09 R173). -/
def clz64 (b : Word) : Word := BitVec.ofNat 64 (clzFrom b 64)

/-- Trailing zero bits, with n bits still to look at. -/
def ctzFrom (v : Word) : Nat → Nat
  | 0 => 0
  | n + 1 => if v.getLsbD (63 - n) then 0 else 1 + ctzFrom v n

/-- ctz: 64 for 0 (09 R173). -/
def ctz64 (b : Word) : Word := BitVec.ofNat 64 (ctzFrom b 64)

/-- One bits among the low n bits. -/
def popFrom (v : Word) : Nat → Nat
  | 0 => 0
  | n + 1 => b2n (v.getLsbD n) + popFrom v n

/-- popc (09 R173). -/
def popc64 (b : Word) : Word := BitVec.ofNat 64 (popFrom b 64)

/-- sext of width n(b): 0 at width 0, unchanged at 64 and above (09 R175). -/
def sext64 (a b : Word) : Word :=
  if b.toNat = 0 then 0 else if 64 ≤ b.toNat then a else wrap64 (sextOf a.toNat b.toNat)

/-- zext of width n(b) (09 R175). -/
def zext64 (a b : Word) : Word :=
  if b.toNat = 0 then 0 else if 64 ≤ b.toNat then a else BitVec.ofNat 64 (a.toNat % 2 ^ b.toNat)

/-- lo of a field descriptor (09 R175). -/
def fieldLo (b : Word) : Nat := bits b 5 0

/-- len of a field descriptor, cut at bit 63 (09 R175). -/
def fieldLen (b : Word) : Nat := min (bits b 14 8) (64 - fieldLo b)

/-- bfx (09 R175). -/
def bfx64 (a b : Word) : Word :=
  let f := bitsOf a.toNat (fieldLo b + fieldLen b - 1) (fieldLo b)
  if fieldLen b = 0 then 0
  else if b.getLsbD 15 then wrap64 (sextOf f (fieldLen b)) else BitVec.ofNat 64 f

/-- bfi (09 R175). -/
def bfi64 (a b c : Word) : Word :=
  let mask : Word := BitVec.ofNat 64 ((2 ^ fieldLen b - 1) * 2 ^ fieldLo b)
  if fieldLen b = 0 then a else (a &&& ~~~mask) ||| ((c <<< fieldLo b) &&& mask)

/-- addw: the 32-bit sum, sign-extended (09 R173). -/
def addw64 (a b : Word) : Word := ((a + b).setWidth 32).signExtend 64

/-- mulh: the high half of the signed product (09 R177). -/
def mulh64 (a b : Word) : Word := wrap64 (a.toInt * b.toInt / (2 ^ 64 : Nat))

/-- mulhu: the high half of the natural product (09 R177). -/
def mulhu64 (a b : Word) : Word := BitVec.ofNat 64 (a.toNat * b.toNat / 2 ^ 64)

/-- div: rounded toward zero; all ones for b = 0 (09 R178). -/
def div64 (a b : Word) : Word := if b = 0 then BitVec.allOnes 64 else wrap64 (Int.tdiv a.toInt b.toInt)

/-- rem: a for b = 0 (09 R178). -/
def rem64 (a b : Word) : Word :=
  if b = 0 then a else wrap64 (a.toInt - b.toInt * Int.tdiv a.toInt b.toInt)

/-- divu: all ones for b = 0 (09 R178). -/
def divu64 (a b : Word) : Word := if b = 0 then BitVec.allOnes 64 else BitVec.ofNat 64 (a.toNat / b.toNat)

/-- remu: a for b = 0 (09 R178). -/
def remu64 (a b : Word) : Word := if b = 0 then a else BitVec.ofNat 64 (a.toNat % b.toNat)

end Sys2Proof.Machine
end

