-- ==== Sys2Proof/Machine/Scalar.lean ====
section
/-! DEFINITION. The scalar units sa and sb (09 R173-R178): a is i0, b the trigger operand, c is i1, all as they stand after
the bundle's port writes. -/

namespace Sys2Proof.Machine

/-- A scalar operation of unit u: result f a b c on output port `port` at T+n (09 R173). -/
def scalarEff (u port n : Nat) (f : Word → Word → Word → Word) : Eff := fun s c _ v =>
  s.schedule c n (.out (outPort u port) (f ((s.core c).inp u 0) v ((s.core c).inp u 1)))

/-- A scalar compare of unit u: the predicate that bits 2:0 of i1 name, through the rotation base at T, at T+1 (09 R176). -/
def compareEff (u : Nat) (f : Word → Word → Bool) : Eff := fun s c _ v =>
  s.schedule c 1 (.rpred (physP (s.core c).regs.rotb (bits ((s.core c).inp u 1) 2 0)) (f ((s.core c).inp u 0) v))

/-- sa.mov (09 R173). -/
def execSaMov (h : Head) (s : State) : Ans State :=
  slotOp h 0x100 none (scalarEff 0 0 1 (fun _ b _ => b)) s

/-- sa.add (09 R173). -/
def execSaAdd (h : Head) (s : State) : Ans State :=
  slotOp h 0x101 none (scalarEff 0 0 1 (fun a b _ => a + b)) s

/-- sa.sub (09 R173). -/
def execSaSub (h : Head) (s : State) : Ans State :=
  slotOp h 0x102 none (scalarEff 0 0 1 (fun a b _ => a - b)) s

/-- sa.and (09 R173). -/
def execSaAnd (h : Head) (s : State) : Ans State :=
  slotOp h 0x103 none (scalarEff 0 0 1 (fun a b _ => a &&& b)) s

/-- sa.or (09 R173). -/
def execSaOr (h : Head) (s : State) : Ans State :=
  slotOp h 0x104 none (scalarEff 0 0 1 (fun a b _ => a ||| b)) s

/-- sa.xor (09 R173). -/
def execSaXor (h : Head) (s : State) : Ans State :=
  slotOp h 0x105 none (scalarEff 0 0 1 (fun a b _ => a ^^^ b)) s

/-- sa.andn (09 R173). -/
def execSaAndn (h : Head) (s : State) : Ans State :=
  slotOp h 0x106 none (scalarEff 0 0 1 (fun a b _ => a &&& ~~~b)) s

/-- sa.orn (09 R173). -/
def execSaOrn (h : Head) (s : State) : Ans State :=
  slotOp h 0x107 none (scalarEff 0 0 1 (fun a b _ => a ||| ~~~b)) s

/-- sa.shl (09 R174). -/
def execSaShl (h : Head) (s : State) : Ans State :=
  slotOp h 0x108 none (scalarEff 0 0 1 (fun a b _ => shl64 a b)) s

/-- sa.shr (09 R174). -/
def execSaShr (h : Head) (s : State) : Ans State :=
  slotOp h 0x109 none (scalarEff 0 0 1 (fun a b _ => shr64 a b)) s

/-- sa.sar (09 R174). -/
def execSaSar (h : Head) (s : State) : Ans State :=
  slotOp h 0x10A none (scalarEff 0 0 1 (fun a b _ => sar64 a b)) s

/-- sa.rol (09 R174). -/
def execSaRol (h : Head) (s : State) : Ans State :=
  slotOp h 0x10B none (scalarEff 0 0 1 (fun a b _ => rol64 a b)) s

/-- sa.min (09 R173). -/
def execSaMin (h : Head) (s : State) : Ans State :=
  slotOp h 0x10C none (scalarEff 0 0 1 (fun a b _ => if a.toInt ≤ b.toInt then a else b)) s

/-- sa.max (09 R173). -/
def execSaMax (h : Head) (s : State) : Ans State :=
  slotOp h 0x10D none (scalarEff 0 0 1 (fun a b _ => if b.toInt ≤ a.toInt then a else b)) s

/-- sa.minu (09 R173). -/
def execSaMinu (h : Head) (s : State) : Ans State :=
  slotOp h 0x10E none (scalarEff 0 0 1 (fun a b _ => if a.toNat ≤ b.toNat then a else b)) s

/-- sa.maxu (09 R173). -/
def execSaMaxu (h : Head) (s : State) : Ans State :=
  slotOp h 0x10F none (scalarEff 0 0 1 (fun a b _ => if b.toNat ≤ a.toNat then a else b)) s

/-- sa.seq (09 R173). -/
def execSaSeq (h : Head) (s : State) : Ans State :=
  slotOp h 0x110 none (scalarEff 0 0 1 (fun a b _ => b2w (a == b))) s

/-- sa.sne (09 R173). -/
def execSaSne (h : Head) (s : State) : Ans State :=
  slotOp h 0x111 none (scalarEff 0 0 1 (fun a b _ => b2w (a != b))) s

/-- sa.slt (09 R173). -/
def execSaSlt (h : Head) (s : State) : Ans State :=
  slotOp h 0x112 none (scalarEff 0 0 1 (fun a b _ => b2w (a.toInt < b.toInt))) s

/-- sa.sltu (09 R173). -/
def execSaSltu (h : Head) (s : State) : Ans State :=
  slotOp h 0x113 none (scalarEff 0 0 1 (fun a b _ => b2w (a.toNat < b.toNat))) s

/-- sa.sle (09 R173). -/
def execSaSle (h : Head) (s : State) : Ans State :=
  slotOp h 0x114 none (scalarEff 0 0 1 (fun a b _ => b2w (a.toInt ≤ b.toInt))) s

/-- sa.sleu (09 R173). -/
def execSaSleu (h : Head) (s : State) : Ans State :=
  slotOp h 0x115 none (scalarEff 0 0 1 (fun a b _ => b2w (a.toNat ≤ b.toNat))) s

/-- sa.peq (09 R176). -/
def execSaPeq (h : Head) (s : State) : Ans State :=
  slotOp h 0x116 none (compareEff 0 (fun a b => a == b)) s

/-- sa.pne (09 R176). -/
def execSaPne (h : Head) (s : State) : Ans State :=
  slotOp h 0x117 none (compareEff 0 (fun a b => a != b)) s

/-- sa.plt (09 R176). -/
def execSaPlt (h : Head) (s : State) : Ans State :=
  slotOp h 0x118 none (compareEff 0 (fun a b => decide (a.toInt < b.toInt))) s

/-- sa.pltu (09 R176). -/
def execSaPltu (h : Head) (s : State) : Ans State :=
  slotOp h 0x119 none (compareEff 0 (fun a b => decide (a.toNat < b.toNat))) s

/-- sa.pge (09 R176). -/
def execSaPge (h : Head) (s : State) : Ans State :=
  slotOp h 0x11A none (compareEff 0 (fun a b => decide (b.toInt ≤ a.toInt))) s

/-- sa.pgeu (09 R176). -/
def execSaPgeu (h : Head) (s : State) : Ans State :=
  slotOp h 0x11B none (compareEff 0 (fun a b => decide (b.toNat ≤ a.toNat))) s

/-- sa.clz (09 R173). -/
def execSaClz (h : Head) (s : State) : Ans State :=
  slotOp h 0x11C none (scalarEff 0 0 1 (fun _ b _ => clz64 b)) s

/-- sa.ctz (09 R173). -/
def execSaCtz (h : Head) (s : State) : Ans State :=
  slotOp h 0x11D none (scalarEff 0 0 1 (fun _ b _ => ctz64 b)) s

/-- sa.popc (09 R173). -/
def execSaPopc (h : Head) (s : State) : Ans State :=
  slotOp h 0x11E none (scalarEff 0 0 1 (fun _ b _ => popc64 b)) s

/-- sa.sext (09 R175). -/
def execSaSext (h : Head) (s : State) : Ans State :=
  slotOp h 0x11F none (scalarEff 0 0 1 (fun a b _ => sext64 a b)) s

/-- sa.zext (09 R175). -/
def execSaZext (h : Head) (s : State) : Ans State :=
  slotOp h 0x120 none (scalarEff 0 0 1 (fun a b _ => zext64 a b)) s

/-- sa.bfx (09 R175). -/
def execSaBfx (h : Head) (s : State) : Ans State :=
  slotOp h 0x121 none (scalarEff 0 0 1 (fun a b _ => bfx64 a b)) s

/-- sa.bfi (09 R175). -/
def execSaBfi (h : Head) (s : State) : Ans State :=
  slotOp h 0x122 none (scalarEff 0 0 1 (fun a b c => bfi64 a b c)) s

/-- sa.addw (09 R173). -/
def execSaAddw (h : Head) (s : State) : Ans State :=
  slotOp h 0x123 none (scalarEff 0 0 1 (fun a b _ => addw64 a b)) s

/-- sb.mov (09 R173). -/
def execSbMov (h : Head) (s : State) : Ans State :=
  slotOp h 0x140 none (scalarEff 1 0 1 (fun _ b _ => b)) s

/-- sb.add (09 R173). -/
def execSbAdd (h : Head) (s : State) : Ans State :=
  slotOp h 0x141 none (scalarEff 1 0 1 (fun a b _ => a + b)) s

/-- sb.sub (09 R173). -/
def execSbSub (h : Head) (s : State) : Ans State :=
  slotOp h 0x142 none (scalarEff 1 0 1 (fun a b _ => a - b)) s

/-- sb.and (09 R173). -/
def execSbAnd (h : Head) (s : State) : Ans State :=
  slotOp h 0x143 none (scalarEff 1 0 1 (fun a b _ => a &&& b)) s

/-- sb.or (09 R173). -/
def execSbOr (h : Head) (s : State) : Ans State :=
  slotOp h 0x144 none (scalarEff 1 0 1 (fun a b _ => a ||| b)) s

/-- sb.xor (09 R173). -/
def execSbXor (h : Head) (s : State) : Ans State :=
  slotOp h 0x145 none (scalarEff 1 0 1 (fun a b _ => a ^^^ b)) s

/-- sb.andn (09 R173). -/
def execSbAndn (h : Head) (s : State) : Ans State :=
  slotOp h 0x146 none (scalarEff 1 0 1 (fun a b _ => a &&& ~~~b)) s

/-- sb.orn (09 R173). -/
def execSbOrn (h : Head) (s : State) : Ans State :=
  slotOp h 0x147 none (scalarEff 1 0 1 (fun a b _ => a ||| ~~~b)) s

/-- sb.shl (09 R174). -/
def execSbShl (h : Head) (s : State) : Ans State :=
  slotOp h 0x148 none (scalarEff 1 0 1 (fun a b _ => shl64 a b)) s

/-- sb.shr (09 R174). -/
def execSbShr (h : Head) (s : State) : Ans State :=
  slotOp h 0x149 none (scalarEff 1 0 1 (fun a b _ => shr64 a b)) s

/-- sb.sar (09 R174). -/
def execSbSar (h : Head) (s : State) : Ans State :=
  slotOp h 0x14A none (scalarEff 1 0 1 (fun a b _ => sar64 a b)) s

/-- sb.rol (09 R174). -/
def execSbRol (h : Head) (s : State) : Ans State :=
  slotOp h 0x14B none (scalarEff 1 0 1 (fun a b _ => rol64 a b)) s

/-- sb.min (09 R173). -/
def execSbMin (h : Head) (s : State) : Ans State :=
  slotOp h 0x14C none (scalarEff 1 0 1 (fun a b _ => if a.toInt ≤ b.toInt then a else b)) s

/-- sb.max (09 R173). -/
def execSbMax (h : Head) (s : State) : Ans State :=
  slotOp h 0x14D none (scalarEff 1 0 1 (fun a b _ => if b.toInt ≤ a.toInt then a else b)) s

/-- sb.minu (09 R173). -/
def execSbMinu (h : Head) (s : State) : Ans State :=
  slotOp h 0x14E none (scalarEff 1 0 1 (fun a b _ => if a.toNat ≤ b.toNat then a else b)) s

/-- sb.maxu (09 R173). -/
def execSbMaxu (h : Head) (s : State) : Ans State :=
  slotOp h 0x14F none (scalarEff 1 0 1 (fun a b _ => if b.toNat ≤ a.toNat then a else b)) s

/-- sb.seq (09 R173). -/
def execSbSeq (h : Head) (s : State) : Ans State :=
  slotOp h 0x150 none (scalarEff 1 0 1 (fun a b _ => b2w (a == b))) s

/-- sb.sne (09 R173). -/
def execSbSne (h : Head) (s : State) : Ans State :=
  slotOp h 0x151 none (scalarEff 1 0 1 (fun a b _ => b2w (a != b))) s

/-- sb.slt (09 R173). -/
def execSbSlt (h : Head) (s : State) : Ans State :=
  slotOp h 0x152 none (scalarEff 1 0 1 (fun a b _ => b2w (a.toInt < b.toInt))) s

/-- sb.sltu (09 R173). -/
def execSbSltu (h : Head) (s : State) : Ans State :=
  slotOp h 0x153 none (scalarEff 1 0 1 (fun a b _ => b2w (a.toNat < b.toNat))) s

/-- sb.sle (09 R173). -/
def execSbSle (h : Head) (s : State) : Ans State :=
  slotOp h 0x154 none (scalarEff 1 0 1 (fun a b _ => b2w (a.toInt ≤ b.toInt))) s

/-- sb.sleu (09 R173). -/
def execSbSleu (h : Head) (s : State) : Ans State :=
  slotOp h 0x155 none (scalarEff 1 0 1 (fun a b _ => b2w (a.toNat ≤ b.toNat))) s

/-- sb.peq (09 R176). -/
def execSbPeq (h : Head) (s : State) : Ans State :=
  slotOp h 0x156 none (compareEff 1 (fun a b => a == b)) s

/-- sb.pne (09 R176). -/
def execSbPne (h : Head) (s : State) : Ans State :=
  slotOp h 0x157 none (compareEff 1 (fun a b => a != b)) s

/-- sb.plt (09 R176). -/
def execSbPlt (h : Head) (s : State) : Ans State :=
  slotOp h 0x158 none (compareEff 1 (fun a b => decide (a.toInt < b.toInt))) s

/-- sb.pltu (09 R176). -/
def execSbPltu (h : Head) (s : State) : Ans State :=
  slotOp h 0x159 none (compareEff 1 (fun a b => decide (a.toNat < b.toNat))) s

/-- sb.pge (09 R176). -/
def execSbPge (h : Head) (s : State) : Ans State :=
  slotOp h 0x15A none (compareEff 1 (fun a b => decide (b.toInt ≤ a.toInt))) s

/-- sb.pgeu (09 R176). -/
def execSbPgeu (h : Head) (s : State) : Ans State :=
  slotOp h 0x15B none (compareEff 1 (fun a b => decide (b.toNat ≤ a.toNat))) s

/-- sb.clz (09 R173). -/
def execSbClz (h : Head) (s : State) : Ans State :=
  slotOp h 0x15C none (scalarEff 1 0 1 (fun _ b _ => clz64 b)) s

/-- sb.ctz (09 R173). -/
def execSbCtz (h : Head) (s : State) : Ans State :=
  slotOp h 0x15D none (scalarEff 1 0 1 (fun _ b _ => ctz64 b)) s

/-- sb.popc (09 R173). -/
def execSbPopc (h : Head) (s : State) : Ans State :=
  slotOp h 0x15E none (scalarEff 1 0 1 (fun _ b _ => popc64 b)) s

/-- sb.sext (09 R175). -/
def execSbSext (h : Head) (s : State) : Ans State :=
  slotOp h 0x15F none (scalarEff 1 0 1 (fun a b _ => sext64 a b)) s

/-- sb.zext (09 R175). -/
def execSbZext (h : Head) (s : State) : Ans State :=
  slotOp h 0x160 none (scalarEff 1 0 1 (fun a b _ => zext64 a b)) s

/-- sb.bfx (09 R175). -/
def execSbBfx (h : Head) (s : State) : Ans State :=
  slotOp h 0x161 none (scalarEff 1 0 1 (fun a b _ => bfx64 a b)) s

/-- sb.bfi (09 R175). -/
def execSbBfi (h : Head) (s : State) : Ans State :=
  slotOp h 0x162 none (scalarEff 1 0 1 (fun a b c => bfi64 a b c)) s

/-- sb.addw (09 R173). -/
def execSbAddw (h : Head) (s : State) : Ans State :=
  slotOp h 0x163 none (scalarEff 1 0 1 (fun a b _ => addw64 a b)) s

/-- sb.mul (09 R177). -/
def execSbMul (h : Head) (s : State) : Ans State :=
  slotOp h 0x164 none (scalarEff 1 1 3 (fun a b _ => a * b)) s

/-- sb.mulh (09 R177). -/
def execSbMulh (h : Head) (s : State) : Ans State :=
  slotOp h 0x165 none (scalarEff 1 1 3 (fun a b _ => mulh64 a b)) s

/-- sb.mulhu (09 R177). -/
def execSbMulhu (h : Head) (s : State) : Ans State :=
  slotOp h 0x166 none (scalarEff 1 1 3 (fun a b _ => mulhu64 a b)) s

/-- sb.div (09 R178). -/
def execSbDiv (h : Head) (s : State) : Ans State :=
  slotOp h 0x167 none (scalarEff 1 2 24 (fun a b _ => div64 a b)) s

/-- sb.divu (09 R178). -/
def execSbDivu (h : Head) (s : State) : Ans State :=
  slotOp h 0x168 none (scalarEff 1 2 24 (fun a b _ => divu64 a b)) s

/-- sb.rem (09 R178). -/
def execSbRem (h : Head) (s : State) : Ans State :=
  slotOp h 0x169 none (scalarEff 1 2 24 (fun a b _ => rem64 a b)) s

/-- sb.remu (09 R178). -/
def execSbRemu (h : Head) (s : State) : Ans State :=
  slotOp h 0x16A none (scalarEff 1 2 24 (fun a b _ => remu64 a b)) s

end Sys2Proof.Machine
end

