-- ==== Sys2Proof/Machine/Tdisp.lean ====
section
/-! DEFINITION. The TDISP device interfaces of the partitions and the SPDM responder (18 R352-R355). A response stands in
Spdm.reply as the SPDM 1.3 version byte, the response code of DSP0274, and its content; the codes are PRESUMED, since the spec
names the messages only. -/

namespace Sys2Proof.Machine

/-! Interfaces (18 R354, R355). -/

/-- LOCK_INTERFACE_REQUEST's effect. -/
def lockInterface (s : State) (part : Nat) : State :=
  s.modPart part (fun p => if p.tdi = .unlocked then { p with tdi := .locked } else p)

/-- The first key of a stream, at vintage 1, where it has none (18 R347, R352). -/
def firstKey (s : State) (p : Partition) (k : KeyStream) (x : Keys) : Keys :=
  if x.active = 0 then Keys.first (s.deriveKey p k 1) else x

/-- The first keys of a partition's streams. -/
def firstKeys (s : State) (p : Partition) : Partition :=
  { p with
    cellarKeys := firstKey s p .cellar p.cellarKeys
    ucieKeys := [false, true].map (fun d => firstKey s p (.ucie d) ((p.keysOf (.ucie d)).getD Keys.none))
    bottleKeys := firstKey s p .bottle p.bottleKeys }

/-- START_INTERFACE_REQUEST's effect: the seed must be set; the first keys are active before the interface runs. -/
def startInterface (s : State) (part : Nat) : State :=
  s.modPart part (fun p => if p.tdi = .locked ∧ (s.seedOf p).isSome then { firstKeys s p with tdi := .run } else p)

/-- STOP_INTERFACE_REQUEST's effect: leaving RUN or ERROR ends all work and scrubs the partition. -/
def stopInterface (s : State) (part : Nat) : State :=
  match s.part part with
  | some p => match p.tdi with
    | .run => scrubPartition s part stTdiError true .unlocked
    | .error => scrubPartition s part stTdiError true .unlocked
    | _ => s.setPart part { p with tdi := .unlocked }
  | none => s

/-- GET_DEVICE_INTERFACE_REPORT's answer: the attestation report with a zero nonce. -/
def interfaceReport (s : State) (part : Nat) : State :=
  match s.part part with
  | some p => s.reply (attestReport s part p (List.replicate 32 0))
  | none => s

/-- LOCK_INTERFACE_REQUEST. -/
def execLockInterfaceRequest (part : Nat) (s : State) : Ans State := .next (lockInterface s part)

/-- START_INTERFACE_REQUEST. -/
def execStartInterfaceRequest (part : Nat) (s : State) : Ans State := .next (startInterface s part)

/-- STOP_INTERFACE_REQUEST. -/
def execStopInterfaceRequest (part : Nat) (s : State) : Ans State := .next (stopInterface s part)

/-- GET_DEVICE_INTERFACE_REPORT. -/
def execGetDeviceInterfaceReport (part : Nat) (s : State) : Ans State := .next (interfaceReport s part)

/-- A failed tree node of a stack of the partition: every line beneath it is poisoned, and the failure is logged at the node's
address (18 R345). -/
def treeFailure (s : State) (part stack level idx : Nat) : State :=
  if stack < 8 ∧ level < 7 ∧ idx < 2 ^ (21 - 3 * level) ∧ s.partOfStack stack = part then
    { s.log (0x220 + stack) evIntegrity 0 0 0 0 part (Config.nodeAddr stack level idx) with cellar := s.cellar.strike stack level idx }
  else s

/-- The interface enters ERROR: leaving RUN ends all work with TDI_ERROR and scrubs the partition (18 R354, R355). -/
def enterError (s : State) (part : Nat) : State :=
  match s.part part with
  | some p => if p.tdi = .run then scrubPartition s part stTdiError true .error else s.setPart part { p with tdi := .error }
  | none => s

/-- TDI_ERROR: a tree failure, a CCL IDE failure or a key-store fault moves the interface to ERROR (18 R345, R354, R355). -/
def execTdiError (f : TdiFault) (s : State) : Ans State :=
  .next (enterError (match f.cause with
    | .tree stack level idx => treeFailure s f.part stack level idx
    | .ide => s
    | .keyStore => s) f.part)

/-! The responder (18 R353). -/

/-- Changes the responder. -/
def State.modSpdm (s : State) (f : Spdm → Spdm) : State := { s with towpath := { s.towpath with spdm := f s.towpath.spdm } }

/-- A response: version 1.3, code, content. Log: PRESUMED 110. -/
def respond (s : State) (code : Nat) (content : List Byte) : State := s.reply ([0x13, BitVec.ofNat 8 code] ++ content)

/-- The ERROR response. Log: PRESUMED 110. -/
def respondError (s : State) : State := respond s 0x7F []

/-- The algorithms offered: 1 SLH-DSA-SHAKE-256s, 2 ML-KEM-1024, 3 SHAKE256. -/
def offeredAlgs : List Nat := [1, 2, 3]

/-- The three algorithms have been negotiated. -/
def Spdm.ready (x : Spdm) : Bool := x.version && x.caps && offeredAlgs.all (fun a => x.algs.contains a)

/-- Goes on where the connection is ready. -/
def whenReady (s : State) (go : State) : State := if s.towpath.spdm.ready then go else respondError s

/-- Goes on in an established session. -/
def inSession (s : State) (id : Nat) (go : Session → State) : State :=
  match s.towpath.spdm.session id with
  | some x => if x.established then go x else respondError s
  | none => respondError s

/-- Replaces a session. -/
def Spdm.setSession (x : Spdm) (y : Session) : Spdm :=
  { x with sessions := x.sessions.map (fun z => if z.id = y.id then y else z) }

/-- GET_VERSION begins a connection. -/
def execGetVersion (s : State) : Ans State :=
  .next (respond (s.modSpdm (fun x => { x with version := true, caps := false, algs := [] })) 0x04 [])

/-- GET_CAPABILITIES. -/
def execGetCapabilities (s : State) : Ans State :=
  .next (if s.towpath.spdm.version then respond (s.modSpdm (fun x => { x with caps := true })) 0x61 [] else respondError s)

/-- NEGOTIATE_ALGORITHMS: of the algorithms asked for, those the device offers. -/
def execNegotiateAlgorithms (algs : List Nat) (s : State) : Ans State :=
  .next (if s.towpath.spdm.version && s.towpath.spdm.caps then
      let got := offeredAlgs.filter (fun a => algs.contains a)
      respond (s.modSpdm (fun x => { x with algs := got })) 0x63 (got.map (BitVec.ofNat 8))
    else respondError s)

/-- GET_DIGESTS: the digest of the certificate chain. -/
def execGetDigests (s : State) : Ans State :=
  .next (whenReady s (respond s 0x01 (fit 32 (Config.shake256 Config.certChain 32))))

/-- GET_CERTIFICATE: a part of the chain. -/
def execGetCertificate (offset len : Nat) (s : State) : Ans State :=
  .next (whenReady s (respond s 0x02 ((Config.certChain.drop offset).take len)))

/-- CHALLENGE: a signature over the nonce under the identity key. Log: DESIGN CHOICE 156. -/
def execChallenge (nonce : List Byte) (s : State) : Ans State :=
  .next (whenReady s (respond s 0x03 (nonce ++ fit 29792 (Config.slhSign identityKey nonce))))

/-- The measurements of the running firmware. -/
def measurements (s : State) : List Byte := fit 64 s.towpath.running.measurement ++ fit 64 s.towpath.keeper.measurement

/-- GET_MEASUREMENTS: signed by the attestation key; none without a signature. Log: DESIGN CHOICE 156. -/
def execGetMeasurements (nonce : List Byte) (signed : Bool) (s : State) : Ans State :=
  .next (whenReady s (
    if signed then
      let m := measurements s ++ nonce
      respond s 0x60 (m ++ fit 29792 (Config.slhSign s.attestKey m))
    else respondError s))

/-- KEY_EXCHANGE: a session begins, by ML-KEM-1024; a pre-shared-key session is not offered. -/
def execKeyExchange (sess : Nat) (psk : Bool) (exchange : List Byte) (s : State) : Ans State :=
  .next (whenReady s (
    if psk || (s.towpath.spdm.session sess).isSome then respondError s
    else respond (s.modSpdm (fun x => { x with sessions := x.sessions ++ [Session.mk sess false 0 (Config.mlkemDecap exchange)] }))
      0x64 []))

/-- FINISH: with the requester verified, the session is established; else it ends. -/
def execFinish (sess : Nat) (verified : Bool) (s : State) : Ans State :=
  .next (match s.towpath.spdm.session sess with
    | some y =>
      if y.established then respondError s
      else if verified then respond (s.modSpdm (fun x => x.setSession { y with established := true })) 0x65 []
      else respondError (s.modSpdm (fun x => { x with sessions := x.sessions.filter (fun z => z.id != sess) }))
    | none => respondError s)

/-- KEY_UPDATE: the session's keys move on by one epoch. Log: DESIGN CHOICE 156. -/
def execKeyUpdate (sess : Nat) (s : State) : Ans State :=
  .next (inSession s sess (fun y =>
    respond (s.modSpdm (fun x => x.setSession { y with epoch := y.epoch + 1, secret := Config.shake256 y.secret 64 })) 0x69 []))

/-- HEARTBEAT. -/
def execHeartbeat (sess : Nat) (s : State) : Ans State := .next (inSession s sess (fun _ => respond s 0x68 []))

/-- END_SESSION. -/
def execEndSession (sess : Nat) (s : State) : Ans State :=
  .next (inSession s sess (fun _ =>
    respond (s.modSpdm (fun x => { x with sessions := x.sessions.filter (fun z => z.id != sess) })) 0x6C []))

/-- A tenant secret sets the partition's seed, with the partition id and the boot nonce, before the interface runs; both
complexes reach it in escrow (18 R352, 19 R380). The session is the partition's, whose wrapping key is its own (18 R362). -/
def setSeed (s : State) (sess part : Nat) (cipher : List Byte) : State :=
  let seed := Config.shake256 (Config.mlkemDecap cipher ++ toBytes 1 part ++ toBytes 8 s.towpath.bootNonce) 64
  match s.part part with
  | some p =>
    if p.tdi = .unlocked ∨ p.tdi = .locked then
      { s with escrow := sput [] s.escrow part seed }.setPart part
        { s.inCustody p { s.custody p with seed := some seed } with session := some sess }
    else s
  | none => s

/-- VENDOR_DEFINED_REQUEST in an established session: TDISP, IDE_KM or a tenant secret (18 R352-R354). -/
def execVendorDefinedRequest (sess : Nat) (req : VendorReq) (s : State) : Ans State :=
  .next (inSession s sess (fun _ =>
    match req with
    | .lockInterface part => respond (lockInterface s part) 0x7E []
    | .startInterface part => respond (startInterface s part) 0x7E []
    | .stopInterface part => respond (stopInterface s part) 0x7E []
    | .interfaceReport part => interfaceReport s part
    | .ideKey part key => respond (s.modPart part (fun p => { p with ide := some key })) 0x7E []
    | .tenantSecret part cipher => respond (setSeed s sess part cipher) 0x7E []))

end Sys2Proof.Machine
end

