-- ==== Sys2Proof/Machine/Dispatch.lean ====
section
/-! DEFINITION. The meaning of every instruction: one arm per row of spec/opcode_table.json. -/

namespace Sys2Proof.Machine

/-- One instruction on a state. -/
def exec (i : Instr) (s : State) : Host.Outcome State Fault Refusal :=
  match i with
  | .bundleIssue core motor => Sys2Proof.Machine.execBundleIssue core motor s
  | .move h d => Sys2Proof.Machine.execMove h d s
  | .nop => Sys2Proof.Machine.execNop s
  | .queuePush h q => Sys2Proof.Machine.execQueuePush h q s
  | .streamReset h => Sys2Proof.Machine.execStreamReset h s
  | .saMov h => Sys2Proof.Machine.execSaMov h s
  | .saAdd h => Sys2Proof.Machine.execSaAdd h s
  | .saSub h => Sys2Proof.Machine.execSaSub h s
  | .saAnd h => Sys2Proof.Machine.execSaAnd h s
  | .saOr h => Sys2Proof.Machine.execSaOr h s
  | .saXor h => Sys2Proof.Machine.execSaXor h s
  | .saAndn h => Sys2Proof.Machine.execSaAndn h s
  | .saOrn h => Sys2Proof.Machine.execSaOrn h s
  | .saShl h => Sys2Proof.Machine.execSaShl h s
  | .saShr h => Sys2Proof.Machine.execSaShr h s
  | .saSar h => Sys2Proof.Machine.execSaSar h s
  | .saRol h => Sys2Proof.Machine.execSaRol h s
  | .saMin h => Sys2Proof.Machine.execSaMin h s
  | .saMax h => Sys2Proof.Machine.execSaMax h s
  | .saMinu h => Sys2Proof.Machine.execSaMinu h s
  | .saMaxu h => Sys2Proof.Machine.execSaMaxu h s
  | .saSeq h => Sys2Proof.Machine.execSaSeq h s
  | .saSne h => Sys2Proof.Machine.execSaSne h s
  | .saSlt h => Sys2Proof.Machine.execSaSlt h s
  | .saSltu h => Sys2Proof.Machine.execSaSltu h s
  | .saSle h => Sys2Proof.Machine.execSaSle h s
  | .saSleu h => Sys2Proof.Machine.execSaSleu h s
  | .saPeq h => Sys2Proof.Machine.execSaPeq h s
  | .saPne h => Sys2Proof.Machine.execSaPne h s
  | .saPlt h => Sys2Proof.Machine.execSaPlt h s
  | .saPltu h => Sys2Proof.Machine.execSaPltu h s
  | .saPge h => Sys2Proof.Machine.execSaPge h s
  | .saPgeu h => Sys2Proof.Machine.execSaPgeu h s
  | .saClz h => Sys2Proof.Machine.execSaClz h s
  | .saCtz h => Sys2Proof.Machine.execSaCtz h s
  | .saPopc h => Sys2Proof.Machine.execSaPopc h s
  | .saSext h => Sys2Proof.Machine.execSaSext h s
  | .saZext h => Sys2Proof.Machine.execSaZext h s
  | .saBfx h => Sys2Proof.Machine.execSaBfx h s
  | .saBfi h => Sys2Proof.Machine.execSaBfi h s
  | .saAddw h => Sys2Proof.Machine.execSaAddw h s
  | .sbMov h => Sys2Proof.Machine.execSbMov h s
  | .sbAdd h => Sys2Proof.Machine.execSbAdd h s
  | .sbSub h => Sys2Proof.Machine.execSbSub h s
  | .sbAnd h => Sys2Proof.Machine.execSbAnd h s
  | .sbOr h => Sys2Proof.Machine.execSbOr h s
  | .sbXor h => Sys2Proof.Machine.execSbXor h s
  | .sbAndn h => Sys2Proof.Machine.execSbAndn h s
  | .sbOrn h => Sys2Proof.Machine.execSbOrn h s
  | .sbShl h => Sys2Proof.Machine.execSbShl h s
  | .sbShr h => Sys2Proof.Machine.execSbShr h s
  | .sbSar h => Sys2Proof.Machine.execSbSar h s
  | .sbRol h => Sys2Proof.Machine.execSbRol h s
  | .sbMin h => Sys2Proof.Machine.execSbMin h s
  | .sbMax h => Sys2Proof.Machine.execSbMax h s
  | .sbMinu h => Sys2Proof.Machine.execSbMinu h s
  | .sbMaxu h => Sys2Proof.Machine.execSbMaxu h s
  | .sbSeq h => Sys2Proof.Machine.execSbSeq h s
  | .sbSne h => Sys2Proof.Machine.execSbSne h s
  | .sbSlt h => Sys2Proof.Machine.execSbSlt h s
  | .sbSltu h => Sys2Proof.Machine.execSbSltu h s
  | .sbSle h => Sys2Proof.Machine.execSbSle h s
  | .sbSleu h => Sys2Proof.Machine.execSbSleu h s
  | .sbPeq h => Sys2Proof.Machine.execSbPeq h s
  | .sbPne h => Sys2Proof.Machine.execSbPne h s
  | .sbPlt h => Sys2Proof.Machine.execSbPlt h s
  | .sbPltu h => Sys2Proof.Machine.execSbPltu h s
  | .sbPge h => Sys2Proof.Machine.execSbPge h s
  | .sbPgeu h => Sys2Proof.Machine.execSbPgeu h s
  | .sbClz h => Sys2Proof.Machine.execSbClz h s
  | .sbCtz h => Sys2Proof.Machine.execSbCtz h s
  | .sbPopc h => Sys2Proof.Machine.execSbPopc h s
  | .sbSext h => Sys2Proof.Machine.execSbSext h s
  | .sbZext h => Sys2Proof.Machine.execSbZext h s
  | .sbBfx h => Sys2Proof.Machine.execSbBfx h s
  | .sbBfi h => Sys2Proof.Machine.execSbBfi h s
  | .sbAddw h => Sys2Proof.Machine.execSbAddw h s
  | .sbMul h => Sys2Proof.Machine.execSbMul h s
  | .sbMulh h => Sys2Proof.Machine.execSbMulh h s
  | .sbMulhu h => Sys2Proof.Machine.execSbMulhu h s
  | .sbDiv h => Sys2Proof.Machine.execSbDiv h s
  | .sbDivu h => Sys2Proof.Machine.execSbDivu h s
  | .sbRem h => Sys2Proof.Machine.execSbRem h s
  | .sbRemu h => Sys2Proof.Machine.execSbRemu h s
  | .ctBr h => Sys2Proof.Machine.execCtBr h s
  | .ctJmp h => Sys2Proof.Machine.execCtJmp h s
  | .ctCall h => Sys2Proof.Machine.execCtCall h s
  | .ctRet h => Sys2Proof.Machine.execCtRet h s
  | .ctLoop h => Sys2Proof.Machine.execCtLoop h s
  | .ctRot h => Sys2Proof.Machine.execCtRot h s
  | .ctLock h => Sys2Proof.Machine.execCtLock h s
  | .ctEndtask h => Sys2Proof.Machine.execCtEndtask h s
  | .ctTrap h => Sys2Proof.Machine.execCtTrap h s
  | .ctBrk h => Sys2Proof.Machine.execCtBrk h s
  | .lsLd8 h => Sys2Proof.Machine.execLsLd8 h s
  | .lsLd8z h => Sys2Proof.Machine.execLsLd8z h s
  | .lsLd16 h => Sys2Proof.Machine.execLsLd16 h s
  | .lsLd16z h => Sys2Proof.Machine.execLsLd16z h s
  | .lsLd32 h => Sys2Proof.Machine.execLsLd32 h s
  | .lsLd32z h => Sys2Proof.Machine.execLsLd32z h s
  | .lsLd64 h => Sys2Proof.Machine.execLsLd64 h s
  | .lsSt8 h => Sys2Proof.Machine.execLsSt8 h s
  | .lsSt16 h => Sys2Proof.Machine.execLsSt16 h s
  | .lsSt32 h => Sys2Proof.Machine.execLsSt32 h s
  | .lsSt64 h => Sys2Proof.Machine.execLsSt64 h s
  | .lsLdlab h => Sys2Proof.Machine.execLsLdlab h s
  | .lsStlab h => Sys2Proof.Machine.execLsStlab h s
  | .lsLdcap h => Sys2Proof.Machine.execLsLdcap h s
  | .lsStcap h => Sys2Proof.Machine.execLsStcap h s
  | .lsCbound h => Sys2Proof.Machine.execLsCbound h s
  | .lsCmove h => Sys2Proof.Machine.execLsCmove h s
  | .lsCperm h => Sys2Proof.Machine.execLsCperm h s
  | .lsCbase h => Sys2Proof.Machine.execLsCbase h s
  | .lsClen h => Sys2Proof.Machine.execLsClen h s
  | .lsCinfo h => Sys2Proof.Machine.execLsCinfo h s
  | .lsCcopy h => Sys2Proof.Machine.execLsCcopy h s
  | .lsCclear h => Sys2Proof.Machine.execLsCclear h s
  | .lsHand h => Sys2Proof.Machine.execLsHand h s
  | .vaAdd h e => Sys2Proof.Machine.execVaAdd h e s
  | .vaSub h e => Sys2Proof.Machine.execVaSub h e s
  | .vaMul h e => Sys2Proof.Machine.execVaMul h e s
  | .vaFma h e => Sys2Proof.Machine.execVaFma h e s
  | .vaFms h e => Sys2Proof.Machine.execVaFms h e s
  | .vaNfma h e => Sys2Proof.Machine.execVaNfma h e s
  | .vaMin h e => Sys2Proof.Machine.execVaMin h e s
  | .vaMax h e => Sys2Proof.Machine.execVaMax h e s
  | .vaAbs h e => Sys2Proof.Machine.execVaAbs h e s
  | .vaNeg h e => Sys2Proof.Machine.execVaNeg h e s
  | .vaAnd h e => Sys2Proof.Machine.execVaAnd h e s
  | .vaOr h e => Sys2Proof.Machine.execVaOr h e s
  | .vaXor h e => Sys2Proof.Machine.execVaXor h e s
  | .vaNot h e => Sys2Proof.Machine.execVaNot h e s
  | .vaShl h e => Sys2Proof.Machine.execVaShl h e s
  | .vaShr h e => Sys2Proof.Machine.execVaShr h e s
  | .vaSar h e => Sys2Proof.Machine.execVaSar h e s
  | .vaCmp h e => Sys2Proof.Machine.execVaCmp h e s
  | .vaSel h e => Sys2Proof.Machine.execVaSel h e s
  | .vaSum h e => Sys2Proof.Machine.execVaSum h e s
  | .vaRmax h e => Sys2Proof.Machine.execVaRmax h e s
  | .vaRmin h e => Sys2Proof.Machine.execVaRmin h e s
  | .vaDot4 h e => Sys2Proof.Machine.execVaDot4 h e s
  | .vaScale h e => Sys2Proof.Machine.execVaScale h e s
  | .vaClamp h e => Sys2Proof.Machine.execVaClamp h e s
  | .vaAddsat h e => Sys2Proof.Machine.execVaAddsat h e s
  | .vaSubsat h e => Sys2Proof.Machine.execVaSubsat h e s
  | .vmLd h e => Sys2Proof.Machine.execVmLd h e s
  | .vmSt h e => Sys2Proof.Machine.execVmSt h e s
  | .vmLdx h e => Sys2Proof.Machine.execVmLdx h e s
  | .vmStx h e => Sys2Proof.Machine.execVmStx h e s
  | .vmMov h e => Sys2Proof.Machine.execVmMov h e s
  | .vmBcast h e => Sys2Proof.Machine.execVmBcast h e s
  | .vmLane h e => Sys2Proof.Machine.execVmLane h e s
  | .vmPerm h e => Sys2Proof.Machine.execVmPerm h e s
  | .vmShuf h e => Sys2Proof.Machine.execVmShuf h e s
  | .vmCvt h e => Sys2Proof.Machine.execVmCvt h e s
  | .vmPack h e => Sys2Proof.Machine.execVmPack h e s
  | .vmUnpack h e => Sys2Proof.Machine.execVmUnpack h e s
  | .vmDecode h e => Sys2Proof.Machine.execVmDecode h e s
  | .vmEncode h e => Sys2Proof.Machine.execVmEncode h e s
  | .vmPush h e => Sys2Proof.Machine.execVmPush h e s
  | .vmPop h e => Sys2Proof.Machine.execVmPop h e s
  | .vmMand h e => Sys2Proof.Machine.execVmMand h e s
  | .vmMor h e => Sys2Proof.Machine.execVmMor h e s
  | .vmMnot h e => Sys2Proof.Machine.execVmMnot h e s
  | .vmMcount h e => Sys2Proof.Machine.execVmMcount h e s
  | .vmLend h e => Sys2Proof.Machine.execVmLend h e s
  | .vmReclaim h e => Sys2Proof.Machine.execVmReclaim h e s
  | .vmSetfmt h e => Sys2Proof.Machine.execVmSetfmt h e s
  | .sfExp2 h e => Sys2Proof.Machine.execSfExp2 h e s
  | .sfLog2 h e => Sys2Proof.Machine.execSfLog2 h e s
  | .sfRcp h e => Sys2Proof.Machine.execSfRcp h e s
  | .sfRsqrt h e => Sys2Proof.Machine.execSfRsqrt h e s
  | .sfSqrt h e => Sys2Proof.Machine.execSfSqrt h e s
  | .sfTanh h e => Sys2Proof.Machine.execSfTanh h e s
  | .sfSigm h e => Sys2Proof.Machine.execSfSigm h e s
  | .sfSin h e => Sys2Proof.Machine.execSfSin h e s
  | .sfCos h e => Sys2Proof.Machine.execSfCos h e s
  | .sfErf h e => Sys2Proof.Machine.execSfErf h e s
  | .prCask h => Sys2Proof.Machine.execPrCask h s
  | .prMm h => Sys2Proof.Machine.execPrMm h s
  | .prMmz h => Sys2Proof.Machine.execPrMmz h s
  | .prZero h => Sys2Proof.Machine.execPrZero h s
  | .prMode h => Sys2Proof.Machine.execPrMode h s
  | .prFmt h => Sys2Proof.Machine.execPrFmt h s
  | .prBusy h => Sys2Proof.Machine.execPrBusy h s
  | .rkRack h => Sys2Proof.Machine.execRkRack h s
  | .rkFill h => Sys2Proof.Machine.execRkFill h s
  | .rkGather h => Sys2Proof.Machine.execRkGather h s
  | .rkScatter h => Sys2Proof.Machine.execRkScatter h s
  | .rkReduce h => Sys2Proof.Machine.execRkReduce h s
  | .rkMcast h => Sys2Proof.Machine.execRkMcast h s
  | .rkProbe h => Sys2Proof.Machine.execRkProbe h s
  | .rkCancel h => Sys2Proof.Machine.execRkCancel h s
  | .rkWaitaddr h => Sys2Proof.Machine.execRkWaitaddr h s
  | .rkRel h => Sys2Proof.Machine.execRkRel h s
  | .rkAcq h => Sys2Proof.Machine.execRkAcq h s
  | .fbSend h => Sys2Proof.Machine.execFbSend h s
  | .fbSendr h => Sys2Proof.Machine.execFbSendr h s
  | .fbRfence h => Sys2Proof.Machine.execFbRfence h s
  | .fbSlot h => Sys2Proof.Machine.execFbSlot h s
  | .fbWstat h => Sys2Proof.Machine.execFbWstat h s
  | .fgFset h => Sys2Proof.Machine.execFgFset h s
  | .fgFadd h => Sys2Proof.Machine.execFgFadd h s
  | .fgFcas h => Sys2Proof.Machine.execFgFcas h s
  | .fgFget h => Sys2Proof.Machine.execFgFget h s
  | .fgFtest h => Sys2Proof.Machine.execFgFtest h s
  | .fgFwait h => Sys2Proof.Machine.execFgFwait h s
  | .fgFclr h => Sys2Proof.Machine.execFgFclr h s
  | .fgGarrive h => Sys2Proof.Machine.execFgGarrive h s
  | .fgGcast h => Sys2Proof.Machine.execFgGcast h s
  | .fgGinfo h => Sys2Proof.Machine.execFgGinfo h s
  | .syCsrr h => Sys2Proof.Machine.execSyCsrr h s
  | .syCsrw h => Sys2Proof.Machine.execSyCsrw h s
  | .syCsrs h => Sys2Proof.Machine.execSyCsrs h s
  | .syCsrc h => Sys2Proof.Machine.execSyCsrc h s
  | .syEcall h => Sys2Proof.Machine.execSyEcall h s
  | .syTret h => Sys2Proof.Machine.execSyTret h s
  | .syKeyld h => Sys2Proof.Machine.execSyKeyld h s
  | .syKeyrot h => Sys2Proof.Machine.execSyKeyrot h s
  | .sySeal h => Sys2Proof.Machine.execSySeal h s
  | .syDecant h => Sys2Proof.Machine.execSyDecant h s
  | .syScrub h => Sys2Proof.Machine.execSyScrub h s
  | .syFbind h => Sys2Proof.Machine.execSyFbind h s
  | .syAttest h => Sys2Proof.Machine.execSyAttest h s
  | .syHalt h => Sys2Proof.Machine.execSyHalt h s
  | .resultDelivery core => Sys2Proof.Machine.execResultDelivery core s
  | .timedAccessPerform core reads => Sys2Proof.Machine.execTimedAccessPerform core reads s
  | .resourceFree core => Sys2Proof.Machine.execResourceFree core s
  | .reachOverrun core => Sys2Proof.Machine.execReachOverrun core s
  | .lockOpen part group => Sys2Proof.Machine.execLockOpen part group s
  | .lockRebase part group => Sys2Proof.Machine.execLockRebase part group s
  | .lockTimeout part group => Sys2Proof.Machine.execLockTimeout part group s
  | .dryLock part group => Sys2Proof.Machine.execDryLock part group s
  | .garriveRecorded part group core => Sys2Proof.Machine.execGarriveRecorded part group core s
  | .groupFlagIncrement part idx => Sys2Proof.Machine.execGroupFlagIncrement part idx s
  | .gcastIncrement part idx => Sys2Proof.Machine.execGcastIncrement part idx s
  | .fwaitSatisfied core => Sys2Proof.Machine.execFwaitSatisfied core s
  | .fwaitTimeout core => Sys2Proof.Machine.execFwaitTimeout core s
  | .rackLineTransfer core rack env => Sys2Proof.Machine.execRackLineTransfer core rack env s
  | .rackComplete core rack => Sys2Proof.Machine.execRackComplete core rack s
  | .faultReplyResume core mon idx => Sys2Proof.Machine.execFaultReplyResume core mon idx s
  | .faultReplyAbort core mon idx => Sys2Proof.Machine.execFaultReplyAbort core mon idx s
  | .monitorArmed core mon => Sys2Proof.Machine.execMonitorArmed core mon s
  | .monitorFire core mon => Sys2Proof.Machine.execMonitorFire core mon s
  | .pageMigration part va frame phase => Sys2Proof.Machine.execPageMigration part va frame phase s
  | .tlbinvWrite core kind v => Sys2Proof.Machine.execTlbinvWrite core kind v s
  | .tlbinvComplete part => Sys2Proof.Machine.execTlbinvComplete part s
  | .slotBeacon port named => Sys2Proof.Machine.execSlotBeacon port named s
  | .sendDeparture core send => Sys2Proof.Machine.execSendDeparture core send s
  | .portFallback port st => Sys2Proof.Machine.execPortFallback port st s
  | .portRetrain port st => Sys2Proof.Machine.execPortRetrain port st s
  | .arrival tr => Sys2Proof.Machine.execArrival tr s
  | .laybyRelay r => Sys2Proof.Machine.execLaybyRelay r s
  | .receipt core send status => Sys2Proof.Machine.execReceipt core send status s
  | .fenceComplete core => Sys2Proof.Machine.execFenceComplete core s
  | .systemOpComplete core idx env => Sys2Proof.Machine.execSystemOpComplete core idx env s
  | .fbindExchange core idx msg => Sys2Proof.Machine.execFbindExchange core idx msg s
  | .fbindTimeout core idx => Sys2Proof.Machine.execFbindTimeout core idx s
  | .keyPromotion part stream => Sys2Proof.Machine.execKeyPromotion part stream s
  | .cellarKeyWalk part block => Sys2Proof.Machine.execCellarKeyWalk part block s
  | .retiringKeyDestroyed part stream => Sys2Proof.Machine.execRetiringKeyDestroyed part stream s
  | .pendingKeyDerive part stream => Sys2Proof.Machine.execPendingKeyDerive part stream s
  | .hostQueueNotify part q tail writes => Sys2Proof.Machine.execHostQueueNotify part q tail writes s
  | .queueEnableWrite part q v => Sys2Proof.Machine.execQueueEnableWrite part q v s
  | .queueErrClear part q => Sys2Proof.Machine.execQueueErrClear part q s
  | .queuePageWrite part q field v => Sys2Proof.Machine.execQueuePageWrite part q field v s
  | .selectTimetable part => Sys2Proof.Machine.execSelectTimetable part s
  | .launchCommit part when => Sys2Proof.Machine.execLaunchCommit part when s
  | .taskStart core => Sys2Proof.Machine.execTaskStart core s
  | .timetableComplete part => Sys2Proof.Machine.execTimetableComplete part s
  | .timetableStop part status => Sys2Proof.Machine.execTimetableStop part status s
  | .keeperHold part why => Sys2Proof.Machine.execKeeperHold part why s
  | .keeperHoldRelease part => Sys2Proof.Machine.execKeeperHoldRelease part s
  | .preempt part stepNo => Sys2Proof.Machine.execPreempt part stepNo s
  | .contextEligible part slot => Sys2Proof.Machine.execContextEligible part slot s
  | .restore part slot => Sys2Proof.Machine.execRestore part slot s
  | .budgetPeriod => Sys2Proof.Machine.execBudgetPeriod s
  | .trapHandlerEntry core => Sys2Proof.Machine.execTrapHandlerEntry core s
  | .ecallReply core recId v => Sys2Proof.Machine.execEcallReply core recId v s
  | .buttyResumeAt core => Sys2Proof.Machine.execButtyResumeAt core s
  | .buttyResumeNext core => Sys2Proof.Machine.execButtyResumeNext core s
  | .buttyEnd core => Sys2Proof.Machine.execButtyEnd core s
  | .keeperHeartbeatTimeout basin => Sys2Proof.Machine.execKeeperHeartbeatTimeout basin s
  | .keeperTakeover basin selfTest => Sys2Proof.Machine.execKeeperTakeover basin selfTest s
  | .towpathFailover => Sys2Proof.Machine.execTowpathFailover s
  | .stateTableWrite => Sys2Proof.Machine.execStateTableWrite s
  | .keeperReset cmd => Sys2Proof.Machine.execKeeperReset cmd s
  | .partitionReset cmd => Sys2Proof.Machine.execPartitionReset cmd s
  | .packageReset cmd => Sys2Proof.Machine.execPackageReset cmd s
  | .liveUpdate cmd accepts => Sys2Proof.Machine.execLiveUpdate cmd accepts s
  | .migrate cmd setv => Sys2Proof.Machine.execMigrate cmd setv s
  | .flr part => Sys2Proof.Machine.execFlr part s
  | .pageEviction part pa => Sys2Proof.Machine.execPageEviction part pa s
  | .pageReturn part pa version macOk => Sys2Proof.Machine.execPageReturn part pa version macOk s
  | .partitionCreate basins => Sys2Proof.Machine.execPartitionCreate basins s
  | .partitionDissolve part => Sys2Proof.Machine.execPartitionDissolve part s
  | .coldReset okA okB => Sys2Proof.Machine.execColdReset okA okB s
  | .ptpMessage state terr taiNum => Sys2Proof.Machine.execPtpMessage state terr taiNum s
  | .ppsPulse edge => Sys2Proof.Machine.execPpsPulse edge s
  | .inputVoltage mV => Sys2Proof.Machine.execInputVoltage mV s
  | .powerLimitAssert islands => Sys2Proof.Machine.execPowerLimitAssert islands s
  | .powerLimitClear => Sys2Proof.Machine.execPowerLimitClear s
  | .thermalTrip basin => Sys2Proof.Machine.execThermalTrip basin s
  | .failureWarning src idx => Sys2Proof.Machine.execFailureWarning src idx s
  | .healthWindowEnd => Sys2Proof.Machine.execHealthWindowEnd s
  | .keeperBottling part phase => Sys2Proof.Machine.execKeeperBottling part phase s
  | .lockInterfaceRequest part => Sys2Proof.Machine.execLockInterfaceRequest part s
  | .startInterfaceRequest part => Sys2Proof.Machine.execStartInterfaceRequest part s
  | .stopInterfaceRequest part => Sys2Proof.Machine.execStopInterfaceRequest part s
  | .getDeviceInterfaceReport part => Sys2Proof.Machine.execGetDeviceInterfaceReport part s
  | .tdiError f => Sys2Proof.Machine.execTdiError f s
  | .getVersion => Sys2Proof.Machine.execGetVersion s
  | .getCapabilities => Sys2Proof.Machine.execGetCapabilities s
  | .negotiateAlgorithms algs => Sys2Proof.Machine.execNegotiateAlgorithms algs s
  | .getDigests => Sys2Proof.Machine.execGetDigests s
  | .getCertificate offset len => Sys2Proof.Machine.execGetCertificate offset len s
  | .challenge nonce => Sys2Proof.Machine.execChallenge nonce s
  | .getMeasurements nonce signed => Sys2Proof.Machine.execGetMeasurements nonce signed s
  | .keyExchange sess psk exchange => Sys2Proof.Machine.execKeyExchange sess psk exchange s
  | .finish sess verified => Sys2Proof.Machine.execFinish sess verified s
  | .keyUpdate sess => Sys2Proof.Machine.execKeyUpdate sess s
  | .heartbeat sess => Sys2Proof.Machine.execHeartbeat sess s
  | .endSession sess => Sys2Proof.Machine.execEndSession sess s
  | .vendorDefinedRequest sess req => Sys2Proof.Machine.execVendorDefinedRequest sess req s
  | .arithWrite core kind v => Sys2Proof.Machine.execArithWrite core kind v s
  | .astatWrite core kind v => Sys2Proof.Machine.execAstatWrite core kind v s
  | .cfoldWrite core kind v => Sys2Proof.Machine.execCfoldWrite core kind v s
  | .foriginWrite core kind v => Sys2Proof.Machine.execForiginWrite core kind v s
  | .fshareWrite core port kind v => Sys2Proof.Machine.execFshareWrite core port kind v s
  | .budgetWrite core layby kind v => Sys2Proof.Machine.execBudgetWrite core layby kind v s
  | .fwinWrite core kind v => Sys2Proof.Machine.execFwinWrite core kind v s
  | .reachlimWrite core kind v => Sys2Proof.Machine.execReachlimWrite core kind v s
  | .lpatienceWrite core kind v => Sys2Proof.Machine.execLpatienceWrite core kind v s
  | .taskcapWrite core kind v => Sys2Proof.Machine.execTaskcapWrite core kind v s
  | .hthreshWrite core kind v => Sys2Proof.Machine.execHthreshWrite core kind v s
  | .registerWrite core num kind v => Sys2Proof.Machine.execRegisterWrite core num kind v s
  | .holdover terr => Sys2Proof.Machine.execHoldover terr s
  | .fullService portMask stackMask basinMask => Sys2Proof.Machine.execFullService portMask stackMask basinMask s
  | .cellarChannelDegrade stack holds6 => Sys2Proof.Machine.execCellarChannelDegrade stack holds6 s
  | .tileCoreUnavailable core => Sys2Proof.Machine.execTileCoreUnavailable core s
  | .healthEvent src idx => Sys2Proof.Machine.execHealthEvent src idx s
  | .laybyLanding tr => Sys2Proof.Machine.execLaybyLanding tr s
  | .hostCxlMemWrite pa data => Sys2Proof.Machine.execHostCxlMemWrite pa data s
  | .pldmFirmwareUpdate img => Sys2Proof.Machine.execPldmFirmwareUpdate img s

end Sys2Proof.Machine
end

