-- ==== Sys2Proof/Machine/Sequence.lean ====
section
/-! DEFINITION. Which event of the machine comes next: at one boundary the timed writes, then results, the events of the
agenda, timed reads, what is evaluated at each boundary, and last the bundles that begin; then the next tick (10 R182, R183,
11 R214, 14 R269-R283). -/

namespace Sys2Proof.Machine

/-- An answer's state changed. -/
def Ans.map (f : State → State) : Ans State → Ans State
  | .next s => .next (f s)
  | .fault r => .fault r
  | .refused r => .refused r

/-- The first listed core that a predicate accepts. Log: DEDUCED 58. -/
def firstCore (s : State) (f : Nat → Core → Bool) : Option Nat := (s.cores.find? (fun q => f q.1 q.2)).map (fun q => q.1)

/-- A core has an action of some ranks due. -/
def Core.hasDue (k : Core) (tick : Nat) (f : Nat → Bool) : Bool := k.pend.any (fun p => p.due ≤ tick && f p.act.rank)

/-- Timed writes that are due (10 R183). -/
def nextWrite (s : State) : Option (Ans State) :=
  (firstCore s (fun _ k => k.hasDue s.tick (fun r => r == 8))).map (fun c => execTimedAccessPerform c false s)

/-- Results that are due, and resources whose time has come (02 R53, 06 R117). -/
def nextResult (s : State) : Option (Ans State) :=
  match firstCore s (fun _ k => k.hasDue s.tick (fun r => decide (r < 8))) with
  | some c => some (execResultDelivery c s)
  | none => (firstCore s (fun _ k => k.busy.any (fun b => b.2 ≤ s.tick))).map (fun c => execResourceFree c s)

/-- Timed reads that are due. -/
def nextRead (s : State) : Option (Ans State) :=
  (firstCore s (fun _ k => k.hasDue s.tick (fun r => r == 9))).map (fun c => execTimedAccessPerform c true s)

/-! The agenda. -/

/-- The transfers that have reached this package and not landed, but for those that a pre-emption of partition `part` holds: what comes
for that partition is held behind them. -/
def State.unlanded (s : State) (part : Nat) : List Transfer :=
  s.backlog ++ s.parts.flatMap (fun q => match q.2.bind (fun p => p.tt) with
    | some t => if q.1 = part then [] else t.heldArr
    | none => [])

/-- No transfer of the same path that departed earlier is still to come or to land (10 R198, 13 R251). -/
def pathFirst (s : State) (tr : Transfer) : Bool :=
  s.agenda.all (fun e => match arrivalOf e.2 with
    | some y => !(samePath y tr && decide (y.depart < tr.depart))
    | none => true) &&
  (s.unlanded tr.dstPart).all (fun y => !(samePath y tr && decide (y.depart < tr.depart)))

/-- The core whose port a transfer asks for. -/
def arrivalCore (s : State) (tr : Transfer) : Nat :=
  match s.part tr.dstPart with
  | some p => s.winCore (recvIndex p tr)
  | none => noCore

/-- An arrival that the port received earlier at the same core still waits for it (10 R188); one that the order of its own path holds back
keeps no other waiting (10 R198). -/
def waitsBefore (s : State) (tr : Transfer) (before : List (Nat × Instr)) : Bool :=
  before.any (fun e => e.1 ≤ s.tick && (match arrivalOf e.2 with
    | some y => !y.loopback && arrivalCore s y == arrivalCore s tr && pathFirst s y
    | none => false)) ||
  s.backlog.any (fun y => arrivalCore s y == arrivalCore s tr && pathFirst s y)

/-- The partition whose leading keeper carries out an event. -/
def keeperPart : Instr → Option Nat
  | .selectTimetable part => some part
  | .launchCommit part _ => some part
  | .keeperHold part _ => some part
  | .keeperHoldRelease part => some part
  | .preempt part _ => some part
  | .restore part _ => some part
  | .keeperBottling part _ => some part
  | .pageMigration part .. => some part
  | .pageEviction part _ => some part
  | .pageReturn part .. => some part
  | _ => none

/-- The keeper of a tile core is there for a record of the core: it is not being taken over (19 R373, R377). -/
def recordKeeper (s : State) (c : Nat) : Bool :=
  !isTile c || (s.part (s.partOfBasin (basinOf c))).all (fun p => !p.csr.holdAt (basinOf c))

/-- The keeper of an event is there: it is not being taken over (19 R377). What a stop does once its event has come needs none (19
R374). -/
def keeperThere (s : State) (i : Instr) : Bool :=
  let lead := fun (part : Nat) => (s.part part).all (fun p => !p.holding)
  match i with
  | .buttyResumeAt core => recordKeeper s core
  | .buttyResumeNext core => recordKeeper s core
  | .buttyEnd core => recordKeeper s core
  | .ecallReply core _ _ => recordKeeper s core
  | .faultReplyResume core mon idx => lead (s.faultPart core mon idx)
  | .faultReplyAbort core mon idx => lead (s.faultPart core mon idx)
  | .timetableStop part _ => lead part || (s.tt part).any (fun t => t.stop.isSome)
  | _ => (keeperPart i).all lead

/-- The clocks that an event needs run: those of the core whose engine acts, of the basin whose keeper acts, or of the basin that leads
the partition, for what its keeper does to a running timetable or a page (01 R31). Log: DESIGN CHOICE 170. -/
def clocksRun (s : State) (i : Instr) : Bool :=
  let lead := fun (part : Nat) => (s.part part).all (fun p => !bitOf s.tripped (p.basins.headD 0))
  match i with
  | .rackLineTransfer core _ _ => !s.clockOff core
  | .monitorArmed core _ => !s.clockOff core
  | .monitorFire core _ => !s.clockOff core
  | .sendDeparture core _ => !s.clockOff core
  | .systemOpComplete core _ _ => !s.clockOff core
  | .fbindTimeout core _ => !s.clockOff core
  | .fbindExchange core _ _ => !s.clockOff core
  | .buttyResumeAt core => !s.clockOff core
  | .buttyResumeNext core => !s.clockOff core
  | .buttyEnd core => !s.clockOff core
  | .keeperHeartbeatTimeout basin => !bitOf s.tripped basin
  | .keeperTakeover basin _ => !bitOf s.tripped basin
  | .keeperHold part _ => lead part
  | .keeperHoldRelease part => lead part
  | .preempt part _ => lead part
  | .keeperBottling part _ => lead part
  | .pageMigration part .. => lead part
  | .pageEviction part _ => lead part
  | .pageReturn part .. => lead part
  | _ => true

/-- The commands whose completion records an event of a partition's keeper may write. -/
def completions (s : State) : Instr → Nat × List Cmd
  | .timetableComplete part => (part, ((s.tt part).map (fun t => t.cmd)).toList)
  | .timetableStop part _ => (part, ((s.tt part).map (fun t => t.cmd)).toList)
  | .launchCommit part _ => (part, ((s.part part).bind (fun p => p.taken)).toList)
  | .restore part slot => (part, (((s.part part).bind (fun p => sget none p.ctxs slot)).map (fun x => x.tt.cmd)).toList)
  | .selectTimetable part => (part, match s.part part with
    | some p => ((selectQueue s part p).map (fun x => cmdOf x.2 (headEntry s part (p.queue x.2)))).toList
    | none => [])
  | .keeperTakeover basin _ =>
    let part := s.partOfBasin basin
    (part, match s.part part with
      | some p => p.heldItems.map (fun x => x.1)
      | none => [])
  | _ => (0, [])

/-- The keeper may write the completion records of commands at this boundary: no rack has read their host lines there (10 R182). -/
def recordsFree (s : State) (part : Nat) (cs : List Cmd) : Bool := cs.all (fun c => (linesOver c.compl 16).all (s.hostFree part))

/-- What a port has to wait for at a busy line, or behind an earlier transfer, stays on the agenda (10 R188, R198, 13 R251), and so does a
host write of a line read at this boundary (10 R182); what a keeper has to do while it is being taken over (19 R377), a take-over until
its shadow may read (24 R407), what needs a clock that has stopped (01 R31), and a lock's timeout before its deadline, at which the lock
may open yet (14 R282). -/
def agendaReady (s : State) (before : List (Nat × Instr)) (i : Instr) : Bool :=
  keeperThere s i && clocksRun s i && recordsFree s (completions s i).1 (completions s i).2 && match i with
  | .rackLineTransfer core _ env => s.hostWritesFree (s.enginePart core) env.hostWrites
  | .hostQueueNotify part _ _ writes => s.hostWritesFree part writes
  | .lockTimeout part group => !lockInTime s part group
  | .pageEviction part page => (linesOver page.host copySize).all (s.hostFree part)
  | .keeperTakeover basin _ => takeoverRipe s basin || !keeperStopped s basin
  | .arrival tr =>
    tr.loopback ||
      (pathFirst s tr && !waitsBefore s tr before && (holdsArrivals s tr.dstPart || arrivalFree s { tr with late := lateBy s tr }))
  | .systemOpComplete core idx _ => match sysAt s core idx with
    | some (o, slot) => recordFree s core slot o
    | none => true
  | .hostCxlMemWrite pa data => (lineRuns pa (data.length / 64 + 2) 0 data.length).all (fun r => s.cellarFree ((pa + r.1) / 64))
  | .fbindTimeout core idx => match sysAt s core idx with
    | some (o, slot) => recordFree s core slot o
    | none => true
  | _ => true

/-- The first event of a list, behind those before it, whose tick has come, of those that a predicate accepts. -/
def firstReady (s : State) (ok : Instr → Bool) (before : List (Nat × Instr)) : List (Nat × Instr) → Option (Nat × Instr)
  | [] => none
  | e :: es => if e.1 ≤ s.tick && ok e.2 && agendaReady s before e.2 then some e else firstReady s ok (before ++ [e]) es

/-- Requests that the active towpath complex takes: signed commands, the towpath's partition requests, firmware images, SPDM and TDISP (01
R20, R24, 18 R353, R354, 19 R379, R383). -/
def managed : Instr → Bool
  | .keeperReset _ => true
  | .partitionReset _ => true
  | .packageReset _ => true
  | .liveUpdate .. => true
  | .migrate .. => true
  | .partitionCreate _ => true
  | .partitionDissolve _ => true
  | .pldmFirmwareUpdate _ => true
  | .lockInterfaceRequest _ => true
  | .startInterfaceRequest _ => true
  | .stopInterfaceRequest _ => true
  | .getDeviceInterfaceReport _ => true
  | .getVersion => true
  | .getCapabilities => true
  | .negotiateAlgorithms _ => true
  | .getDigests => true
  | .getCertificate .. => true
  | .challenge _ => true
  | .getMeasurements .. => true
  | .keyExchange .. => true
  | .finish .. => true
  | .keyUpdate _ => true
  | .heartbeat _ => true
  | .endSession _ => true
  | .vendorDefinedRequest .. => true
  | _ => false

/-- An event of the agenda happens; a slot operation does not come from there, and a management command that comes while no complex is
active is lost (19 R380). -/
def takeAgenda (s : State) (ok : Instr → Bool) : Option (Ans State) :=
  (firstReady s ok [] s.agenda).map (fun e =>
    let s1 := { s with agenda := s.agenda.erase e }
    if (slotParts e.2).isSome || e.2 == .nop || (managed e.2 && !s.towpathUp) then .next s1 else exec e.2 s1)

/-- The first event of the agenda whose tick has come. -/
def nextAgenda (s : State) : Option (Ans State) := takeAgenda s (fun _ => true)

/-- What happens to a package that the board holds in reset: what comes from the board itself (01 R28, R32). -/
def boardEvent : Instr → Bool
  | .coldReset .. => true
  | .inputVoltage .. => true
  | .powerLimitAssert .. => true
  | .powerLimitClear => true
  | _ => false

/-- An event of the board. -/
def nextBoard (s : State) : Option (Ans State) := takeAgenda s boardEvent

/-! What each boundary evaluates. -/

/-- Partitions with a timetable. -/
def running (s : State) : List (Nat × Partition × Timetable) :=
  s.parts.filterMap (fun q => match q.2 with
    | some p => p.tt.map (fun t => (q.1, p, t))
    | none => none)

/-- A garrive to be recorded (11 R219). -/
def nextGarrive (s : State) : Option (Ans State) :=
  (s.cores.findSome? (fun q => (q.2.garr.find? (fun g => g.due ≤ s.tick)).map (fun g => (q.1, g.group)))).map
    (fun x => execGarriveRecorded (s.partId x.1) x.2 x.1 s)

/-- A fence that had no send to wait for adds at T+2, and so do those before it, which have none left (13 R259). -/
def nextFence (s : State) : Option (Ans State) :=
  (firstCore s (fun c k => fenceReady s c && k.fences.any (fun f => f.since == s.tick && f.waits.isEmpty))).map
    (fun c => execFenceComplete c s)

/-- A wait that ends at this boundary, satisfied or at its limit (11 R214). -/
def nextWait (s : State) : Option (Ans State) :=
  match firstCore s (fun _ k => waitHolds s k) with
  | some c => some (execFwaitSatisfied c s)
  | none => (firstCore s (fun c _ => waitOver s c)).map (fun c => execFwaitTimeout c s)

/-- The first group of a running timetable that a predicate accepts. -/
def firstGroup (s : State) (f : Partition → Timetable → Group → Bool) : Option (Nat × Nat) :=
  (running s).findSome? (fun x => (x.2.2.groups.find? (fun g => f x.2.1 x.2.2 g)).map (fun g => (x.1, g.num)))

/-- A lock that opens, re-bases, is dry or times out (14 R279-R283). DRY_LOCK comes at the last boundary it may, before a
LOCK_TIMEOUT of the same boundary. -/
def nextLock (s : State) : Option (Ans State) :=
  match firstGroup s (fun p t g => g.rebase == 0 && lockOpens s p t g),
      firstGroup s (fun _ t g => g.rebase != 0 && g.rebase ≤ s.tick && t.stop.isNone),
      firstGroup s (fun _ t g => t.dry.contains (s.tick - 64, g.num) && 64 ≤ s.tick && dryProof s t g),
      firstGroup s (fun p t g => lockOverdue s p t g && !timeoutWaits p t g) with
  | some x, _, _, _ => some (execLockOpen x.1 x.2 s)
  | none, some x, _, _ => some (execLockRebase x.1 x.2 s)
  | none, none, some x, _ => some (execDryLock x.1 x.2 s)
  | none, none, none, some x => some (execLockTimeout x.1 x.2 s)
  | none, none, none, none => none

/-- The keeper holds the lock that has every member for a bottle that is asked for, before any other decision at it (20 R390). -/
def nextBottle (s : State) : Option (Ans State) :=
  ((running s).find? (fun x => x.2.1.bottle.isNone && bottleWanted s x.2.1 && canHold s x.1 x.2.1 x.2.2 .bottle)).map
    (fun x => execKeeperBottling x.1 .start s)

/-- A take-over that has to end; whether the failed core passes its self-test is a free value (19 R377). -/
def nextTakeover (s : State) : Option (Ans State) :=
  ((List.range 4).find? (fun b => takeoverDue s b && !bitOf s.tripped b)).map (fun b =>
    let f := s.takeFree
    execKeeperTakeover b (f.1 != 0) f.2)

/-- A completion that waits for its host token, where the token can be paid now (16 R311). -/
def nextOwed (s : State) : Option (Ans State) :=
  (s.parts.find? (fun q => q.2.any (fun p => !p.owed.isEmpty && recordsFree s q.1 ((p.owed.take 1).map (fun x => x.1))) &&
      (payKeeper s q.1 1).2)).map (fun q => .next (payOwed s q.1))

/-- A hold for a voltage change is released after 10 µs at the latest (14 R284), or, where its keeper is being taken over then, by the
new one after the take-over (19 R377); a stop reaches its cores at s + 64 (19 R374). Log: DESIGN CHOICE 168. -/
def nextKeeper (s : State) : Option (Ans State) :=
  match (running s).find? (fun x => !x.2.1.holding && x.2.1.bottle.isNone && !bitOf s.tripped (x.2.1.basins.headD 0) && (match x.2.2.hold with
      | some h => h.why == .voltage && h.since + 30000 ≤ s.tick
      | none => false)),
    (running s).findSome? (fun x => match x.2.2.stop with
      | some e => if e.1 + 64 ≤ s.tick && !x.2.2.stopped then some (x.1, e.2.2.2) else none
      | none => none) with
  | some x, _ => some (execKeeperHoldRelease x.1 s)
  | none, some x => some (execTimetableStop x.1 x.2 s)
  | none, none => none

/-- A period of tokens or a window of the health monitor begins, before any event of its first boundary (16 R310, 20 R386). -/
def nextPeriod (s : State) : Option (Ans State) :=
  if s.budgetAt ≤ s.tick then some (execBudgetPeriod s)
  else if s.health.windowEnd ≤ s.tick then some (execHealthWindowEnd s)
  else none

/-- The standby takes over where the active complex has been down for 10 ms; the state table is due (19 R380); a source that reached its
threshold warns (20 R386). -/
def nextUpkeep (s : State) : Option (Ans State) :=
  if failoverDue s then some (execTowpathFailover s)
  else if tableDue s then some (execStateTableWrite s)
  else (pendingWarning s).map (fun x => execFailureWarning x.1 x.2 s)

/-- A suspended context whose time has come (16 R316). -/
def nextEligible (s : State) : Option (Ans State) :=
  (s.parts.findSome? (fun q => match q.2 with
    | some p => (p.contexts.find? (fun x => !x.2.eligible && x.2.due s.tick p.csr.rdelay)).map (fun x => (q.1, x.1))
    | none => none)).map (fun x => execContextEligible x.1 x.2 s)

/-- The key streams of a partition. -/
def Partition.streams (p : Partition) : List KeyStream :=
  [.cellar, .ucie false, .ucie true, .bottle] ++
    p.bindings.flatMap (fun b => [KeyStream.fabric b.handle false, KeyStream.fabric b.handle true])

/-- A retiring key that nothing needs any more is destroyed at once (18 R348). -/
def nextRetire (s : State) : Option (Ans State) :=
  (s.parts.findSome? (fun q => match q.2 with
    | some p => (p.streams.find? (fun k => match p.keysOf k with
        | some x => retiringFree s q.1 p k x
        | none => false)).map (fun k => (q.1, k))
    | none => none)).map (fun x => execRetiringKeyDestroyed x.1 x.2 s)

/-- A stream whose pending slot the keeper fills (18 R347). -/
def nextPending (s : State) : Option (Ans State) :=
  (s.parts.findSome? (fun q => match q.2 with
    | some p => (p.streams.find? (fun k => match p.keysOf k with
        | some x => x.active != 0 && x.pending == 0 && x.retiring == 0
        | none => false)).map (fun k => (q.1, k))
    | none => none)).map (fun x => execPendingKeyDerive x.1 x.2 s)

/-- A send whose flits are due to depart (13 R250, R251). -/
def nextSend (s : State) : Option (Ans State) :=
  (s.cores.findSome? (fun q => (q.2.sends.find? (fun x => match x.2 with
      | some y => !s.clockOff q.1 && (headDue s q.1 x.1 y || tailDue s q.1 x.1 y)
      | none => false)).map (fun x => (q.1, x.1)))).map (fun x => execSendDeparture x.1 x.2 s)

/-- Loop-backs that have still to land, of a slot or an earlier one. -/
def loopsLeft (s : State) (slot : Nat) : Nat :=
  s.cores.foldl (fun n q => n + q.2.sends.countP (fun x => match x.2 with
    | some y => y.loopback && y.st != .landed && y.slot ≤ slot
    | none => false)) 0

/-- Loop-backs land one boundary after another where they ask for one line, so that the last flag comes by open + 1,092 (10 R188, R190,
13 R257). -/
def nextLoop (s : State) : Option (Ans State) :=
  (s.cores.findSome? (fun q => (q.2.sends.find? (fun x => match x.2 with
      | some y => loopDue s q.1 y && s.slotOpen y.slot + 1092 ≤ s.tick + loopsLeft s y.slot &&
          arrivalFree s (loopTransfer s q.1 x.1 y)
      | none => false)).bind (fun x => x.2.map (fun y => loopTransfer s q.1 x.1 y)))).map (fun tr => execArrival tr s)

/-- An arrival that no pre-emption holds any more, where its port is free: in arrival order at each core, but for those that the order of
their path holds back, and in the order of its path (10 R188, R198, 16 R314). -/
def nextBacklog (s : State) : Option (Ans State) :=
  (s.backlog.zipIdx.find? (fun x =>
      pathFirst s x.1 && !(s.backlog.take x.2).any (fun y => arrivalCore s y == arrivalCore s x.1 && pathFirst s y) &&
        !holdsArrivals s x.1.dstPart && arrivalFree s { x.1 with late := lateBy s x.1 })).map
    (fun x => execArrival x.1 { s with backlog := s.backlog.eraseIdx x.2 })

/-- Receipts whose slot has come (13 R263). -/
def nextReceipt (s : State) : Option (Ans State) := if s.receipts.any s.receiptDue then some (.next (sendReceipts s)) else none

/-- An item of the layby that may depart does so (13 R258). -/
def nextRelay (s : State) : Option (Ans State) :=
  (s.layby.zipIdx.find? (fun x => laybyFirst s x.2 x.1 && (laybyPort s x.1).isSome)).map (fun x => execLaybyRelay (.here x.2) s)

/-! Bundles. -/

/-- A stream that starts, overruns its reach, enters its handler or issues its next bundle: cores in ascending id, the motor
stream before the butty (14 R269, R274, R276, 18 R359). -/
def nextIssue (s : State) : Option (Ans State) :=
  match firstCore s (fun _ k => k.startsNow s.tick),
    firstCore s (fun c _ => overruns s c || s.mayEnter c || s.canIssue c true || s.canIssue c false) with
  | some c, _ => some (execTaskStart c s)
  | none, some c =>
    some (
      if overruns s c then execReachOverrun c s
      else if s.mayEnter c then execTrapHandlerEntry c s
      else execBundleIssue c (s.canIssue c true) s)
  | none, none => none

/-! Time. -/

/-- Notes the first boundary at which the proof of each dry lock holds, for as long as it holds (14 R283). -/
def noteDry (s : State) (p : Timetable) : Timetable :=
  let old := p.dry.filter (fun d => (p.group d.2).any (dryProof s p))
  let new := (p.groups.filter (fun g => dryProof s p g && !old.any (fun d => d.2 == g.num))).map (fun g => (s.tick, g.num))
  { p with dry := old ++ new }

/-- The tick passes. -/
def advance (s : State) : State :=
  { s with
    parts := s.parts.map (fun q => (q.1, q.2.map (fun p => { p with tt := p.tt.map (noteDry s) })))
    bookings := s.bookings.filter (fun b => !s.oldBooking b)
    tick := s.tick + 1 }

/-- The first of a list of candidates that there is. -/
def firstOf : List (State → Option (Ans State)) → State → Option (Ans State)
  | [], _ => none
  | f :: fs, s => match f s with
    | some a => some a
    | none => firstOf fs s

/-! The bundle in flight. -/

/-- The latch after its first instruction has been taken. -/
def Latch.taken (l : Latch) (rest : List Slot) : Latch := { l with words := rest, slots := l.slots.tail, slot := l.slots.headD 0 }

/-- The next instruction of the bundle in flight; after the last, the bundle ends (02 R51). Log: DESIGN CHOICE 2. -/
def runLatch (s : State) : Ans State :=
  let l := (s.core s.cur).latch
  match l.words with
  | [] => .next (finishBundle s s.cur)
  | ws => match decode ws with
    | .ok (i, rest) => exec i (s.modCore s.cur (fun k => { k with latch := l.taken rest }))
    | .error _ => .fault .undecodable

/-- The core and stream that may run the words of an instruction: a keeper core for class K, a tile core's butty stream for
class B, else its motor stream (02 R56). -/
def homeOf (ws : List Slot) : Nat × Bool :=
  match ws.head?.map (fun w => trigOf (w.extractLsb' 0 10).toNat) with
  | some (some (u, k)) => if classK u k then (256, false) else (0, !classB u k)
  | _ => (0, true)

/-- A bundle of the given words in flight. Log: DESIGN CHOICE 1. -/
def State.placeWords (s : State) (ws : List Slot) : State :=
  let h := homeOf ws
  { s.modCore h.1 (fun k => { k with latch :=
      { live := true, words := ws, slots := List.range ws.length, slot := 0, motor := h.2, pc := 0, idle := 0, pops := 0
        rot := false, ctl := .none, sys := .none, busy := [] } }) with cur := h.1 }

/-- What may happen while the board holds the package in reset (01 R28). -/
def heldEvents : List (State → Option (Ans State)) := [nextBoard]

/-- The events of a boundary, in the order in which they are looked for. A vm.encode that performs draws from the generators before the
results of its boundary do (05 R101). Log: DESIGN CHOICE 149. -/
def boundaryEvents : List (State → Option (Ans State)) :=
  [nextWrite, nextResult, nextPeriod, nextLoop, nextBacklog, nextAgenda, nextRead, nextGarrive, nextFence, nextWait, nextBottle, nextLock,
   nextKeeper, nextTakeover, nextOwed, nextUpkeep, nextEligible, nextRetire, nextPending, nextReceipt, nextRelay, nextSend, nextIssue]

/-- The next event at the present boundary; where there is none, the next tick. Log: DESIGN CHOICE 3. -/
def nextEvent (s : State) : Ans State :=
  (firstOf (if s.inReset then heldEvents else boundaryEvents) s).getD (.next (advance s))

end Sys2Proof.Machine
end

