-- ==== Sys2Proof/Machine/Step.lean ====
section
/-! DEFINITION. One step: the next instruction of the bundle in flight, the end of that bundle, or the next event. -/

namespace Sys2Proof.Machine

/-- The step of the machine; a package that is held in reset runs no bundle. Log: DESIGN CHOICE 3. -/
def step (s : State) : Host.Outcome State Fault Refusal :=
  if (s.core s.cur).latch.live && !s.inReset then runLatch s else nextEvent s

/-- s with an instruction, given as an opcode-table number, as the bundle in flight, where the next step takes its words.
Log: DESIGN CHOICE 1. -/
def State.withFetchWord (s : State) (nbits w : Nat) : State := s.placeWords (tableWords nbits w)

end Sys2Proof.Machine
end

