-- ==== Sys2Proof/Safety.lean ====
section
/-! DEFINITION. What counts as a safe run, in the terms the statements use: when a slot operation passes its checks (02 R59),
what an operation that only asks for a result leaves alone, and the canonical form of the machine's memories. -/

namespace Sys2Proof.Machine

/-! A slot operation that runs. -/

/-- The stream whose bundle is in flight. -/
def State.motorNow (s : State) : Bool := (s.core s.cur).latch.motor

/-- The value a slot operation moves: its source at T (02 R41). -/
def State.operand (s : State) (h : Head) : Word := s.src s.cur s.motorNow h.src

/-- Input port k of unit u of the core whose bundle is in flight, after the bundle's port writes (02 R51). -/
def State.inPort (s : State) (u k : Nat) : Word := (s.core s.cur).inp u k

/-- The slot passes the decode checks of 02 R59 and its guard holds (02 R39). -/
def Passes (s : State) (h : Head) (dst : Nat) (e : Option Ext) : Prop :=
  s.decodeCheck s.cur s.motorNow h dst e = .ok ∧ s.guard s.cur h = true

/-- It also passes the checks of its unit. -/
def Accepts (s : State) (h : Head) (dst : Nat) (e : Option Ext) : Prop :=
  Passes s h dst e ∧ trigCheck s s.cur s.motorNow dst e (s.operand h) = .ok

/-- The state in which core `cur` has one action more to come, n core cycles after T. -/
def State.willDo (s : State) (n : Nat) (a : Act) : State := s.schedule s.cur n a

/-- A result on output port k of unit u of core `cur`, n core cycles after T (02 R51). -/
def State.willOut (s : State) (u k n : Nat) (v : Word) : State := s.willDo n (.out (outPort u k) v)

/-- The physical predicate that bits 2:0 of i1 of unit u name (08 R148, 09 R176). -/
def State.predPort (s : State) (u : Nat) : Nat := physP (s.core s.cur).regs.rotb (bits (s.inPort u 1) 2 0)

/-- A predicate result of a compare on unit u at T+1 (09 R176). -/
def State.willPred (s : State) (u : Nat) (b : Bool) : State := s.willDo 1 (.rpred (s.predPort u) b)

/-! Frames. -/

/-- Nothing outside the table of cores differs. -/
def SameOutsideCores (s t : State) : Prop := { t with cores := s.cores } = s

/-- Every tile core is the same; the keeper that leads a partition may have written its journal (19 R375). -/
def SameTiles (s t : State) : Prop := ∀ d, isTile d = true → t.core d = s.core d

/-- Every core but c is the same. -/
def SameCoresBut (c : Nat) (s t : State) : Prop := ∀ d, d ≠ c → t.core d = s.core d

/-- Core c holds the same registers, memories, control registers, streams and engines; only what is scheduled, and which
resources the bundle in flight takes, may differ. -/
def SameHeld (k l : Core) : Prop :=
  l.regs = k.regs ∧ l.mem = k.mem ∧ l.csr = k.csr ∧ l.sbuf = k.sbuf ∧ l.press = k.press ∧ l.gens = k.gens ∧
  l.motor = k.motor ∧ l.butty = k.butty ∧ l.racks = k.racks ∧ l.mons = k.mons ∧ l.sends = k.sends ∧
  l.fences = k.fences ∧ l.sysops = k.sysops ∧ l.hand = k.hand ∧ l.guards = k.guards ∧ l.traps = k.traps ∧
  l.busy = k.busy ∧ l.halted = k.halted

/-- An operation that only schedules: everything the machine holds is as before, in every core. -/
def OnlySchedules (s t : State) : Prop := SameOutsideCores s t ∧ ∀ d, SameHeld (s.core d) (t.core d)

/-! Operations that only schedule. -/

/-- The slot operations that change nothing while their bundle is in flight but what is scheduled or noted in it: all but moves to
input ports, wide operations, hand, send, sendr and fwait. -/
def onlyAsks : Instr → Bool
  | .move _ (.inp _) => false
  | .move _ _ => true
  | .queuePush _ _ => true
  | .streamReset _ => true
  | .saMov _ => true
  | .saAdd _ => true
  | .saSub _ => true
  | .saAnd _ => true
  | .saOr _ => true
  | .saXor _ => true
  | .saAndn _ => true
  | .saOrn _ => true
  | .saShl _ => true
  | .saShr _ => true
  | .saSar _ => true
  | .saRol _ => true
  | .saMin _ => true
  | .saMax _ => true
  | .saMinu _ => true
  | .saMaxu _ => true
  | .saSeq _ => true
  | .saSne _ => true
  | .saSlt _ => true
  | .saSltu _ => true
  | .saSle _ => true
  | .saSleu _ => true
  | .saPeq _ => true
  | .saPne _ => true
  | .saPlt _ => true
  | .saPltu _ => true
  | .saPge _ => true
  | .saPgeu _ => true
  | .saClz _ => true
  | .saCtz _ => true
  | .saPopc _ => true
  | .saSext _ => true
  | .saZext _ => true
  | .saBfx _ => true
  | .saBfi _ => true
  | .saAddw _ => true
  | .sbMov _ => true
  | .sbAdd _ => true
  | .sbSub _ => true
  | .sbAnd _ => true
  | .sbOr _ => true
  | .sbXor _ => true
  | .sbAndn _ => true
  | .sbOrn _ => true
  | .sbShl _ => true
  | .sbShr _ => true
  | .sbSar _ => true
  | .sbRol _ => true
  | .sbMin _ => true
  | .sbMax _ => true
  | .sbMinu _ => true
  | .sbMaxu _ => true
  | .sbSeq _ => true
  | .sbSne _ => true
  | .sbSlt _ => true
  | .sbSltu _ => true
  | .sbSle _ => true
  | .sbSleu _ => true
  | .sbPeq _ => true
  | .sbPne _ => true
  | .sbPlt _ => true
  | .sbPltu _ => true
  | .sbPge _ => true
  | .sbPgeu _ => true
  | .sbClz _ => true
  | .sbCtz _ => true
  | .sbPopc _ => true
  | .sbSext _ => true
  | .sbZext _ => true
  | .sbBfx _ => true
  | .sbBfi _ => true
  | .sbAddw _ => true
  | .sbMul _ => true
  | .sbMulh _ => true
  | .sbMulhu _ => true
  | .sbDiv _ => true
  | .sbDivu _ => true
  | .sbRem _ => true
  | .sbRemu _ => true
  | .ctBr _ => true
  | .ctJmp _ => true
  | .ctCall _ => true
  | .ctRet _ => true
  | .ctLoop _ => true
  | .ctRot _ => true
  | .ctLock _ => true
  | .ctEndtask _ => true
  | .ctTrap _ => true
  | .ctBrk _ => true
  | .lsLd8 _ => true
  | .lsLd8z _ => true
  | .lsLd16 _ => true
  | .lsLd16z _ => true
  | .lsLd32 _ => true
  | .lsLd32z _ => true
  | .lsLd64 _ => true
  | .lsSt8 _ => true
  | .lsSt16 _ => true
  | .lsSt32 _ => true
  | .lsSt64 _ => true
  | .lsLdlab _ => true
  | .lsStlab _ => true
  | .lsLdcap _ => true
  | .lsStcap _ => true
  | .lsCbound _ => true
  | .lsCmove _ => true
  | .lsCperm _ => true
  | .lsCbase _ => true
  | .lsClen _ => true
  | .lsCinfo _ => true
  | .lsCcopy _ => true
  | .lsCclear _ => true
  | .prCask _ => true
  | .prMm _ => true
  | .prMmz _ => true
  | .prZero _ => true
  | .prMode _ => true
  | .prFmt _ => true
  | .prBusy _ => true
  | .rkRack _ => true
  | .rkFill _ => true
  | .rkGather _ => true
  | .rkScatter _ => true
  | .rkReduce _ => true
  | .rkMcast _ => true
  | .rkProbe _ => true
  | .rkCancel _ => true
  | .rkWaitaddr _ => true
  | .rkRel _ => true
  | .rkAcq _ => true
  | .fbRfence _ => true
  | .fbSlot _ => true
  | .fbWstat _ => true
  | .fgFset _ => true
  | .fgFadd _ => true
  | .fgFcas _ => true
  | .fgFget _ => true
  | .fgFtest _ => true
  | .fgFclr _ => true
  | .fgGarrive _ => true
  | .fgGcast _ => true
  | .fgGinfo _ => true
  | .syCsrr _ => true
  | .syCsrw _ => true
  | .syCsrs _ => true
  | .syCsrc _ => true
  | .syEcall _ => true
  | .syTret _ => true
  | .syKeyld _ => true
  | .syKeyrot _ => true
  | .sySeal _ => true
  | .syDecant _ => true
  | .syScrub _ => true
  | .syFbind _ => true
  | .syAttest _ => true
  | .syHalt _ => true
  | _ => false

/-! Canonical form (Machine/Store.lean). -/

/-- The memories of a core are in canonical form. -/
def Core.memWf (k : Core) : Bool :=
  Memory.wf k.mem.sp && Memory.wf k.mem.bundles && swf 0 k.mem.labels && swf false k.mem.tags && swf 0 k.mem.flags

/-- Every memory of the machine, and host memory, is in canonical form. -/
def State.memWf (s : State) : Bool :=
  swf Core.init s.cores && s.cores.all (fun q => q.2.memWf) && Memory.wf s.cellar.bytes && Memory.wf s.windows &&
    s.host.all (fun q => Memory.wf q.2)

/-! Settings. -/

/-- The next period boundary, the end of the health window and the temperature threshold are values that the rules allow (16 R310,
20 R386, R387). -/
def State.SettingsOk (s : State) : Prop :=
  s.budgetAt % 300000 = 0 ∧ s.health.windowEnd % 3000000000 = 0 ∧ 70 ≤ s.hthresh.temp ∧ s.hthresh.temp ≤ 95

/-! What an operation asks for. -/

/-- From s to t core c has exactly one action more to come, n core cycles after T. -/
def Asks (s t : State) (c n : Nat) (a : Act) : Prop :=
  (t.core c).pend = (s.core c).pend ++ [Pend.mk (s.after c n) s.tick (s.core c).seq a]

/-- From s to t the core that owns a place has exactly one action more to come, at a boundary. -/
def AsksAt (s t : State) (owner due : Nat) (a : Act) : Prop :=
  (t.core owner).pend = (s.core owner).pend ++ [Pend.mk due s.tick (s.core owner).seq a]

/-- The bundle in flight takes one resource more, until n core cycles after T (06 R117). -/
def TakesBusy (s t : State) (c r n : Nat) : Prop :=
  (t.core c).latch.busy = (s.core c).latch.busy ++ [(r, s.after c n)]

/-! A rack that moves. -/

/-- A resolved part of a rack is written: its lines are free, its tokens are there, nothing is refused and no read or write of it
stops (12 R224, R229). -/
def partMoves (s : State) (c id : Nat) (r : Rack) (p : Part) (rd : Ready) (env : LineEnv) : Bool :=
  !rd.scaleError && !env.hostError && !env.macFail && portsFree s rd.dst && portsFree s rd.slotDst &&
    (match payPart s c id r (partTokens s r p rd) with
     | (s1, r1, true) => match partBytes s1 r1 p rd with
       | .ok bs => match partData s1 r1 rd bs, writeSlots s1 c rd with
         | .ok d, .ok s2 => match writeLabelled s2 c rd.dst (partLabels s1 r1 p rd) d.1 with
           | .ok _ => true
           | .stop _ => false
         | _, _ => false
       | .stop _ => false
     | _ => false)

/-- The bytes that the next part of a started rack moves now: its turn has come, what it reads has been stored, its element lies in its
capability, its places are mapped, and it can be written; none where it may not (12 R228, R229; 11 R207). -/
def lineMoves (s : State) (c id : Nat) (env : LineEnv) : Option Nat :=
  let r := (s.core c).rack id
  let p := r.job.unit c r.entries r.pos
  if !copying s c r && !(r.job.indexed && (r.list.isNone || elementOut r.job r.index)) && mayRun s c r (p.ranges s c r) p.isHost &&
      p.reads.all (storesDone s c) && slotStoresDone s c r.job (r.pos / 64) (p.n / 64) then
    match readyPart s c r p with
    | (s1, .ok rd) => if partMoves s1 c id r { p with n := rd.n } rd env then some rd.n else none
    | (_, .stop _) => none
  else none

/-! Safe runs. -/

/-- The step from s answers a next state. -/
def Steps (s : State) : Prop := ∃ t, step s = .next t

/-- A run of n steps from s that neither faults nor is refused. -/
def SafeRun (n : Nat) (s : State) : Prop := ∃ t, (Host.Core.mk State Fault Refusal step State.reset).run n s = .next t

end Sys2Proof.Machine
end

