-- ==== Sys2Proof/Certificates/Slice0/Obligations.lean ====
section
/-! DEFINITION. The statements about the model: the encoding, the step, the slot operations of every unit with their frames, and the
events of the machine. Hypotheses speak of the state and the operands alone. -/

open Sys2Proof Sys2Proof.Machine

/-- 02 R39-R45, R56: decoding the words of a well-formed instruction gives it back, with every operand at every value its field admits, and
leaves the words that follow. -/
def Obligations.DecodeOfEncode : Prop :=
  ∀ (i : Instr) (ws rest : List Slot), WellFormed i = true → encode i = some ws → decode (ws ++ rest) = .ok (i, rest)

/-- 02 R39-R45, R56: words that decode are the words of the instruction they decode to, so no bit of a slot is without meaning. -/
def Obligations.EncodeOfDecode : Prop :=
  ∀ (ws rest : List Slot) (i : Instr), decode ws = .ok (i, rest) → ∃ us, encode i = some us ∧ ws = us ++ rest

/-- 02 R41, R42, R56: a reserved source code, a reserved destination code and an unused opcode do not decode, and are told apart. -/
def Obligations.ReservedCodesRefused : Prop :=
  ∀ (w : Slot) (rest : List Slot), 4 ≤ rest.length →
  let src := (w.extractLsb' 10 10).toNat; let dst := (w.extractLsb' 0 10).toNat;
  let defined := src < 0x05E ∨ (0x060 ≤ src ∧ src < 0x098) ∨ (0x0A0 ≤ src ∧ src < 0x0A2) ∨ 0x200 ≤ src;
  (((0x05E ≤ src ∧ src < 0x060) ∨ (0x098 ≤ src ∧ src < 0x0A0) ∨ (0x0A2 ≤ src ∧ src < 0x200)) → decode (w :: rest) = .error .source) ∧
  ((defined ∧ 0x04D ≤ dst ∧ dst < 0x050) → decode (w :: rest) = .error .destination) ∧
  ((defined ∧ ((0x124 ≤ dst ∧ dst < 0x140) ∨ (0x16B ≤ dst ∧ dst < 0x180) ∨ (0x18A ≤ dst ∧ dst < 0x1C0) ∨ (0x1D8 ≤ dst ∧ dst < 0x200) ∨
      (0x21B ≤ dst ∧ dst < 0x240) ∨ (0x257 ≤ dst ∧ dst < 0x280) ∨ (0x28A ≤ dst ∧ dst < 0x2C0) ∨ (0x2C7 ≤ dst ∧ dst < 0x300) ∨
      (0x30B ≤ dst ∧ dst < 0x340) ∨ (0x345 ≤ dst ∧ dst < 0x380) ∨ (0x38A ≤ dst ∧ dst < 0x3C0) ∨ 0x3CE ≤ dst)) →
    decode (w :: rest) = .error .operation)

/-- 02 R39-R45, R56 and the bundle worked to the byte there: words written out from the encoding tables decode to the instructions they
stand for, one of every unit. -/
def Obligations.SpecWordsDecode : Prop :=
  decode [0x800000] = .ok (.nop, []) ∧
  decode [0x000C50] = .ok (.move (Head.mk false 0 (.x 3)) (.inp 0), []) ∧
  decode [0x081501] = .ok (.saAdd (Head.mk false 0 (.short 5)), []) ∧
  decode [0x200203, 0x1C4408] = .ok (.vaFma (Head.mk false 2 (.x 0)) (Ext.mk 3 true 1 false 2 0 2 0), []) ∧
  decode [0x028009, 0x012345] = .ok (.move (Head.mk false 0 (.imm24 0x012345)) (.x 9), []) ∧
  decode [0x914564] = .ok (.sbMul (Head.mk true 1 (.special .li0)), []) ∧
  decode [0x000581] = .ok (.ctJmp (Head.mk false 0 (.x 1)), []) ∧
  decode [0x0249C6] = .ok (.lsLd64 (Head.mk false 0 (.queue 2)), []) ∧
  decode [0x001EC1] = .ok (.prMm (Head.mk false 0 (.x 7)), []) ∧
  decode [0x002302] = .ok (.rkGather (Head.mk false 0 (.x 8)), []) ∧
  decode [0x002740] = .ok (.fbSend (Head.mk false 0 (.x 9)), []) ∧
  decode [0x002B84] = .ok (.fgFtest (Head.mk false 0 (.x 10)), []) ∧
  decode [0x002FC1] = .ok (.syCsrw (Head.mk false 0 (.x 11)), []) ∧
  decode [0x0287C4, 0x000001, 0x800000] = .ok (.syEcall (Head.mk false 0 (.imm48 0x800000000001)), []) ∧
  decode [0x0110FD] = .ok (.queuePush (Head.mk false 0 (.p 4)) 5, []) ∧
  decode [0x00004C] = .ok (.streamReset (Head.mk false 0 (.x 0)), [])

/-- 02 R51: a step whose bundle in flight has words left runs the instruction that they decode to, with the latch moved past its words;
a step whose bundle has none left ends the bundle. A package that the board holds in reset runs no bundle (01 R28). A step stops only where such words are no instruction, which BUNDLE_ISSUE never loads. -/
def Obligations.StepRunsDecoded : Prop :=
  ∀ (s : State), (s.core s.cur).latch.live = true →
  (s.inReset = true → step s = nextEvent s) ∧
  (s.inReset = false → (∀ w ws i rest, (s.core s.cur).latch.words = w :: ws → decode (w :: ws) = .ok (i, rest) →
    step s = exec i (s.modCore s.cur (fun k => { k with latch := k.latch.taken rest }))) ∧
  ((s.core s.cur).latch.words = [] → step s = .next (finishBundle s s.cur)) ∧
  (∀ w ws e, (s.core s.cur).latch.words = w :: ws → decode (w :: ws) = .error e → step s = .fault .undecodable))

/-- Every meaning answers a next state: no instruction is refused, whatever the state. -/
def Obligations.ExecAnswers : Prop :=
  ∀ (i : Instr) (s : State), ∃ t, exec i s = .next t

/-- A step answers a next state unless a bundle is in flight whose remaining words are no instruction. -/
def Obligations.StepStopsOnlyOnUndecodable : Prop :=
  ∀ (s : State), ((s.core s.cur).latch.live = true → ∀ w ws, (s.core s.cur).latch.words = w :: ws →
    ∃ i rest, decode (w :: ws) = .ok (i, rest)) → Steps s

/-- 09 R172, R173: the results of mov, add, sub, the bitwise operations, min and max, the set-on-compare operations and addw
on both scalar units, on o0 at T+1. -/
def Obligations.ScalarArithmeticResults : Prop :=
  ∀ (s : State) (h : Head), let b := s.operand h;
  (Passes s h 0x100 none → exec (.saMov h) s = .next (s.willOut 0 0 1 b)) ∧
  (Passes s h 0x140 none → exec (.sbMov h) s = .next (s.willOut 1 0 1 b)) ∧
  (Passes s h 0x101 none → exec (.saAdd h) s = .next (s.willOut 0 0 1 (BitVec.ofNat 64 ((s.inPort 0 0).toNat + b.toNat)))) ∧
  (Passes s h 0x141 none → exec (.sbAdd h) s = .next (s.willOut 1 0 1 (BitVec.ofNat 64 ((s.inPort 1 0).toNat + b.toNat)))) ∧
  (Passes s h 0x102 none → exec (.saSub h) s = .next (s.willOut 0 0 1 (BitVec.ofInt 64 ((s.inPort 0 0).toInt - b.toInt)))) ∧
  (Passes s h 0x142 none → exec (.sbSub h) s = .next (s.willOut 1 0 1 (BitVec.ofInt 64 ((s.inPort 1 0).toInt - b.toInt)))) ∧
  (Passes s h 0x103 none → exec (.saAnd h) s = .next (s.willOut 0 0 1 ((s.inPort 0 0) &&& b))) ∧
  (Passes s h 0x143 none → exec (.sbAnd h) s = .next (s.willOut 1 0 1 ((s.inPort 1 0) &&& b))) ∧
  (Passes s h 0x104 none → exec (.saOr h) s = .next (s.willOut 0 0 1 ((s.inPort 0 0) ||| b))) ∧
  (Passes s h 0x144 none → exec (.sbOr h) s = .next (s.willOut 1 0 1 ((s.inPort 1 0) ||| b))) ∧
  (Passes s h 0x105 none → exec (.saXor h) s = .next (s.willOut 0 0 1 ((s.inPort 0 0) ^^^ b))) ∧
  (Passes s h 0x145 none → exec (.sbXor h) s = .next (s.willOut 1 0 1 ((s.inPort 1 0) ^^^ b))) ∧
  (Passes s h 0x106 none → exec (.saAndn h) s = .next (s.willOut 0 0 1 ((s.inPort 0 0) &&& ~~~b))) ∧
  (Passes s h 0x146 none → exec (.sbAndn h) s = .next (s.willOut 1 0 1 ((s.inPort 1 0) &&& ~~~b))) ∧
  (Passes s h 0x107 none → exec (.saOrn h) s = .next (s.willOut 0 0 1 ((s.inPort 0 0) ||| ~~~b))) ∧
  (Passes s h 0x147 none → exec (.sbOrn h) s = .next (s.willOut 1 0 1 ((s.inPort 1 0) ||| ~~~b))) ∧
  (Passes s h 0x10C none → exec (.saMin h) s = .next (s.willOut 0 0 1 (BitVec.ofInt 64 (min (s.inPort 0 0).toInt b.toInt)))) ∧
  (Passes s h 0x14C none → exec (.sbMin h) s = .next (s.willOut 1 0 1 (BitVec.ofInt 64 (min (s.inPort 1 0).toInt b.toInt)))) ∧
  (Passes s h 0x10D none → exec (.saMax h) s = .next (s.willOut 0 0 1 (BitVec.ofInt 64 (max (s.inPort 0 0).toInt b.toInt)))) ∧
  (Passes s h 0x14D none → exec (.sbMax h) s = .next (s.willOut 1 0 1 (BitVec.ofInt 64 (max (s.inPort 1 0).toInt b.toInt)))) ∧
  (Passes s h 0x10E none → exec (.saMinu h) s = .next (s.willOut 0 0 1 (BitVec.ofNat 64 (min (s.inPort 0 0).toNat b.toNat)))) ∧
  (Passes s h 0x14E none → exec (.sbMinu h) s = .next (s.willOut 1 0 1 (BitVec.ofNat 64 (min (s.inPort 1 0).toNat b.toNat)))) ∧
  (Passes s h 0x10F none → exec (.saMaxu h) s = .next (s.willOut 0 0 1 (BitVec.ofNat 64 (max (s.inPort 0 0).toNat b.toNat)))) ∧
  (Passes s h 0x14F none → exec (.sbMaxu h) s = .next (s.willOut 1 0 1 (BitVec.ofNat 64 (max (s.inPort 1 0).toNat b.toNat)))) ∧
  (Passes s h 0x110 none → exec (.saSeq h) s = .next (s.willOut 0 0 1 (if (s.inPort 0 0) = b then 1 else 0))) ∧
  (Passes s h 0x150 none → exec (.sbSeq h) s = .next (s.willOut 1 0 1 (if (s.inPort 1 0) = b then 1 else 0))) ∧
  (Passes s h 0x111 none → exec (.saSne h) s = .next (s.willOut 0 0 1 (if (s.inPort 0 0) = b then 0 else 1))) ∧
  (Passes s h 0x151 none → exec (.sbSne h) s = .next (s.willOut 1 0 1 (if (s.inPort 1 0) = b then 0 else 1))) ∧
  (Passes s h 0x112 none → exec (.saSlt h) s = .next (s.willOut 0 0 1 (if (s.inPort 0 0).toInt < b.toInt then 1 else 0))) ∧
  (Passes s h 0x152 none → exec (.sbSlt h) s = .next (s.willOut 1 0 1 (if (s.inPort 1 0).toInt < b.toInt then 1 else 0))) ∧
  (Passes s h 0x113 none → exec (.saSltu h) s = .next (s.willOut 0 0 1 (if (s.inPort 0 0).toNat < b.toNat then 1 else 0))) ∧
  (Passes s h 0x153 none → exec (.sbSltu h) s = .next (s.willOut 1 0 1 (if (s.inPort 1 0).toNat < b.toNat then 1 else 0))) ∧
  (Passes s h 0x114 none → exec (.saSle h) s = .next (s.willOut 0 0 1 (if (s.inPort 0 0).toInt ≤ b.toInt then 1 else 0))) ∧
  (Passes s h 0x154 none → exec (.sbSle h) s = .next (s.willOut 1 0 1 (if (s.inPort 1 0).toInt ≤ b.toInt then 1 else 0))) ∧
  (Passes s h 0x115 none → exec (.saSleu h) s = .next (s.willOut 0 0 1 (if (s.inPort 0 0).toNat ≤ b.toNat then 1 else 0))) ∧
  (Passes s h 0x155 none → exec (.sbSleu h) s = .next (s.willOut 1 0 1 (if (s.inPort 1 0).toNat ≤ b.toNat then 1 else 0))) ∧
  (Passes s h 0x123 none → exec (.saAddw h) s = .next (s.willOut 0 0 1 (BitVec.ofInt 64 (sextOf (((s.inPort 0 0).toNat + b.toNat) % 2 ^ 32) 32)))) ∧
  (Passes s h 0x163 none → exec (.sbAddw h) s = .next (s.willOut 1 0 1 (BitVec.ofInt 64 (sextOf (((s.inPort 1 0).toNat + b.toNat) % 2 ^ 32) 32))))

/-- 09 R174: shl, shr, sar and rol take the count at its full 64-bit value. -/
def Obligations.ScalarShiftResults : Prop :=
  ∀ (s : State) (h : Head), let b := s.operand h;
  (Passes s h 0x108 none → exec (.saShl h) s = .next (s.willOut 0 0 1 (if b.toNat < 64 then BitVec.ofNat 64 ((s.inPort 0 0).toNat * 2 ^ b.toNat) else 0))) ∧
  (Passes s h 0x148 none → exec (.sbShl h) s = .next (s.willOut 1 0 1 (if b.toNat < 64 then BitVec.ofNat 64 ((s.inPort 1 0).toNat * 2 ^ b.toNat) else 0))) ∧
  (Passes s h 0x109 none → exec (.saShr h) s = .next (s.willOut 0 0 1 (if b.toNat < 64 then BitVec.ofNat 64 ((s.inPort 0 0).toNat / 2 ^ b.toNat) else 0))) ∧
  (Passes s h 0x149 none → exec (.sbShr h) s = .next (s.willOut 1 0 1 (if b.toNat < 64 then BitVec.ofNat 64 ((s.inPort 1 0).toNat / 2 ^ b.toNat) else 0))) ∧
  (Passes s h 0x10A none → exec (.saSar h) s = .next (s.willOut 0 0 1 (if b.toNat < 64 then BitVec.ofInt 64 ((s.inPort 0 0).toInt / (2 ^ b.toNat : Nat)) else if (s.inPort 0 0).toInt < 0 then BitVec.allOnes 64 else 0))) ∧
  (Passes s h 0x14A none → exec (.sbSar h) s = .next (s.willOut 1 0 1 (if b.toNat < 64 then BitVec.ofInt 64 ((s.inPort 1 0).toInt / (2 ^ b.toNat : Nat)) else if (s.inPort 1 0).toInt < 0 then BitVec.allOnes 64 else 0))) ∧
  (Passes s h 0x10B none → exec (.saRol h) s = .next (s.willOut 0 0 1 (BitVec.ofNat 64 ((s.inPort 0 0).toNat * 2 ^ (b.toNat % 64) % 2 ^ 64 + (s.inPort 0 0).toNat / 2 ^ (64 - b.toNat % 64))))) ∧
  (Passes s h 0x14B none → exec (.sbRol h) s = .next (s.willOut 1 0 1 (BitVec.ofNat 64 ((s.inPort 1 0).toNat * 2 ^ (b.toNat % 64) % 2 ^ 64 + (s.inPort 1 0).toNat / 2 ^ (64 - b.toNat % 64)))))

/-- 09 R175: sext, zext, bfx and bfi. -/
def Obligations.ScalarFieldResults : Prop :=
  ∀ (s : State) (h : Head), let b := s.operand h;
  let lo := bits b 5 0; let len := min (bits b 14 8) (64 - lo); 
  (Passes s h 0x11F none → exec (.saSext h) s = .next (s.willOut 0 0 1 (if b = 0 then 0 else if 64 ≤ b.toNat then (s.inPort 0 0) else BitVec.ofInt 64 (sextOf ((s.inPort 0 0).toNat % 2 ^ b.toNat) b.toNat)))) ∧
  (Passes s h 0x15F none → exec (.sbSext h) s = .next (s.willOut 1 0 1 (if b = 0 then 0 else if 64 ≤ b.toNat then (s.inPort 1 0) else BitVec.ofInt 64 (sextOf ((s.inPort 1 0).toNat % 2 ^ b.toNat) b.toNat)))) ∧
  (Passes s h 0x120 none → exec (.saZext h) s = .next (s.willOut 0 0 1 (if b = 0 then 0 else if 64 ≤ b.toNat then (s.inPort 0 0) else BitVec.ofNat 64 ((s.inPort 0 0).toNat % 2 ^ b.toNat)))) ∧
  (Passes s h 0x160 none → exec (.sbZext h) s = .next (s.willOut 1 0 1 (if b = 0 then 0 else if 64 ≤ b.toNat then (s.inPort 1 0) else BitVec.ofNat 64 ((s.inPort 1 0).toNat % 2 ^ b.toNat)))) ∧
  (Passes s h 0x121 none → exec (.saBfx h) s = .next (s.willOut 0 0 1 (if len = 0 then 0 else if b.getLsbD 15 then BitVec.ofInt 64 (sextOf ((s.inPort 0 0).toNat / 2 ^ lo % 2 ^ len) len)
      else BitVec.ofNat 64 ((s.inPort 0 0).toNat / 2 ^ lo % 2 ^ len)))) ∧
  (Passes s h 0x161 none → exec (.sbBfx h) s = .next (s.willOut 1 0 1 (if len = 0 then 0 else if b.getLsbD 15 then BitVec.ofInt 64 (sextOf ((s.inPort 1 0).toNat / 2 ^ lo % 2 ^ len) len)
      else BitVec.ofNat 64 ((s.inPort 1 0).toNat / 2 ^ lo % 2 ^ len)))) ∧
  (Passes s h 0x122 none → exec (.saBfi h) s = .next (s.willOut 0 0 1 (if len = 0 then (s.inPort 0 0) else
      ((s.inPort 0 0) &&& ~~~(BitVec.ofNat 64 ((2 ^ len - 1) * 2 ^ lo))) |||
        (BitVec.ofNat 64 ((s.inPort 0 1).toNat * 2 ^ lo) &&& BitVec.ofNat 64 ((2 ^ len - 1) * 2 ^ lo))))) ∧
  (Passes s h 0x162 none → exec (.sbBfi h) s = .next (s.willOut 1 0 1 (if len = 0 then (s.inPort 1 0) else
      ((s.inPort 1 0) &&& ~~~(BitVec.ofNat 64 ((2 ^ len - 1) * 2 ^ lo))) |||
        (BitVec.ofNat 64 ((s.inPort 1 1).toNat * 2 ^ lo) &&& BitVec.ofNat 64 ((2 ^ len - 1) * 2 ^ lo)))))

/-- 09 R173: clz, ctz and popc of b. -/
def Obligations.ScalarCountResults : Prop :=
  ∀ (s : State) (h : Head), let b := s.operand h;
  (∃ n : Nat, n ≤ 64 ∧ (∀ i, 64 - n ≤ i → i < 64 → b.getLsbD i = false) ∧ (n < 64 → b.getLsbD (63 - n) = true) ∧
    (Passes s h 0x11C none → exec (.saClz h) s = .next (s.willOut 0 0 1 (BitVec.ofNat 64 n))) ∧
    (Passes s h 0x15C none → exec (.sbClz h) s = .next (s.willOut 1 0 1 (BitVec.ofNat 64 n)))) ∧
  (∃ n : Nat, n ≤ 64 ∧ (∀ i, i < n → b.getLsbD i = false) ∧ (n < 64 → b.getLsbD n = true) ∧
    (Passes s h 0x11D none → exec (.saCtz h) s = .next (s.willOut 0 0 1 (BitVec.ofNat 64 n))) ∧
    (Passes s h 0x15D none → exec (.sbCtz h) s = .next (s.willOut 1 0 1 (BitVec.ofNat 64 n)))) ∧
  (let n := ((List.range 64).filter (fun i => b.getLsbD i)).length;
    (Passes s h 0x11E none → exec (.saPopc h) s = .next (s.willOut 0 0 1 (BitVec.ofNat 64 n))) ∧
    (Passes s h 0x15E none → exec (.sbPopc h) s = .next (s.willOut 1 0 1 (BitVec.ofNat 64 n))))

/-- 09 R173, R176: a compare writes the predicate that bits 2:0 of i1 name through the rotation base at T, at the end of T, and
writes no port. -/
def Obligations.ScalarCompareResults : Prop :=
  ∀ (s : State) (h : Head), let b := s.operand h;
  (Passes s h 0x116 none → exec (.saPeq h) s = .next (s.willPred 0 (decide ((s.inPort 0 0) = b)))) ∧
  (Passes s h 0x156 none → exec (.sbPeq h) s = .next (s.willPred 1 (decide ((s.inPort 1 0) = b)))) ∧
  (Passes s h 0x117 none → exec (.saPne h) s = .next (s.willPred 0 (decide ((s.inPort 0 0) ≠ b)))) ∧
  (Passes s h 0x157 none → exec (.sbPne h) s = .next (s.willPred 1 (decide ((s.inPort 1 0) ≠ b)))) ∧
  (Passes s h 0x118 none → exec (.saPlt h) s = .next (s.willPred 0 (decide ((s.inPort 0 0).toInt < b.toInt)))) ∧
  (Passes s h 0x158 none → exec (.sbPlt h) s = .next (s.willPred 1 (decide ((s.inPort 1 0).toInt < b.toInt)))) ∧
  (Passes s h 0x119 none → exec (.saPltu h) s = .next (s.willPred 0 (decide ((s.inPort 0 0).toNat < b.toNat)))) ∧
  (Passes s h 0x159 none → exec (.sbPltu h) s = .next (s.willPred 1 (decide ((s.inPort 1 0).toNat < b.toNat)))) ∧
  (Passes s h 0x11A none → exec (.saPge h) s = .next (s.willPred 0 (decide (b.toInt ≤ (s.inPort 0 0).toInt)))) ∧
  (Passes s h 0x15A none → exec (.sbPge h) s = .next (s.willPred 1 (decide (b.toInt ≤ (s.inPort 1 0).toInt)))) ∧
  (Passes s h 0x11B none → exec (.saPgeu h) s = .next (s.willPred 0 (decide (b.toNat ≤ (s.inPort 0 0).toNat)))) ∧
  (Passes s h 0x15B none → exec (.sbPgeu h) s = .next (s.willPred 1 (decide (b.toNat ≤ (s.inPort 1 0).toNat))))

/-- 09 R177: one half of the exact 128-bit product on sb.o1 at T+3. -/
def Obligations.ScalarMultiplyResults : Prop :=
  ∀ (s : State) (h : Head), let a := s.inPort 1 0; let b := s.operand h;
  (Passes s h 0x164 none → exec (.sbMul h) s = .next (s.willOut 1 1 3 (BitVec.ofNat 64 (a.toNat * b.toNat)))) ∧
  (Passes s h 0x165 none → exec (.sbMulh h) s = .next (s.willOut 1 1 3 (BitVec.ofInt 64 (a.toInt * b.toInt / (2 ^ 64 : Nat))))) ∧
  (Passes s h 0x166 none → exec (.sbMulhu h) s = .next (s.willOut 1 1 3 (BitVec.ofNat 64 (a.toNat * b.toNat / 2 ^ 64))))

/-- 09 R178: quotients rounded toward zero and remainders on sb.o2 at T+24, and the results of a zero divisor. -/
def Obligations.ScalarDivideResults : Prop :=
  ∀ (s : State) (h : Head), let a := s.inPort 1 0; let b := s.operand h;
  (Passes s h 0x167 none → exec (.sbDiv h) s = .next (s.willOut 1 2 24
    (if b = 0 then BitVec.allOnes 64 else BitVec.ofInt 64 (Int.tdiv a.toInt b.toInt)))) ∧
  (Passes s h 0x168 none → exec (.sbDivu h) s = .next (s.willOut 1 2 24
    (if b = 0 then BitVec.allOnes 64 else BitVec.ofNat 64 (a.toNat / b.toNat)))) ∧
  (Passes s h 0x169 none → exec (.sbRem h) s = .next (s.willOut 1 2 24
    (if b = 0 then a else BitVec.ofInt 64 (Int.tmod a.toInt b.toInt)))) ∧
  (Passes s h 0x16A none → exec (.sbRemu h) s = .next (s.willOut 1 2 24
    (if b = 0 then a else BitVec.ofNat 64 (a.toNat % b.toNat))))

/-- 02 R42, R51, R54, R40: where a move takes its value. An input port holds it at once; everything else takes effect at the end of
T. The canonical no-op changes nothing. -/
def Obligations.MoveResults : Prop :=
  ∀ (s : State) (h : Head), let v := s.operand h;
  (∀ n, Passes s h n.toNat none → exec (.move h (.x n)) s = .next (s.willDo 1 (.x n.toNat v))) ∧
  (∀ n, Passes s h (0x040 + n.toNat) none → exec (.move h (.p n)) s =
    .next (s.willDo 1 (.pred (physP (s.core s.cur).regs.rotb n.toNat) (v != 0)))) ∧
  (Passes s h 0x048 none → exec (.move h .lcount) s = .next (s.willDo 1 (.lcount s.motorNow v))) ∧
  (Passes s h 0x049 none → exec (.move h .rotb) s = .next (s.willDo 1 (.rotb (v.toNat % 8)))) ∧
  (Passes s h 0x04A none → exec (.move h .sbbase) s = .next (s.willDo 1 (.sbbase (v.toNat % 2 ^ 21)))) ∧
  (Passes s h 0x04B none → exec (.move h .sblen) s = .next (s.willDo 1 (.sblen (v.toNat % 2 ^ 22)))) ∧
  (Passes s h 0x04C none → exec (.streamReset h) s = .next (s.willDo 1 .sbreset)) ∧
  (∀ q, Passes s h (0x0F8 + q.toNat) none → exec (.queuePush h q) s = .next (s.willDo 1 (.push q.toNat v))) ∧
  (∀ n : Fin 168, Passes s h (0x050 + n.val) none → ∃ t, exec (.move h (.inp n)) s = .next t ∧
    SameOutsideCores s t ∧ SameCoresBut s.cur s t ∧
    (t.core s.cur).regs = { (s.core s.cur).regs with inp := sput 0 (s.core s.cur).regs.inp n.val v } ∧
    sget 0 (t.core s.cur).regs.inp n.val = v ∧
    (∀ m, m ≠ n.val → sget 0 (t.core s.cur).regs.inp m = sget 0 (s.core s.cur).regs.inp m) ∧
    SameHeld { s.core s.cur with regs := (t.core s.cur).regs } (t.core s.cur)) ∧
  exec .nop s = .next s

/-- 02 R39: a slot whose guard is false, once it decodes, has no effect: the state is unchanged, whatever the operation. -/
def Obligations.GuardFalse : Prop :=
  ∀ (s : State) (i : Instr) (h : Head) (dst : BitVec 10) (e : Option Ext), slotParts i = some (h, dst, e) →
  s.decodeCheck s.cur s.motorNow h dst.toNat e = .ok → s.guard s.cur h = false → exec i s = .next s

/-- 02 R59, R54, 06 R118, 19 R373: a slot operation whose decode check, or with its guard true its unit check, reports a fault raises
that fault at the bundle in flight; one that has to wait in the butty stream makes the bundle wait. -/
def Obligations.ChecksDecide : Prop :=
  ∀ (s : State) (i : Instr) (h : Head) (dst : BitVec 10) (e : Option Ext), slotParts i = some (h, dst, e) → i ≠ .nop →
  (∀ code reason,
    (s.decodeCheck s.cur s.motorNow h dst.toNat e = .fault code reason ∨
      (Passes s h dst.toNat e ∧ trigCheck s s.cur s.motorNow dst.toNat e (s.operand h) = .fault code reason)) →
    ∃ detail, exec i s =
      .next (raiseFault s s.cur s.motorNow (s.core s.cur).latch.pc (s.core s.cur).latch.slot code reason detail)) ∧
  ((s.decodeCheck s.cur s.motorNow h dst.toNat e = .stall ∨
      (Passes s h dst.toNat e ∧ trigCheck s s.cur s.motorNow dst.toNat e (s.operand h) = .stall)) →
    exec i s = .next (s.retry s.cur s.motorNow))

/-- 19 R373, R370, 02 R59: taking a fault. The bundle in flight has no further effect; a record with the code, the reason, the stream,
the bundle and the slot goes to the core log; a motor stream of a tile core halts and stops its timetable, and a butty stream of a tile core
halts while its keeper receives the record. -/
def Obligations.FaultTaken : Prop :=
  ∀ (s : State) (c bundle slot code reason detail : Nat) (motor : Bool), isTile c = true → code ≠ stDebugStop →
  let t := raiseFault s c motor bundle slot code reason detail;
  (t.core c).latch = Latch.empty ∧
  ((t.core c).stream motor).st = .halted .fault code ∧
  ((t.core c).stream (!motor)) = ((s.core c).stream (!motor)) ∧
  (t.core c).regs = (s.core c).regs ∧ (t.core c).mem = (s.core c).mem ∧
  (∃ r rest, (sget Log.empty t.logs c).recs = r :: rest ∧ r.tick = s.tick ∧ r.code = code ∧ r.reason = reason ∧
    r.bundle = bundle ∧ r.slot = slot ∧ r.flags = (if motor then 3 else 2) ∧ r.part = s.partId c ∧
    r.detail = detail ∧ r.seq = (sget Log.empty s.logs c).next) ∧
  (motor = false → ∃ r, (t.core (s.activeKeeper (basinOf c))).traps = (s.core (s.activeKeeper (basinOf c))).traps ++ [r] ∧
    r.code = code ∧ r.core = c ∧ r.bundle = bundle ∧ r.id = s.nextRec ∧ r.isCall = false ∧ t.nextRec = s.nextRec + 1) ∧
  (motor = true → ∀ p, s.part (s.partId c) = some p → p.tt.isSome = true →
    ∃ q u e, t.part (s.partId c) = some q ∧ q.tt = some u ∧ u.stop = some e ∧
      (e = (s.tick, c, true, code) ∨ stopBefore (s.tick, c, true, code) e = false))

/-- 07 R130, R133, R134: each va operation captures its operands, mask, scalar and rounding mode as they stand at T and delivers its
result to the register that d names through the rotation base at T (cmp: to mask register d), 3, 5 or 8 core cycles later. 05 R98, R101-R103, 07 R135-R143: what
the captured operands deliver for the float types: the exact value of the operation, rounded once with the draw of the lane's own generator; and what the exact
products and sums are. SpecialFunctionAsks says what the rounding is. -/
def Obligations.VectorArithmeticAsks : Prop :=
  (∀ (s : State) (h : Head) (e : Ext), let ty := (s.core s.cur).extTy e; let w := (s.core s.cur).wide e (s.operand h);
  (Accepts s h 0x200 (some e) → ∃ t, exec (.vaAdd h e) s = .next t ∧ Asks s t s.cur 3
    (.va .add ty w (physV (s.core s.cur).regs.rotb e.d.toNat))) ∧
  (Accepts s h 0x201 (some e) → ∃ t, exec (.vaSub h e) s = .next t ∧ Asks s t s.cur 3
    (.va .sub ty w (physV (s.core s.cur).regs.rotb e.d.toNat))) ∧
  (Accepts s h 0x202 (some e) → ∃ t, exec (.vaMul h e) s = .next t ∧ Asks s t s.cur 3
    (.va .mul ty w (physV (s.core s.cur).regs.rotb e.d.toNat))) ∧
  (Accepts s h 0x203 (some e) → ∃ t, exec (.vaFma h e) s = .next t ∧ Asks s t s.cur 5
    (.va .fma ty w (physV (s.core s.cur).regs.rotb e.d.toNat))) ∧
  (Accepts s h 0x204 (some e) → ∃ t, exec (.vaFms h e) s = .next t ∧ Asks s t s.cur 5
    (.va .fms ty w (physV (s.core s.cur).regs.rotb e.d.toNat))) ∧
  (Accepts s h 0x205 (some e) → ∃ t, exec (.vaNfma h e) s = .next t ∧ Asks s t s.cur 5
    (.va .nfma ty w (physV (s.core s.cur).regs.rotb e.d.toNat))) ∧
  (Accepts s h 0x206 (some e) → ∃ t, exec (.vaMin h e) s = .next t ∧ Asks s t s.cur 3
    (.va .min ty w (physV (s.core s.cur).regs.rotb e.d.toNat))) ∧
  (Accepts s h 0x207 (some e) → ∃ t, exec (.vaMax h e) s = .next t ∧ Asks s t s.cur 3
    (.va .max ty w (physV (s.core s.cur).regs.rotb e.d.toNat))) ∧
  (Accepts s h 0x208 (some e) → ∃ t, exec (.vaAbs h e) s = .next t ∧ Asks s t s.cur 3
    (.va .abs ty w (physV (s.core s.cur).regs.rotb e.d.toNat))) ∧
  (Accepts s h 0x209 (some e) → ∃ t, exec (.vaNeg h e) s = .next t ∧ Asks s t s.cur 3
    (.va .neg ty w (physV (s.core s.cur).regs.rotb e.d.toNat))) ∧
  (Accepts s h 0x20A (some e) → ∃ t, exec (.vaAnd h e) s = .next t ∧ Asks s t s.cur 3
    (.va .and ty w (physV (s.core s.cur).regs.rotb e.d.toNat))) ∧
  (Accepts s h 0x20B (some e) → ∃ t, exec (.vaOr h e) s = .next t ∧ Asks s t s.cur 3
    (.va .or ty w (physV (s.core s.cur).regs.rotb e.d.toNat))) ∧
  (Accepts s h 0x20C (some e) → ∃ t, exec (.vaXor h e) s = .next t ∧ Asks s t s.cur 3
    (.va .xor ty w (physV (s.core s.cur).regs.rotb e.d.toNat))) ∧
  (Accepts s h 0x20D (some e) → ∃ t, exec (.vaNot h e) s = .next t ∧ Asks s t s.cur 3
    (.va .not ty w (physV (s.core s.cur).regs.rotb e.d.toNat))) ∧
  (Accepts s h 0x20E (some e) → ∃ t, exec (.vaShl h e) s = .next t ∧ Asks s t s.cur 3
    (.va .shl ty w (physV (s.core s.cur).regs.rotb e.d.toNat))) ∧
  (Accepts s h 0x20F (some e) → ∃ t, exec (.vaShr h e) s = .next t ∧ Asks s t s.cur 3
    (.va .shr ty w (physV (s.core s.cur).regs.rotb e.d.toNat))) ∧
  (Accepts s h 0x210 (some e) → ∃ t, exec (.vaSar h e) s = .next t ∧ Asks s t s.cur 3
    (.va .sar ty w (physV (s.core s.cur).regs.rotb e.d.toNat))) ∧
  (Accepts s h 0x211 (some e) → ∃ t, exec (.vaCmp h e) s = .next t ∧ Asks s t s.cur 3
    (.va .cmp ty w (e.d.toNat))) ∧
  (Accepts s h 0x212 (some e) → ∃ t, exec (.vaSel h e) s = .next t ∧ Asks s t s.cur 3
    (.va .sel ty w (physV (s.core s.cur).regs.rotb e.d.toNat))) ∧
  (Accepts s h 0x213 (some e) → ∃ t, exec (.vaSum h e) s = .next t ∧ Asks s t s.cur 8
    (.va .sum ty w (physV (s.core s.cur).regs.rotb e.d.toNat))) ∧
  (Accepts s h 0x214 (some e) → ∃ t, exec (.vaRmax h e) s = .next t ∧ Asks s t s.cur 8
    (.va .rmax ty w (physV (s.core s.cur).regs.rotb e.d.toNat))) ∧
  (Accepts s h 0x215 (some e) → ∃ t, exec (.vaRmin h e) s = .next t ∧ Asks s t s.cur 8
    (.va .rmin ty w (physV (s.core s.cur).regs.rotb e.d.toNat))) ∧
  (Accepts s h 0x216 (some e) → ∃ t, exec (.vaDot4 h e) s = .next t ∧ Asks s t s.cur 5
    (.va .dot4 ty w (physV (s.core s.cur).regs.rotb e.d.toNat))) ∧
  (Accepts s h 0x217 (some e) → ∃ t, exec (.vaScale h e) s = .next t ∧ Asks s t s.cur 5
    (.va .scale ty w (physV (s.core s.cur).regs.rotb e.d.toNat))) ∧
  (Accepts s h 0x218 (some e) → ∃ t, exec (.vaClamp h e) s = .next t ∧ Asks s t s.cur 3
    (.va .clamp ty w (physV (s.core s.cur).regs.rotb e.d.toNat))) ∧
  (Accepts s h 0x219 (some e) → ∃ t, exec (.vaAddsat h e) s = .next t ∧ Asks s t s.cur 3
    (.va .addsat ty w (physV (s.core s.cur).regs.rotb e.d.toNat))) ∧
  (Accepts s h 0x21A (some e) → ∃ t, exec (.vaSubsat h e) s = .next t ∧ Asks s t s.cur 3
    (.va .subsat ty w (physV (s.core s.cur).regs.rotb e.d.toNat)))) ∧
  (∀ (f : Fmt) (w : WideIn) (g : Gens), (f = fp32 ∨ f = bf16 ∨ f = fp16) →
    let n := 8192 / f.cont; let code := fun (r : Row) (j : Nat) => laneOf r f.cont j;
    let rnd := fun (j : Nat) (x : Val) => (roundFmt f (drawRnd g w.mode j).1 x).1;
    let canon := fun (x : Nat) => if fmtIsNan f x then fmtNanCode f else x;
    let least := fun (x y : Nat) => if fmtIsNan f x then canon y else if fmtIsNan f y then x
      else if (fmtVal f y).ltz (fmtVal f x) then y else x;
    let most := fun (x y : Nat) => if fmtIsNan f x then canon y else if fmtIsNan f y then x
      else if (fmtVal f x).ltz (fmtVal f y) then y else x;
    let picked := (List.range n).filter (fun j => selLane w.e n j);
    let all := picked.map (fun j => fmtVal f (code w.a j));
    let single := fun (op : VaOp) (v : Nat) => let o := vaResult op (.flt f) w g;
      o.o0 = some (BitVec.ofNat 64 v) ∧ laneOf o.row 32 0 = v ∧ (∀ j, 0 < j → j < 256 → laneOf o.row 32 j = 0) ∧
      o.bits = BitVec.allOnes 8192;
    (∀ i, i < n → selLane w.e n i = true →
      let a := code w.a i; let b := code w.b i; let d := code w.d i; let x := fmtVal f a; let y := fmtVal f b; let z := fmtVal f d;
      let r := fun op => code (vaResult op (.flt f) w g).row i;
      let fused := fun (p : Val) => rnd i (if (Val.mul x y).2 then .nan else (Val.sum [z, p]).1);
      r .add = rnd i (Val.sum [x, y]).1 ∧ r .sub = rnd i (Val.sum [x, y.neg]).1 ∧ r .mul = rnd i (Val.mul x y).1 ∧
      r .fma = fused (Val.mul x y).1 ∧ r .fms = fused (Val.mul x y).1.neg ∧
      r .nfma = (if fmtIsNan f (fused (Val.mul x y).1) then fmtNanCode f else fused (Val.mul x y).1 ^^^ 2 ^ (f.w - 1)) ∧
      r .scale = rnd i (Val.mul x (fmtVal fp32 (w.sc.toNat % 2 ^ 32))).1 ∧
      r .min = least a b ∧ r .max = most a b ∧ r .clamp = least (most d a) b ∧
      r .abs = (if fmtIsNan f a then fmtNanCode f else a % 2 ^ (f.w - 1)) ∧
      r .neg = (if fmtIsNan f a then fmtNanCode f else a ^^^ 2 ^ (f.w - 1))) ∧
    (∀ i, i < n → code (vaResult .sel (.flt f) w g).row i = canon (if selLane w.e n i then code w.a i else code w.b i)) ∧
    (∃ m, (vaResult .cmp (.flt f) w g).mask = some m ∧ ∀ j, j < 2048 → let i := j / (2048 / n);
      let x := fmtVal f (code w.a i); let y := fmtVal f (code w.b i);
      m.getLsbD j = (selLane w.e n i && (match bits w.sc 2 0 with
        | 0 => x.eqv y
        | 1 => !x.eqv y
        | 2 => x.lt y
        | 3 => x.lt y || x.eqv y
        | 4 => y.lt x
        | 5 => y.lt x || x.eqv y
        | _ => false))) ∧
    single .sum (roundFmt fp32 (drawRnd g w.mode 0).1 (Val.sum all).1).1 ∧
    (picked = [] → single .rmax 0xFF800000 ∧ single .rmin 0x7F800000) ∧
    (picked ≠ [] → (∀ x, x ∈ all → x.isNan = true) → single .rmax 0x7FC00000 ∧ single .rmin 0x7FC00000) ∧
    ((∃ x, x ∈ all ∧ x.isNan = false) →
      (∃ x, x ∈ all ∧ x.isNan = false ∧ (∀ y, y ∈ all → x.ltz y = false) ∧ single .rmax (roundFmt fp32 .rne x).1) ∧
      (∃ x, x ∈ all ∧ x.isNan = false ∧ (∀ y, y ∈ all → y.ltz x = false) ∧ single .rmin (roundFmt fp32 .rne x).1)) ∧
    (f.cont = 16 → ∀ j, j < 128 → selLane w.e 256 j = true →
      let p := fun (q : Nat) => Val.mul (fmtVal f (code w.a (4 * j + q))) (fmtVal f (code w.b (4 * j + q)));
      laneOf (vaResult .dot4 (.flt f) w g).row 32 j = (roundFmt fp32 (drawRnd g w.mode j).1
        (if (p 0).2 || (p 1).2 || (p 2).2 || (p 3).2 then .nan
          else (Val.sum [fmtVal fp32 (laneOf w.d 32 j), (p 0).1, (p 1).1, (p 2).1, (p 3).1]).1)).1)) ∧
  (let real := fun (x : Val) => (x.frac.1 : ℚ) / (x.frac.2 : ℚ);
    (∀ s t n m d c e k, Val.mul (.fin s n d e) (.fin t m c k) = (.fin (s != t) (n * m) (d * c) (e + k), false) ∧
      (d ≠ 0 → c ≠ 0 → real (Val.mul (.fin s n d e) (.fin t m c k)).1 = real (.fin s n d e) * real (.fin t m c k)) ∧
      (n ≠ 0 → Val.mul (.fin s n d e) (.inf t) = (.inf (s != t), false)) ∧ Val.mul (.fin s 0 d e) (.inf t) = (.nan, true)) ∧
    (∀ vs : List Val, (∀ x, x ∈ vs → ∃ s n e, x = .fin s n 1 e) → (Val.sum vs).2 = false ∧
      real (Val.sum vs).1 = (vs.map real).sum ∧
      ((vs.map real).sum = 0 → (Val.sum vs).1 = .fin (decide (vs ≠ []) && vs.all (fun x => x.isZero && x.isNeg)) 0 1 0)) ∧
    (∀ vs : List Val, (.inf false ∈ vs → .inf true ∈ vs → Val.sum vs = (.nan, true)) ∧
      (¬(.inf false ∈ vs ∧ .inf true ∈ vs) → (.nan ∈ vs → Val.sum vs = (.nan, false)) ∧
        (.nan ∉ vs → ∀ s, .inf s ∈ vs → Val.sum vs = (.inf s, false)))))

/-- 07 R131, R135-R141, R143: what the va operations deliver for an integer type of n bits, with a, b and d the lanes of the captured
operands. That integer nfma delivers -(D + A x B) is the model's choice (log entry 36, DEDUCED). -/
def Obligations.VectorIntegerResults : Prop :=
  ∀ (sg : Bool) (n : Nat) (w : WideIn) (g : Gens), (n = 4 ∨ n = 8 ∨ n = 16 ∨ n = 32) →
  let lanes := 8192 / n; let v := intVal sg n; let out := fun op => vaResult op (.int sg n) w g;
  let picked := (List.range lanes).filter (fun j => selLane w.e lanes j);
  let val := fun (j : Nat) => v (laneOf w.a n j);
  let single := fun (op : VaOp) (x : Int) => (out op).o0 = some (BitVec.ofInt 64 x) ∧
    laneOf (out op).row 32 0 = (x % (2 ^ 32 : Nat)).toNat ∧ (∀ j, 0 < j → j < 256 → laneOf (out op).row 32 j = 0) ∧
    (out op).bits = BitVec.allOnes 8192;
  (∀ i, i < lanes → selLane w.e lanes i = true →
    let a := laneOf w.a n i; let b := laneOf w.b n i; let d := laneOf w.d n i; let r := fun op => laneOf (out op).row n i;
    r .add = ((v a + v b) % (2 ^ n : Nat)).toNat ∧ r .sub = ((v a - v b) % (2 ^ n : Nat)).toNat ∧
    r .mul = ((v a * v b) % (2 ^ n : Nat)).toNat ∧ r .fma = ((v d + v a * v b) % (2 ^ n : Nat)).toNat ∧
    r .fms = ((v d - v a * v b) % (2 ^ n : Nat)).toNat ∧ r .nfma = ((-(v d + v a * v b)) % (2 ^ n : Nat)).toNat ∧
    r .and = a &&& b ∧ r .or = a ||| b ∧ r .xor = a ^^^ b ∧ r .not = 2 ^ n - 1 - a ∧
    r .shl = (if b < n then a * 2 ^ b % 2 ^ n else 0) ∧ r .shr = (if b < n then a / 2 ^ b else 0) ∧
    r .sar = (if b < n then (sextOf a n / (2 ^ b : Nat) % (2 ^ n : Nat)).toNat else if sextOf a n < 0 then 2 ^ n - 1 else 0) ∧
    r .min = (if v b < v a then b else a) ∧ r .max = (if v a < v b then b else a) ∧
    r .clamp = (let m := if v d < v a then a else d; if v b < v m then b else m) ∧
    r .abs = (if sg then (v a).natAbs % 2 ^ n else a) ∧ r .neg = ((-(v a)) % (2 ^ n : Nat)).toNat ∧
    r .addsat = ((max (intMin sg n) (min (intMax sg n) (v a + v b))) % (2 ^ n : Nat)).toNat ∧
    r .subsat = ((max (intMin sg n) (min (intMax sg n) (v a - v b))) % (2 ^ n : Nat)).toNat) ∧
  (∀ op, op ∉ [VaOp.cmp, .sel, .sum, .rmax, .rmin, .dot4, .scale] → (out op).o0 = none ∧ (out op).mask = none ∧
    ∀ k, k < 8192 → (out op).bits.getLsbD k = selLane w.e lanes (k / n)) ∧
  (∀ i, i < lanes → laneOf (out .sel).row n i = (if selLane w.e lanes i then laneOf w.a n i else laneOf w.b n i)) ∧
  (out .sel).bits = BitVec.allOnes 8192 ∧
  (∃ m, (out .cmp).mask = some m ∧ ∀ j, j < 2048 → let i := j / (2048 / lanes); let x := val i; let y := v (laneOf w.b n i);
    m.getLsbD j = (selLane w.e lanes i && (match bits w.sc 2 0 with
      | 0 => decide (x = y)
      | 1 => decide (x ≠ y)
      | 2 => decide (x < y)
      | 3 => decide (x ≤ y)
      | 4 => decide (y < x)
      | 5 => decide (y ≤ x)
      | _ => false))) ∧
  single .sum (picked.map val).sum ∧
  (picked = [] → single .rmax (intMin sg n) ∧ single .rmin (intMax sg n)) ∧
  (picked ≠ [] → (∃ j, j ∈ picked ∧ single .rmax (val j) ∧ ∀ i, i ∈ picked → val i ≤ val j) ∧
    ∃ j, j ∈ picked ∧ single .rmin (val j) ∧ ∀ i, i ∈ picked → val j ≤ val i) ∧
  (n = 8 → ∀ j, j < 256 → laneOf (out .dot4).row 32 j = ((intVal sg 32 (laneOf w.d 32 j) +
      ((List.range 4).map (fun q => val (4 * j + q) * v (laneOf w.b 8 (4 * j + q)))).sum) % (2 ^ 32 : Nat)).toNat ∧
    ∀ k, k < 32 → (out .dot4).bits.getLsbD (32 * j + k) = selLane w.e 256 j)

/-- 07 R133, R131: a delivered row changes only the bits of d that it selects, and revives the register. -/
def Obligations.WideLanesMerge : Prop :=
  ∀ (k : Core) (phys : Nat) (row bits : Row) (j : Nat), j < 8192 →
  let t := k.setV phys row bits;
  (sget 0 t.regs.v phys).getLsbD j = (if bits.getLsbD j then row.getLsbD j else (sget 0 k.regs.v phys).getLsbD j) ∧
  (∀ m, m ≠ phys → sget 0 t.regs.v m = sget 0 k.regs.v m) ∧
  (phys < 16 → t.regs.dead.getLsbD phys = false ∧ ∀ m, m < 16 → m ≠ phys → t.regs.dead.getLsbD m = k.regs.dead.getLsbD m) ∧
  { t with regs := k.regs } = k

/-- 07 R144-R147: each sf operation is delivered at T+12, and occupies the lane array for 4 core cycles, 8 for a 16-bit type; each selected lane is
the exact value rounded once with the draw of its generator, the special values are those of the table of R147, and rcp, log2 of powers of two, exp2 of integers, sqrt and
rsqrt are stated exactly. 05 R94-R99, R101: what a rounding to fp32, bf16 or fp16 delivers in each mode, and what a code stands for (04 R75, R76). -/
def Obligations.SpecialFunctionAsks : Prop :=
  (∀ (s : State) (h : Head) (e : Ext) (f : Fmt), (s.core s.cur).extTy e = .flt f →
  (Accepts s h 0x280 (some e) → ∃ t, exec (.sfExp2 h e) s = .next t ∧
    Asks s t s.cur 12 (.sf .exp2 f ((s.core s.cur).wide e (s.operand h)) (physV (s.core s.cur).regs.rotb e.d.toNat)) ∧
    TakesBusy s t s.cur rsSf (if f.cont = 32 then 4 else 8)) ∧
  (Accepts s h 0x281 (some e) → ∃ t, exec (.sfLog2 h e) s = .next t ∧
    Asks s t s.cur 12 (.sf .log2 f ((s.core s.cur).wide e (s.operand h)) (physV (s.core s.cur).regs.rotb e.d.toNat)) ∧
    TakesBusy s t s.cur rsSf (if f.cont = 32 then 4 else 8)) ∧
  (Accepts s h 0x282 (some e) → ∃ t, exec (.sfRcp h e) s = .next t ∧
    Asks s t s.cur 12 (.sf .rcp f ((s.core s.cur).wide e (s.operand h)) (physV (s.core s.cur).regs.rotb e.d.toNat)) ∧
    TakesBusy s t s.cur rsSf (if f.cont = 32 then 4 else 8)) ∧
  (Accepts s h 0x283 (some e) → ∃ t, exec (.sfRsqrt h e) s = .next t ∧
    Asks s t s.cur 12 (.sf .rsqrt f ((s.core s.cur).wide e (s.operand h)) (physV (s.core s.cur).regs.rotb e.d.toNat)) ∧
    TakesBusy s t s.cur rsSf (if f.cont = 32 then 4 else 8)) ∧
  (Accepts s h 0x284 (some e) → ∃ t, exec (.sfSqrt h e) s = .next t ∧
    Asks s t s.cur 12 (.sf .sqrt f ((s.core s.cur).wide e (s.operand h)) (physV (s.core s.cur).regs.rotb e.d.toNat)) ∧
    TakesBusy s t s.cur rsSf (if f.cont = 32 then 4 else 8)) ∧
  (Accepts s h 0x285 (some e) → ∃ t, exec (.sfTanh h e) s = .next t ∧
    Asks s t s.cur 12 (.sf .tanh f ((s.core s.cur).wide e (s.operand h)) (physV (s.core s.cur).regs.rotb e.d.toNat)) ∧
    TakesBusy s t s.cur rsSf (if f.cont = 32 then 4 else 8)) ∧
  (Accepts s h 0x286 (some e) → ∃ t, exec (.sfSigm h e) s = .next t ∧
    Asks s t s.cur 12 (.sf .sigm f ((s.core s.cur).wide e (s.operand h)) (physV (s.core s.cur).regs.rotb e.d.toNat)) ∧
    TakesBusy s t s.cur rsSf (if f.cont = 32 then 4 else 8)) ∧
  (Accepts s h 0x287 (some e) → ∃ t, exec (.sfSin h e) s = .next t ∧
    Asks s t s.cur 12 (.sf .sin f ((s.core s.cur).wide e (s.operand h)) (physV (s.core s.cur).regs.rotb e.d.toNat)) ∧
    TakesBusy s t s.cur rsSf (if f.cont = 32 then 4 else 8)) ∧
  (Accepts s h 0x288 (some e) → ∃ t, exec (.sfCos h e) s = .next t ∧
    Asks s t s.cur 12 (.sf .cos f ((s.core s.cur).wide e (s.operand h)) (physV (s.core s.cur).regs.rotb e.d.toNat)) ∧
    TakesBusy s t s.cur rsSf (if f.cont = 32 then 4 else 8)) ∧
  (Accepts s h 0x289 (some e) → ∃ t, exec (.sfErf h e) s = .next t ∧
    Asks s t s.cur 12 (.sf .erf f ((s.core s.cur).wide e (s.operand h)) (physV (s.core s.cur).regs.rotb e.d.toNat)) ∧
    TakesBusy s t s.cur rsSf (if f.cont = 32 then 4 else 8))) ∧
  (∀ (op : SfOp) (f : Fmt) (w : WideIn) (g : Gens) (i : Nat), (f = fp32 ∨ f = bf16 ∨ f = fp16) → i < 8192 / f.cont →
    selLane w.e (8192 / f.cont) i = true → laneOf (sfResult op f w g).row f.cont i =
      (roundFmt f (drawRnd g w.mode i).1 (sfVal op (fmtVal f (laneOf w.a f.cont i))).1).1) ∧
  (let zero := fun (s : Bool) => Val.fin s 0 1 0; let one := fun (s : Bool) => Val.fin s 1 1 0;
    (∀ op, sfVal op .nan = (.nan, 0)) ∧
    [SfOp.exp2, .log2, .rcp, .rsqrt, .sqrt, .tanh, .sigm, .sin, .cos, .erf].map (fun op => sfVal op (.inf true)) =
      [(zero false, 0), (.nan, stInvalid), (zero true, 0), (.nan, stInvalid), (.nan, stInvalid), (one true, 0), (zero false, 0),
        (.nan, stInvalid), (.nan, stInvalid), (one true, 0)] ∧
    [SfOp.exp2, .log2, .rcp, .rsqrt, .sqrt, .tanh, .sigm, .sin, .cos, .erf].map (fun op => sfVal op (.inf false)) =
      [(.inf false, 0), (.inf false, 0), (zero false, 0), (zero false, 0), (.inf false, 0), (one false, 0), (one false, 0),
        (.nan, stInvalid), (.nan, stInvalid), (one false, 0)] ∧
    (∀ s d e, [SfOp.exp2, .log2, .rcp, .rsqrt, .sqrt, .tanh, .sigm, .sin, .cos, .erf].map (fun op => sfVal op (.fin s 0 d e)) =
      [(one false, 0), (.inf true, stDivZero), (.inf s, stDivZero), (.inf s, stDivZero), (zero s, 0), (zero s, 0),
        (.fin false 1 1 (-1), 0), (zero s, 0), (one false, 0), (zero s, 0)]) ∧
    (∀ n d e, n ≠ 0 → [SfOp.log2, .rsqrt, .sqrt].map (fun op => sfVal op (.fin true n d e)) =
      [(.nan, stInvalid), (.nan, stInvalid), (.nan, stInvalid)])) ∧
  (∀ s n d e, n ≠ 0 → sfVal .rcp (.fin s n d e) = (.fin s d n (-e), 0)) ∧
  (∀ (l : Nat) (e : Int), sfVal .log2 (.fin false (2 ^ l) 1 e) = (Val.ofInt (l + e), 0)) ∧
  (∀ s (n z : Nat) (e : Int), 0 < z → z < 2048 → -700 ≤ e → n * pow2 e = z * pow2 (-e) →
    sfVal .exp2 (.fin s n 1 e) = (.fin false 1 1 (if s then -(z : Int) else z), 0)) ∧
  (∀ (n : Nat) (e : Int), 0 < n → n < 2 ^ 25 →
    (∃ m q, sfVal .sqrt (.fin false n 1 e) = (.fin false m 1 q, 0) ∧ 2 ^ 190 < m ∧
      (m * m * pow2 (2 * q - e) = n * pow2 (e - 2 * q) ∨
        (m % 2 = 1 ∧ (m - 1) * (m - 1) * pow2 (2 * q - e) < n * pow2 (e - 2 * q) ∧
          n * pow2 (e - 2 * q) < (m + 1) * (m + 1) * pow2 (2 * q - e)))) ∧
    ∃ m q, sfVal .rsqrt (.fin false n 1 e) = (.fin false m 1 q, 0) ∧ 2 ^ 190 < m ∧
      (m * m * n * pow2 (2 * q + e) = pow2 (-(2 * q + e)) ∨
        (m % 2 = 1 ∧ (m - 1) * (m - 1) * n * pow2 (2 * q + e) < pow2 (-(2 * q + e)) ∧
          pow2 (-(2 * q + e)) < (m + 1) * (m + 1) * n * pow2 (2 * q + e)))) ∧
  (∀ (f : Fmt) (mode : Rnd) (s : Bool) (num den : Nat) (e : Int), (f = fp32 ∨ f = bf16 ∨ f = fp16) → 0 < num → 0 < den →
    ∃ (l : Int) (k : Nat), den * pow2 l ≤ num * pow2 (-l) ∧ num * pow2 (-(l + 1)) < den * pow2 (l + 1) ∧
      let q : Int := max (l + e) (1 - f.bias) - f.m; let n := num * pow2 (e - q); let d := den * pow2 (q - e);
      (mode = .rne → 2 * n ≤ (2 * k + 1) * d ∧ 2 * k * d ≤ 2 * n + d ∧ ((2 * n = (2 * k + 1) * d ∨ 2 * k * d = 2 * n + d) → k % 2 = 0)) ∧
      (mode = .rtz → k * d ≤ n ∧ n < (k + 1) * d) ∧
      (∀ r, mode = .sto r → k = (n * 2 ^ 16 / d + r) / 2 ^ 16) ∧
      let c := (roundFmt f mode (.fin s num den e)).1; let sign := if s then 2 ^ (f.e + f.m) else 0;
      let beyond := (2 ^ (f.m + 1) - 1) * pow2 ((2 ^ (f.e - 1) : Nat) - 1 - f.m - q) < k * pow2 (q - ((2 ^ (f.e - 1) : Nat) - 1 - f.m));
      (beyond → c = sign + (if mode = .rtz then 2 ^ (f.e + f.m) - 2 ^ f.m - 1 else 2 ^ (f.e + f.m) - 2 ^ f.m)) ∧
      (¬beyond → ∃ k' q', fmtVal f c = .fin s k' 1 q' ∧ k' * pow2 (q' - q) = k * pow2 (q - q'))) ∧
  (∀ (f : Fmt) (mode : Rnd), (f = fp32 ∨ f = bf16 ∨ f = fp16) →
    (roundFmt f mode .nan).1 = 2 ^ (f.e + f.m) - 2 ^ f.m + 2 ^ (f.m - 1) ∧
    (∀ s, (roundFmt f mode (.inf s)).1 = (if s then 2 ^ (f.e + f.m) else 0) + (2 ^ (f.e + f.m) - 2 ^ f.m)) ∧
    (∀ s d e, (roundFmt f mode (.fin s 0 d e)).1 = (if s then 2 ^ (f.e + f.m) else 0)) ∧
    (∀ c : Nat, c < 2 ^ (1 + f.e + f.m) → let s := decide (2 ^ (f.e + f.m) ≤ c); let x := c / 2 ^ f.m % 2 ^ f.e; let m := c % 2 ^ f.m;
      fmtVal f c = (if x = 2 ^ f.e - 1 then (if m = 0 then .inf s else .nan)
        else if x = 0 then .fin s m 1 (1 - f.bias - f.m) else .fin s (2 ^ f.m + m) 1 (x - f.bias - f.m)))) ∧
  (∀ (g : Gens) (mode i : Nat), let y := genStep (g.cur i);
    (drawRnd g 0 i).1 = .rne ∧ (drawRnd g 1 i).1 = .rtz ∧ (2 ≤ mode → (drawRnd g mode i).1 = .sto (y / 2 ^ 16)) ∧
    (2 ≤ mode → y ≠ 0 → (drawRnd g mode i).2.cur i = y ∧ ∀ j, j ≠ i → (drawRnd g mode i).2.cur j = g.cur j))

/-- 08 R156-R162, R169-R171: moves between files, broadcasts, lanes, permutations, conversions, masks, tiles and formats: the one
result each asks for, and when it is due; the lanes that perm, shuf, cvt, pack and unpack deliver from what they captured; and the rounding to integer types (05 R94-R96). -/
def Obligations.VectorMoveAsks : Prop :=
  (∀ (s : State) (h : Head) (e : Ext), let k := s.core s.cur; let v := s.operand h; let d := physV k.regs.rotb e.d.toNat;
  (Accepts s h 0x244 (some e) → ∃ t, exec (.vmMov h e) s = .next t ∧ Asks s t s.cur 2
    (if movDir v = 0 then .vrow d (k.vreg e.a.toNat) (k.laneSel e)
     else if movDir v = 1 then .vrow d (sget 0 k.regs.m (movRow v)) (k.laneSel e)
     else .mrow (movRow v) (k.vreg e.a.toNat) (k.laneSel e))) ∧
  (Accepts s h 0x245 (some e) → ∃ t, exec (.vmBcast h e) s = .next t ∧ Asks s t s.cur 2
    (.vrow d (rowOf (k.extTy e).cont (List.replicate (k.extTy e).lanes (v.toNat % 2 ^ (k.extTy e).cont))) (k.laneSel e))) ∧
  (Accepts s h 0x246 (some e) → ∃ t, exec (.vmLane h e) s = .next t ∧
    (v.getLsbD 11 = false → Asks s t s.cur 2
      (.out (outPort 5 0) (laneWord (k.extTy e) (laneOf (k.vreg e.a.toNat) (k.extTy e).cont (bits v 10 0))))) ∧
    (v.getLsbD 11 = true → Asks s t s.cur 2 (.vrow d
      (BitVec.ofNat 8192 ((k.inp 5 1).toNat % 2 ^ (k.extTy e).cont * 2 ^ ((k.extTy e).cont * bits v 10 0)))
      (BitVec.ofNat 8192 ((2 ^ (k.extTy e).cont - 1) * 2 ^ ((k.extTy e).cont * bits v 10 0)))))) ∧
  (Accepts s h 0x247 (some e) → ∃ t, exec (.vmPerm h e) s = .next t ∧ Asks s t s.cur 4
    (.vrow d (vmPermOut (k.extTy e) (k.wide e v) k.gens).row (vmPermOut (k.extTy e) (k.wide e v) k.gens).bits)) ∧
  (Accepts s h 0x248 (some e) → ∃ t, exec (.vmShuf h e) s = .next t ∧ Asks s t s.cur 4
    (.vrow d (vmShufOut (k.extTy e) (k.wide e v) k.gens).row (vmShufOut (k.extTy e) (k.wide e v) k.gens).bits)) ∧
  (Accepts s h 0x249 (some e) → ∃ t, exec (.vmCvt h e) s = .next t ∧
    Asks s t s.cur 4 (.conv .cvt (k.extTy e) (k.ty (bits v 3 0)) (k.wide e v) d)) ∧
  (Accepts s h 0x24A (some e) → ∃ t, exec (.vmPack h e) s = .next t ∧
    Asks s t s.cur 4 (.conv .pack (k.extTy e) (k.ty (bits v 3 0)) (k.wide e v) d)) ∧
  (Accepts s h 0x24B (some e) → ∃ t, exec (.vmUnpack h e) s = .next t ∧
    Asks s t s.cur 4 (.conv .unpack (k.extTy e) (k.ty (bits v 3 0)) (k.wide e v) d)) ∧
  (Accepts s h 0x250 (some e) → ∃ t, exec (.vmMand h e) s = .next t ∧
    Asks s t s.cur 1 (.emask e.d.toNat (k.mask e.a.toNat &&& k.mask e.b.toNat))) ∧
  (Accepts s h 0x251 (some e) → ∃ t, exec (.vmMor h e) s = .next t ∧
    Asks s t s.cur 1 (.emask e.d.toNat (k.mask e.a.toNat ||| k.mask e.b.toNat))) ∧
  (Accepts s h 0x252 (some e) → ∃ t, exec (.vmMnot h e) s = .next t ∧
    Asks s t s.cur 1 (.emask e.d.toNat (~~~(k.mask e.a.toNat)))) ∧
  (Accepts s h 0x253 (some e) → ∃ t, exec (.vmMcount h e) s = .next t ∧
    Asks s t s.cur 2 (.out (outPort 5 0) (BitVec.ofNat 64 (maskCount (k.mask e.a.toNat) (k.extTy e).lanes)))) ∧
  (Accepts s h 0x254 (some e) → ∃ t, exec (.vmLend h e) s = .next t ∧ Asks s t s.cur 1 (.lend (bits v 2 0) true)) ∧
  (Accepts s h 0x255 (some e) → ∃ t, exec (.vmReclaim h e) s = .next t ∧ Asks s t s.cur 1 (.lend (bits v 2 0) false)) ∧
  (Accepts s h 0x256 (some e) → ∃ t, exec (.vmSetfmt h e) s = .next t ∧
    Asks s t s.cur 1 (.freg e.d.toNat (BitVec.ofNat 64 (v.toNat % 2 ^ 32))))) ∧
  (∀ (t : ElTy) (w : WideIn) (g : Gens) (i : Nat), (t.cont = 4 ∨ t.cont = 8 ∨ t.cont = 16 ∨ t.cont = 32) → i < 8192 / t.cont →
    let n := 8192 / t.cont; let a := laneOf w.a t.cont; let b := laneOf w.b t.cont; let k := bits w.sc 15 4;
    laneOf (vmPermOut t w g).row t.cont i = a (b i % n) ∧
    laneOf (vmShufOut t w g).row t.cont i = (match bits w.sc 3 0 with
      | 0 => if i % 2 = 0 then a (i / 2) else b (i / 2)
      | 1 => if i % 2 = 0 then a (n / 2 + i / 2) else b (n / 2 + i / 2)
      | 2 => if i < n / 2 then a (2 * i) else b (2 * (i - n / 2))
      | 3 => if i < n / 2 then a (2 * i + 1) else b (2 * (i - n / 2) + 1)
      | 4 => a (n - 1 - i)
      | 5 => a ((i + k) % n)
      | _ => a k) ∧
    (∀ j, j < t.cont → (vmPermOut t w g).bits.getLsbD (t.cont * i + j) = selLane w.e n i ∧
      (vmShufOut t w g).bits.getLsbD (t.cont * i + j) = selLane w.e n i)) ∧
  (∀ (td ts : ElTy) (w : WideIn) (g : Gens) (j : Nat), (td.cont = 4 ∨ td.cont = 8 ∨ td.cont = 16 ∨ td.cont = 32) →
    (ts.cont = 4 ∨ ts.cont = 8 ∨ ts.cont = 16 ∨ ts.cont = 32) → j < 8192 / td.cont →
    let nd := 8192 / td.cont; let ns := 8192 / ts.cont; let p := bits w.sc 7 5;
    let conv := fun (r : Row) (i : Nat) => (roundTo td (drawRnd g w.mode j).1 (elVal ts (laneOf r ts.cont i))).1 % 2 ^ td.cont;
    let gets := fun (op : ConvOp) (v : Nat) => laneOf (convResult op td ts w g).row td.cont j = v ∧
      ∀ b, b < td.cont → (convResult op td ts w g).bits.getLsbD (td.cont * j + b) = true;
    let keeps := fun (op : ConvOp) => ∀ b, b < td.cont → (convResult op td ts w g).bits.getLsbD (td.cont * j + b) = false;
    (nd = ns → (selLane w.e nd j = true → gets .cvt (conv w.a j)) ∧ (selLane w.e nd j = false → keeps .cvt)) ∧
    (ns < nd → (j / ns = 2 * p → selLane w.e ns (j % ns) = true → gets .pack (conv w.a (j % ns))) ∧
      (j / ns = 2 * p + 1 → selLane w.e ns (j % ns) = true → gets .pack (conv w.b (j % ns))) ∧
      (¬((j / ns = 2 * p ∨ j / ns = 2 * p + 1) ∧ selLane w.e ns (j % ns) = true) → keeps .pack)) ∧
    (nd < ns → (selLane w.e nd j = true → gets .unpack (conv w.a (p * nd + j))) ∧ (selLane w.e nd j = false → keeps .unpack))) ∧
  (∀ (sg : Bool) (n : Nat) (mode : Rnd), (∀ c, elVal (.int sg n) c = Val.ofInt (intVal sg n c)) ∧
    (roundTo (.int sg n) mode .nan).1 = 0 ∧
    (∀ s, (roundTo (.int sg n) mode (.inf s)).1 = ((if s then intMin sg n else intMax sg n) % (2 ^ n : Nat)).toNat) ∧
    (∀ s d e, (roundTo (.int sg n) mode (.fin s 0 d e)).1 = 0) ∧
    ∀ (s : Bool) (num den : Nat) (e : Int), 0 < num → 0 < den →
      let x := num * pow2 e; let d := den * pow2 (-e);
      ∃ k : Nat, (mode = .rne → 2 * x ≤ (2 * k + 1) * d ∧ 2 * k * d ≤ 2 * x + d ∧
          ((2 * x = (2 * k + 1) * d ∨ 2 * k * d = 2 * x + d) → k % 2 = 0)) ∧
        (mode = .rtz → k * d ≤ x ∧ x < (k + 1) * d) ∧ (∀ r, mode = .sto r → k = (x * 2 ^ 16 / d + r) / 2 ^ 16) ∧
        (roundTo (.int sg n) mode (.fin s num den e)).1 =
          (max (intMin sg n) (min (intMax sg n) (if s then -(k : Int) else k)) % (2 ^ n : Nat)).toNat)

/-- 08 R153-R155, R163-R168, 10 R183, 04 R88-R90: rows, lanes and labelled lines to and from scratchpads and the stream buffer. A local load reads at
T and a store performs at its perform point in the scratchpad that the capability and the offset name. The line of a run under a base that is no multiple of 64 is the
model's choice (log entry 164, DESIGN CHOICE), and what an encode holds from T is its reading (33, 34, DEDUCED). -/
def Obligations.VectorMemoryAsks : Prop :=
  (∀ (s : State) (h : Head) (e : Ext), let k := s.core s.cur; let v := s.operand h; let d := physV k.regs.rotb e.d.toNat;
  let p := vmPlace s.cur k v.toNat; let m := k.mask e.mask.toNat; let c := (k.extTy e).cont; let n := 8192 / c; let size := c / 8;
  let picked := (List.range n).filter (fun j => selLane m n j);
  let place := fun (j : Nat) => vmPlace s.cur k (v.toNat + laneOf (k.vreg e.b.toNat) c j * size);
  let pushed := picked.flatMap (fun j => toBytes size (laneOf (k.vreg e.a.toNat) c j));
  (Accepts s h 0x240 (some e) → ∃ t, exec (.vmLd h e) s = .next t ∧
    (vmPeer k = false → Asks s t s.cur 6 (.vrow d (bytesRow (readBytes (s.core p.1).mem.sp p.2 1024)) (k.laneSel e))) ∧
    (vmPeer k = true → Asks s t s.cur 12 (.readRow p.1 p.2 (k.laneSel e) d))) ∧
  (Accepts s h 0x241 (some e) → ∃ t, exec (.vmSt h e) s = .next t ∧ AsksAt s t p.1 (s.after s.cur (if vmPeer k then 16 else 4))
    (.store (StoreW.mk s.cur .vm (rowCells p.2 (k.vreg e.a.toNat) (k.laneSel e)) [] []))) ∧
  (Accepts s h 0x242 (some e) → ∃ t, exec (.vmLdx h e) s = .next t ∧ SameOutsideCores s t ∧
    (laneOwners s.cur k e v = [] → Asks s t s.cur (if vmPeer k then 24 else 10) (.vrow d 0 0)) ∧
    (laneOwners s.cur k e v ≠ [] → (t.core s.cur).pend = k.pend ++ (laneOwners s.cur k e v).mapIdx (fun i o =>
      let l := ldxAddrsOf s.cur k e v o;
      Pend.mk (s.after s.cur (if vmPeer k then 12 else 10)) s.tick (k.seq + i) (if vmPeer k then .readIdx o l size d
        else .vrow d (gatherRow (s.core o).mem.sp l size).1 (gatherRow (s.core o).mem.sp l size).2)))) ∧
  (Accepts s h 0x243 (some e) → ∃ t, exec (.vmStx h e) s = .next t ∧ SameOutsideCores s t ∧
    (∀ o, o ∈ laneOwners s.cur k e v → AsksAt s t o (s.after s.cur (if vmPeer k then 20 else 8))
      (.store (StoreW.mk s.cur .vm ((picked.reverse.filter (fun j => (place j).1 == o)).flatMap (fun j => (List.range size).map
        (fun q => ((place j).2 + q, BitVec.ofNat 8 (laneOf (k.vreg e.a.toNat) c j / 256 ^ q), BitVec.allOnes 8)))) [] []))) ∧
    (∀ o, o ∉ laneOwners s.cur k e v → (t.core o).pend = (s.core o).pend)) ∧
  ((laneOwners s.cur k e v).Nodup ∧ (∀ o, o ∈ laneOwners s.cur k e v ↔ ∃ j, j ∈ picked ∧ (place j).1 = o) ∧
    ∀ o j, j < n → (ldxAddrsOf s.cur k e v o)[j]? = some (if selLane m n j = true ∧ (place j).1 = o then some (place j).2 else none)) ∧
  (∀ (sp : Store Byte) (l : List (Option Nat)) (z i : Nat), (z = 2 ∨ z = 4) → l.length = 1024 / z → i < 1024 / z →
    (∀ a, l[i]? = some (some a) → laneOf (gatherRow sp l z).1 (8 * z) i = readNat sp a z) ∧
    ∀ b, b < 8 * z → (gatherRow sp l z).2.getLsbD (8 * z * i + b) = (l.getD i none).isSome) ∧
  (Accepts s h 0x24C (some e) → ∃ t, exec (.vmDecode h e) s = .next t ∧
    (vmPeer k = false → Asks s t s.cur 6 (.decoded (k.extTy e)
      (decodeVals (s.core p.1).mem.sp (decodeLines s s.cur k e v.toNat).1 (decodeLines s s.cur k e v.toNat).2
        (maskLanes (k.mask e.mask.toNat) (k.extTy e).lanes)) (k.rnd e) d)) ∧
    (vmPeer k = true → Asks s t s.cur 12 (.readDec p.1 (decodeLines s s.cur k e v.toNat).2
      (decodeLines s s.cur k e v.toNat).1 (k.extTy e) (maskLanes (k.mask e.mask.toNat) (k.extTy e).lanes) (k.rnd e) d))) ∧
  (let fsel := bits (k.inp 5 1) 23 20; let dl := decodeLines s s.cur k e v.toNat;
    let label := (sget 0 (s.core p.1).mem.labels (p.2 / 64)).toNat;
    dl.1 = fmtOf (if fsel = 0 then s.fmtEntry s.cur (label % 256) else (k.freg (fsel - 8)).toNat) ∧
    dl.2.length = (k.extTy e).lanes * dl.1.cont / 512 ∧
    ∀ i, i < dl.2.length → dl.2[i]? = some (if fsel = 0 then s.lineMeta p.1 (p.2 + 64 * i)
      else LineMeta.mk (p.2 + 64 * i) 0 Val.one none e8m0 0)) ∧
  (Accepts s h 0x24D (some e) → ∃ t, exec (.vmEncode h e) s = .next t ∧
    AsksAt s t p.1 (s.after s.cur (if vmPeer k then 18 else 6)) (.encode (encodeJob s s.cur k e v))) ∧
  (let w := k.inp 5 1; let raw := bits w 23 20 ≠ 0; let j := encodeJob s s.cur k e v;
    let entry := s.fmtEntry s.cur (bits w 7 0); let cover := (s.core p.1).csr.scalemap;
    j.issuer = s.cur ∧ j.ty = k.extTy e ∧ j.a = k.vreg e.a.toNat ∧ j.b = k.vreg e.b.toNat ∧ j.mode = k.rnd e ∧ j.off = p.2 ∧
    j.lscale = bits w 15 8 ∧ j.smode = bits w 19 18 ∧
    (raw → j.fmt = fmtOf (k.freg (bits w 23 20 - 8)).toNat ∧ j.fidx = 0 ∧ j.grain = 0 ∧ j.slots = none) ∧
    (¬raw → j.fmt = fmtOf entry ∧ j.fidx = bits w 7 0 ∧ j.grain = [0, 8, 16, 32].getD (entry / 2 ^ 19 % 4) 0 ∧
      (j.grain = 0 → j.slots = none) ∧
      (j.grain ≠ 0 → 0 < (k.extTy e).lanes * j.fmt.cont / 512 → j.slots = scaleSlot cover p.2))) ∧
  (Accepts s h 0x24E (some e) → ∃ t, exec (.vmPush h e) s = .next t ∧ SameOutsideCores s t ∧ SameCoresBut s.cur s t ∧
    (t.core s.cur).pend = k.pend ++
      (if pushed = [] then [] else [Pend.mk (s.after s.cur 6) s.tick k.seq (.store (StoreW.mk s.cur .push
        ((List.range pushed.length).map (fun i => (k.sbuf.base + (k.sbuf.head + k.sbuf.fill + i) % k.sbuf.len, pushed.getD i 0,
          BitVec.allOnes 8))) [] []))]) ++
      [Pend.mk (s.after s.cur 1) s.tick (if pushed = [] then k.seq else k.seq + 1) (.ring k.sbuf.head (k.sbuf.fill + pushed.length))]) ∧
  (Accepts s h 0x24F (some e) → ∃ t row, exec (.vmPop h e) s = .next t ∧ SameOutsideCores s t ∧ SameCoresBut s.cur s t ∧
    (t.core s.cur).pend = k.pend ++ [Pend.mk (s.after s.cur 6) s.tick k.seq (.vrow d row (k.laneSel e)),
      Pend.mk (s.after s.cur 1) s.tick (k.seq + 1) (.ring (if k.sbuf.len = 0 then k.sbuf.head
        else (k.sbuf.head + picked.length * size) % k.sbuf.len) (k.sbuf.fill - picked.length * size))] ∧
    ∀ i, i < picked.length → laneOf row c (picked.getD i 0) = ofBytes ((List.range size).map (fun q =>
      k.popByte s.cur (k.sbuf.base + (k.sbuf.head + size * i + q) % k.sbuf.len)))) ∧
  (∀ a, let old := fun (p : Pend) => match p.act with
      | .store w => if w.kind == .push && w.issuer == s.cur then w.byteAt a else none
      | _ => none;
    ((∀ p, p ∈ k.pend → old p = none) → k.popByte s.cur a = readByte k.mem.sp a) ∧
    (∀ l p r x, k.pend = l ++ p :: r → old p = some x → (∀ q, q ∈ r → old q = none) → k.popByte s.cur a = x.1))) ∧
  (∀ (s : State) (o off : Nat), let label := (sget 0 (s.core o).mem.labels (off / 64)).toNat; let entry := s.fmtEntry o (label % 256);
  let m := s.lineMeta o off;
  (label % 256 = 0 → m = LineMeta.mk off 0 Val.one none e8m0 0) ∧
  (label % 256 ≠ 0 → m.off = off ∧ m.desc = entry ∧ m.ls = (fmtVal e8m0 (label / 256)).norm ∧
    m.grain = [0, 8, 16, 32].getD (entry / 2 ^ 19 % 4) 0 ∧
    m.slot = (if m.grain = 0 then none else scaleSlot (s.core o).csr.scalemap off))) ∧
  (∀ (v : Word) (off : Nat), let a := 64 * bits v 14 0; let c := bits v 30 16; let l := bits v 47 32;
  scaleSlot v off = if 64 * c ≤ off ∧ off < 64 * (c + l) ∧ 64 * (c + l) ≤ 2 ^ 21 ∧ a + 16 * l ≤ 2 ^ 21 ∧
    (a + 16 * l ≤ 64 * c ∨ 64 * (c + l) ≤ a) then some (a + 16 * (off / 64 - c)) else none) ∧
  (∀ (sp : Store Byte) (m : LineMeta) (f : Fmt) (j : Nat), f.cont = 4 ∨ f.cont = 8 →
  let x := lineElem sp m (.flt f) j; let byte := fun (a : Nat) => (readByte sp a).toNat;
  x.v = elVal (.flt f) (if f.cont = 8 then byte (m.off + j) else byte (m.off + j / 2) / 16 ^ (j % 2) % 16) ∧
  (m.desc = 0 → x.bs = Val.one ∧ x.ls = Val.one) ∧
  (m.desc ≠ 0 → x.ls = m.ls ∧ (m.slot = none → x.bs = Val.one) ∧
    ∀ a, m.slot = some a → x.bs = (fmtVal m.sfmt (byte (a + j / m.grain))).norm)) ∧
  (∀ (sp : Store Byte) (f : Fmt) (lines : List LineMeta) (sel : List Bool) (td : ElTy) (mode i : Nat) (g : Gens),
  (td.cont = 4 ∨ td.cont = 8 ∨ td.cont = 16 ∨ td.cont = 32) → sel.length = 8192 / td.cont → i < sel.length →
  let o := convOut td (decodeVals sp f lines sel) mode g; let per := 512 / f.cont;
  (sel[i]? = some false → ∀ b, b < td.cont → o.bits.getLsbD (td.cont * i + b) = false) ∧
  (∀ m, sel[i]? = some true → lines[i / per]? = some m → let x := lineElem sp m (.flt f) (i % per); let l := [x.v, x.bs, x.ls];
    laneOf o.row td.cont i = (roundTo td (drawRnd g mode i).1
      (if l.any Val.isZero && l.any Val.isInf then .nan else (Val.mul (Val.mul x.v x.bs).1 x.ls).1)).1 % 2 ^ td.cont ∧
    ∀ b, b < td.cont → o.bits.getLsbD (td.cont * i + b) = true)) ∧
  (∀ (j : EncJob) (g : Gens) (i : Nat), (j.ty.cont = 4 ∨ j.ty.cont = 8 ∨ j.ty.cont = 16 ∨ j.ty.cont = 32) →
  (j.fmt.cont = 4 ∨ j.fmt.cont = 8) → (j.grain = 0 ∨ j.grain = 8 ∨ j.grain = 16 ∨ j.grain = 32) → i < 8192 / j.ty.cont →
  let o := encodeOut j g; let line := 512 / j.fmt.cont; let per := if j.grain = 0 then line else j.grain; let q := i / per;
  let x := fun (n : Nat) => elVal j.ty (laneOf j.a j.ty.cont n); let ls := if j.fidx = 0 then Val.one else fmtVal e8m0 j.lscale;
  let bs := if j.grain = 0 then Val.one else fmtVal j.sfmt (o.scales.getD q 0);
  o.codes.length = 8192 / j.ty.cont ∧
  o.codes.getD i 0 = (if bs.isNan || bs.isInf || bs.isZero || ls.isNan then fmtNanCode j.fmt
    else (roundTo (.flt j.fmt) (drawRnd g j.mode i).1 ((x i).divFin (Val.mul bs ls).1)).1) ∧
  (j.grain ≠ 0 → o.scales.getD q 0 = (match j.smode with
    | 0 => laneOf j.b 8 (16 * (per * q / line) + per * q % line / per)
    | 1 => maxScale j.fmt ls ((List.range per).map (fun r => x (per * q + r)))
    | _ => (oneCode j.sfmt).getD 0))) ∧
  (∀ (f : Fmt) (ls : Val) (xs : List Val), let top := (Val.mul (fmtVal f (fmtMaxMag f)) ls).1;
  (ls.isNan = true → maxScale f ls xs = 0x7F) ∧
  (∀ sa sm ad mn md (ae me : Int), maxAbs xs = .fin sa 0 ad ae → top = .fin sm mn md me → maxScale f ls xs = 0x7F) ∧
  (∀ sa sm an ad mn md (ae me : Int), ls.isNan = false → maxAbs xs = .fin sa an ad ae → top = .fin sm mn md me →
    0 < an → 0 < ad → 0 < mn → 0 < md → ∃ z : Int, maxScale f ls xs = (127 + max (-127) (min 127 z)).toNat ∧
      an * md * pow2 (ae - me - z) ≤ ad * mn * pow2 (z - (ae - me)) ∧
      ad * mn * pow2 (z - 1 - (ae - me)) < an * md * pow2 (ae - me - (z - 1))) ∧
  ((∀ x, x ∈ xs → x.isNan = true ∨ x.isInf = true) → maxAbs xs = Val.zero) ∧
  (∀ s n d (e : Int), Val.fin s n d e ∈ xs → (∀ s n d (e : Int), Val.fin s n d e ∈ xs → 0 < d) →
    (maxAbs xs).lt (.fin false n d e) = false)) ∧
  (∀ (j : EncJob) (o : EncOut), let w := encodeStore j o; let len := o.codes.length * j.fmt.cont / 8; let code := fun i => o.codes.getD i 0;
  (j.fmt.cont = 4 ∨ j.fmt.cont = 8) → (∀ x, x ∈ o.codes → x < 2 ^ j.fmt.cont) → o.codes.length % 2 = 0 →
  w.issuer = j.issuer ∧ w.tagSet = [] ∧
  w.labels = (List.range (len / 64)).map (fun i => (j.off / 64 + i, BitVec.ofNat 16 (256 * j.lscale + j.fidx))) ∧
  (∀ b, b < len → w.cells[b]? = some (j.off + b,
    BitVec.ofNat 8 (if j.fmt.cont = 8 then code b else code (2 * b) + 16 * code (2 * b + 1)), BitVec.allOnes 8)) ∧
  (j.slots = none → w.cells.length = len) ∧
  (∀ a, j.slots = some a → 0 < j.grain → let m := 512 / j.fmt.cont / j.grain;
    w.cells.length = len + 16 * (len / 64) ∧
    ∀ l r, l < len / 64 → r < 16 → w.cells[len + 16 * l + r]? = some (a + 16 * l + r,
      (if r < m then BitVec.ofNat 8 (o.scales.getD (l * m + r) 0) else 0), BitVec.allOnes 8))) ∧
  (∀ (s : State) (c : Nat) (p : Pend), let u := performRead s c p; 
  let later := fun (n : Nat) (a : Act) => (SameOutsideCores s u ∧ SameCoresBut c s u ∧
    u.core c = { s.core c with pend := (s.core c).pend ++ [Pend.mk (p.due + n * s.pace c) p.issue p.seq a] });
  (∀ o a sel d, p.act = .readRow o a sel d → later 8 (.vrow d (bytesRow (readBytes (s.core o).mem.sp a 1024)) sel)) ∧
  (∀ o l z d, p.act = .readIdx o l z d →
    later 12 (.vrow d (gatherRow (s.core o).mem.sp l z).1 (gatherRow (s.core o).mem.sp l z).2)) ∧
  (∀ o lines f td sel mode d, p.act = .readDec o lines f td sel mode d →
    later 8 (.decoded td (decodeVals (s.core o).mem.sp f lines sel) mode d)))

/-- 06 R117, R121, R124-R127: cask loads and passes take their resources for the times of R117 and schedule their reads; zero, mode, fmt and
busy act as R126 and R127 say. What a column read leaves in its cask, the row that a pass reads and delivers, and the sums and accumulator modes of 05 R104 and R105. The lines of
a run under a capability whose base is no multiple of 64 are the model's choice (log entry 150, DESIGN CHOICE). -/
def Obligations.PressAsks : Prop :=
  (∀ (s : State) (h : Head), let k := s.core s.cur; let v := s.operand h; let w := k.press.fa.sig; let fb := k.press.fb;
  let per := if fb.is16 then 1 else 2;
  let run := fun (r n width : Nat) => (List.range (lineBytes n width / 64)).map (fun l =>
    s.lineMeta s.cur ((prCap k).base + ((k.inp 7 1).toNat + r * (k.inp 7 2).toNat) + 64 * l));
  let job := fun (zeroFirst : Bool) (r : Nat) =>
    { tile := mmT v, cask := mmQ v, kc := mmKc v, fa := k.press.fa, fb := fb, mode := k.press.mode, zeroFirst := zeroFirst, row := r
      sel := (maskLanes (k.mask (mmMask v)) 256).take (if fb.is16 then 128 else 256)
      lines := run r (mmKc v) k.press.fa.ty.cont, due := s.after s.cur (18 + w * (r + 1)) : PassJob };
  (Accepts s h 0x2C0 none → ∃ t, exec (.prCask h) s = .next t ∧ SameOutsideCores s t ∧ SameHeld k (t.core s.cur) ∧ SameCoresBut s.cur s t ∧
    TakesBusy s t s.cur (rsLoad (caskQ v)) 136 ∧
    (t.core s.cur).pend = k.pend ++ (List.range ((caskNc v + per - 1) / per)).map (fun i =>
      Pend.mk (s.after s.cur (4 + i)) s.tick (k.seq + i) (.readCols
        ((((List.range per).map (fun j => per * i + j)).filter (fun j => j < caskNc v)).map (fun j =>
          ColJob.mk (caskQ v) j (caskKc v) fb (run j (caskKc v) fb.ty.cont)))))) ∧
  (Accepts s h 0x2C1 none → ∃ t, exec (.prMm h) s = .next t ∧ SameOutsideCores s t ∧ SameHeld k (t.core s.cur) ∧ SameCoresBut s.cur s t ∧
    (t.core s.cur).latch.busy = k.latch.busy ++ [(rsTile (mmT v), s.after s.cur (18 + w * mmRows v)),
      (rsUse (mmQ v), s.after s.cur (8 + w * mmRows v)), (rsApath, s.after s.cur (w * mmRows v))] ∧
    (t.core s.cur).pend = k.pend ++ (List.range (mmRows v)).map (fun r => Pend.mk (s.after s.cur (8 + w * r)) s.tick (k.seq + r)
      (.readPass (job false r)))) ∧
  (Accepts s h 0x2C2 none → ∃ t, exec (.prMmz h) s = .next t ∧ SameOutsideCores s t ∧ SameHeld k (t.core s.cur) ∧ SameCoresBut s.cur s t ∧
    (t.core s.cur).latch.busy = k.latch.busy ++ [(rsTile (mmT v), s.after s.cur (18 + w * mmRows v)),
      (rsUse (mmQ v), s.after s.cur (8 + w * mmRows v)), (rsApath, s.after s.cur (w * mmRows v))] ∧
    (t.core s.cur).pend = k.pend ++ (List.range (mmRows v)).map (fun r => Pend.mk (s.after s.cur (8 + w * r)) s.tick (k.seq + r)
      (.readPass (job true r)))) ∧
  (Accepts s h 0x2C3 none → ∃ t, exec (.prZero h) s = .next t ∧ Asks s t s.cur 8 (.zeroTile (bits v 2 0)) ∧
    TakesBusy s t s.cur (rsTile (bits v 2 0)) 8) ∧
  (Accepts s h 0x2C4 none → exec (.prMode h) s = .next (s.willDo 1 (.pmode (v.toNat % 8)))) ∧
  (Accepts s h 0x2C5 none → exec (.prFmt h) s = .next (s.willDo 1 (.pfmt (selFmt k (v.toNat % 16)) (selFmt k (v.toNat / 16 % 16))))) ∧
  (Accepts s h 0x2C6 none → exec (.prBusy h) s = .next (s.willDo 1 (.busyWord (busyAsked s s.cur))))) ∧
  (∀ (k : Core) (tick n : Nat), n < 64 → (busyBits k tick).getLsbD n = (if n < 8 then decide (tick < sget 0 k.busy n)
  else if 16 ≤ n ∧ n ≤ 24 then decide (tick < sget 0 k.busy (n - 8)) else false)) ∧
  (∀ (s : State) (c n : Nat), n < 64 → (busyAsked s c).getLsbD n = ((busyBits (s.core c) s.tick).getLsbD n ||
  (decide (8 ≤ n ∧ n < 16) && (s.core c).press.lent.getLsbD (n - 8)))) ∧
  (∀ (s : State) (c : Nat) (p : Pend) (w : Word), (s.core c).dueActs s.tick (fun r => r < 8) = [p] → p.act = .busyWord w →
  ∃ t, exec (.resultDelivery c) s = .next t ∧ SameOutsideCores s t ∧ SameCoresBut c s t ∧
    sget 0 (t.core c).regs.out (outPort 7 0) = w ||| busyBits (s.core c) p.issue) ∧
  (∀ (sp : Store Byte) (lines : List LineMeta) (t : ElTy) (i : Nat) (m : LineMeta), lines[i / (512 / t.cont)]? = some m →
  runElem sp lines t i = lineElem sp m t (i % (512 / t.cont))) ∧
  (∀ (k : Core) (j : ColJob), j.kc ≤ 256 → j.col < (if j.fb.is16 then 128 else 256) →
  let u := loadColumn k j; let wide := j.fb.is16; let at_ := fun (i : Nat) => 65536 * j.cask + 256 * i + (if wide then 2 else 1) * j.col;
  let code := fun (i : Nat) => runCode k.mem.sp j.lines j.fb.ty i; let el := fun (o : Nat) => runElem k.mem.sp j.lines j.fb.ty (8 * o);
  u = { k with press := { k.press with codes := u.press.codes, bsc := u.press.bsc, lsc := u.press.lsc } } ∧
  (∀ i, i < j.kc → readByte u.press.codes (at_ i) = BitVec.ofNat 8 (code i) ∧
    (wide = true → readByte u.press.codes (at_ i + 1) = BitVec.ofNat 8 (code i / 256))) ∧
  (∀ a, (∀ i, i < j.kc → a ≠ at_ i ∧ (wide = true → a ≠ at_ i + 1)) → readByte u.press.codes a = readByte k.press.codes a) ∧
  (∀ o, o < j.kc / 8 → (wide = false →
      sget Val.one u.press.bsc (8192 * j.cask + 32 * j.col + o) = (el o).bs.norm ∧
      sget Val.one u.press.lsc (8192 * j.cask + 32 * j.col + o) = (el o).ls.norm) ∧
    (wide = true → ∀ b, b < 2 → sget Val.one u.press.bsc (8192 * j.cask + 32 * (2 * j.col + b) + o) = Val.one ∧
      sget Val.one u.press.lsc (8192 * j.cask + 32 * (2 * j.col + b) + o) = Val.one))) ∧
  (∀ (s : State) (c : Nat) (p : Pend) (j : PassJob), p.act = .readPass j → let k := s.core c; let u := performRead s c p;
  SameOutsideCores s u ∧ SameCoresBut c s u ∧ u.core c = { k with
    pend := k.pend ++ [Pend.mk j.due p.issue p.seq (.accRow (32 * j.tile + j.row) (passRow k j).1 (passRow k j).2)] }) ∧
  (∀ (k : Core) (j : PassJob) (n : Nat), n < 256 →
  let old := laneOf (sget 0 k.regs.m (32 * j.tile + j.row)) 32 n;
  let group := fun (el : Nat → Scaled) (g : Nat) => (List.range (min 32 (j.kc - 32 * g))).map (fun i => el (32 * g + i));
  laneOf (passRow k j).1 32 n = (if j.sel.getD n false then
    (List.range ((j.kc + 31) / 32)).foldl (fun acc g => (accumulate j.mode acc (groupSum
      (group (fun i => runElem k.mem.sp j.lines j.fa.ty i) g)
      (group (fun i => caskElem k.press j.cask j.fb i n) g)).1).1) (if j.zeroFirst then 0 else old) else old)) ∧
  (∀ (p : Press) (q : Nat) (f : PFmt) (i n : Nat), let byte := fun (x : Nat) => (readByte p.codes (65536 * q + 256 * i + x)).toNat;
  caskElem p q f i n = Scaled.mk (elVal f.ty ((if f.is16 then byte (2 * n) + 256 * byte (2 * n + 1) else byte n) % 2 ^ f.ty.cont))
    (if f.isFs then sget Val.one p.bsc (8192 * q + 32 * n + i / 8) else Val.one)
    (if f.isFs then sget Val.one p.lsc (8192 * q + 32 * n + i / 8) else Val.one)) ∧
  (∀ (as bs : List Scaled), (groupSum as bs).1 = (Val.sum ((as.zip bs).map (fun x =>
    let l := [x.1.v, x.2.v, x.1.bs, x.1.ls, x.2.bs, x.2.ls];
    if l.any Val.isZero && l.any Val.isInf then .nan
      else (Val.mul (Val.mul (Val.mul (Val.mul (Val.mul x.1.v x.2.v).1 x.1.bs).1 x.1.ls).1 x.2.bs).1 x.2.ls).1))).1) ∧
  (∀ (acc : Nat) (x : Val), let plus := fun (f : Fmt) (g : Nat) => (roundFmt f .rne (Val.sum [fmtVal fp32 acc, fmtVal f g]).1).1;
  let sat := fun (f : Fmt) (c : Nat) => if fmtIsInf f c then (if bitOf c (f.w - 1) then 2 ^ (f.w - 1) else 0) + fmtMaxMag f else c;
  (accumulate 0 acc x).1 = plus fp32 (roundFmt fp32 .rne x).1 ∧
  (∀ f, f = bf16 ∨ f = fp16 → (accumulate (if f = bf16 then 1 else 2) acc x).1 =
    (roundFmt fp32 .rne (fmtVal f (sat f (plus f (sat f (roundFmt f .rne x).1))))).1) ∧
  (∀ z : Int, x.frac.1 = z * x.frac.2 → 0 < x.frac.2 →
    (accumulate 3 acc x).1 = ((sextOf acc 32 + z) % (2 ^ 32 : Nat)).toNat ∧
    (accumulate 4 acc x).1 = (max (-(2 ^ 31 : Nat) : Int) (min ((2 ^ 31 : Nat) - 1) (sextOf acc 32 + z)) % (2 ^ 32 : Nat)).toNat))

/-- 11 R201-R204, 10 R183, R185, 17 R327, R332-R336, R339: the ls operations, on the place that the capability named by i0 and the trigger operand give. A local load reads at
T through the forwarding table and delivers at T+6, one through space 1 reads at T+12 and delivers at T+20; a store performs at T+4, or T+16 through space 1, in the
scratchpad of the core that owns the place; a capability operation writes cd, or o0, at T+1. -/
def Obligations.LoadStoreAsks : Prop :=
  (∀ (s : State) (h : Head), let k := s.core s.cur; let v := s.operand h; let p := lsPlace s.cur k v;
  let cs := k.capReg (bits (k.inp 3 0) 3 0);
  let load := fun (code : Nat) (i : Instr) (l : LsLoad) => (Accepts s h code none →
    (lsPeer k = false → exec i s = .next (s.willDo 6 (loadResult s s.cur p.1 p.2 s.tick l))) ∧
    (lsPeer k = true → exec i s = .next (s.willDo 12 (.readLs p.1 p.2 l))));
  let store := fun (code : Nat) (i : Instr) (w : StoreW) => (Accepts s h code none →
    exec i s = .next (s.scheduleAt p.1 (s.after s.cur (if lsPeer k then 16 else 4)) (.store w)));
  let bytes := fun (n : Nat) => StoreW.mk s.cur .ls (bytesCells p.2 n (k.inp 3 1).toNat) [] [];
  load 0x1C0 (.lsLd8 h) (.data 1 true) ∧ load 0x1C1 (.lsLd8z h) (.data 1 false) ∧
  load 0x1C2 (.lsLd16 h) (.data 2 true) ∧ load 0x1C3 (.lsLd16z h) (.data 2 false) ∧
  load 0x1C4 (.lsLd32 h) (.data 4 true) ∧ load 0x1C5 (.lsLd32z h) (.data 4 false) ∧
  load 0x1C6 (.lsLd64 h) (.data 8 false) ∧ load 0x1CB (.lsLdlab h) .label ∧
  load 0x1CD (.lsLdcap h) (.cap (bits (k.inp 3 2) 3 0)) ∧
  store 0x1C7 (.lsSt8 h) (bytes 1) ∧ store 0x1C8 (.lsSt16 h) (bytes 2) ∧ store 0x1C9 (.lsSt32 h) (bytes 4) ∧
  store 0x1CA (.lsSt64 h) (bytes 8) ∧
  store 0x1CC (.lsStlab h) (StoreW.mk s.cur .ls [] [(p.2 / 64, (k.inp 3 1).setWidth 16)] []) ∧
  store 0x1CE (.lsStcap h) (StoreW.mk s.cur .ls (bytesCells p.2 16 (k.capReg (bits (k.inp 3 1) 3 0)).bits.toNat) []
    (if (k.capReg (bits (k.inp 3 1) 3 0)).tag then [p.2 / 16] else [])) ∧
  (Accepts s h 0x1CF none → exec (.lsCbound h) s = .next (s.willDo 1 (.cap (bits (k.inp 3 2) 3 0) (cboundOf s s.cur cs v)))) ∧
  (Accepts s h 0x1D0 none → ∃ t, exec (.lsCmove h) s = .next t ∧ SameOutsideCores s t ∧ SameHeld k (t.core s.cur) ∧
    ∃ q rest, (t.core s.cur).pend = k.pend ++ q :: rest ∧ q.due = s.after s.cur 1 ∧
      q.act = .cap (bits (k.inp 3 2) 3 0) (cs.withFields cs.perm (v.toNat % 8) cs.length cs.base) ∧
      (bits (k.inp 3 2) 3 0 = bits (k.inp 3 0) 3 0 → rest = []) ∧
      (bits (k.inp 3 2) 3 0 ≠ bits (k.inp 3 0) 3 0 → ∃ r, rest = [r] ∧ r.due = q.due ∧ r.act = .untag (bits (k.inp 3 0) 3 0))) ∧
  (Accepts s h 0x1D1 none → exec (.lsCperm h) s = .next (s.willDo 1 (.cap (bits (k.inp 3 2) 3 0)
    (cs.withFields (cs.perm &&& bits v 7 0) cs.holder cs.length cs.base)))) ∧
  (Accepts s h 0x1D2 none → exec (.lsCbase h) s = .next (s.willOut 3 0 1 (BitVec.ofNat 64 cs.base))) ∧
  (Accepts s h 0x1D3 none → exec (.lsClen h) s = .next (s.willOut 3 0 1 (BitVec.ofNat 64 cs.length))) ∧
  (Accepts s h 0x1D4 none → exec (.lsCinfo h) s = .next (s.willOut 3 0 1 (BitVec.ofNat 64
    (cs.space * 2 ^ 20 + cs.perm * 2 ^ 12 + cs.holder * 2 ^ 8 + cs.kind * 2 ^ 4 + b2n cs.tag)))) ∧
  (Accepts s h 0x1D5 none → exec (.lsCcopy h) s = .next (s.willDo 1 (.cap (bits (k.inp 3 2) 3 0) cs))) ∧
  (Accepts s h 0x1D6 none → exec (.lsCclear h) s = .next (s.willDo 1 (.cap (bits (k.inp 3 2) 3 0) Cap.null))) ∧
  (Accepts s h 0x1D7 none → let g := handRange s.cur cs; let o := s.core g.1; let n := bits v 2 0;
    let taken := fun (t : State) (i : Nat) (e : HandEnt) => (t.core g.1).handEnt i = e ∧
      (∀ j, j ≠ i → (t.core g.1).handEnt j = o.handEnt j) ∧ Asks s t s.cur 2 (.handDone g.1 i n);
    ∃ t, exec (.lsHand h) s = .next t ∧ SameOutsideCores s t ∧
    (∀ d, (t.core d).regs = (s.core d).regs ∧ (t.core d).mem = (s.core d).mem ∧ (d ≠ g.1 → (t.core d).hand = (s.core d).hand)) ∧
    (n = s.cur % 8 → t = s) ∧
    (∀ i, n ≠ s.cur % 8 → o.handEqual g.2.1 g.2.2 = some i → taken t i { o.handEnt i with transit := true }) ∧
    (n ≠ s.cur % 8 → o.handEqual g.2.1 g.2.2 = none → g.1 = s.cur ∧ o.handOverlap g.2.1 g.2.2 = false ∧
      ∃ i, o.handFree = some i ∧ taken t i (HandEnt.mk false true g.2.1 g.2.2 (s.cur % 8)))) ∧
  (∀ o i n, ((s.core o).handEnt i).transit = true → ((handDone s o i n).core o).handEnt i =
    (if n = o % 8 then HandEnt.free else { (s.core o).handEnt i with holder := n, valid := true, transit := false }))) ∧
  (∀ (s : State) (c owner addr before a : Nat), let o := s.core owner; let fs := o.forwards c before;
  let mine := fun (p : Pend) => match p.act with
    | .store w => if w.issuer == c && w.kind == .ls && decide (p.issue < before) then some w else none
    | _ => none;
  let last := fun {α : Type} (find : StoreW → Option α) (mem got : α) =>
    (((∀ p w, p ∈ o.pend → mine p = some w → find w = none) → got = mem) ∧
      ∀ l p r w x, o.pend = l ++ p :: r → mine p = some w → find w = some x →
        (∀ q z, q ∈ r → mine q = some z → find z = none) → got = x);
  last (fun w => (w.byteAt a).map Prod.fst) (readByte o.mem.sp a) (o.fwdByte fs a) ∧
  last (fun w => (w.labels.find? (fun p => p.1 == a)).map Prod.snd) (sget 0 o.mem.labels a) (o.fwdLabel fs a) ∧
  last (fun w => if w.touches a then some (w.tagSet.contains a) else none) (sget false o.mem.tags a) (o.fwdTag fs a) ∧
  (let val := fun (n : Nat) => ((List.range n).map (fun i => (o.fwdByte fs (addr + i)).toNat * 256 ^ i)).sum;
    (∀ n, (n = 1 ∨ n = 2 ∨ n = 4 ∨ n = 8) →
      loadResult s c owner addr before (.data n false) = .out (outPort 3 0) (BitVec.ofNat 64 (val n)) ∧
      loadResult s c owner addr before (.data n true) = .out (outPort 3 0)
        (BitVec.ofInt 64 (if val n < 256 ^ n / 2 then (val n : Int) else (val n : Int) - (256 ^ n : Nat)))) ∧
    loadResult s c owner addr before .label = .out (outPort 3 0) (BitVec.ofNat 64 (o.fwdLabel fs (addr / 64)).toNat) ∧
    ∀ cd, loadResult s c owner addr before (.cap cd) =
      .cap cd (Cap.mk (BitVec.ofNat 128 (val 16)) (o.fwdTag fs (addr / 16))))) ∧
  (∀ (w : StoreW) (g : Nat), w.touches g = true ↔ ((∃ x, x ∈ w.cells ∧ x.1 / 16 = g) ∨ ∃ x, x ∈ w.labels ∧ x.1 = g / 4)) ∧
  (∀ (s : State) (c : Nat) (p : Pend) (o a : Nat) (l : LsLoad), (s.core c).dueActs s.tick (fun r => r == 9) = [p] →
  p.act = .readLs o a l → ∃ t, exec (.timedAccessPerform c true) s = .next t ∧ SameOutsideCores s t ∧ SameCoresBut c s t ∧
    t.core c = { s.core c with pend := ((s.core c).dropActs s.tick (fun r => r == 9)).pend ++
      [Pend.mk (p.due + 8 * s.pace c) p.issue p.seq (loadResult s c o a p.issue l)] }) ∧
  (∀ (cs : Cap) (perm holder len base : Nat), perm < 2 ^ 8 → holder < 2 ^ 4 → len < 2 ^ 49 →
  let r := cs.withFields perm holder len base;
  r.tag = cs.tag ∧ r.space = cs.space ∧ r.perm = perm ∧ r.holder = holder ∧ r.kind = cs.kind ∧ r.length = len ∧ r.base = base % 2 ^ 48) ∧
  (∀ (s : State) (c : Nat) (cs : Cap) (v : Word), let len := ((s.core c).inp 3 1).toNat; let r := cboundOf s c cs v;
  let root := cs.space = 5 ∧ cs.perm / 64 % 2 = 1; len < 2 ^ 49 →
  r.tag = cs.tag ∧ r.space = cs.space ∧ r.holder = cs.holder ∧ r.kind = cs.kind ∧ r.length = len ∧
  (cs.space ≠ 5 → r.perm = cs.perm ∧ r.base = (cs.base + v.toNat) % 2 ^ 48) ∧
  (root → r.perm = cs.perm - 64 ∧ r.base = (cs.base + v.toNat) % 2 ^ 48) ∧
  (cs.space = 5 → ¬root → r.perm = cs.perm ∧ r.base = cs.base))

/-- 15 R290, R291, R293, R297-R301, 14 R281: what each ct operation leaves for the end of its bundle. That LPATIENCE
counts as it stands at the issue of ct.lock is the model's choice (log entry 167, DESIGN CHOICE). -/
def Obligations.ControlAsks : Prop :=
  ∀ (s : State) (h : Head), let k := s.core s.cur; let v := s.operand h; let t0 := k.stream s.motorNow;
  (Accepts s h 0x180 none → ∃ t, exec (.ctBr h) s = .next t ∧ (t.core s.cur).latch.ctl = .xfer
    (if k.inp 2 0 = 0 then Delay.mk 2 0 .fall else Delay.mk 2 ((k.latch.pc : Int) + v.toInt).toNat .jump)) ∧
  (Accepts s h 0x181 none → ∃ t, exec (.ctJmp h) s = .next t ∧ (t.core s.cur).latch.ctl = .xfer (Delay.mk 2 (v.toNat % 2 ^ 14) .jump)) ∧
  (Accepts s h 0x182 none → ∃ t, exec (.ctCall h) s = .next t ∧ (t.core s.cur).latch.ctl = .xfer (Delay.mk 2 (v.toNat % 2 ^ 14) .call)) ∧
  (Accepts s h 0x183 none → ∃ t, exec (.ctRet h) s = .next t ∧ ∃ n, (t.core s.cur).latch.ctl = .xfer (Delay.mk 2 n .ret) ∧
    ∀ f fs, t0.frames = f :: fs → n = f.ret) ∧
  (Accepts s h 0x184 none → ∃ t, exec (.ctLoop h) s = .next t ∧ ∃ l, (t.core s.cur).latch.ctl =
      .loop l (if t0.lcount = 0 then 0 else if bits v 19 17 = 0 then t0.lcount.toNat else t0.lcount.toNat + bits v 19 17 - 1) ∧
    l.pcLoop = k.latch.pc ∧ l.last = v.toNat % 2 ^ 14 ∧ l.count = t0.lcount.toNat ∧ l.idx = 0 ∧ l.stages = bits v 19 17 ∧
    l.rot = v.getLsbD 16) ∧
  (Accepts s h 0x185 none → ∃ t, exec (.ctRot h) s = .next t ∧ (t.core s.cur).latch.rot = true ∧
    (t.core s.cur).latch.ctl = k.latch.ctl) ∧
  (Accepts s h 0x186 none → ∃ t, exec (.ctLock h) s = .next t ∧
    (s.motorNow = false → (t.core s.cur).latch.ctl = .join) ∧
    (s.motorNow = true → ∃ w, (t.core s.cur).latch.ctl = .lock w ∧ w.group = v.toNat % 256 ∧
      w.since = s.after s.cur (k.latch.idle + 1) ∧ w.bundle = k.latch.pc ∧ w.slot = k.latch.slot ∧ w.held = 0 ∧
      w.conds = ((List.range 4).filter (fun i => (k.inp 2 i).getLsbD 31)).map (fun i =>
        Cond.mk (bits (k.inp 2 i) 9 0) (bits (k.inp 2 i) 18 16) (bits (k.inp 2 i) 63 32)) ∧
      (∀ r, s.reach s.cur = some r → r.patience ≠ 0 → w.patience = r.patience) ∧
      ((∀ r, s.reach s.cur = some r → r.patience = 0) → ∀ tt, s.timetable s.cur = some tt →
        (∀ x, tt.group w.group = some x → x.patience ≠ 0 → w.patience = x.patience) ∧
        ((∀ x, tt.group w.group = some x → x.patience = 0) →
          ∀ p, s.part (s.partId s.cur) = some p → w.patience = p.csr.lpatience)))) ∧
  (Accepts s h 0x187 none → ∃ t, exec (.ctEndtask h) s = .next t ∧ (t.core s.cur).latch.ctl = .endtask) ∧
  (Accepts s h 0x188 none → ∃ t, exec (.ctTrap h) s = .next t ∧ (t.core s.cur).latch.ctl = .trap (v.toNat % 2 ^ 16) k.latch.slot) ∧
  (Accepts s h 0x189 none → exec (.ctBrk h) s = .next s)

/-- 15 R301: with DBGCTL.enable set, brk stops its stream with the stop code instead of acting. -/
def Obligations.BreakpointStops : Prop :=
  (∀ (s : State) (h : Head) (p : Partition), Passes s h 0x189 none → s.part (s.viewPart s.cur) = some p → p.csr.dbgctl = true →
  exec (.ctBrk h) s = .next (raiseFault s s.cur s.motorNow (s.core s.cur).latch.pc (s.core s.cur).latch.slot stDebugStop 0 0)) ∧
  (∀ (s : State) (c bundle slot : Nat) (motor : Bool), isTile c = true →
  let t := raiseFault s c motor bundle slot stDebugStop 0 0;
  (t.core c).latch = Latch.empty ∧ ((t.core c).stream motor).st = .halted .brk stDebugStop ∧
  ((t.core c).stream motor).pc = ((s.core c).stream motor).pc ∧ ((t.core c).stream (!motor)) = ((s.core c).stream (!motor)) ∧
  (t.core c).regs = (s.core c).regs ∧ (t.core c).mem = (s.core c).mem ∧
  (∀ d, d ≠ c → (motor = true ∨ d ≠ s.activeKeeper (basinOf c)) → t.core d = s.core d) ∧
  (∃ r rest, (sget Log.empty t.logs c).recs = r :: rest ∧ r.tick = s.tick ∧ r.code = stDebugStop ∧ r.bundle = bundle ∧ r.slot = slot ∧
    r.flags = (if motor then 3 else 2)) ∧
  (motor = false → ∃ r, (t.core (s.activeKeeper (basinOf c))).traps = (s.core (s.activeKeeper (basinOf c))).traps ++ [r] ∧
    r.code = stDebugStop ∧ r.core = c ∧ r.bundle = bundle) ∧
  (motor = true → ∀ p, s.part (s.partId c) = some p → p.tt.isSome = true →
    ∃ q u e, t.part (s.partId c) = some q ∧ q.tt = some u ∧ u.stop = some e ∧
      (e = (s.tick, c, true, stDebugStop) ∨ stopBefore (s.tick, c, true, stDebugStop) e = false)))

/-- 15 R290-R292: the end of a bundle. A transfer asked for by a bundle takes effect after two more bundles of the stream; a call pushes the
index after its second delay bundle with cbase and the loops, and a ret takes the innermost frame back; the index of a ret was taken from that frame at
its issue (ControlAsks). That the transfer of a sy.tret stands over that of a ct operation of its bundle is the model's choice (log entry 121, DESIGN CHOICE). -/
def Obligations.StreamTransfers : Prop :=
  ∀ (e : LoopEnd) (l : Latch) (n : Nat) (t : Stream),
  (∀ d, t.delay = none → (∀ x, l.sys ≠ .xfer x) → l.ctl = .xfer d → (streamStep e l n t).delay = some d ∧
    (streamStep e l n t).pc = e.next ∧ (streamStep e l n t).frames = t.frames ∧ (streamStep e l n t).loops = e.loops) ∧
  (∀ x, t.delay = none → l.sys = .xfer x → (streamStep e l n t).delay = some x ∧ (streamStep e l n t).pc = e.next ∧
    (streamStep e l n t).frames = t.frames ∧ (streamStep e l n t).loops = e.loops) ∧
  (t.delay = none → (∀ x, l.sys ≠ .xfer x) → (∀ d, l.ctl ≠ .xfer d) → (streamStep e l n t).delay = none ∧
    (streamStep e l n t).pc = e.next ∧ (streamStep e l n t).frames = t.frames ∧ (streamStep e l n t).loops = e.loops) ∧
  (∀ d, t.delay = some d → 1 < d.cnt → (streamStep e l n t).delay = some { d with cnt := d.cnt - 1 } ∧
    (streamStep e l n t).pc = e.next ∧ (streamStep e l n t).frames = t.frames) ∧
  (∀ d, t.delay = some d → d.cnt ≤ 1 → (streamStep e l n t).delay = none ∧
    (d.kind = .jump → (streamStep e l n t).pc = d.tgt ∧ (streamStep e l n t).frames = t.frames ∧
      (streamStep e l n t).loops = e.loops) ∧
    (d.kind = .fall → (streamStep e l n t).pc = e.next ∧ (streamStep e l n t).frames = t.frames) ∧
    (d.kind = .call → (streamStep e l n t).pc = d.tgt ∧ (streamStep e l n t).loops = [] ∧ (streamStep e l n t).newCall = true ∧
      (streamStep e l n t).frames = CFrame.mk (l.pc + 1) t.cbase e.loops :: t.frames) ∧
    (∀ f fs, d.kind = .ret → t.frames = f :: fs → (streamStep e l n t).pc = d.tgt ∧
      (d.tgt = f.ret → (streamStep e l n t).pc = f.ret) ∧ (streamStep e l n t).cbase = f.cbase ∧
      (streamStep e l n t).loops = f.loops ∧ (streamStep e l n t).frames = fs)) ∧
  (streamStep e l n t).nextAt = n ∧ (streamStep e l n t).lcount = t.lcount ∧ (streamStep e l n t).st = t.st

/-- 15 R293-R296: the start of a loop and the end of a bundle that is the last of an innermost loop body. With iterations left the stream goes
back to the bundle after ct.loop and the index rises by one; after the last the loop is left and the enclosing loops see the same bundle. Every iteration end, the
last too, rotates where rot is set and then, with stages, writes p4 as named after the rotation; the start writes p4-p7. That the ends of nested loops at one
bundle run inner rotation, inner stage, outer rotation, outer stage, and that a loop of no iterations goes on after its last bundle with no iteration end, is the model's
reading (log entry 23, DEDUCED). -/
def Obligations.LoopIterations : Prop :=
  ∀ (now pc : Nat) (x : Loop) (ls : List Loop),
  let own := (if x.rot then [Act.rotate] else []) ++ (if x.stages = 0 then [] else [Act.stage [(4, decide (x.idx + 1 < x.count))]]);
  (x.last ≠ pc → endLoops now pc (x :: ls) = LoopEnd.mk (x :: ls) (pc + 1) [] false) ∧
  (x.last = pc → x.idx + 1 < x.trips → (endLoops now pc (x :: ls)).next = x.pcLoop + 1 ∧
    (endLoops now pc (x :: ls)).loops = { x with idx := x.idx + 1, len := if x.idx = 0 then now - x.start else x.len } :: ls ∧
    (endLoops now pc (x :: ls)).acts = own ∧ (endLoops now pc (x :: ls)).rotated = x.rot) ∧
  (x.last = pc → x.trips ≤ x.idx + 1 → (endLoops now pc (x :: ls)).next = (endLoops now pc ls).next ∧
    (endLoops now pc (x :: ls)).loops = (endLoops now pc ls).loops ∧
    (endLoops now pc (x :: ls)).acts = own ++ (endLoops now pc ls).acts ∧
    (endLoops now pc (x :: ls)).rotated = (x.rot || (endLoops now pc ls).rotated)) ∧
  endLoops now pc [] = LoopEnd.mk [] (pc + 1) [] false ∧
  x.trips = (if x.count = 0 then 0 else if x.stages = 0 then x.count else x.count + x.stages - 1) ∧
  (∀ (l : Latch) n, l.ctl = .loop x n →
    (loopStep now l ls).acts = (if x.stages = 0 then [] else [Act.stage [(4, decide (1 ≤ x.count)), (5, false), (6, false), (7, false)]]) ∧
    (n = 0 → (loopStep now l ls).loops = ls ∧ (loopStep now l ls).next = x.last + 1) ∧
    (n ≠ 0 → (loopStep now l ls).loops = x :: ls ∧ (loopStep now l ls).next = l.pc + 1)) ∧
  (∀ (k : Core) (tick : Nat), (k.take tick .rotate).regs = { k.regs with rotb := (k.regs.rotb + 1) % 8 } ∧
    (∀ v, ∃ q, (k.take tick (.stage [(4, v)])).regs = { k.regs with p := q } ∧ q.getLsbD (physP k.regs.rotb 4) = v ∧
      ∀ m, m ≠ physP k.regs.rotb 4 → q.getLsbD m = k.regs.p.getLsbD m) ∧
    (∀ v, ∃ q, (k.take tick (.stage [(4, v), (5, false), (6, false), (7, false)])).regs = { k.regs with p := q } ∧
      q.getLsbD (physP k.regs.rotb 4) = v ∧
      (∀ n, 5 ≤ n → n ≤ 7 → q.getLsbD (physP k.regs.rotb n) = false) ∧ ∀ m, m < 4 → q.getLsbD m = k.regs.p.getLsbD m)) ∧
  (∀ r n, 4 ≤ n → n < 7 → physP ((r + 1) % 8) (n + 1) = physP r n)

/-- 12 R223, R224, R226, R230-R233: a rack operation takes the lowest free of the 64 ids and reports it in bits 21:16 with status 0 at T+2, or reports
RACK_FULL; probe and cancel report the rack as it stands at T; waitaddr reports its monitor or MONITORS_FULL. -/
def Obligations.RackAsks : Prop :=
  ∀ (s : State) (h : Head), let k := s.core s.cur; let v := s.operand h;
  let asked := fun (op : Nat) => match k.freeRack with
    | none => s.willOut 8 0 2 1
    | some id => (s.willDo 1 (.rackStart id (rackJob s s.cur op v))).willOut 8 0 2 (BitVec.ofNat 64 (id * 2 ^ 16));
  (Accepts s h 0x300 none → exec (.rkRack h) s = .next (asked 0)) ∧
  (Accepts s h 0x301 none → exec (.rkFill h) s = .next (asked 1)) ∧
  (Accepts s h 0x302 none → exec (.rkGather h) s = .next (asked 2)) ∧
  (Accepts s h 0x303 none → exec (.rkScatter h) s = .next (asked 3)) ∧
  (Accepts s h 0x304 none → exec (.rkReduce h) s = .next (asked 4)) ∧
  (Accepts s h 0x305 none → exec (.rkMcast h) s = .next (asked 5)) ∧
  (Accepts s h 0x309 none → exec (.rkRel h) s = .next (asked 9)) ∧
  (Accepts s h 0x30A none → exec (.rkAcq h) s = .next (asked 10)) ∧
  (Accepts s h 0x306 none → exec (.rkProbe h) s = .next (s.willOut 8 0 2 (BitVec.ofNat 64 (probeWord (k.rack (v.toNat % 64)))))) ∧
  (Accepts s h 0x307 none → exec (.rkCancel h) s = .next (if (k.rack (v.toNat % 64)).live
    then (s.willDo 1 (.rackCancel (v.toNat % 64))).willOut 8 0 2 0 else s.willOut 8 0 2 1)) ∧
  (Accepts s h 0x308 none → ∃ t, exec (.rkWaitaddr h) s = .next t ∧
    ((∀ i, i < 4 → (k.mon i).state ≠ 0 ∧ (k.mon i).sameLine (monOf s s.cur v) = false) → t = s.willOut 8 0 2 1) ∧
    (∀ i, i < 4 → (k.mon i).state = 0 → (∀ j, j < 4 → (k.mon j).sameLine (monOf s s.cur v) = false) →
      (∀ j, j < i → (k.mon j).state ≠ 0) →
      t = (s.willDo 1 (.monStart i (monOf s s.cur v))).willOut 8 0 2 (BitVec.ofNat 64 (i * 2 ^ 16))) ∧
    (∀ i, i < 4 → (k.mon i).sameLine (monOf s s.cur v) = true → (∀ j, j < i → (k.mon j).sameLine (monOf s s.cur v) = false) →
      t = s.willOut 8 0 2 (BitVec.ofNat 64 (i * 2 ^ 16)))) ∧
  (∀ op, let j := rackJob s s.cur op v; let i0 := k.inp 8 0; let i3 := k.inp 8 3; let named := fun (lo : Nat) => k.capReg (i0.toNat / 2 ^ lo % 16);
    j.op = op ∧ j.len = v.toNat ∧ (∀ n, n < 8 → j.port n = k.inp 8 n) ∧ j.inc = bits i3 31 16 ∧
    j.flag = (named 8).base / 4 + bits i3 9 0 ∧ j.cap 0 = named 0 ∧ j.cap 1 = named 4 ∧ j.cap 2 = named 12 ∧ j.cap 3 = named 16 ∧
    j.cap 4 = named 20 ∧
    (isPad (named 0).space = true →
      j.scalemap = (s.core (ownerOf s.cur (named 0).space ((named 0).base + (k.inp 8 1).toNat)).1).csr.scalemap) ∧
    (isPad (named 0).space = false → isPad (named 4).space = true →
      j.scalemap = (s.core (ownerOf s.cur (named 4).space ((named 4).base + (k.inp 8 2).toNat)).1).csr.scalemap)) ∧
  (∀ r : Rack, r.state < 16 → r.outcome < 16 → r.left < 2 ^ 31 → let w := probeWord r;
    w % 16 = r.state ∧ w / 2 ^ 4 % 16 = (if r.state = 5 then r.outcome else 0) ∧ w / 2 ^ 8 % 2 ^ 31 = r.left ∧ w / 2 ^ 39 % 2 = 0 ∧
    w / 2 ^ 40 = r.astat.toNat) ∧
  (let m := monOf s s.cur v; let cap := k.capReg (bits (k.inp 8 0) 3 0); let fcap := k.capReg (bits (k.inp 8 0) 11 8);
    m.state = 1 ∧ m.space = cap.space ∧ m.va = (cap.base + v.toNat) / 64 * 64 ∧ m.flag = fcap.base / 4 + bits (k.inp 8 3) 9 0 ∧
    m.inc = bits (k.inp 8 3) 31 16 ∧ m.part = s.viewPart s.cur ∧ m.capReg = bits (k.inp 8 0) 3 0 ∧ m.off = v.toNat ∧
    m.idx = bits (k.inp 8 3) 9 0 ∧ (m.direct = true ↔ isTile s.cur = false ∧ (cap.space = 3 ∨ cap.space = 4) ∧ cap.perm / 64 % 2 = 1))

/-- 13 R256, R258-R261: sends and fences are accepted with the lowest free id, or report SEND_FULL, LAYBY_FULL or FENCE_FULL with no other effect; a
sendr takes its credit and layby tokens, both or neither; slot and wstat report at T+1 and T+2. -/
def Obligations.FabricAsks : Prop :=
  ∀ (s : State) (h : Head), let k := s.core s.cur; let v := s.operand h; let e := (fbCap k).entry;
  let len := (k.inp 9 3).toNat; let slot := (k.inp 9 1).toNat; let port := bits (k.inp 9 2) 4 0;
  let sent := fun (id : Nat) (u t : State) (via : Option Nat) => (t.core s.cur).sendSeq = k.sendSeq + 1 ∧
    (s.winLoop e = false → t.bookings = s.bookings ++ [Booking.mk port slot (s.partId s.cur) s.cur id (flitsOf len) false]) ∧
    (s.winLoop e = true → t.bookings = s.bookings) ∧ t.parts = u.parts ∧ SameCoresBut s.cur s t ∧ (t.core s.cur).sends = k.sends ∧
    ∃ q r x, (t.core s.cur).pend = k.pend ++ [q, r] ∧ q.act = .sendStart id x ∧ q.due = s.after s.cur 1 ∧
      x.entry = e ∧ x.off = v.toNat ∧ x.len = len ∧ x.slot = slot ∧ x.port = port ∧ x.flits = flitsOf len ∧
      x.part = s.partId s.cur ∧ x.seq = k.sendSeq ∧ x.loopback = s.winLoop e ∧ x.st = .booked ∧ x.via = via ∧ x.tail = 0 ∧
      x.gone = 0 ∧ x.late = false ∧
      r.act = .out (outPort 9 0) (BitVec.ofNat 64 (id * 2 ^ 16)) ∧ r.due = s.after s.cur 2;
  (Accepts s h 0x340 none → ∃ t, exec (.fbSend h) s = .next t ∧
    (k.freeSend = none → t = s.willOut 9 0 2 1) ∧ (∀ id, k.freeSend = some id → sent id s t none)) ∧
  (Accepts s h 0x341 none → ∃ t, exec (.fbSendr h) s = .next t ∧
    (k.freeSend = none → t = s.willOut 9 0 2 1) ∧
    (∀ id, k.freeSend = some id → payRelay s (s.partId s.cur) (fbVia k) (flitsOf len) = none → t = s.willOut 9 0 2 2) ∧
    (∀ id u, k.freeSend = some id → payRelay s (s.partId s.cur) (fbVia k) (flitsOf len) = some u →
      sent id u t (some (fbVia k)))) ∧
  (∀ id, k.freeSend = some id → id < 32 ∧ k.send id = none ∧ ∀ i, i < id → (k.send i).isSome = true) ∧
  (∀ part via n u, payRelay s part via n = some u → u.cores = s.cores ∧ u.bookings = s.bookings ∧
    ∃ p q, s.part part = some p ∧ u.part part = some q ∧ takeCredit via n p.bindings = some q.bindings ∧
      (n ≤ p.layby.balance → q.layby = { p.layby with balance := p.layby.balance - n }) ∧
      (p.layby.balance < n → q.layby = { p.layby with balance := 0, debt := p.layby.debt + (n - p.layby.balance) })) ∧
  (Accepts s h 0x342 none → exec (.fbRfence h) s = .next (if 4 ≤ k.fences.length then s.willOut 9 0 2 1
    else (s.willDo 1 (.fenceStart (Fence.mk (flagIndex (fbCap k) v.toNat) (bits (k.inp 9 1) 15 0)
      (k.sends.filterMap (fun p => p.2.map Send.seq)) (s.after s.cur 2)))).willOut 9 0 2 0)) ∧
  (Accepts s h 0x343 none → exec (.fbSlot h) s = .next (s.willOut 9 0 1 (slotWord s (s.partId s.cur) (bits v 44 40)
    (if v.getLsbD 45 then s.curSlot.getD 0 else bits v 39 0)))) ∧
  (Accepts s h 0x344 none → exec (.fbWstat h) s = .next (s.willOut 9 0 2 (BitVec.ofNat 64 (if (fbCap k).space = 5
    then wstatWord s e true else wstatWord s ((s.recvOf s.cur (fbCap k)).getD 0) false)))) ∧
  (∀ part q n, let free := if s.forigin.toNat + 4800 * n ≤ s.tick then 0 else s.effShare part q - s.booked part q n;
    let w := slotWord s part q n; (s.port q).state < 8 → s.slotPeer q n < 128 → free < 2 ^ 10 →
    bits w 39 0 = n % 2 ^ 40 ∧ bits w 46 40 = s.slotPeer q n ∧ w.getLsbD 47 = bitOf s.absent (s.slotPeer q n) ∧
    bits w 50 48 = (s.port q).state ∧ bits w 60 51 = free ∧ bits w 63 61 = 0) ∧
  (∀ q n, s.position < 128 → q < 32 → let m := (n + 4 * q) % 127;
    s.slotPeer q n = (if s.position = m then 127 else if s.position = 127 then m else ((2 * (m : Int) - s.position) % 127).toNat)) ∧
  (∀ part q p, s.part part = some p → s.effShare part q = sget 0 p.csr.fshare q * (match (s.port q).state with
      | 1 => 140
      | 2 => 280
      | 4 => 560
      | _ => 0) / 560) ∧
  (∀ part q n, s.booked part q n =
    ((s.bookings.filter (fun b => b.part == part && b.port == q && b.slot == n)).map (fun b => b.flits)).sum) ∧
  (∀ i tx, let x := s.wst i; let out := (s.core (s.winCore i)).sends.filter (fun y => match y.2 with
      | some z => z.entry == i
      | none => false);
    x.last < 2 ^ 8 → out.length < 2 ^ 16 → let w := wstatWord s i tx;
    w % 2 ^ 16 = (if tx then out.length else x.count.toNat) ∧ w / 2 ^ 16 % 2 ^ 8 = x.last ∧ w / 2 ^ 24 % 2 ^ 4 = 0 ∧
    w / 2 ^ 28 % 2 ^ 4 = (if tx then 0 else x.astat.toNat) ∧ w / 2 ^ 32 % 2 = b2n x.late ∧ w / 2 ^ 33 = b2n x.fail)

/-- 11 R212-R214, R219-R221: the fg operations on the flag that the capability and the operand name. That ginfo delivers the
group word as it stands at T (log entry 50, DEDUCED) is the model's reading. -/
def Obligations.FlagAsks : Prop :=
  ∀ (s : State) (h : Head), let k := s.core s.cur; let v := s.operand h; let f := fgFlag s s.cur v;
  let a := (k.inp 10 1).toNat % 2 ^ 32; let b := (k.inp 10 2).toNat % 2 ^ 32;
  (Accepts s h 0x380 none → exec (.fgFset h) s = .next (s.willDo 2 (.flagOp .fset f a b))) ∧
  (Accepts s h 0x381 none → exec (.fgFadd h) s = .next (s.willDo 2 (.flagOp .fadd f a b))) ∧
  (Accepts s h 0x382 none → exec (.fgFcas h) s = .next (s.willDo 2 (.flagOp .fcas f a b))) ∧
  (Accepts s h 0x383 none → exec (.fgFget h) s = .next (s.willDo 2 (.flagOp .fget f a b))) ∧
  (Accepts s h 0x386 none → exec (.fgFclr h) s = .next (s.willDo 2 (.flagOp .fclr f a b))) ∧
  (Accepts s h 0x384 none → exec (.fgFtest h) s = .next (s.willDo 2 (.flagOp (.ftest
    (physP k.regs.rotb (bits (k.inp 10 1) 2 0)) (bits (k.inp 10 1) 6 4)) f b 0))) ∧
  (Accepts s h 0x385 none → ∃ t, exec (.fgFwait h) s = .next t ∧ (t.core s.cur).butty = { k.butty with st := .fwait } ∧
    (t.core s.cur).fwait = some (FWait.mk f (bits (k.inp 10 1) 6 4) b (s.after s.cur 2)
      (if k.inp 10 3 = 0 then none else some (s.after s.cur ((k.inp 10 3).toNat + 1)))) ∧
    SameOutsideCores s t ∧ SameCoresBut s.cur s t ∧ (t.core s.cur).regs = k.regs ∧ (t.core s.cur).mem = k.mem) ∧
  (Accepts s h 0x387 none → exec (.fgGarrive h) s = .next (s.willDo 1
    (.garrive (Garr.mk (bits (k.inp 10 1) 7 0) f (s.after s.cur 2) k.latch.motor k.latch.pc k.latch.slot)))) ∧
  (Accepts s h 0x388 none → exec (.fgGcast h) s = .next (s.willDo 1
    (.gcast (bits (k.inp 10 1) 7 0) (bits (k.inp 10 2) 9 0) (v.toNat % 2 ^ 32)))) ∧
  (Accepts s h 0x389 none → exec (.fgGinfo h) s = .next (s.willOut 10 0 2 (ginfoWord s s.cur (v.toNat % 256)))) ∧
  (∀ g, g < 256 → let w := ginfoWord s s.cur g; let held := (s.timetable s.cur).bind (fun t => t.group g);
    ((∀ x, held = some x → bitOf x.map s.cur = false) → w = BitVec.ofNat 64 g) ∧
    (∀ x, held = some x → bitOf x.map s.cur = true → x.mode < 4 → x.arrived < 2 ^ 9 → x.members < 2 ^ 9 →
      bits w 7 0 = g ∧ bits w 14 8 = 0 ∧ w.getLsbD 15 = true ∧ bits w 24 16 = x.members ∧ bits w 31 25 = 0 ∧
      bits w 40 32 = x.arrived ∧ w.getLsbD 41 = bitOf x.arrivals s.cur ∧ bits w 43 42 = x.mode ∧ bits w 47 44 = 0 ∧
      bits w 63 48 = x.gen.toNat % 2 ^ 16))

/-- 11 R211-R213: what a flag operation leaves in the flag and delivers, performing on flag value f. -/
def Obligations.FlagOperationEffects : Prop :=
  ∀ (f : BitVec 32) (a b : Nat), a < 2 ^ 32 → b < 2 ^ 32 →
  flagStep .fset f a b = (BitVec.ofNat 32 a, []) ∧
  flagStep .fadd f a b = (BitVec.ofNat 32 (f.toNat + a), []) ∧
  flagStep .fcas f a b = (if f = BitVec.ofNat 32 a then BitVec.ofNat 32 b else f, [.out (outPort 10 0) (BitVec.ofNat 64 f.toNat)]) ∧
  flagStep .fget f a b = (f, [.out (outPort 10 0) (BitVec.ofNat 64 f.toNat)]) ∧
  flagStep .fclr f a b = (f &&& ~~~(BitVec.ofNat 32 a), []) ∧
  (∀ phys cond, flagStep (.ftest phys cond) f a b = (f, [.out (outPort 10 0) (if flagHolds cond f.toNat a then 1 else 0),
    .rpred phys (flagHolds cond f.toNat a)])) ∧
  (flagHolds 0 f.toNat a = decide (0 ≤ (f - BitVec.ofNat 32 a).toInt)) ∧ (flagHolds 1 f.toNat a = decide (f.toNat = a)) ∧
  (flagHolds 2 f.toNat a = decide (f.toNat ≠ a)) ∧ (flagHolds 3 f.toNat a = decide ((f - BitVec.ofNat 32 a).toInt < 0)) ∧
  (flagHolds 4 f.toNat a = decide (f &&& BitVec.ofNat 32 a = BitVec.ofNat 32 a)) ∧
  (flagHolds 5 f.toNat a = decide (f &&& BitVec.ofNat 32 a ≠ 0))

/-- 18 R357-R367, 17 R321, R322: control-register operations read and write at the end of T+1; a service call, a return from a trap and halt act at the end of
their bundle; each untimed operation is accepted with status 0 at T+2 and is outstanding from the end of T, or reports SYSTEM_FULL with four outstanding. -/
def Obligations.SystemAsks : Prop :=
  ∀ (s : State) (h : Head), let k := s.core s.cur; let v := s.operand h;
  let named := fun (o : SysOp) => (let i0 := k.inp 11 0; let i3 := k.inp 11 3;
    o.acap = k.capReg (bits i0 3 0) ∧ o.rcap = k.capReg (bits i0 7 4) ∧ o.xcap = k.capReg (bits i0 15 12) ∧
    o.ports = (List.range 8).map (k.inp 11) ∧ o.flag = (k.capReg (bits i0 11 8)).base / 4 + bits i3 9 0 ∧ o.inc = bits i3 31 16 ∧
    o.stage = 0);
  let started := fun (op : Nat) (i : Instr) => ∃ t, exec i s = .next t ∧
    (4 ≤ k.sysops.length → t = s.willOut 11 0 2 1) ∧
    (k.sysops.length < 4 → SameOutsideCores s t ∧ SameHeld k (t.core s.cur) ∧
      ∃ q r o, (t.core s.cur).pend = k.pend ++ [q, r] ∧ q.due = s.after s.cur 1 ∧ q.act = .sysStart o ∧ o.op = op ∧ o.trig = v ∧
        o.issue = s.tick ∧ o.part = s.partId s.cur ∧ o.ready = s.after s.cur 2 ∧ named o ∧ r.due = s.after s.cur 2 ∧ r.act = .out (outPort 11 0) 0);
  (Accepts s h 0x3C0 none → exec (.syCsrr h) s = .next (s.willDo 2 (.csrRead (v.toNat % 4096)))) ∧
  (Accepts s h 0x3C1 none → exec (.syCsrw h) s = .next (s.willDo 2 (.csr (v.toNat % 4096) .w (k.inp 11 1)))) ∧
  (Accepts s h 0x3C2 none → exec (.syCsrs h) s = .next (s.willDo 2 (.csr (v.toNat % 4096) .s (k.inp 11 1)))) ∧
  (Accepts s h 0x3C3 none → exec (.syCsrc h) s = .next (s.willDo 2 (.csr (v.toNat % 4096) .c (k.inp 11 1)))) ∧
  (Accepts s h 0x3C4 none → ∃ t, exec (.syEcall h) s = .next t ∧ SameHeld k (t.core s.cur) ∧
    (t.core s.cur).latch.sys = .ecall (v.toNat % 2 ^ 16) (k.inp 11 1) (k.inp 11 3)) ∧
  (Accepts s h 0x3C5 none → ∃ t, exec (.syTret h) s = .next t ∧ SameHeld k (t.core s.cur) ∧
    (t.core s.cur).latch.sys = .xfer (Delay.mk 2 0 .tret)) ∧
  (Accepts s h 0x3CD none → ∃ t, exec (.syHalt h) s = .next t ∧ SameHeld k (t.core s.cur) ∧ (t.core s.cur).latch.sys = .halt) ∧
  (Accepts s h 0x3C6 none → started 6 (.syKeyld h)) ∧
  (Accepts s h 0x3C7 none → started 7 (.syKeyrot h)) ∧
  (Accepts s h 0x3C8 none → started 8 (.sySeal h)) ∧
  (Accepts s h 0x3C9 none → started 9 (.syDecant h)) ∧
  (Accepts s h 0x3CA none → started 10 (.syScrub h)) ∧
  (Accepts s h 0x3CB none → started 11 (.syFbind h)) ∧
  (Accepts s h 0x3CC none → started 12 (.syAttest h)) ∧
  (∀ (c : Nat) (p : Pend) (num : Nat), (s.core c).dueActs s.tick (fun r => r < 8) = [p] → p.act = .csrRead num →
    ∃ t, exec (.resultDelivery c) s = .next t ∧ SameOutsideCores s t ∧ SameCoresBut c s t ∧
      (t.core c).regs = { (s.core c).regs with out := sput 0 (s.core c).regs.out (outPort 11 0) (s.csrRead c num) }) ∧
  (∀ c, let r := (s.core c).csr; let read := s.csrRead c; let mode := modeOf c;
    let task := fun (n : Nat) (w : Word) => (mode = 0 → read n = 0) ∧ (mode ≠ 0 → read n = w);
    read 0x001 = (if isTile c then 0x1000F else 0x10010) ∧ read 0x010 = BitVec.ofNat 64 (r.seed.toNat * 2 ^ 32 + r.drnd.toNat) ∧
    read 0x011 = r.astat.setWidth 64 ∧ read 0x018 = r.scalemap.setWidth 64 &&& 0xFFFF7FFF7FFF ∧
    read 0x020 = r.gmemb.setWidth 64 &&& 0x80FF80FF80FF80FF ∧ task 0x009 (BitVec.ofNat 64 (r.tvec % 2 ^ 14)) ∧
    (mode ≠ 2 → read 0x008 = 0) ∧ (mode = 2 → read 0x008 = BitVec.ofNat 64 (r.wsel % 8)) ∧
    (r.tepc.dcnt < 4 → r.tepc.dtgt < 2 ^ 14 → r.tepc.ret < 2 ^ 14 → task 0x00A (BitVec.ofNat 64
      (b2n r.tepc.inside * 2 ^ 63 + r.tepc.dcnt % 4 * 2 ^ 46 + r.tepc.dtgt * 2 ^ 32 + r.tepc.ret))) ∧
    read 0x050 = BitVec.ofNat 64 s.forigin.toNat ∧
    (s.towpath.tstate < 8 → s.towpath.terr < 2 ^ 16 →
      read 0x058 = BitVec.ofNat 64 (s.towpath.terr * 2 ^ 16 + s.towpath.tstate)) ∧
    (∀ q, q < 32 → (s.port q).state < 8 → read (0x060 + q) =
      BitVec.ofNat 64 ((s.port q).lerr.toNat * 2 ^ 32 + (s.port q).fallbacks.toNat * 2 ^ 16 + (s.port q).state)) ∧
    (∀ n, n < 4096 → n ∉ [0x001, 0x008, 0x009, 0x00A, 0x010, 0x011, 0x018, 0x020, 0x030, 0x031, 0x032, 0x033, 0x034, 0x038, 0x040,
        0x041, 0x042, 0x043, 0x050, 0x051, 0x058, 0x059, 0x0C0, 0x0C1, 0x0C2, 0x0C3, 0x0D0, 0x0E0, 0x0E8, 0x0E9, 0x0EA, 0x0F0] →
      ¬(0x060 ≤ n ∧ n < 0x0A0) → ¬(0x800 ≤ n ∧ n < 0xA00) → read n = 0) ∧
    (s.part (s.viewPart c) = none → ∀ n, (n ∈ [0x030, 0x031, 0x032, 0x033, 0x034, 0x038, 0x040, 0x041, 0x042, 0x043, 0x051, 0x0C0, 0x0C1,
        0x0C2, 0x0C3, 0x0D0, 0x0E0, 0x0E8, 0x0E9, 0x0EA] ∨ (0x080 ≤ n ∧ n < 0x0A0) ∨ (0x800 ≤ n ∧ n < 0xA00)) → read n = 0) ∧
    ∀ p, s.part (s.viewPart c) = some p → let g := p.csr;
      read 0x030 = BitVec.ofNat 64 (g.reachlim % 2 ^ 32) ∧ read 0x031 = BitVec.ofNat 64 (g.lpatience % 2 ^ 48) ∧
      read 0x034 = g.taskcap.setWidth 64 ∧ read 0x038 = BitVec.ofNat 64 (b2n g.dbgctl) ∧
      task 0x040 (g.croot &&& 0xFFFFFFFFFF801) ∧ task 0x041 (g.hroot &&& 0xFFFFFFFFFF801) ∧
      (g.tlbPage < 2 ^ 32 → g.tlbScope < 4 → task 0x042 (BitVec.ofNat 64 (g.tlbPage * 2 ^ 32 + g.tlbScope * 4 + b2n g.tlbBusy))) ∧
      task 0x043 (BitVec.ofNat 64 (b2n g.cfRefused * 2 ^ 9 + b2n g.cfScrubbed * 2 ^ 8 + g.cfMask.toNat)) ∧
      (∀ q, q < 32 → read (0x080 + q) = BitVec.ofNat 64 (sget 0 g.fshare q % 2 ^ 10)) ∧
      read 0x0C2 = BitVec.ofNat 64 (p.host.debt % 2 ^ 32 * 2 ^ 32 + p.host.balance % 2 ^ 32) ∧
      read 0x0C3 = BitVec.ofNat 64 (p.layby.debt % 2 ^ 32 * 2 ^ 32 + p.layby.balance % 2 ^ 32))

/-- 02 R51, R52: what a slot operation leaves unchanged while its bundle is in flight. An accepted operation of sa, sb, ct, pr, rk, fb (but send
and sendr), fg (but fwait), sy or ls (but hand), or a move that writes no input port, answers a next state in which every register, flag, byte of memory, label,
tag, control register and stream of every core is as before, and everything outside the cores too: it only schedules, or notes in the bundle in flight,
what is to come. -/
def Obligations.SchedulingFrame : Prop :=
  ∀ (s : State) (i : Instr) (h : Head) (dst : BitVec 10) (e : Option Ext), slotParts i = some (h, dst, e) →
  onlyAsks i = true → Accepts s h dst.toNat e → ∃ t, exec i s = .next t ∧ OnlySchedules s t

/-- 02 R49, R51, 07 R133: the frame of the wide operations at T. Registers, memories and everything outside the cores are as before, but for the
dead marks of the registers that a last-use bit names. -/
def Obligations.WideFrame : Prop :=
  ∀ (s : State) (i : Instr) (h : Head) (dst : BitVec 10) (e : Ext), slotParts i = some (h, dst, some e) →
  Accepts s h dst.toNat (some e) → ∃ t, exec i s = .next t ∧ SameOutsideCores s t ∧
    (∀ d, d ≠ s.cur → SameHeld (s.core d) (t.core d)) ∧
    SameHeld { s.core s.cur with regs := { (s.core s.cur).regs with dead := (t.core s.cur).regs.dead } } (t.core s.cur) ∧
    (e.aLast = false → e.bLast = false → SameHeld (s.core s.cur) (t.core s.cur))

/-- 02 R38, R51, 01 R15, 07 R133, 08 R148, R162, R168-R171, 17 R332, R335: a single move or result that is due takes effect at its boundary in its own register and nowhere else; x0 and p0 discard,
e0 stays all ones, and an output port, queue or file keeps every other entry. What each such act leaves in its core. -/
def Obligations.MoveDelivery : Prop :=
  (∀ (s : State) (c : Nat) (p : Pend), (s.core c).dueActs s.tick (fun r => r < 8) = [p] → p.act.rank ≤ 5 →
  (∀ num kind v, p.act ≠ .csr num kind v) → (∀ num, p.act ≠ .csrRead num) → (∀ w, p.act ≠ .busyWord w) →
  ∃ t, exec (.resultDelivery c) s = .next t ∧ SameOutsideCores s t ∧ SameCoresBut c s t ∧
    (t.core c) = ((s.core c).dropActs s.tick (fun r => r < 8)).take s.tick p.act ∧
    (∀ n v, p.act = .x n v → (t.core c).x n = (if n = 0 then 0 else v) ∧ ∀ m, m ≠ n → (t.core c).x m = (s.core c).x m) ∧
    (∀ n v, p.act = .out n v → sget 0 (t.core c).regs.out n = v ∧
      (t.core c).regs = { (s.core c).regs with out := sput 0 (s.core c).regs.out n v } ∧
      ∀ m, m ≠ n → sget 0 (t.core c).regs.out m = sget 0 (s.core c).regs.out m) ∧
    (t.core c).mem = (s.core c).mem ∧ (t.core c).racks = (s.core c).racks ∧ (t.core c).hand = (s.core c).hand) ∧
  (∀ (k : Core) (tick : Nat), let after := fun (a : Act) => k.take tick a;
  let wide := fun (t : Core) (port d : Nat) (o : WideOut) => (t.gens = o.gens ∧ t.csr = { k.csr with astat := k.csr.astat ||| o.st } ∧
    (∀ v, o.o0 = some v → sget 0 t.regs.out port = v) ∧ (o.o0 = none → t.regs.out = k.regs.out) ∧
    (∀ m, m ≠ port → sget 0 t.regs.out m = sget 0 k.regs.out m) ∧
    (∀ m, o.mask = some m → (0 < d → t.mask d = m) ∧ (∀ n, n ≠ d → t.mask n = k.mask n) ∧ t.regs.v = k.regs.v) ∧
    (o.mask = none → (∀ j, j < 8192 → (sget 0 t.regs.v d).getLsbD j = (if o.bits.getLsbD j then o.row.getLsbD j
        else (sget 0 k.regs.v d).getLsbD j)) ∧ (∀ n, n ≠ d → sget 0 t.regs.v n = sget 0 k.regs.v n) ∧ t.regs.e = k.regs.e) ∧
    t.regs.x = k.regs.x ∧ t.regs.m = k.regs.m ∧ t.mem = k.mem);
  let same := fun (t : Core) => ({ t with regs := k.regs } = k);
  (∀ n v, n < 8 → (after (.pred n v) = after (.rpred n v)) ∧ same (after (.rpred n v)) ∧
    (after (.rpred n v)).regs.p.getLsbD n = (if n = 0 then k.regs.p.getLsbD 0 else v) ∧
    ∀ m, m < 8 → m ≠ n → (after (.rpred n v)).regs.p.getLsbD m = k.regs.p.getLsbD m) ∧
  (∀ m v, (after (.lcount m v)).stream m = { k.stream m with lcount := v } ∧ (after (.lcount m v)).stream (!m) = k.stream (!m) ∧
    (after (.lcount m v)).regs = k.regs) ∧
  (∀ v, after (.rotb v) = { k with regs := { k.regs with rotb := v } }) ∧
  (∀ v, after (.sbbase v) = { k with sbuf := { k.sbuf with base := v } } ∧ after (.sblen v) = { k with sbuf := { k.sbuf with len := v } }) ∧
  (after .sbreset = { k with sbuf := { k.sbuf with head := 0, fill := 0 } }) ∧
  (∀ h f, after (.ring h f) = { k with sbuf := { k.sbuf with head := h, fill := f } }) ∧
  (∀ q v, same (after (.push q v)) ∧ sget [] (after (.push q v)).regs.q q = sget [] k.regs.q q ++ [v] ∧
    (∀ r, r ≠ q → sget [] (after (.push q v)).regs.q r = sget [] k.regs.q r) ∧ same (after (.pop q)) ∧
    sget [] (after (.pop q)).regs.q q = (sget [] k.regs.q q).tail ∧
    ∀ r, r ≠ q → sget [] (after (.pop q)).regs.q r = sget [] k.regs.q r) ∧
  (∀ n row bits, same (after (.vrow n row bits)) ∧ after (.vrow n row bits) = k.setV n row bits ∧ same (after (.mrow n row bits)) ∧
    (∀ j, j < 8192 → (sget 0 (after (.mrow n row bits)).regs.m n).getLsbD j =
      (if bits.getLsbD j then row.getLsbD j else (sget 0 k.regs.m n).getLsbD j)) ∧
    (∀ m, m ≠ n → sget 0 (after (.mrow n row bits)).regs.m m = sget 0 k.regs.m m) ∧
    (after (.mrow n row bits)).regs = { k.regs with m := (after (.mrow n row bits)).regs.m }) ∧
  (∀ n row st, let t := after (.accRow n row st); sget 0 t.regs.m n = row ∧ (∀ m, m ≠ n → sget 0 t.regs.m m = sget 0 k.regs.m m) ∧
    t.csr = { k.csr with astat := k.csr.astat ||| st } ∧ t.regs = { k.regs with m := t.regs.m } ∧ t.mem = k.mem) ∧
  (∀ n m, same (after (.emask n m)) ∧ (after (.emask n m)).mask n = (if n = 0 then BitVec.allOnes 2048 else m) ∧
    (∀ r, r ≠ n → (after (.emask n m)).mask r = k.mask r) ∧ (after (.emask n m)).regs = { k.regs with e := (after (.emask n m)).regs.e }) ∧
  (∀ n v, same (after (.freg n v)) ∧ (after (.freg n v)).freg n = v ∧ (∀ m, m ≠ n → (after (.freg n v)).freg m = k.freg m) ∧
    (after (.freg n v)).regs = { k.regs with f := (after (.freg n v)).regs.f }) ∧
  (∀ n x, same (after (.cap n x)) ∧ (after (.cap n x)).capReg n = x ∧ (∀ m, m ≠ n → (after (.cap n x)).capReg m = k.capReg m) ∧
    (after (.cap n x)).regs = { k.regs with c := (after (.cap n x)).regs.c }) ∧
  (∀ n, (after (.untag n)).capReg n = { k.capReg n with tag := false } ∧ (∀ m, m ≠ n → (after (.untag n)).capReg m = k.capReg m) ∧
    (after (.untag n)).regs = { k.regs with c := (after (.untag n)).regs.c }) ∧
  (∀ op ty w d, wide (after (.va op ty w d)) (outPort 4 0) d (vaResult op ty w k.gens)) ∧
  (∀ op ty w d, wide (after (.sf op ty w d)) (outPort 6 0) d (sfResult op ty w k.gens)) ∧
  (∀ op td ts w d, wide (after (.conv op td ts w d)) (outPort 5 0) d (convResult op td ts w k.gens)) ∧
  (∀ td vs mode d, wide (after (.decoded td vs mode d)) (outPort 5 0) d (convOut td vs mode k.gens)) ∧
  (∀ n on i, i < 8 → (after (.lend n on)).press.lent.getLsbD i = (if i = n then on else k.press.lent.getLsbD i) ∧
    (after (.lend n on)).press = { k.press with lent := (after (.lend n on)).press.lent } ∧ (after (.lend n on)).regs = k.regs) ∧
  (∀ m a b, after (.pmode m) = { k with press := { k.press with mode := m } } ∧
    after (.pfmt a b) = { k with press := { k.press with fa := a, fb := b } }) ∧
  (∀ n, same (after (.zeroTile n)) ∧ (∀ r, r < 32 → sget 0 (after (.zeroTile n)).regs.m (32 * n + r) = 0) ∧
    (∀ m, (m < 32 * n ∨ 32 * n + 32 ≤ m) → sget 0 (after (.zeroTile n)).regs.m m = sget 0 k.regs.m m) ∧
    (after (.zeroTile n)).regs = { k.regs with m := (after (.zeroTile n)).regs.m }))

/-- 10 R183, R187, 11 R201, R203, 17 R327, R333: a store that performs alone at its boundary writes exactly its bytes and labels, sets the tags it carries and clears
those of the granules it touches, and leaves every other byte, label and tag of every memory as it was. Of two stores at one boundary each byte and label keeps that of the
owner before a peer, of the lower peer, and of the later issued of one core; the last for a peer is the model's reading (log entry 39, DEDUCED). An encode stores with the
status and generators of its issuing core (33, DEDUCED). -/
def Obligations.StorePerform : Prop :=
  (∀ (s : State) (c : Nat) (p : Pend) (w : StoreW), (s.core c).dueActs s.tick (fun r => r == 8) = [p] → p.act = .store w →
  (s.core c).fresh.tick ≠ s.tick → w.issuer / 8 = c / 8 → (∀ x, x ∈ w.cells → x.2.2 = BitVec.allOnes 8) →
  ∃ t, exec (.timedAccessPerform c false) s = .next t ∧ SameOutsideCores s t ∧ SameCoresBut c s t ∧
    (t.core c).mem.flags = (s.core c).mem.flags ∧ (t.core c).mem.bundles = (s.core c).mem.bundles ∧
    (t.core c).regs = (s.core c).regs ∧ (t.core c).csr = (s.core c).csr ∧
    (∀ a, w.byteAt a = none → readByte (t.core c).mem.sp a = readByte (s.core c).mem.sp a) ∧
    (∀ a x, w.byteAt a = some x → readByte (t.core c).mem.sp a = x.1) ∧
    (∀ l, sget 0 (t.core c).mem.labels l = (match w.labels.find? (fun x => x.1 == l) with
      | some x => x.2
      | none => sget 0 (s.core c).mem.labels l)) ∧
    (∀ g, sget false (t.core c).mem.tags g =
      (w.tagSet.contains g || (sget false (s.core c).mem.tags g && !w.touches g)))) ∧
  (∀ (a n v i : Nat) (w : StoreW), w.cells = bytesCells a n v →
  (i < n → w.byteAt (a + i) = some (BitVec.ofNat 8 (v / 256 ^ i), BitVec.allOnes 8)) ∧
  (∀ b, (b < a ∨ a + n ≤ b) → w.byteAt b = none) ∧ (∀ x, x ∈ w.cells → x.2.2 = BitVec.allOnes 8)) ∧
  (∀ (s : State) (c : Nat) (p q : Pend) (w z : StoreW), (s.core c).dueActs s.tick (fun r => r == 8) = [p, q] → p.act = .store w →
  q.act = .store z → (s.core c).fresh.tick ≠ s.tick → w.issuer / 8 = c / 8 → z.issuer / 8 = c / 8 →
  (∀ x, x ∈ w.cells ++ z.cells → x.2.2 = BitVec.allOnes 8) →
  let first := if z.issuer = w.issuer then (z, w) else if w.issuer = c then (w, z) else if z.issuer = c then (z, w)
    else if w.issuer < z.issuer then (w, z) else (z, w);
  ∃ t, exec (.timedAccessPerform c false) s = .next t ∧
    (∀ a x, first.1.byteAt a = some x → readByte (t.core c).mem.sp a = x.1) ∧
    (∀ a x, first.1.byteAt a = none → first.2.byteAt a = some x → readByte (t.core c).mem.sp a = x.1) ∧
    (∀ a, first.1.byteAt a = none → first.2.byteAt a = none → readByte (t.core c).mem.sp a = readByte (s.core c).mem.sp a) ∧
    (∀ l x, first.1.labels.find? (fun y => y.1 == l) = some x → sget 0 (t.core c).mem.labels l = x.2) ∧
    (∀ l x, first.1.labels.find? (fun y => y.1 == l) = none → first.2.labels.find? (fun y => y.1 == l) = some x →
      sget 0 (t.core c).mem.labels l = x.2)) ∧
  (∀ (s : State) (c : Nat) (p : Pend) (j : EncJob), p.act = .encode j → j.issuer ≠ c → let o := encodeOut j (s.core j.issuer).gens;
  let u := performWrite s c p; SameOutsideCores s u ∧ (u.core j.issuer).gens = o.gens ∧
  (u.core j.issuer).csr = { (s.core j.issuer).csr with astat := (s.core j.issuer).csr.astat ||| o.st } ∧
  u.core c = putStore (s.core c) s.tick (encodeStore j o) ∧ ∀ d, d ≠ c → d ≠ j.issuer → u.core d = s.core d)

/-- 14 R274, R279-R283: a lock opens, re-bases its members, times out, or is shown dry; a reach overruns. That a group 0 lock stays held
while its keeper is taken over (log 54), the source a stop is logged under (log 51) and when and by what a lock is dry (logs 52, 53) are the model's readings. -/
def Obligations.LockEvents : Prop :=
  ∀ (s : State) (part g : Nat) (p : Partition) (t : Timetable) (x : Group), s.part part = some p → p.tt = some t →
  t.group g = some x →
  (lockOpens s p t x = true → 0 < t.pace → ∃ u y, exec (.lockOpen part g) s = .next u ∧ (u.tt part).bind (fun t => t.group g) = some y ∧
    y.rebase % t.pace = 0 ∧ s.tick + 7 * t.pace ≤ y.rebase ∧ y.rebase < s.tick + 8 * t.pace ∧ y = { x with rebase := y.rebase } ∧
    u.cores = s.cores) ∧
  (x.rebase ≠ 0 → x.rebase ≤ s.tick → t.stop = none → ∃ u y, exec (.lockRebase part g) s = .next u ∧
    (u.tt part).bind (fun t => t.group g) = some y ∧ y.gen = x.gen + 1 ∧ y.arrived = 0 ∧ y.mode = 0 ∧ y.arrivals = 0 ∧ y.rebase = 0 ∧
    ∀ m, m < 256 → bitOf x.map m = true → (u.core m).motor.pc = t.firstOf m ((s.core m).reachix + 1) ∧ (u.core m).motor.st = .run ∧
      (u.core m).motor.loops = [] ∧ (u.core m).motor.frames = [] ∧ (u.core m).reachix = (s.core m).reachix + 1 ∧
      (u.core m).reachtick = s.tick ∧ (u.core m).lock = none ∧ (u.core m).mem = (s.core m).mem ∧
      (g = 0 → (s.clustersFor part p).contains (m / 8) = true → (u.core m).hand = [])) ∧
  (lockOverdue s p t x = true → ∃ u t', exec (.lockTimeout part g) s = .next u ∧ u.tt part = some t' ∧
    ((p.preempts t g = true ∨ (g = 0 ∧ p.holding = true)) → t' = { t with timedOut := true } ∧ u.cores = s.cores) ∧
    (p.preempts t g = false → ¬(g = 0 ∧ p.holding = true) → ¬(g = 0 ∧ t.timedOut = true ∧ t.hold.isSome = true) →
      t' = { t with stop := some (s.tick, x.firstArrived, true, stLockTimeout) })) ∧
  (dryProof s t x = true → ∃ u, exec (.dryLock part g) s = .next u ∧
    u.tt part = some { t with stop := some (s.tick, x.firstArrived, true, stDryLock) }) ∧
  (∀ c, overruns s c = true → ∃ u, exec (.reachOverrun c) s = .next u ∧
    u = raiseFault s c true (s.core c).motor.pc 8 stTiming 0 0)

/-- 11 R214, R219, R220: arrivals are recorded and complete a generation, increments land, and a butty wait ends by its condition or its
limit; at which boundary a wait ends (log 49) is the model's reading. -/
def Obligations.GroupAndWaitEvents : Prop :=
  ∀ (s : State),
  (∀ part g c t x r, (s.part part).bind (fun p => p.tt) = some t → t.group g = some x →
    (s.core c).garr.find? (fun y => y.group == g && y.due ≤ s.tick) = some r →
    ∃ u y, exec (.garriveRecorded part g c) s = .next u ∧ (u.tt part).bind (fun t => t.group g) = some y ∧
      (x.arrived + 1 = x.members → y.gen = x.gen + 1 ∧ y.arrived = 0 ∧ y.arrivals = 0 ∧ y.mode = 0) ∧
      (x.arrived + 1 ≠ x.members → y = { x with arrived := x.arrived + 1 }) ∧
      (∃ t', u.tt part = some t' ∧ t'.incs =
        if x.arrived + 1 = x.members then
          t.incs ++ (((List.range 256).filter (bitOf x.map)).filter (fun m => decide (sget 0 x.named m ≠ 0))).map
            (fun m => (s.tick + 1, m, sget 0 x.named m - 1, 1))
        else t.incs) ∧
      SameCoresBut c s u ∧ u.core c = { s.core c with garr := (s.core c).garr.erase r }) ∧
  (∀ part i t m f n due, s.tt part = some t → t.incs[i]? = some (due, m, f, n) → due ≤ s.tick →
    ∃ u, exec (.groupFlagIncrement part i) s = .next u ∧ (u.core m).flag f = (s.core m).flag f + BitVec.ofNat 32 n ∧
      (∀ j, j ≠ f → (u.core m).flag j = (s.core m).flag j) ∧ SameCoresBut m s u ∧
      u.core m = (s.core m).setFlag f ((s.core m).flag f + BitVec.ofNat 32 n) ∧
      u.tt part = some { t with incs := t.incs.eraseIdx i }) ∧
  (∀ part i p c j m f n due, s.part part = some p → castAt s (s.workCores part p) i = some (c, j) →
    (s.core c).casts[j]? = some (m, f, n, due) → due ≤ s.tick → castFirst (s.core c).casts j = true →
    ∃ u, exec (.gcastIncrement part i) s = .next u ∧ (u.core m).flag f = (s.core m).flag f + BitVec.ofNat 32 n ∧
      (∀ l, l ≠ f → (u.core m).flag l = (s.core m).flag l) ∧ SameOutsideCores s u ∧
      (∀ d, u.core d = { (if d = m then (s.core m).setFlag f ((s.core m).flag f + BitVec.ofNat 32 n) else s.core d) with
        casts := if d = c then (s.core c).casts.eraseIdx j else (s.core d).casts })) ∧
  (∀ c w, (s.core c).fwait = some w → waitHolds s (s.core c) = true →
    ∃ u, exec (.fwaitSatisfied c) s = .next u ∧ (u.core c).fwait = none ∧
      sget 0 (u.core c).regs.out (outPort 10 0) = ((s.core c).flag w.flag).setWidth 64 ∧
      ((s.core c).butty.st = .fwait → (u.core c).butty.st = .run ∧ (u.core c).butty.pc = (s.core c).butty.pc) ∧
      (u.core c).mem = (s.core c).mem ∧ SameOutsideCores s u ∧ SameCoresBut c s u) ∧
  (∀ c w, (s.core c).fwait = some w → waitOver s c = true →
    ∃ u, exec (.fwaitTimeout c) s = .next u ∧ (u.core c).fwait = none ∧
      sget 0 (u.core c).regs.out (outPort 10 0) = ((s.core c).flag w.flag).setWidth 64 ||| BitVec.ofNat 64 (2 ^ 63) ∧
      ((s.core c).butty.st = .fwait → (u.core c).butty.st = .run) ∧ (u.core c).mem = (s.core c).mem ∧
      SameOutsideCores s u ∧ SameCoresBut c s u)

/-- 02 R51, R59, 06 R117, 16 R310: the events of a boundary complete. A stream that may issue, whose bundle passes every check, stands in the
latch; a resource whose time has come is free; the tokens of a period are granted. -/
def Obligations.BoundaryEvents : Prop :=
  ∀ (s : State),
  (∀ c motor, s.canIssue c motor = false → exec (.bundleIssue c motor) s = .next s) ∧
  (∀ c motor pc h lay, s.canIssue c motor = true → pc = ((s.core c).stream motor).pc → pc < 16384 → h = (s.core c).header pc →
    lay = bundleLayout (hdExt h) ((s.core c).bundleSlots pc) → formatSlot c motor h lay = none →
    decodeFault c motor (lay.1.map Entry.parts) 2 6 = none → order8 s c motor h (lay.1.map Entry.parts) = none →
    unitFault (s.setCore c (portWrites (s.modCore c (fun k => { k with latch := latchOf motor pc h (lay.1.map Entry.parts) }))
      c motor (lay.1.map Entry.parts))) c motor (lay.1.map Entry.parts) = none →
    (motor = true ∨ (s.core c).mres.tick ≠ s.tick) →
    ∃ u, exec (.bundleIssue c motor) s = .next u ∧ u.cur = c ∧
      (u.core c).latch = latchOf motor pc h (lay.1.map Entry.parts) ∧ (u.core c).regs = (s.core c).regs ∧
      (u.core c).mem = (s.core c).mem ∧ SameCoresBut c s u) ∧
  (∀ c motor pc h slot, s.canIssue c motor = true → pc = ((s.core c).stream motor).pc → pc < 16384 → h = (s.core c).header pc →
    formatSlot c motor h (bundleLayout (hdExt h) ((s.core c).bundleSlots pc)) = some slot →
    exec (.bundleIssue c motor) s = .next (raiseFault s c motor pc slot stFormat 0 0)) ∧
  (∀ c, ∃ u, exec (.resourceFree c) s = .next u ∧ SameOutsideCores s u ∧ SameCoresBut c s u ∧
    (u.core c) = { s.core c with busy := (s.core c).busy.filter (fun b => decide (s.tick < b.2)) }) ∧
  (∀ c reads, (s.core c).pend = [] → ∃ u, exec (.timedAccessPerform c reads) s = .next u ∧ u.core c = s.core c ∧ SameCoresBut c s u) ∧
  (∀ c, (s.core c).pend = [] → ∃ u, exec (.resultDelivery c) s = .next u ∧ u.core c = s.core c ∧ SameCoresBut c s u)

/-- 17 R321, R322, 18 R357 and the register maps: what csrw, csrs and csrc leave in each register that has a rule of its own, and that in a
mode that may not write a register nothing changes. Core c sees partition p; new old is the value that the kind asks for: v, old OR v, or old AND NOT v. The
model's choices: a share that takes a port above 496 leaves an idle unlocked partition not created (log entry 131, DEDUCED), FORIGIN renumbers layby items and
silences and forgets bookings (132, DESIGN CHOICE), and csrs and csrc go by each register's rule (113, DEDUCED). -/
def Obligations.RegisterWriteEvents : Prop :=
  ∀ (s : State) (c : Nat) (kind : CsrKind) (v : Word) (p : Partition), s.part (s.viewPart c) = some p →
  let after := fun (i : Instr) (P : Partition → Prop) => ∃ t q, exec i s = .next t ∧ t.part (s.viewPart c) = some q ∧ P q ∧
    q.tt = p.tt ∧ t.cores = s.cores ∧ t.cellar = s.cellar;
  let new := fun (old : Nat) => match kind with
    | .w => v
    | .s => BitVec.ofNat 64 old ||| v
    | .c => BitVec.ofNat 64 old &&& ~~~v;
  let k := s.core c;
  (let n := new (k.csr.seed.toNat * 2 ^ 32 + k.csr.drnd.toNat); let seed := BitVec.ofNat 32 (n.toNat / 2 ^ 32);
    ∃ t, exec (.arithWrite c kind v) s = .next t ∧
    (t.core c).csr = { k.csr with seed := seed, drnd := if n.toNat % 4 = 3 then k.csr.drnd else BitVec.ofNat 2 (n.toNat % 4) } ∧
    (t.core c).gens = (if kind = .w ∨ seed ≠ k.csr.seed then Gens.mk seed.toNat [] else k.gens) ∧
    SameOutsideCores s t ∧ SameCoresBut c s t ∧ (t.core c).regs = k.regs) ∧
  (∃ t, exec (.astatWrite c kind v) s = .next t ∧ SameOutsideCores s t ∧ SameCoresBut c s t ∧
    (t.core c).csr = { k.csr with
      astat := BitVec.ofNat 11 (new k.csr.astat.toNat).toNat ||| (if k.statTick = s.tick then k.statBits else 0) }) ∧
  (modeOf c ≠ 0 →
    let m := BitVec.ofNat 5 (new (b2n p.csr.cfRefused * 2 ^ 9 + b2n p.csr.cfScrubbed * 2 ^ 8 + p.csr.cfMask.toNat)).toNat;
    let clr := decide (kind = .w) && v.getLsbD 9;
    after (.cfoldWrite c kind v) (fun q =>
    (m = p.csr.cfMask → q.csr = { p.csr with cfRefused := p.csr.cfRefused && !clr }) ∧
    (m ≠ p.csr.cfMask → p.csr.cfScrubbed = true → q.csr = { p.csr with cfMask := m, cfRefused := p.csr.cfRefused && !clr }) ∧
    (m ≠ p.csr.cfMask → p.csr.cfScrubbed = false → q.csr = { p.csr with cfRefused := true }))) ∧
  (modeOf c = 2 → let n := (new s.forigin.toNat).toNat; let old := s.forigin.toNat;
    (s.sending = false → exec (.foriginWrite c kind v) s = .next { s with
      forigin := BitVec.ofNat 64 n, bookings := []
      layby := s.layby.map (fun x => { x with slot := (old + 4800 * x.slot - n) / 4800 })
      ports := s.ports.foldl (fun m q => sput Port.down m q.1 { q.2 with
        resumeSlot := if q.2.resumeSlot = 0 then 0 else (old + 4800 * q.2.resumeSlot + 4799 - n) / 4800
        deadSlot := none }) s.ports }) ∧
    (s.sending = true → exec (.foriginWrite c kind v) s = .next (s.log 0x240 evForigin 0 0 0 0 0 0))) ∧
  (∀ port, modeOf c = 2 → port < 32 → let n := (new (sget 0 p.csr.fshare port)).toNat % 2 ^ 10;
    (s.otherShares (s.viewPart c) port + n ≤ 496 → after (.fshareWrite c port kind v) (fun q =>
      (p.cfgOpen = false → q = p) ∧ (p.cfgOpen = true → sget 0 q.csr.fshare port = n ∧
        ∀ i, i ≠ port → sget 0 q.csr.fshare i = sget 0 p.csr.fshare i))) ∧
    (496 < s.otherShares (s.viewPart c) port + n →
      (p.cfgOpen = true → p.tt = none → p.taken = none → p.ctxs.all (fun x => x.2.isNone) = true →
        ∃ t, exec (.fshareWrite c port kind v) s = .next t ∧ t.part (s.viewPart c) = none ∧ t.cellar = s.cellar ∧
          (∀ n, n ≠ s.viewPart c → t.part n = s.part n) ∧ SameTiles s t) ∧
      ((p.cfgOpen = false ∨ p.tt.isSome = true ∨ p.taken.isSome = true ∨ p.ctxs.any (fun x => x.2.isSome) = true) →
        exec (.fshareWrite c port kind v) s = .next s))) ∧
  (∀ layby, modeOf c = 2 → let m := p.meter layby; let n := (new (m.debtcap * 2 ^ 20 + m.allot)).toNat;
    let cap := if layby then s.laybyCap else 700000;
    (cap < s.otherAllots (s.viewPart c) layby + n % 2 ^ 20 → exec (.budgetWrite c layby kind v) s = .next s) ∧
    (s.otherAllots (s.viewPart c) layby + n % 2 ^ 20 ≤ cap → after (.budgetWrite c layby kind v) (fun q =>
      (p.cfgOpen = false ∨ p.tt.isSome = true → q = p) ∧
      (p.cfgOpen = true → p.tt = none → q.meter layby = { m with allot := n % 2 ^ 20, debtcap := n / 2 ^ 20 % 2 ^ 20 } ∧
        q.meter (!layby) = p.meter (!layby) ∧ q.csr = p.csr)))) ∧
  (modeOf c = 2 → let n := (new (p.csr.fwinCount * 2 ^ 16 + p.csr.fwinBase)).toNat; after (.fwinWrite c kind v) (fun q =>
    (p.cfgOpen = false → q = p) ∧ (p.cfgOpen = true → q.csr = { p.csr with
      fwinBase := n % 2 ^ 10, fwinCount := if 1024 < n / 2 ^ 16 % 2 ^ 11 then p.csr.fwinCount else n / 2 ^ 16 % 2 ^ 11 }))) ∧
  (modeOf c ≠ 0 → let n := (new p.csr.reachlim).toNat % 2 ^ 32; after (.reachlimWrite c kind v) (fun q =>
    q.csr = { p.csr with reachlim := if n = 0 then p.csr.reachlim else n })) ∧
  (modeOf c ≠ 0 → let n := (new p.csr.lpatience).toNat % 2 ^ 48; after (.lpatienceWrite c kind v) (fun q =>
    q.csr = { p.csr with lpatience := if n = 0 then p.csr.lpatience else n })) ∧
  (modeOf c = 2 → after (.taskcapWrite c kind v) (fun q => (p.cfgOpen = false → q = p) ∧
    (p.cfgOpen = true → q.csr = { p.csr with taskcap := BitVec.ofNat 3 (new p.csr.taskcap.toNat).toNat }))) ∧
  (modeOf c = 2 → let h := s.hthresh; let n := new (h.ce * 2 ^ 48 + h.lane * 2 ^ 32 + h.droop * 2 ^ 16 + h.temp);
    exec (.hthreshWrite c kind v) s = .next { s with hthresh :=
    { ce := bits n 63 48, lane := bits n 47 32, droop := bits n 31 16
      temp := if 70 ≤ bits n 7 0 ∧ bits n 7 0 ≤ 95 then bits n 7 0 else h.temp } }) ∧
  (modeOf c ≠ 0 → let n := new (p.csr.tlbPage * 2 ^ 32 + p.csr.tlbScope * 4 + b2n p.csr.tlbBusy);
    after (.tlbinvWrite c kind v) (fun q =>
    ((p.csr.tlbBusy = true ∨ (n.getLsbD 0 = true ∧ bits n 3 2 = 3)) → q = p) ∧
    (p.csr.tlbBusy = false → ¬(n.getLsbD 0 = true ∧ bits n 3 2 = 3) →
      q.csr = { p.csr with tlbPage := bits n 63 32, tlbScope := bits n 3 2, tlbBusy := n.getLsbD 0 }))) ∧
  (modeOf c ≠ 0 →
    after (.registerWrite c 0x038 kind v) (fun q => q.csr = { p.csr with dbgctl := (new (b2n p.csr.dbgctl)).getLsbD 0 }) ∧
    after (.registerWrite c 0x032 kind v) (fun q =>
      let n := new (p.csr.rdelay * 2 ^ 16 + p.csr.retries * 2 ^ 8 + b2n p.csr.tmo * 2 + b2n p.csr.prio);
      q.csr = { p.csr with rdelay := bits n 47 16, retries := bits n 15 8, tmo := n.getLsbD 1, prio := n.getLsbD 0 }) ∧
    after (.registerWrite c 0x040 kind v) (fun q => q.csr = { p.csr with croot := new p.csr.croot.toNat &&& 0xFFFFFFFFFF801 }) ∧
    after (.registerWrite c 0x041 kind v) (fun q => q.csr = { p.csr with hroot := new p.csr.hroot.toNat &&& 0xFFFFFFFFFF801 }) ∧
    ∃ t, exec (.registerWrite c 0x009 kind v) s = .next t ∧ SameOutsideCores s t ∧ SameCoresBut c s t ∧
      (t.core c).csr = { k.csr with tvec := bits (new k.csr.tvec) 13 0 } ∧ (t.core c).regs = k.regs) ∧
  (∃ t, exec (.registerWrite c 0x018 kind v) s = .next t ∧ SameOutsideCores s t ∧ SameCoresBut c s t ∧
    (t.core c).csr = { k.csr with scalemap := new k.csr.scalemap.toNat &&& 0xFFFF7FFF7FFF } ∧ (t.core c).regs = k.regs) ∧
  (modeOf c ≠ 0 →
    let core := fun (num : Nat) (r : CoreCsr) => (∃ t, exec (.registerWrite c num kind v) s = .next t ∧ SameOutsideCores s t ∧
      SameCoresBut c s t ∧ (t.core c).csr = r ∧ (t.core c).regs = k.regs ∧ (t.core c).mem = k.mem);
    core 0x020 { k.csr with gmemb := new k.csr.gmemb.toNat &&& 0x80FF80FF80FF80FF } ∧
    (let e := k.csr.tepc; let n := new (b2n e.inside * 2 ^ 63 + e.dcnt * 2 ^ 46 + e.dtgt * 2 ^ 32 + e.ret);
      core 0x00A { k.csr with tepc := { e with
        dcnt := if bits n 47 46 = 3 then 0 else bits n 47 46, dtgt := bits n 45 32, ret := bits n 13 0 } }) ∧
    after (.registerWrite c 0x033 kind v) (fun q => q.csr = { p.csr with ctxbase := new p.csr.ctxbase.toNat &&& 0xFFFF00000001 }) ∧
    after (.registerWrite c 0x0E8 kind v) (fun q => q.csr = { p.csr with botcfg := new p.csr.botcfg.toNat &&& 0xFFFFFFFF01 }) ∧
    after (.registerWrite c 0x0E9 kind v) (fun q => q.csr = { p.csr with bothost := new p.csr.bothost.toNat &&& 0xFFFFFFFFFFFFF }) ∧
    ∀ i, i < 512 → p.basins.contains (i / 128) = true → ∃ t, exec (.registerWrite c (0x800 + i) kind v) s = .next t ∧
      t.cellar = { s.cellar with cact := t.cellar.cact } ∧ t.cores = s.cores ∧ t.parts = s.parts ∧
      sget 0 t.cellar.cact i = (new (sget 0 s.cellar.cact i).toNat).setWidth 32 ∧
      ∀ j, j ≠ i → sget 0 t.cellar.cact j = sget 0 s.cellar.cact j) ∧
  (modeOf c = 2 →
    (∃ t, exec (.registerWrite c 0x008 kind v) s = .next t ∧ SameOutsideCores s t ∧ SameCoresBut c s t ∧
      (t.core c).csr = { k.csr with wsel := bits (new k.csr.wsel) 2 0 } ∧ (t.core c).regs = k.regs) ∧
    (let n := new (s.towpath.terr * 2 ^ 16 + s.towpath.tstate);
      exec (.registerWrite c 0x058 kind v) s = .next { s with towpath := { s.towpath with
        terr := bits n 31 16, tstate := if bits n 2 0 < 4 then bits n 2 0 else s.towpath.tstate } }) ∧
    after (.registerWrite c 0x0E0 kind v) (fun q => q.csr = { p.csr with
      keepCount := BitVec.ofNat 32 (bits (new (p.csr.keepCount.toNat * 2 ^ 32)) 63 32) }) ∧
    ∀ i, i < 32 → ∃ t, exec (.registerWrite c (0x060 + i) kind v) s = .next t ∧ t.cores = s.cores ∧ t.parts = s.parts ∧
      (kind = .w → t.port i = { s.port i with
        lerr := (s.port i).lerr &&& ~~~(BitVec.ofNat 32 (bits v 63 32))
        fallbacks := (s.port i).fallbacks &&& ~~~(BitVec.ofNat 16 (bits v 31 16)) }) ∧
      (kind ≠ .w → t.port i = s.port i) ∧ ∀ j, j ≠ i → t.port j = s.port j) ∧
  after (.registerWrite c 0x0EA kind v) (fun q => q.csr = { p.csr with
    botStep := BitVec.ofNat 32 (bits (new (p.csr.botStep.toNat * 2 ^ 32)) 63 32)
    botWarn := p.csr.botWarn && !(decide (modeOf c ≠ 0) && decide (kind = .w) && v.getLsbD 0) }) ∧
  (modeOf c = 0 → ∀ num, num ∈ [0x008, 0x009, 0x00A, 0x020, 0x030, 0x031, 0x032, 0x033, 0x034, 0x038, 0x040, 0x041, 0x042, 0x043,
      0x050, 0x051, 0x058, 0x0C0, 0x0C1, 0x0E8, 0x0E9, 0x0F0] →
    exec (.registerWrite c num kind v) s = .next s) ∧
  (modeOf c ≠ 2 → ∀ num, (num ∈ [0x008, 0x034, 0x050, 0x051, 0x058, 0x0C0, 0x0C1, 0x0F0] ∨ (0x080 ≤ num ∧ num < 0x0A0)) →
    exec (.registerWrite c num kind v) s = .next s)

/-- 18 R358, R359, 19 R373: a firmware core enters its handler, a service call is answered, and the keeper resumes or ends a halted butty stream. That
both resumes go on at the same index after a trap (log entry 60) and that a handler is entered only at a stream that could issue (22) are the model's readings, both DEDUCED. -/
def Obligations.TrapEvents : Prop :=
  ∀ (s : State) (c : Nat),
  (∀ r rest, s.mayEnter c = true → (s.core c).traps = r :: rest →
    ∃ u, exec (.trapHandlerEntry c) s = .next u ∧ SameOutsideCores s u ∧ SameCoresBut c s u ∧
      (u.core c).traps = rest ∧ (u.core c).csr.tepc.inside = true ∧ (u.core c).csr.tepc.ret = (s.core c).butty.pc ∧
      (u.core c).butty.pc = (s.core c).csr.tvec ∧ (u.core c).butty.delay = none ∧
      ((s.core c).butty.delay = none → (u.core c).csr.tepc.dcnt = 0) ∧
      (∀ d, (s.core c).butty.delay = some d → d.kind ≠ .fall → (u.core c).csr.tepc.dcnt = d.cnt ∧ (u.core c).csr.tepc.dtgt = d.tgt) ∧
      (u.core c).regs = (s.core c).regs ∧ (u.core c).mem = (s.core c).mem) ∧
  (let k := trapReturn (s.core c); k.butty.pc = (s.core c).csr.tepc.ret ∧ k.csr.tepc.inside = false ∧
    ((s.core c).csr.tepc.dcnt = 0 → k.butty.delay = none) ∧
    ((s.core c).csr.tepc.dcnt ≠ 0 → k.butty.delay = some (Delay.mk (s.core c).csr.tepc.dcnt (s.core c).csr.tepc.dtgt (s.core c).csr.tepc.kind)) ∧
    k.regs = (s.core c).regs ∧ k.mem = (s.core c).mem ∧ k.traps = (s.core c).traps) ∧
  (∀ id v r, (s.core c).call id = some r → r.reply = none → (s.core c).butty.call = some id →
    ∃ u, exec (.ecallReply c id v) s = .next u ∧ (u.core c).butty.call = none ∧ (u.core c).butty.st = (s.core c).butty.st ∧ (u.core c).butty.pc = (s.core c).butty.pc ∧
      sget 0 (u.core c).regs.out (outPort 11 0) = v ∧ (u.core c).calls = (s.core c).calls.erase r ∧ SameCoresBut c s u) ∧
  (∀ id v r f n, (s.core c).call id = some r → r.reply = some (f, n) →
    ∃ u, exec (.ecallReply c id v) s = .next u ∧ (u.core c).flag f = (s.core c).flag f + BitVec.ofNat 32 n) ∧
  (∀ why code, mayResume s c = true → (s.core c).butty.st = .halted why code →
    (∃ u, exec (.buttyResumeAt c) s = .next u ∧ (u.core c).butty.st = .run ∧ (u.core c).butty.pc = (s.core c).butty.pc ∧
      (u.core c).motor = (s.core c).motor ∧ (u.core c).regs = (s.core c).regs ∧ SameCoresBut c s u) ∧
    (∃ u, exec (.buttyResumeNext c) s = .next u ∧ (u.core c).butty.st = .run ∧
      (u.core c).butty.pc = (if why = .trap then (s.core c).butty.pc else (s.core c).butty.pc + 1) ∧
      (u.core c).motor = (s.core c).motor ∧ (u.core c).regs = (s.core c).regs ∧ SameCoresBut c s u) ∧
    (∃ u, exec (.buttyEnd c) s = .next u ∧ (u.core c).butty.st = .ended ∧ (u.core c).motor = (s.core c).motor ∧
      (u.core c).regs = (s.core c).regs ∧ SameCoresBut c s u))

/-- 12 R227, R229, R233, R236-R238, 18 R343: racks move and end, monitors arm and fire, fault replies act, TLB entries go, pages migrate, the host
writes cellar lines. That a part is a line of the destination
(log entry 64), that the flag of a monitor comes at a later boundary (67) and what the rounds and phases of a migration are (68) are the model's readings, all DEDUCED; that an
armed monitor keeps its line (161), one migration at a time (162) and labels under a base that is no multiple of 64 (163) are its choices, DESIGN CHOICE. -/
def Obligations.RackEvents : Prop :=
  ∀ (s : State) (c : Nat),
  (∀ id env n, let s1 := (s.hostWrites (s.enginePart c) env.hostWrites).giveUp (s.enginePart c) env.drops;
    let s2 := readLists (startUpTo s1 c ((s1.core c).rack id).seq) c; let r := (s2.core c).rack id;
    s.hostWritesFree (s.enginePart c) env.hostWrites = true → ((s1.core c).rack id).moves = true → s1.racksStopped c = false → lineMoves s2 c id env = some n →
    ∃ u, exec (.rackLineTransfer c id env) s = .next u ∧ ((u.core c).rack id).state = 2 ∧
      ((u.core c).rack id).pos = r.pos + n ∧ ((u.core c).rack id).outcome = r.outcome ∧
      ((u.core c).rack id).left = r.job.left (r.pos + n) ∧ ((u.core c).rack id).job = r.job ∧
      (r.job.scales = false → let p := r.job.part r.entries r.pos; n = p.n ∧
        ∃ s3 rd, readyPart s2 c r p = (s3, .ok rd) ∧ u = movePart s2 s3 c id r p rd env)) ∧
  (∀ id, let r := (s.core c).rack id; r.ending = true → (r.wtick < s.tick ∨ r.pos = 0) →
    ∃ u, exec (.rackComplete c id) s = .next u ∧ ((u.core c).rack id).state = 5 ∧
      ((r.cancel = true ∨ ∃ q, q ∈ (s.core c).pend ∧ q.act = .rackCancel id) → ((u.core c).rack id).outcome = 1) ∧
      (r.cancel = false → (∀ q, q ∈ (s.core c).pend → q.act ≠ .rackCancel id) → ((u.core c).rack id).outcome = r.outcome) ∧
      (u.core c).flag r.job.flag = (s.core c).flag r.job.flag + BitVec.ofNat 32 r.job.inc ∧
      ∀ d g, g ∈ (u.core d).guards → ¬(g.core = c ∧ g.isRack = true ∧ (g.id = id ∨ g.id = indexGuard id ∨ g.id = slotGuard id))) ∧
  (∀ i, let m := (s.core c).mon i; m.state = 1 → (∀ t, s.timetable c = some t → t.pre < 3 ∧ t.bottleHeld = false) →
    let got := if m.direct then (s, directPlace s (s.enginePart c) m.space m.va false) else translate s c m.part m.space m.va false;
    (∀ pa, got.2 = .ok (.cellar pa) →
      ∃ u, exec (.monitorArmed c i) s = .next u ∧ (u.core c).mon i = { m with state := 3, pa := pa }) ∧
    (∀ n ga, got.2 = .ok (.host n ga) → (payHost got.1 c (if got.1.cached n (ga / 64) then 0 else 1)).isSome = true →
      ∃ u, exec (.monitorArmed c i) s = .next u ∧ (u.core c).mon i = { m with state := 3, pa := ga }) ∧
    (∀ kind space va wr, got.2 = .stop (.page kind space va wr) →
      ∃ u, exec (.monitorArmed c i) s = .next u ∧ (u.core c).mon i = { m with state := 2 }) ∧
    (∀ pa, (got.2 = .stop (.fence pa) ∨ got.2 = .stop (.integrity pa)) →
      ∃ u, exec (.monitorArmed c i) s = .next u ∧ (u.core c).mon i = Monitor.free ∧
        (u.core c).flag m.flag = (s.core c).flag m.flag + BitVec.ofNat 32 m.inc)) ∧
  (∀ i, let m := (s.core c).mon i; m.state = 4 → m.wtick < s.tick → ∃ u, exec (.monitorFire c i) s = .next u ∧ (u.core c).mon i = Monitor.free ∧
    (u.core c).flag m.flag = (s.core c).flag m.flag + BitVec.ofNat 32 m.inc ∧ SameCoresBut c s u ∧ SameOutsideCores s u) ∧
  (∀ id f, let r := (s.core c).rack id; s.faultRec (s.enginePart c) c false id = some f → f.ctx = none → r.state = 3 →
    (∃ u, exec (.faultReplyResume c false id) s = .next u ∧ (u.core c).rack id = { r with state := 2 }) ∧
    (∃ u, exec (.faultReplyAbort c false id) s = .next u ∧
      (u.core c).rack id = { r with state := 2, outcome := if r.cancel then r.outcome else 2 })) ∧
  (∀ i f, let m := (s.core c).mon i; s.faultRec (s.enginePart c) c true i = some f → f.ctx = none → m.state = 2 →
    (∃ u, exec (.faultReplyResume c true i) s = .next u ∧ (u.core c).mon i = { m with state := 1 }) ∧
    (∃ u, exec (.faultReplyAbort c true i) s = .next u ∧ (u.core c).mon i = Monitor.free ∧
      (u.core c).flag m.flag = (s.core c).flag m.flag + BitVec.ofNat 32 m.inc)) ∧
  (∀ part p, s.part part = some p → p.csr.tlbBusy = true → ∃ u q, exec (.tlbinvComplete part) s = .next u ∧ u.part part = some q ∧
    q.csr.tlbBusy = false ∧ (∀ d x, x ∈ (u.core d).tlb → x.1 / 16 = part →
      inScope p.csr.tlbScope p.csr.tlbPage (x.1 % 16) x.2.1 = false)) ∧
  (∀ part va frame p a, s.part part = some p → s.pageEntry part va = some a →
    (p.migr = none → frame % 2 ^ 16 = 0 → s.ownsPa part frame = true → ∃ u q, exec (.pageMigration part va frame .start) s = .next u ∧
      u.part part = some q ∧ q.migr = some (Migration.mk (va / 2 ^ 16 * 2 ^ 16) frame 1 0 0)) ∧
    (∀ m, p.migr = some m → m.va = va / 2 ^ 16 * 2 ^ 16 → m.phase = 3 → m.rounds = 8 →
      ∃ u, exec (.pageMigration part va frame .freeze) s = .next u ∧ u.part part = some { p with migr := some { m with phase := 4 } } ∧
        u.cores = s.cores ∧ u.cellar = s.cellar)) ∧
  (∀ pa (data : List Byte), data.length = 64 → pa % 64 = 0 → pa + 64 ≤ 2 ^ 39 → s.partOfStack (pa / 2 ^ 36) ≠ 0 →
    (s.cellar.mdOf (pa / 64)).minor ≠ 127 → ∃ u, exec (.hostCxlMemWrite pa data) s = .next u ∧
      (∀ i, i < 64 → readByte u.cellar.bytes (pa + i) = data.getD i 0) ∧
      (∀ a, (a < pa ∨ pa + 64 ≤ a) → readByte u.cellar.bytes a = readByte s.cellar.bytes a) ∧
      (u.cellar.mdOf (pa / 64)).minor = (s.cellar.mdOf (pa / 64)).minor + 1 ∧
      (u.cellar.mdOf (pa / 64)).label = (s.cellar.mdOf (pa / 64)).label ∧ (u.cellar.mdOf (pa / 64)).macDiff = 0) ∧
  (∀ (j : RackJob) (list : List Nat) (pos : Nat), let p := j.part list pos; let e := 2 ^ bits (j.port 4) 11 8;
    let soff := (j.port 1).toNat; let doff := (j.port 2).toNat;
    let copies := fun (src : Nat → Nat) (cap : Cap) (off left : Nat) => (0 < p.n ∧ p.n ≤ left ∧ p.given = [] ∧ p.dst = (cap, off) ∧
      p.src.flatMap (fun x => (List.range x.2.2).map (fun i => (x.1, x.2.1 + i))) = (List.range p.n).map (fun i => (j.cap 0, src i)));
    let gives := fun (byte : Nat → Nat) (cap : Cap) (off left : Nat) => (0 < p.n ∧ p.n ≤ left ∧ p.src = [] ∧ p.dst = (cap, off) ∧
      p.given = (List.range p.n).map (fun i => BitVec.ofNat 8 ((j.port 1).toNat / 256 ^ byte i)));
    (j.op = 0 ∨ j.op = 4 → pos < j.len → copies (fun i => soff + pos + i) (j.cap 1) (doff + pos) (j.len - pos)) ∧
    (j.op = 1 → pos < j.len → gives (fun i => (pos + i) % 8) (j.cap 1) (doff + pos) (j.len - pos)) ∧
    (j.op = 2 → 6 ≤ bits (j.port 4) 11 8 → pos < j.len →
      copies (fun i => soff + list.getD ((pos + i) / e) 0 * e + (pos + i) % e) (j.cap 1) (doff + pos) (j.len - pos)) ∧
    (j.op = 3 → pos < j.len →
      copies (fun i => soff + pos + i) (j.cap 1) (doff + list.getD (pos / e) 0 * e + pos % e) (e - pos % e)) ∧
    (j.op = 5 → 0 < j.len → let q := pos / j.len; let i0 := pos % j.len;
      copies (fun i => soff + i0 + i) (if q = 0 then j.cap 1 else j.cap (1 + q))
        ((if q = 0 then doff else (j.port (4 + q)).toNat) + i0) (j.len - i0)) ∧
    (j.op = 9 → pos < 8 → gives (fun i => (pos + i) % 8) (j.cap 0) (j.len + pos) (8 - pos)) ∧
    (j.op = 10 → pos < 8 → copies (fun i => j.len + pos + i) (j.cap 1) (doff + pos) (8 - pos))) ∧
  (∀ (s0 : State) (id : Nat) (r : Rack) (p : Part) (rd : Ready) (env : LineEnv) (q : Place), partMoves s c id r p rd env = true →
    r.job.scales = false → r.buf = none → r.blk = none → rd.dst = [(q, p.n)] → rd.slotSrc = [] → rd.slotDst = [] → 0 < p.n →
    let u := movePart s0 s c id r p rd env;
    ∃ bs d : List Byte, (p.src = [] → bs = p.given) ∧ (p.src ≠ [] → readPlaces s rd.src = .ok bs) ∧ (r.job.op ≠ 4 → d = bs) ∧
      (r.job.op = 4 → ∃ ds, readPlace s q p.n = .ok ds ∧ d = (combineBytes (bits (r.job.port 4) 5 4) ds bs).1 ∧
        ((u.core c).rack id).astat = r.astat ||| (combineBytes (bits (r.job.port 4) 5 4) ds bs).2) ∧
      ((u.core c).rack id).pos = r.pos + p.n ∧
      (∀ o a, q = .pad o a → (s.core o).fresh.tick ≠ s.tick →
        (∀ i, i < p.n → i < d.length → readByte (u.core o).mem.sp (a + i) = d.getD i 0) ∧
        (∀ x b, (x ≠ o ∨ b < a ∨ a + p.n ≤ b) → readByte (u.core x).mem.sp b = readByte (s.core x).mem.sp b) ∧
        (r.job.lpol = 0 → (u.core o).mem.labels = (s.core o).mem.labels) ∧
        (r.job.lpol = 1 → (r.job.op = 0 ∨ r.job.op = 5) → ∀ y n rest, rd.src = (y, n) :: rest →
          sget 0 (u.core o).mem.labels (a / 64) = labelAt s y) ∧ u.cellar.bytes = s.cellar.bytes ∧ u.host = s.host) ∧
      (∀ pa, q = .cellar pa → pa % 64 + p.n ≤ 64 → (s.cellar.mdOf (pa / 64)).minor ≠ 127 →
        (∀ i, i < p.n → i < d.length → readByte u.cellar.bytes (pa + i) = d.getD i 0) ∧
        (∀ b, (b < pa ∨ pa + p.n ≤ b) → d.length = p.n → readByte u.cellar.bytes b = readByte s.cellar.bytes b) ∧
        (∀ x, (u.core x).mem = (s.core x).mem) ∧ u.host = s.host) ∧
      (∀ part ga, q = .host part ga →
        (∀ i, i < p.n → i < d.length → readByte (u.hostMem part) (ga + i) = d.getD i 0) ∧
        (∀ x b, (x ≠ part ∨ b < ga ∨ ga + p.n ≤ b) → readByte (u.hostMem x) b = readByte (s.hostMem x) b) ∧
        (∀ x, (u.core x).mem = (s.core x).mem) ∧ u.cellar.bytes = s.cellar.bytes)) ∧
  (∀ (cap : Cap) (wr : Bool) (off n : Nat), isPad cap.space = true → 0 < n → (cap.base + off) % 64 + n ≤ 64 →
    let o := ownerOf c cap.space (cap.base + off);
    resolveAll s c cap wr (runsOf cap off n) = (s, .ok [(.pad o.1 o.2, n)])) ∧
  (∀ (kind : Nat) (ds xs : List Byte) (i : Nat), ds.length = xs.length → ds.length % 4 = 0 → 4 * i < ds.length →
    let word := fun (l : List Byte) => ofBytes ((l.drop (4 * i)).take 4); let a := word ds; let b := word xs;
    let out := word (combineBytes kind ds xs).1; let canon := fun (x : Nat) => if fmtIsNan fp32 x then fmtNanCode fp32 else x;
    (combineBytes kind ds xs).1.length = ds.length ∧ (kind = 0 → out = (a + b) % 2 ^ 32) ∧
    (kind = 1 → out = (roundFmt fp32 .rne (Val.sum [fmtVal fp32 a, fmtVal fp32 b]).1).1) ∧
    (kind = 2 → out = (if fmtIsNan fp32 a then canon b else if fmtIsNan fp32 b then a
      else if (fmtVal fp32 a).ltz (fmtVal fp32 b) then b else a)))

/-- 16 R303-R305, R307, 19 R381: notifies, writes to the queue page, and the selection of the next entry or context. That an overrun leaves
the tail as it was and that a notify counts whatever enable says (log entry 70), the token that an entry costs (71) and which context is chosen (89) are the
model's readings. -/
def Obligations.QueueEvents : Prop :=
  ∀ (s : State) (part q : Nat) (p : Partition), s.part part = some p → q < 16 →
  let x := p.queue q
  (∀ tail writes, p.flrAt ≠ some s.tick → flrDue s part = false → (tail - x.head).toNat ≤ x.size →
    ∃ u r, exec (.hostQueueNotify part q tail writes) s = .next u ∧ u.part part = some r ∧
      r.queue q = { x with tail := tail, kick := true } ∧ (∀ j, j ≠ q → r.queue j = p.queue j) ∧ r.tt = p.tt ∧ r.csr = p.csr) ∧
  (∀ tail writes, p.flrAt ≠ some s.tick → flrDue s part = false → x.size < (tail - x.head).toNat →
    ∃ u, exec (.hostQueueNotify part q tail writes) s = .next u ∧
      u.part part = some (p.setQueue q { x with err := 1, enable := false })) ∧
  (∀ tail writes, (p.flrAt = some s.tick ∨ flrDue s part = true) → ∃ u, exec (.hostQueueNotify part q tail writes) s = .next u ∧ u.part part = some p) ∧
  (∃ u, exec (.queueEnableWrite part q 0) s = .next u ∧ u = s.setPart part (p.setQueue q { x with enable := false })) ∧
  (x.valid = true → ∃ u, exec (.queueEnableWrite part q 1) s = .next u ∧
    u = s.setPart part (p.setQueue q { x with enable := true })) ∧
  (x.valid = false → ∃ u, exec (.queueEnableWrite part q 1) s = .next u ∧
    u = s.setPart part (p.setQueue q { x with enable := false, err := 2 })) ∧
  (∃ u, exec (.queueErrClear part q) s = .next u ∧ u = s.setPart part (p.setQueue q { x with err := 0 })) ∧
  (∀ v, x.enable = false →
    (∃ u, exec (.queuePageWrite part q .base v) s = .next u ∧ u = s.setPart part (p.setQueue q { x with base := v.toNat })) ∧
    (∃ u, exec (.queuePageWrite part q .size v) s = .next u ∧
      u = s.setPart part (p.setQueue q { x with size := v.toNat % 2 ^ 16 })) ∧
    (∃ u, exec (.queuePageWrite part q .cls v) s = .next u ∧
      u = s.setPart part (p.setQueue q { x with cls := v.toNat % 2 ^ 8 }))) ∧
  (∀ f v, x.enable = true → ∃ u r, exec (.queuePageWrite part q f v) s = .next u ∧ u.part part = some r ∧ r = p) ∧
  (∀ cls, p.tt = none → p.taken = none → p.chosen = none → p.lent = none → p.holding = false → selectQueue s part p = some (cls, q) →
    (∀ slot, p.eligibleCtx q = some slot → ∃ u r, exec (.selectTimetable part) s = .next u ∧ u.part part = some r ∧
      r.chosen = some slot ∧ r.lastClass = p.lastClass.set cls q ∧
      ∀ j, j < 16 → r.queue j = { p.queue j with kick := false }) ∧
    (p.eligibleCtx q = none → cmdBad (headEntry s part x) = false → (cmdOf q (headEntry s part x)).op = 1 →
      (payKeeper s part 1).2 = true → ∃ u r, exec (.selectTimetable part) s = .next u ∧ u.part part = some r ∧
        r.taken = some (cmdOf q (headEntry s part x)) ∧ r.queue q = { x with head := x.head + 1, kick := false } ∧
        (∀ j, j < 16 → j ≠ q → r.queue j = { p.queue j with kick := false }) ∧
        r.lastClass = p.lastClass.set cls q ∧ r.tt = none) ∧
    (p.eligibleCtx q = none → (cmdBad (headEntry s part x) = true ∨ (cmdOf q (headEntry s part x)).op = 2) →
      (payKeeper s part 2).2 = true → ∃ u r, exec (.selectTimetable part) s = .next u ∧ u.part part = some r ∧
        r.taken = none ∧ r.tt = none ∧ r.heldItems = p.heldItems ∧ r.queue q = { x with head := x.head + 1, kick := false } ∧
        (∀ j, j < 16 → j ≠ q → r.queue j = { p.queue j with kick := false }) ∧ r.lastClass = p.lastClass.set cls q ∧
        readBytes (u.hostMem part) (cmdOf q (headEntry s part x)).compl 16 =
          toBytes 2 (cmdOf q (headEntry s part x)).seq ++ [if cmdBad (headEntry s part x) = true then 3 else 0, 0] ++ toBytes 4 0 ++
            toBytes 8 (cmdOf q (headEntry s part x)).cookie.toNat)) ∧
  (let at_ := x.base + 64 * (x.head.toNat % x.size)
   let m := s.hostMem part
   let cmd := cmdOf q (headEntry s part x)
   cmd.queue = q ∧ cmd.op = readNat m at_ 1 ∧ cmd.seq = readNat m (at_ + 2) 2 ∧ cmd.image = readNat m (at_ + 8) 8 ∧
   cmd.start = readNat m (at_ + 0x10) 8 ∧ cmd.compl = readNat m (at_ + 0x18) 8 ∧ cmd.cookie.toNat = readNat m (at_ + 0x20) 8 ∧
   (cmdBad (headEntry s part x) = true ↔ (readNat m at_ 1 ≠ 1 ∧ readNat m at_ 1 ≠ 2) ∨ readNat m (at_ + 1) 1 ≠ 0 ∨
     readNat m (at_ + 4) 4 ≠ 0 ∨ readNat m (at_ + 0x28) 24 ≠ 0))

/-- 14 R264-R266, R269, R284, 15 R299, 19 R374: a launch arms its tasks or is refused, tasks start, holds come and go, and a timetable
completes or stops. That loading and arming are one step (log entry 72), the core and status of a stop (58, 59), the tokens of the keeper (71), what the
release of a RELOAD hold does (75), the statuses that more than one row could name (73, 130, 147) and what is still to end in a basin that
has tripped (170) are the model's readings; the tick that the servo maps an absolute start to is an input (14). -/
def Obligations.LaunchEvents : Prop :=
  ∀ (s : State) (part : Nat) (p : Partition), s.part part = some p →
  let record := fun (cmd : Cmd) (cls detail : Nat) =>
    toBytes 2 cmd.seq ++ toBytes 1 cls ++ [0] ++ toBytes 4 detail ++ toBytes 8 cmd.cookie.toNat
  (∀ cmd servo, cmd.start = 0 → launchT0 s cmd servo % 4 = 0 ∧ s.tick + 1200 ≤ launchT0 s cmd servo ∧
    launchT0 s cmd servo < s.tick + 1204) ∧
  (∀ cmd n, cmd.start ≠ 0 → launchT0 s cmd (some n) % 4 = 0 ∧ launchT0 s cmd (some n) ≤ n + 2 ∧ n ≤ launchT0 s cmd (some n) + 2 ∧
    (n % 4 = 2 → launchT0 s cmd (some n) % 8 = 0)) ∧
  (∀ cmd (img : Option Image) servo, launchRefusal s p cmd img servo =
    (([ (decide (p.tdi ≠ .run), stTdiNotRun),
        (p.basins.any (bitOf s.tripped), stThermal),
        (img.isNone, stImageUnreadable),
        (img.any (fun m => imageBad p (Limits.mk s.unavail (some p.csr.reachlim)) cmd.image m), stTtInvalid),
        (img.any (fun m => rateUnmet s m), stRateClass),
        (img.any (fun m => m.groupTable.any (groupBad p)), stGroupInvalid),
        (img.any (fun m => (List.range m.windows).any (windowBad s p m)), stWindowInvalid),
        (img.any (fun m => decide (m.features &&& featuresOf 0 ≠ m.features)), stFeature),
        (img.any (fun m => !s.svc.getLsbD 0 && (m.pace != 4 || !p.basins.all (fun b => s.svc.getLsbD (4 + b)))), stReduced),
        (img.any (fun m => decide (m.pace = 1) && p.clusters.any (bitOf s.limited)), stPowerLimited),
        (p.basins.any (fun b => !s.cellar.up.getLsbD (2 * b) || !s.cellar.up.getLsbD (2 * b + 1)), stStackUnavail),
        (decide (cmd.start ≠ 0) && s.towpath.tstate != 2, stTimeUnlocked),
        (decide (launchT0 s cmd servo < s.tick + 1200), stLaunchLate) ] : List (Bool × Nat)).find? (fun r => r.1)).map
      (fun r => r.2)) ∧
  (∀ servo cmd m, p.holding = false → p.taken = some cmd → readImage s part cmd.image = some m → launchRefusal s p cmd (some m) servo = none →
    ∃ u r t, exec (.launchCommit part servo) s = .next u ∧ u.part part = some r ∧ r.taken = none ∧ r.fmts = m.formatTable ∧
      r.tt = some t ∧ t = launchTimetable cmd (p.queue cmd.queue).cls (launchT0 s cmd servo) m ∧ t.armed = true ∧
      (∀ k, k < m.tasks → (u.core (m.tile k)).motor.st = .armed ∧ (u.core (m.tile k)).motor.pc = m.num (m.taskOff k + 2) 2 ∧
        (u.core (m.tile k)).motor.nextAt = launchT0 s cmd servo + m.num (m.taskOff k + 0x10) 8 ∧
        (u.core (m.tile k)).regs.c = taskCaps p (m.tile k) ∧ (u.core (m.tile k)).regs.x = [] ∧
        (u.core (m.tile k)).regs.p = 0 ∧ (u.core (m.tile k)).csr = { CoreCsr.init with gmemb := m.gmemb k } ∧
        (u.core (m.tile k)).mem.flags = []) ∧
      (∀ c, c < 256 → (s.clustersFor part p).contains (c / 8) = true → (u.core c).hand = [])) ∧
  (∀ servo cmd st, p.holding = false → p.taken = some cmd → launchRefusal s p cmd (readImage s part cmd.image) servo = some st →
    (payKeeper s part 1).2 = true →
    ∃ u r, exec (.launchCommit part servo) s = .next u ∧ u.part part = some r ∧ r.taken = none ∧ r.tt = p.tt ∧
      readBytes (u.hostMem part) cmd.compl 16 = record cmd 1 st) ∧
  (∀ c, (s.core c).startsNow s.tick = true → ∃ u, exec (.taskStart c) s = .next u ∧ SameOutsideCores s u ∧ SameCoresBut c s u ∧
    u.core c = { s.core c with
      motor := { (s.core c).motor with st := .run }
      butty := if (s.core c).butty.st = .armed then { (s.core c).butty with st := .run } else (s.core c).butty
      reachix := 0, reachtick := (s.core c).motor.nextAt }) ∧
  (∀ t, p.tt = some t →
    (∀ why, canHold s part p t why = true → ∃ u t', exec (.keeperHold part why) s = .next u ∧ u.tt part = some t' ∧
      t'.hold = some (Hold.mk why s.tick) ∧ t' = { t with hold := t'.hold, pre := t'.pre } ∧ SameTiles s u) ∧
    (∀ h, t.hold = some h → t.pre ≤ 1 → p.bottle = none → p.holding = false → ∃ u, exec (.keeperHoldRelease part) s = .next u ∧
      u.tt part = some { t with hold := none, held := t.held + (s.tick - h.since), pre := 0 } ∧
      (h.why ≠ .reload → SameTiles s u)) ∧
    (t.armed = true → t.stop = none → t.incs = [] → t.tasks.all (fun k => s.taskOver k.core) = true →
      (payKeeper s part 1).2 = true → ∃ u r, exec (.timetableComplete part) s = .next u ∧ u.part part = some r ∧ r.tt = none ∧
        r.csr.botOpen = false ∧ r.bottle = none ∧ r.ctxs = p.ctxs ∧ r.queues = p.queues ∧
        (p.holding = false → readBytes (u.hostMem part) t.cmd.compl 16 =
          if t.poisoned then record t.cmd 2 stCtxPoisoned else record t.cmd 0 0) ∧
        (p.holding = true → r.heldItems = p.heldItems ++
          [if t.poisoned then (t.cmd, 2, stCtxPoisoned) else (t.cmd, 0, 0)] ∧ u.hostMem part = s.hostMem part)) ∧
    (∀ status c, t.stop = none → haltedWith s t status = some c → ∃ u, exec (.timetableStop part status) s = .next u ∧
      u.tt part = some { t with stop := some (s.tick, c, false, status) } ∧ u.cores = s.cores) ∧
    (∀ e, t.stop = some e → t.stopped = false → ∃ u t', exec (.timetableStop part e.2.2.2) s = .next u ∧ u.tt part = some t' ∧
      t'.stopped = true ∧ t'.hold = none ∧ t'.incs = [] ∧
      ∀ k, k ∈ t.tasks → (u.core k.core).motor = (s.core k.core).motor.haltFor e.2.2.2 ∧
        (u.core k.core).butty = (s.core k.core).butty.haltFor e.2.2.2 ∧ (u.core k.core).mem = (s.core k.core).mem ∧
        (u.core k.core).racks = (s.core k.core).racks.map (fun r => (r.1, if r.2.live then { r.2 with cancel := true } else r.2)) ∧
        (u.core k.core).sends = (s.core k.core).sends.filter
          (fun x => !x.2.any (fun y => decide (y.st = .booked) && decide (y.gone = 0))) ∧
        (u.core k.core).fences = [] ∧ (u.core k.core).mons = [] ∧ (u.core k.core).garr = [] ∧
        (u.core k.core).pend = (s.core k.core).pend) ∧
    (∀ e, t.stop = some e → t.stopped = true → t.tasks.all (fun k => s.stilled k.core) = true →
      (payKeeper s part 1).2 = true → ∃ u r, exec (.timetableStop part e.2.2.2) s = .next u ∧ u.part part = some r ∧ r.tt = none ∧
        (p.holding = false → readBytes (u.hostMem part) t.cmd.compl 16 = record t.cmd 2 e.2.2.2) ∧
        (p.holding = true → r.heldItems = p.heldItems ++ [(t.cmd, 2, e.2.2.2)] ∧ u.hostMem part = s.hostMem part)))

/-- 13 R246-R251, R256-R263: beacons, departures, falls, retraining, arrivals, relays, receipts and fences. That a source is read whole
at the first departure and in what pieces a tail departs (log entry 83), that the flits of the fall tick spill (84), the flag one boundary after the data (77), relay
bookings under part 0 and the place of an item in the layby (78) and what a refused arrival leaves in its entry (79) are the model's choices. -/
def Obligations.FabricEvents : Prop :=
  ∀ (s : State),
  (∀ port n named, s.curSlot = some n → s.guardOver = false → (s.port port).state ≠ 0 → (s.port port).deadSlot ≠ some n →
    (named = some (s.slotPeer port n) → exec (.slotBeacon port named) s = .next s) ∧
    (named ≠ some (s.slotPeer port n) → ∃ u, exec (.slotBeacon port named) s = .next u ∧
      u.port port = { s.port port with deadSlot := some n })) ∧
  (∀ c id x, (s.core c).send id = some x → headDue s c id x = true →
    (x.loopback = true → ∃ u, exec (.sendDeparture c id) s = .next u ∧ SameCoresBut c s u ∧ SameOutsideCores s u ∧
      (u.core c).send id = some { x.read s c with st := if x.tail = 0 then .departed else .spilled }) ∧
    (x.loopback = false → s.carries x.port x.slot = true → s.curSlot = some x.slot → ∃ u iv, exec (.sendDeparture c id) s = .next u ∧
      SameCoresBut c s u ∧ SameOutsideCores { s with freeCtr := u.freeCtr } u ∧ (u.core c).mem = (s.core c).mem ∧
      (u.core c).send id = some { x.read s c with
        gone := x.gone + 1
        st := if x.gone + 1 = s.headFlits c id then (if x.tail = 0 then .departed else .spilled) else x.st
        phase := if x.wire = [] then sendPhase s x else x.phase
        wire := x.wire ++ sealFlits s (x.read s c) x.gone 1 iv }) ∧
    (x.loopback = false → ¬(s.carries x.port x.slot = true ∧ s.curSlot = some x.slot) → ∃ u, exec (.sendDeparture c id) s = .next u ∧
      (u.core c).send id = some { x with tail := x.tail + (s.headFlits c id - x.gone), late := true, first := s.tick })) ∧
  (∀ c id x p m n, (s.core c).send id = some x → headDue s c id x = false → tailDue s c id x = true →
    tailPort s x = some (p, m) → s.reserveTakes p m x.tail = some n →
    ∃ u iv, exec (.sendDeparture c id) s = .next u ∧ SameCoresBut c s u ∧
      (u.core c).send id = some { x.read s c with
        tail := x.tail - n
        st := if n = x.tail then .departed else .spilled
        phase := if x.wire = [] then sendPhase s x else x.phase
        wire := x.wire ++ sealFlits s (x.read s c) (x.flits - x.tail) n iv } ∧
      u.bookings = s.bookings ++ [Booking.mk p m 0 c id n false]) ∧
  (∀ port st, port < 32 → st < (s.port port).state → (st = 0 ∨ st = 1 ∨ st = 2) → ∃ u, exec (.portFallback port st) s = .next u ∧
    u.port port = { s.port port with
      state := st, fallbacks := (s.port port).fallbacks + 1, resumeSlot := s.curSlot.getD 0 + 2, fell := true }) ∧
  (∀ port st, port < 32 → (s.port port).state < st → (st = 1 ∨ st = 2 ∨ (st = 4 ∧ s.svc.getLsbD 0 = true)) →
    s.parts.any (fun q => match q.2 with
      | some p => p.tt.isSome
      | none => false) = false → ∃ u, exec (.portRetrain port st) s = .next u ∧
      u.port port = { s.port port with state := st, fell := (s.port port).fell && st != 4 } ∧ u.svc = svcPort s.svc port st ∧
      u.cores = s.cores ∧ u.parts = s.parts) ∧
  (∀ tr p, tr.loopback = false → tr.dst = s.position → tr.src ≠ s.position → s.part tr.dstPart = some p →
    holdsArrivals s tr.dstPart = false → arrivalFree s tr = true →
    (arrivalStatus s tr = 0 → ∃ u, exec (.arrival tr) s = .next u ∧
      (u.wst (recvIndex p tr)).count = (s.wst (recvIndex p tr)).count + 1 ∧
      (∃ r, u.receipts = s.receipts ++ [r] ∧ r.dst = tr.src ∧ r.since = s.tick ∧ r.status = b2n (lateBy s tr)) ∧
      ∀ c, recvTarget p (s.winCore (recvIndex p tr)) = .core c →
        (∃ q, q ∈ (u.core c).pend ∧ q.due = s.tick + 1 ∧
          q.act = .flagInc (s.winFlag (recvIndex p tr)) (s.winInc (recvIndex p tr))) ∧
        (u.core c).motor = (s.core c).motor ∧ (u.core c).regs = (s.core c).regs) ∧
    (arrivalStatus s tr ≠ 0 → ∃ u, exec (.arrival tr) s = .next u ∧ u.cores = s.cores ∧ u.cellar = s.cellar ∧ u.host = s.host ∧
      (tr.window < p.csr.fwinCount → s.winDir (recvIndex p tr) = 2 →
        (u.wst (recvIndex p tr)).fail = true ∧ (u.wst (recvIndex p tr)).last = arrivalStatus s tr) ∧
      (s.winDir (recvIndex p tr) ≠ 2 → u.wstat = s.wstat))) ∧
  (∀ tr n, s.curSlot = some n → tr.dst ≠ s.position → tr.src ≠ s.position → ∃ u a, exec (.laybyLanding tr) s = .next u ∧
    u.layby = s.layby ++ [LayItem.mk tr n (flitsOf tr.data.length) a] ∧
    (∀ d, (u.core d).regs = (s.core d).regs ∧ (u.core d).mem = (s.core d).mem)) ∧
  (∀ i x p m n, s.layby[i]? = some x → laybyFirst s i x = true → laybyPort s x = some (p, m) → s.relayTakes p m x.left = some n →
    ∃ u, exec (.laybyRelay (.here i)) s = .next u ∧ u.bookings = s.bookings ++ [Booking.mk p m 0 noCore 0 n false] ∧
      (n = x.left → u.layby = s.layby.eraseIdx i) ∧ (n ≠ x.left → u.layby = s.layby.set i { x with left := x.left - n }) ∧
      u.cores = s.cores) ∧
  (∀ c id x v, (s.core c).send id = some x → x.st = .departed → x.tail = 0 → x.relayed = false → x.via = some v →
    ∃ u, exec (.laybyRelay (.away c id)) s = .next u ∧ SameCoresBut c s u ∧ (u.core c).send id = some { x with relayed := true } ∧
      u.part x.part = (s.part x.part).map (fun p => { p with bindings := returnCredit v x.flits p.bindings })) ∧
  (∀ c id x status, (s.core c).send id = some x → x.st = .departed → x.tail = 0 → x.loopback = false → status ≤ 5 →
    ¬(x.late = true ∧ status = 0) → ∃ u, exec (.receipt c id status) s = .next u ∧ (u.core c).send id = none ∧
      u.wst x.entry = (s.wst x.entry).receipt status x.late ∧ (u.core c).motor = (s.core c).motor ∧
      (u.core c).mem = (s.core c).mem ∧ ∀ d g, g ∈ (u.core d).guards → ¬(g.core = c ∧ g.isRack = false ∧ g.id = id)) ∧
  (∀ c f fs, fenceReady s c = true → (s.core c).fences = f :: fs → ∃ u, exec (.fenceComplete c) s = .next u ∧
    (u.core c).fences = fs ∧ (u.core c).flag f.flag = (s.core c).flag f.flag + BitVec.ofNat 32 f.inc ∧
    (∀ j, j ≠ f.flag → (u.core c).flag j = (s.core c).flag j) ∧ SameCoresBut c s u ∧ SameOutsideCores s u)

/-- 16 R314, R316: the steps of a pre-emption, eligibility and restore. Which step clears the cores, takes the slot and points the windows at the
frames (log entry 87) and what ends a restore (88, 125) are the model's readings. -/
def Obligations.PreemptEvents : Prop :=
  ∀ (s : State) (part : Nat) (p : Partition), s.part part = some p →
  (∀ t, p.tt = some t →
    (canHold s part p t .preempt = true → ∃ u t', exec (.preempt part 1) s = .next u ∧ u.tt part = some t' ∧ t'.pre = 1 ∧
      t'.hold = some (Hold.mk .preempt s.tick) ∧ SameTiles s u) ∧
    (t.hold.isSome = true → t.stop = none → p.holding = false →
      (t.pre = 1 → ∃ u, exec (.preempt part 2) s = .next u ∧ u.tt part = some { t with pre := 2 } ∧ SameTiles s u) ∧
      (t.pre = 2 → settledAll s t = true → ∃ u, exec (.preempt part 3) s = .next u ∧ u.tt part = some { t with pre := 3 }) ∧
      (t.pre = 2 → settledAll s t = false → exec (.preempt part 3) s = .next s) ∧
      (t.pre = 3 → ∀ slot, p.freeCtx = some slot → ∃ u r, exec (.preempt part 4) s = .next u ∧ u.part part = some r ∧
        sget none r.ctxs slot = some (contextOf s t)) ∧
      (t.pre = 4 → t.heldArr = [] → ∃ u t', exec (.preempt part 5) s = .next u ∧ u.tt part = some t' ∧ t'.pre = 5 ∧
        t'.windows = 0 ∧ SameTiles s u) ∧
      (t.pre = 5 → ∃ u r, exec (.preempt part 6) s = .next u ∧ u.part part = some r ∧ r.tt = none ∧ r.ctxs = p.ctxs ∧
        SameTiles s u))) ∧
  (∀ slot x, sget none p.ctxs slot = some x →
    (x.due s.tick p.csr.rdelay = true → ∃ u r, exec (.contextEligible part slot) s = .next u ∧ u.part part = some r ∧
      sget none r.ctxs slot = some { x with eligible := true } ∧ r.tt = p.tt) ∧
    (x.due s.tick p.csr.rdelay = false → ∃ u r, exec (.contextEligible part slot) s = .next u ∧ u.part part = some r ∧
      sget none r.ctxs slot = some x) ∧
    (p.chosen = some slot → p.tt = none → p.lent = none → p.holding = false →
      let src := x.tilesOf s part; let old := ((s.part src).map (fun y => y.basins)).getD [];
      (∀ l m home y, readFrames s part p slot (x.tt.tasks.map (fun k => k.core)) = some l → readImage s part x.tt.cmd.image = some m →
        restoreRefusal s p x old (some l) (some m) = none → s.part home = some y →
        ((l.any (fun f => tileUnfit s f.1 f.2) = false ∧ home = src ∧ tilesFree s part src = true) ∨
          (l.any (fun f => tileUnfit s f.1 f.2) = true ∧ replacement s part src old l = some home)) →
        ∃ u r, exec (.restore part slot) s = .next u ∧ u.part part = some r ∧ r.tt = some (x.tt.moved (relocate old y.basins)) ∧
          r.chosen = none ∧ sget none r.ctxs slot = none ∧ r.fmts = m.formatTable ∧
          (home ≠ part → ∃ z, u.part home = some z ∧ z.lent = some part)) ∧
      (∀ st, restoreRefusal s p x old (readFrames s part p slot (x.tt.tasks.map (fun k => k.core)))
          (readImage s part x.tt.cmd.image) = some st → (payKeeper s part 1).2 = true →
        ∃ u r, exec (.restore part slot) s = .next u ∧ u.part part = some r ∧ r.tt = none ∧ r.chosen = none ∧
          sget none r.ctxs slot = none)))

/-- 18 R347-R350, R361, R363, R366: promotions, the cellar walk, destroyed and derived keys, and the ends of system operations. When a
waiting keyrot is promoted and when a retiring key goes (log entries 90, 133) and the messages of an fbind (134, with 97) are the model's readings. -/
def Obligations.KeyEvents : Prop :=
  ∀ (s : State) (part : Nat) (p : Partition), s.part part = some p →
  (∀ stream x, p.keysOf stream = some x →
    (x.canPromote = true → ((wantsAt s part stream).isSome = true ∨ (wantsSlot s p part stream).isSome = true) →
      ∃ u r, exec (.keyPromotion part stream) s = .next u ∧ u.part part = some r ∧ r.keysOf stream = some x.promote ∧
        (stream = .cellar → r.walk = p.stacks.map (fun _ => 0) ∧ r.rewritten = 0) ∧ u.cellar = s.cellar) ∧
    (x.canPromote = false → exec (.keyPromotion part stream) s = .next s) ∧
    (retiringFree s part p stream x = true → ∃ u r, exec (.retiringKeyDestroyed part stream) s = .next u ∧
      u.part part = some r ∧ r.keysOf stream = some { x with retiring := 0, retiringKey := [] }) ∧
    (x.active ≠ 0 → x.pending = 0 → x.retiring = 0 → ∃ u r, exec (.pendingKeyDerive part stream) s = .next u ∧
      u.part part = some r ∧ r.keysOf stream = some { x with
        pending := x.active + 1, pendingKey := s.deriveKey p stream (x.active + 1) } ∧ u.cores = s.cores)) ∧
  (∀ n i st b, p.walk[n]? = some i → p.stacks[n]? = some st → i ≤ b → b < stackBlocks →
    walkClear s.cellar st (p.cellarKeys.retiring % 2 == 1) i b = true →
    s.cellar.blockHas (st * stackBlocks + b) (p.cellarKeys.retiring % 2 == 1) = true →
    ∃ u r, exec (.cellarKeyWalk part (n * stackBlocks + b)) s = .next u ∧ u.part part = some r ∧
      r.walk = walkTo p.walk n (b + 1) ∧
      u.cellar = s.cellar.rewriteBlock (p.cellarKeys.active % 2 == 1) (st * stackBlocks + b) ∧
      r.rewritten = p.rewritten + 1 + s.cellar.poisons (st * stackBlocks + b) * 2 ^ 48 ∧ u.cores = s.cores) ∧
  (∀ c i o env s1 v, sysAt s c i = some (o, none) → o.issue + 2 ≤ s.tick → recordFree s c none o = true →
    racksBefore s c o.seq (o.pours s c) = true → sysEnd (meetEnv s (issuerOf s c none o) env o) (issuerOf s c none o) env o = (s1, some v) →
    ∃ u n, exec (.systemOpComplete c i env) s = .next u ∧ (u.core c).sysops = swapOp o none (s1.core c).sysops ∧
      Pend.mk (s1.tick + 1) s1.tick n (.flagInc o.flag o.inc) ∈ (u.core c).pend ∧ (u.core c).motor = (s1.core c).motor ∧
      (u.core c).butty = (s1.core c).butty ∧ (u.core c).regs = (s1.core c).regs) ∧
  (∀ c i o s1 b msg, sysAt s c i = some (o, none) → o.op = 11 →
    sysRead s (issuerOf s c none o) (SysEnv.mk false false 0) o.acap 0 policyLen = (s1, .ok b) → policyBad s b = false →
    (fbBound o = true ∨ handleUsed s o.part b = false) → (fbByPeer o = true ∨ s.tick < o.issue + fbindLimit) →
    ∃ u, exec (.fbindExchange c i msg) s = .next u ∧
      (u.core c).sysops = swapOp o (some (fbindStep s1 b o msg).2) (s1.core c).sysops ∧ (u.core c).regs = (s1.core c).regs) ∧
  (∀ c i o, sysAt s c i = some (o, none) → o.op = 11 → fbBound o = false → fbRejected o = false → fbByPeer o = false →
    o.issue + fbindLimit ≤ s.tick → recordFree s c none o = true → ∃ u n, exec (.fbindTimeout c i) s = .next u ∧
      (u.core c).sysops = swapOp o none (s.core c).sysops ∧
      Pend.mk (s.tick + 1) s.tick n (.flagInc o.flag o.inc) ∈ (u.core c).pend)

/-- 19 R376, R377, R379-R383, 18 R355: take-overs of keepers and complexes, signed commands and a function-level reset. What a reload keeps
(log entry 99), which heartbeat is missed and when a take-over ends (100), a keeper reset (101), the scrub of a partition reset or FLR in one step (102), a package
reset (103), a MIGRATE with cancel (105) and custody and partitions at a failover (119) are the model's readings. -/
def Obligations.TakeoverEvents : Prop :=
  ∀ (s : State),
  (∀ b p, b < 4 → s.part (s.partOfBasin b) = some p →
    ((s.core (s.activeKeeper b)).halted = false → (s.core (s.activeKeeper b)).butty.st ≠ .idle →
      ∃ u r, exec (.keeperHeartbeatTimeout b) s = .next u ∧ (u.core (s.activeKeeper b)).halted = true ∧
        u.part (s.partOfBasin b) = some r ∧ r.csr.downAt b = some s.tick ∧ r.csr.keepAlone = p.csr.keepAlone ∧ r.tt = p.tt ∧
        (p.basins.headD 0 = b → r.holding = !p.csr.keepAlone.contains b)) ∧
    (∀ ok, p.csr.holdAt b = true → takeoverRipe s b = true →
      ∃ u r, exec (.keeperTakeover b ok) s = .next u ∧ u.part (s.partOfBasin b) = some r ∧ r.csr.downAt b = none ∧
        r.csr.keepAlone.contains b = !ok ∧ r.csr.keepCount = p.csr.keepCount + 1 ∧ r.tt = p.tt ∧ r.ctxs = p.ctxs ∧
        (p.basins.headD 0 = b → r.holding = false ∧ r.heldItems = []) ∧ (p.basins.headD 0 ≠ b → r.heldItems = p.heldItems) ∧
        ∃ c, (c = 256 + 2 * b ∨ c = 257 + 2 * b) ∧ (u.core c).butty.st = .run ∧ (u.core c).butty.pc = 16) ∧
    (∀ ok, p.csr.holdAt b = true → takeoverRipe s b = false → exec (.keeperTakeover b ok) s = .next s) ∧
    (∀ ok, keeperStopped s b = true → p.csr.holdAt b = false →
      ∃ u r, exec (.keeperTakeover b ok) s = .next u ∧ u.part (s.partOfBasin b) = some r ∧ r.csr.downAt b = none ∧
        (u.core (256 + 2 * b)).butty.st = .run ∧ (u.core (256 + 2 * b)).butty.pc = 0 ∧
        ∀ t, p.tt = some t → ∃ t', r.tt = some t' ∧ t'.stop.isSome = true)) ∧
  (tableDue s = true → exec .stateTableWrite s = .next { s with towpath := { s.towpath with table := some (tableNow s) } }) ∧
  (s.towpath.b = .standby → (s.towpath.a = .active ∨ s.towpath.a = .failed) → ∃ u, exec .towpathFailover s = .next u ∧
    u.towpath.b = .active ∧ u.towpath.a = .failed ∧ SameTiles s u ∧
    ∀ x, s.towpath.table = some x → u.towpath.spdm.sessions = x.sessions ∧ u.towpath.tstate = x.tstate ∧ u.towpath.terr = x.terr) ∧
  (s.towpath.a = .standby → (s.towpath.b = .active ∨ s.towpath.b = .failed) → ∃ u, exec .towpathFailover s = .next u ∧
    u.towpath.a = .active ∧ u.towpath.b = .failed ∧ SameTiles s u ∧
    ∀ x, s.towpath.table = some x → u.towpath.spdm.sessions = x.sessions ∧ u.towpath.tstate = x.tstate ∧ u.towpath.terr = x.terr) ∧
  (∀ (cmd : Command), (commandOk s cmd = false ∨ cmd.counterKept = false) →
    exec (.keeperReset cmd) s = .next (s.answer stCmdRejected) ∧ exec (.partitionReset cmd) s = .next (s.answer stCmdRejected) ∧
    exec (.packageReset cmd) s = .next (s.answer stCmdRejected) ∧
    (∀ ok, exec (.liveUpdate cmd ok) s = .next (s.answer stCmdRejected)) ∧
    (∀ l, exec (.migrate cmd l) s = .next (s.answer stCmdRejected))) ∧
  (∀ (cmd : Command), commandOk s cmd = true → cmd.counterKept = true →
    (cmd.op = 1 → ∃ u, exec (.keeperReset cmd) s = .next u ∧ u.towpath.counter = cmd.counter ∧
      (u.core (256 + 2 * cmd.target)).butty.st = .run ∧ (u.core (256 + 2 * cmd.target)).butty.pc = 0 ∧
      (u.core (257 + 2 * cmd.target)).butty.st = .idle) ∧
    (∀ p, cmd.op = 2 → s.part cmd.target = some p → ∃ u r, exec (.partitionReset cmd) s = .next u ∧
      u.towpath.counter = cmd.counter ∧ u.part cmd.target = some r ∧ r.tt = none ∧ r.taken = none ∧ r.ctxs = [] ∧ r.queues = [] ∧
      r.tdi = .unlocked ∧ r.cellarKeys = Keys.none ∧ r.bindings = [] ∧ r.custA = Custody.none ∧ r.custB = Custody.none ∧
      r.basins = p.basins ∧ (∀ c, c < 256 → c ∈ p.tileCores → u.core c = Core.init)) ∧
    (cmd.op = 3 → ∃ u, exec (.packageReset cmd) s = .next u ∧ u.towpath.counter = cmd.counter ∧ u.parts = [] ∧ u.logs = [] ∧
      u.tick = s.tick ∧ u.cellar = State.reset.cellar ∧ u.ports = [] ∧ u.host = s.host ∧ u.escrow = []) ∧
    (∀ f, cmd.op = 4 → s.towpath.staged = some f → s.towpath.minSecver ≤ f.secver → f.tableVersion = s.towpath.running.tableVersion →
      s.towpath.a = .active → s.towpath.b = .standby →
      ∃ u, exec (.liveUpdate cmd true) s = .next u ∧ u.towpath.a = .standby ∧ u.towpath.b = .active ∧ u.towpath.running = f ∧
        u.towpath.staged = none ∧ (u.core 268).butty.st = .run ∧ (u.core 268).butty.pc = 0 ∧
        ∀ n p, s.part n = some p → u.part n = some { p with custA := Custody.none, custB := p.custA }) ∧
    (∀ ok, cmd.op = 4 → (s.towpath.staged = none ∨ ok = false ∨ ∃ f, s.towpath.staged = some f ∧
        (f.secver < s.towpath.minSecver ∨ f.tableVersion ≠ s.towpath.running.tableVersion)) →
      ∃ u, exec (.liveUpdate cmd ok) s = .next u ∧ u.towpath.spdm.reply = toBytes 2 stUpdRefused ∧ u.cores = s.cores ∧
        u.parts = s.parts ∧ u.towpath.staged = s.towpath.staged) ∧
    (∀ p l, cmd.op = 5 → s.part cmd.target = some p →
      (migrateBlocked s p l = false → ∃ u, exec (.migrate cmd l) s = .next u ∧ u.towpath.spdm.reply = toBytes 2 0 ∧
        u.cores = s.cores ∧ u.parts = s.parts) ∧
      (migrateBlocked s p l = true → (cmd.flags = 0 ∨ p.tt = none) → ∃ u, exec (.migrate cmd l) s = .next u ∧
        u.towpath.spdm.reply = toBytes 2 stMigrBlocked ∧ u.parts = s.parts) ∧
      (∀ t, migrateBlocked s p l = true → cmd.flags = 1 → p.tt = some t →
        (blockedLocks s p t l = [] → ∃ u, exec (.migrate cmd l) s = .next u ∧ u.towpath.spdm.reply = toBytes 2 stMigrBlocked ∧
          u.parts = s.parts) ∧
        (blockedLocks s p t l ≠ [] → (∀ g, g ∈ blockedLocks s p t l → p.preempts t g.num = false) →
          migrateBlocked s { p with tt := none } l = false → ∃ u t', exec (.migrate cmd l) s = .next u ∧
            u.towpath.spdm.reply = toBytes 2 0 ∧ u.tt cmd.target = some t' ∧ t'.stop.isSome = true ∧ u.cores = s.cores)))) ∧
  (∀ part p, s.part part = some p → ∃ u r, exec (.flr part) s = .next u ∧ u.part part = some r ∧ r.tt = none ∧ r.ctxs = [] ∧
    r.queues = [] ∧ r.tdi = .unlocked ∧ r.custA = Custody.none ∧ r.custB = Custody.none ∧ r.cellarKeys = Keys.none ∧
    (p.lent = none → u.host = s.host) ∧ (p.lent ≠ some part → u.hostMem part = s.hostMem part) ∧ r.flrAt = some s.tick ∧
    (∀ c, c ∈ p.tileCores → u.core c = Core.init) ∧
    (∀ pa, s.ownsPa part pa = true → readByte u.cellar.bytes pa = 0))

/-- 01 R18, R20, R24, R33, 12 R242, 19 R379, R382, R384: pages, partitions, cold reset and bring-up. The layout of a page's copy (log entry 157), what an
eviction leaves in the cellar and what a failed return does (104), the PARTITION_BUSY answers (106, 136), full service (107) and what a cold reset keeps (103) are the
model's choices. -/
def Obligations.PartitionEvents : Prop :=
  ∀ (s : State),
  (∀ part p page, s.part part = some p → s.ownsPa part page.pa = true → page.pa % evictSize = 0 →
    sget none p.evicted page.pa = none → (payKeeper s part pageTokens).2 = true →
    ∃ u r e, exec (.pageEviction part page) s = .next u ∧ u.part part = some r ∧ sget none r.evicted page.pa = some e ∧
      e.version = p.evictVer + 1 ∧ r.evictVer = p.evictVer + 1 ∧ e.copy = evictCopy s page.pa (p.evictVer + 1) ∧
      readBytes (u.hostMem part) page.host e.copy.length = e.copy ∧
      (∀ a, page.pa ≤ a → a < page.pa + evictSize → readByte e.bytes a = readByte s.cellar.bytes a) ∧
      (∀ l, l ∈ pageLines page.pa → sget 0 e.labels l = (s.cellar.mdOf l).label) ∧
      u.cellar = s.cellar ∧ ∀ d, (u.core d).regs = (s.core d).regs ∧ (u.core d).mem = (s.core d).mem) ∧
  (∀ part p pa v ok e, s.part part = some p → sget none p.evicted pa = some e → (payKeeper s part pageTokens).2 = true →
    (∀ l, l ∈ pageLines pa → (s.cellar.mdOf l).minor ≠ 127) → pa % 64 = 0 →
    (ok = true → v = e.version → readBytes (s.hostMem part) e.at_ copySize = e.copy →
      ∃ u r, exec (.pageReturn part pa v ok) s = .next u ∧ u.part part = some r ∧ sget none r.evicted pa = none ∧ r.tt = p.tt ∧
        (∀ l, l ∈ pageLines pa → e.bad.contains l = false →
          u.cellar.mdOf l = LineMd.mk (sget 0 e.labels l) ((s.cellar.mdOf l).minor + 1) p.phase 0 ∧
          ∀ i, i < 64 → readByte u.cellar.bytes (64 * l + i) = readByte e.bytes (64 * l + i)) ∧
        (∀ l, l ∈ pageLines pa → e.bad.contains l = true → u.cellar.lineOk l = false)) ∧
    (¬(ok = true ∧ v = e.version ∧ readBytes (s.hostMem part) e.at_ copySize = e.copy) →
      ∃ u r, exec (.pageReturn part pa v ok) s = .next u ∧ u.part part = some r ∧ sget none r.evicted pa = none ∧
        (∀ t, p.tt = some t → r.tt = some { t with poisoned := t.poisoned || e.owner == some t.cmd }) ∧
        (p.contexts = [] → ∀ l, l ∈ pageLines pa → u.cellar.lineOk l = false))) ∧
  (∀ basins, basins.any (basinBusy s) = true → exec (.partitionCreate basins) s = .next (s.answer stPartBusy)) ∧
  (∀ basins, basins.any (basinBusy s) = false → basins ∈ basinSets →
    basins.any (fun b => (s.part (s.partOfBasin b)).isSome || basinDirty s b) = false →
    ∃ u, exec (.partitionCreate basins) s = .next u ∧ u.part (basins.headD 0 + 1) = some (Partition.init basins) ∧
      (∀ b, b ∈ basins → (u.core (256 + 2 * b)).butty.st = .run ∧ (u.core (256 + 2 * b)).butty.pc = 0 ∧
        (u.core (257 + 2 * b)).butty.st = .idle) ∧ u.cellar = s.cellar) ∧
  (∀ part p, s.part part = some p → p.basins.any (basinBusy s) = true →
    exec (.partitionDissolve part) s = .next (s.answer stPartBusy)) ∧
  (∀ part p, s.part part = some p → p.basins.any (basinBusy s) = false → p.csr.cfScrubbed = true → p.tdi = .unlocked →
    ∃ u, exec (.partitionDissolve part) s = .next u ∧ u.part part = none ∧ u.cellar = s.cellar) ∧
  (∀ okA okB, ∃ u, exec (.coldReset okA okB) s = .next u ∧ u.tick = 0 ∧ u.parts = [] ∧ u.ports = [] ∧
    u.cellar = State.reset.cellar ∧
    (okA = true → u.towpath.a = .active ∧ u.logs = []) ∧
    (okA = false → okB = true → u.towpath.a = .inReset ∧ u.towpath.b = .active ∧
      (sget Log.empty u.logs 0x234).recs.map Rec.code = [evBootFailover])) ∧
  (∀ pm sm bm, ∃ u, exec (.fullService pm sm bm) s = .next u ∧ u.cores = s.cores ∧ u.parts = s.parts ∧
    u.svc.getLsbD 0 = (s.svc.getLsbD 0 || (bm % 16 == 15 && s.parts.all (fun q => match q.2 with
      | some p => p.tt.isNone
      | none => true))) ∧
    (∀ i, i < 32 → (s.port i).fell = true → s.parts.any (fun q => match q.2 with
      | some p => p.tt.isSome
      | none => false) = true → u.port i = s.port i)) ∧
  (∀ st h, st < 8 → ∃ u, exec (.cellarChannelDegrade st h) s = .next u ∧ u.cellar.fast.getLsbD st = false ∧
    u.cellar.up.getLsbD st = (h && s.cellar.up.getLsbD st) ∧ u.cellar.bytes = s.cellar.bytes ∧ u.cores = s.cores) ∧
  (∀ c, isTile c = true → ∃ u, exec (.tileCoreUnavailable c) s = .next u ∧ u = { s with unavail := s.unavail ||| 2 ^ c }) ∧
  (∀ img, ∃ u, exec (.pldmFirmwareUpdate img) s = .next u ∧ u = { s with towpath := { s.towpath with staged := some img } })

/-- 01 R27-R31, 14 R268, 16 R310, R311, 20 R386, R390: time messages, power, heat, tokens, health and keeper bottling. The TAI instant of a
tick (log entry 14, DESIGN CHOICE), the core that a thermal stop names (58), what a source warns and when (108) and when a bottle begins (109) are the model's. -/
def Obligations.PowerTimeHealthEvents : Prop :=
  ∀ (s : State),
  (∀ st terr n, st ≤ 3 → ∃ u, exec (.ptpMessage st terr n) s = .next u ∧
    u = { s with towpath := { s.towpath with tstate := st, terr := min terr 65535, taiBase := n - s.tick / 3 } }) ∧
  (∀ e, e ≤ s.tick → ∃ u, exec (.ppsPulse e) s = .next u ∧ u = { s with towpath := { s.towpath with pps := e } }) ∧
  (∀ terr, s.towpath.tstate = 2 → ∃ u, exec (.holdover terr) s = .next u ∧
    u = { s with towpath := { s.towpath with tstate := 3, terr := min terr 65535 } }) ∧
  (∀ v, (v < 40000 ∨ 60000 < v) → ∃ u, exec (.inputVoltage v) s = .next u ∧ u.inReset = true ∧ u.cores = s.cores) ∧
  (∀ v, 40000 ≤ v → v ≤ 60000 → exec (.inputVoltage v) s = .next s) ∧
  (∀ l, ∃ u, exec (.powerLimitAssert l) s = .next u ∧ (∀ i, i < 32 → bitOf u.limited i = (bitOf s.limited i || l.contains i)) ∧
    u = { s with limited := u.limited }) ∧
  (∃ u, exec .powerLimitClear s = .next u ∧ u = { s with limited := 0 }) ∧
  (∀ b, b < 4 → ∃ u, exec (.thermalTrip b) s = .next u ∧ bitOf u.tripped b = true ∧ u.cores = s.cores ∧
    ∀ t, s.tt (s.partAt b) = some t → ∃ t', u.tt (s.partAt b) = some t' ∧ t'.stop.isSome = true ∧
      (t.stop = none → t'.stop = some (s.tick, t.firstCore, true, stThermal))) ∧
  (∀ src i n p, reached s src i = true → (n, some p) ∈ s.parts → s.part n = some p → ∃ u r,
    exec (.failureWarning src i) s = .next u ∧ u.part n = some r ∧ (warns s n p src i = true → r.csr.botWarn = true) ∧
    u.cores = s.cores) ∧
  (∀ i, i < 8 → ∃ u, exec (.healthEvent .cellar i) s = .next u ∧ u.count .cellar i = s.count .cellar i + 1) ∧
  (∀ i, i < 32 → ∃ u, exec (.healthEvent .lane i) s = .next u ∧ u.count .lane i = s.count .lane i + 1 ∧
    u.port i = { s.port i with lerr := (s.port i).lerr + 1 }) ∧
  (∀ i, i < 32 → ∃ u, exec (.healthEvent .droop i) s = .next u ∧ u.count .droop i = s.count .droop i + 1) ∧
  (∀ i n, i < 4 → ∃ u, exec (.healthEvent (.temperature n) i) s = .next u ∧ u.count .temperature i = n) ∧
  (s.health.windowEnd ≤ s.tick → ∃ u, exec .healthWindowEnd s = .next u ∧ s.tick < u.health.windowEnd ∧
    (∀ src i, src ≠ .temperature → u.count src i = 0) ∧ ∀ i, u.count .temperature i = s.count .temperature i) ∧
  (s.budgetAt ≤ s.tick → ∃ u, exec .budgetPeriod s = .next u ∧ s.tick < u.budgetAt ∧ u.budgetAt % 300000 = 0 ∧ u.cores = s.cores ∧
    ∀ n p, s.part n = some p → u.part n = some { p with host := p.host.period, layby := p.layby.period }) ∧
  (∀ part p t, s.part part = some p → p.tt = some t → p.holding = false → t.stop = none → p.bottle = none →
    bottleWanted s p = true →
    (bottleReady s t = false → canHold s part p t .bottle = true → ∃ u t', exec (.keeperBottling part .start) s = .next u ∧
      u.tt part = some t' ∧ t'.hold = some (Hold.mk .bottle s.tick)) ∧
    (∀ es, bottleReady s t = true → declaration s part p = some es → p.areaSize ≠ 0 → bottleEnd es ≤ p.areaSize →
      ∃ u r, exec (.keeperBottling part .start) s = .next u ∧ u.part part = some r ∧
        r.bottle = some (BottleJob.mk 0 0 0 (2 ^ 20) []) ∧ r.csr.bottling = true ∧ r.csr.botWarn = false ∧
        r.lastBottle = some s.tick) ∧
    (bottleReady s t = true → declaration s part p = none → ∃ u t', exec (.keeperBottling part .start) s = .next u ∧
      u.tt part = some t' ∧ t'.hold = none ∧ (u.part part).bind (fun r => r.bottle) = none))

/-- 18 R345, R354, R355, R367: the states of a device interface, and a failed tree node. That the end of all work and the scrub are one step
(log entry 102, DEDUCED) is the model's reading. -/
def Obligations.TdispEvents : Prop :=
  ∀ (s : State) (part : Nat) (p : Partition), s.part part = some p →
  (p.tdi = .unlocked → exec (.lockInterfaceRequest part) s = .next (s.setPart part { p with tdi := .locked })) ∧
  (p.tdi = .locked → (s.seedOf p).isSome = true → ∃ u r, exec (.startInterfaceRequest part) s = .next u ∧ u.part part = some r ∧
    r.tdi = .run ∧ (p.cellarKeys.active = 0 → r.cellarKeys.active = 1) ∧ r.tt = p.tt ∧ u.cores = s.cores) ∧
  ((p.tdi ≠ .locked ∨ s.seedOf p = none) → ∃ u, exec (.startInterfaceRequest part) s = .next u ∧ u.part part = some p) ∧
  ((p.tdi = .run ∨ p.tdi = .error) → ∃ u r, exec (.stopInterfaceRequest part) s = .next u ∧ u.part part = some r ∧
    r.tdi = .unlocked ∧ r.tt = none ∧ r.ctxs = [] ∧ r.custA = Custody.none ∧ r.custB = Custody.none ∧ r.cellarKeys = Keys.none ∧ r.bindings = [] ∧
    (∀ c, c ∈ p.tileCores → u.core c = Core.init) ∧ (∀ pa, s.ownsPa part pa = true → readByte u.cellar.bytes pa = 0)) ∧
  ((p.tdi = .unlocked ∨ p.tdi = .locked) →
    exec (.stopInterfaceRequest part) s = .next (s.setPart part { p with tdi := .unlocked })) ∧
  (exec (.getDeviceInterfaceReport part) s = .next (s.reply (attestReport s part p (List.replicate 32 0)))) ∧
  (∀ cause, p.tdi = .run → ∃ u r, exec (.tdiError (TdiFault.mk part cause)) s = .next u ∧ u.part part = some r ∧ r.tdi = .error ∧
    r.tt = none ∧ r.ctxs = [] ∧ r.custA = Custody.none ∧ r.custB = Custody.none ∧ r.cellarKeys = Keys.none ∧ r.bindings = [] ∧
    (∀ c, c ∈ p.tileCores → u.core c = Core.init) ∧ (∀ pa, s.ownsPa part pa = true → readByte u.cellar.bytes pa = 0)) ∧
  (∀ cause t, p.tdi = .run → p.tt = some t → p.lent = none → p.taken = none → p.ctxs = [] → p.holding = false →
    (payKeeper s part 1).2 = true → ∃ u, exec (.tdiError (TdiFault.mk part cause)) s = .next u ∧
      readBytes (u.hostMem part) t.cmd.compl 16 =
        toBytes 2 t.cmd.seq ++ [2, 0] ++ toBytes 4 stTdiError ++ toBytes 8 t.cmd.cookie.toNat) ∧
  (∀ cause, p.tdi ≠ .run → ∃ u, exec (.tdiError (TdiFault.mk part cause)) s = .next u ∧ u.part part = some { p with tdi := .error } ∧
    u.cores = s.cores ∧
    (∀ st level idx, cause = .tree st level idx → st < 8 → level < 7 → idx < 2 ^ (21 - 3 * level) → s.partOfStack st = part →
      u.cellar = s.cellar.strike st level idx))

/-- 18 R353: the SPDM responder. The response codes are PRESUMED from DSP0274 (log entry 110); the secret that a key update derives and the layout of
what a challenge and the measurements sign are the model's choice (156). -/
def Obligations.SpdmEvents : Prop :=
  ∀ (s : State),
  exec .getVersion s = .next (respond (s.modSpdm (fun x => { x with version := true, caps := false, algs := [] })) 0x04 []) ∧
  (s.towpath.spdm.version = true → exec .getCapabilities s = .next (respond (s.modSpdm (fun x => { x with caps := true })) 0x61 [])) ∧
  (∀ l, s.towpath.spdm.version = true → s.towpath.spdm.caps = true → ∃ u, exec (.negotiateAlgorithms l) s = .next u ∧
    u.towpath.spdm.algs = offeredAlgs.filter (fun a => l.contains a) ∧ u.cores = s.cores) ∧
  (s.towpath.spdm.ready = true →
    exec .getDigests s = .next (respond s 0x01 (fit 32 (Config.shake256 Config.certChain 32))) ∧
    (∀ o n, exec (.getCertificate o n) s = .next (respond s 0x02 ((Config.certChain.drop o).take n))) ∧
    (∀ nonce, ∃ u, exec (.challenge nonce) s = .next u ∧
      u.towpath.spdm.reply = [0x13, 0x03] ++ (nonce ++ fit 29792 (Config.slhSign identityKey nonce))) ∧
    (∀ nonce, ∃ u, exec (.getMeasurements nonce true) s = .next u ∧
      u.towpath.spdm.reply = [0x13, 0x60] ++ ((measurements s ++ nonce) ++
        fit 29792 (Config.slhSign s.attestKey (measurements s ++ nonce)))) ∧
    (∀ nonce, exec (.getMeasurements nonce false) s = .next (respondError s)) ∧
    (∀ id x, s.towpath.spdm.session id = none → ∃ u, exec (.keyExchange id false x) s = .next u ∧
      u.towpath.spdm.session id = some (Session.mk id false 0 (Config.mlkemDecap x))) ∧
    (∀ id x, exec (.keyExchange id true x) s = .next (respondError s))) ∧
  (s.towpath.spdm.ready = false → exec .getDigests s = .next (respondError s) ∧
    (∀ id x, exec (.keyExchange id false x) s = .next (respondError s))) ∧
  (∀ id y, s.towpath.spdm.session id = some y →
    (y.established = false → ∃ u, exec (.finish id true) s = .next u ∧
      u.towpath.spdm.session id = some { y with established := true }) ∧
    (y.established = false → ∃ u, exec (.finish id false) s = .next u ∧ u.towpath.spdm.session id = none) ∧
    (y.established = true →
      (∃ u, exec (.keyUpdate id) s = .next u ∧
        u.towpath.spdm.session id = some { y with epoch := y.epoch + 1, secret := Config.shake256 y.secret 64 }) ∧
      exec (.heartbeat id) s = .next (respond s 0x68 []) ∧
      (∃ u, exec (.endSession id) s = .next u ∧ u.towpath.spdm.session id = none) ∧
      (∀ part key p, s.part part = some p → ∃ u, exec (.vendorDefinedRequest id (.ideKey part key)) s = .next u ∧
        u.part part = some { p with ide := some key }) ∧
      (∀ part p, s.part part = some p → p.tdi = .unlocked → ∃ u,
        exec (.vendorDefinedRequest id (.lockInterface part)) s = .next u ∧ u.part part = some { p with tdi := .locked }) ∧
      (∀ part cipher p, s.part part = some p → (p.tdi = .unlocked ∨ p.tdi = .locked) → ∃ u r,
        exec (.vendorDefinedRequest id (.tenantSecret part cipher)) s = .next u ∧ u.part part = some r ∧ (u.seedOf r).isSome = true)) ∧
    (y.established = false → ∀ req, exec (.vendorDefinedRequest id req) s = .next (respondError s)))

/-- 01 R18, R24, R25, 09 R181, 12 R240, 13 R245, 14 R268, R275, R281, 17 R322, 18 R352, 20 R387: what a cold reset leaves. That an idle tile core is Core.init (log entry 8)
and that complex A is active with B standing by (13) are the model's choices; the other values are the spec's. -/
def Obligations.ResetHolds : Prop :=
  State.reset.tick = 0 ∧ State.reset.parts = [] ∧ (∀ n, State.reset.part n = none) ∧
  (∀ c, c < 256 → State.reset.core c = Core.init) ∧
  State.reset.towpath.a = .active ∧ State.reset.towpath.b = .standby ∧
  (∀ c, c ∈ [264, 265, 266, 267, 268, 269, 270, 271] → (State.reset.core c).butty.st = .run ∧ (State.reset.core c).butty.pc = 0) ∧
  State.reset.forigin = 0 ∧ State.reset.towpath.terr = 0xFFFF ∧ State.reset.towpath.tstate = 0 ∧
  State.reset.hthresh = Hthresh.mk 64 1024 16 95 ∧ State.reset.logs = [] ∧ State.reset.svc = 0 ∧
  PartCsr.init.reachlim = 3000000 ∧ PartCsr.init.lpatience = 3000000 ∧ PartCsr.init.taskcap = 7 ∧ PartCsr.init.dbgctl = false ∧
  PartCsr.init.rdelay = 300000 ∧ PartCsr.init.retries = 4 ∧ PartCsr.init.cfMask = 6 ∧ PartCsr.init.cfScrubbed = true ∧
  PartCsr.init.croot = 0 ∧ PartCsr.init.hroot = 0 ∧ PartCsr.init.fwinCount = 0 ∧
  CoreCsr.init.seed = 0 ∧ CoreCsr.init.drnd = 0 ∧ CoreCsr.init.astat = 0 ∧ CoreCsr.init.scalemap = 0 ∧ CoreCsr.init.tvec = 0 ∧
  CoreCsr.init.tepc.inside = false ∧
  (∀ c x, x ∈ ([ (0x008, 0), (0x009, 0), (0x00A, 0), (0x010, 0), (0x011, 0), (0x018, 0), (0x020, 0), (0x050, 0), (0x058, 0xFFFF0000),
      (0x059, 0), (0x0F0, 64 * 2 ^ 48 + 1024 * 2 ^ 32 + 16 * 2 ^ 16 + 95) ] : List (Nat × Nat)) → State.reset.csrRaw c x.1 = x.2) ∧
  (∀ c, State.reset.csrRaw c 0x001 = if c < 256 then 0x1000F else 0x10010) ∧
  (∀ c n, 0x060 ≤ n → n ≤ 0x07F → State.reset.csrRaw c n = 0) ∧
  (∀ basins x, x ∈ ([ (0x030, 3000000), (0x031, 3000000), (0x032, 300000 * 2 ^ 16 + 4 * 2 ^ 8 + 3), (0x033, 0), (0x034, 7), (0x038, 0),
      (0x040, 0), (0x041, 0), (0x042, 0), (0x043, 0x106), (0x051, 0), (0x0C0, 0), (0x0C1, 0), (0x0C2, 0), (0x0C3, 0), (0x0D0, 0),
      (0x0E0, 1), (0x0E8, 0x6400), (0x0E9, 0), (0x0EA, 0) ] : List (Nat × Nat)) →
    partRaw State.reset (Partition.init basins) x.1 = x.2) ∧
  (∀ basins n, (0x080 ≤ n ∧ n ≤ 0x09F) ∨ (0x800 ≤ n ∧ n ≤ 0x9FF) → partRaw State.reset (Partition.init basins) n = 0)

/-- 16 R310, 20 R386, R387: every step keeps the next period boundary a multiple of 300,000 ticks, the end of the health window a multiple of 3,000,000,000, and the temperature threshold within 70-95. -/
def Obligations.SettingsKept : Prop :=
  ∀ (s t : State), s.SettingsOk → step s = .next t → t.SettingsOk

/-- The memories keep their canonical form (Machine/Store.lean): keys strictly rising, no entry equal to what an unlisted key reads as, so that equal memories are equal data. The form is the model's own, not the spec's (log entry 16). -/
def Obligations.MemoriesCanonical : Prop :=
  ∀ (s t : State), s.memWf = true → step s = .next t → t.memWf = true

/-- 01 R11, R18: no step changes the position of the package, and the tick counter rises by at most one, falling only to zero (a cold reset). That no row joins a
pod, so that the position stays (log entry 11, DESIGN CHOICE), is the model's choice. -/
def Obligations.PlaceAndClock : Prop :=
  ∀ (s t : State), step s = .next t → t.position = s.position ∧ ((s.tick ≤ t.tick ∧ t.tick ≤ s.tick + 1) ∨ t.tick = 0)

/-- What SettingsKept and MemoriesCanonical keep holds at reset. -/
def Obligations.InvariantsAtReset : Prop :=
  State.reset.SettingsOk ∧ State.reset.memWf = true
end

