-- ==== Sys2Proof/Laws/Store.lean ====
section
/-! SUPPORT. Laws of the sparse store: what a read gives after a write, over any list, and that every operation keeps the
canonical form. -/

namespace Sys2Proof.Machine

/-! Reads after writes. -/

@[simp] theorem sget_nil {α : Type} (d : α) (n : Nat) : sget d [] n = d := rfl

theorem sget_sins {α : Type} (d : α) (m : Store α) (n : Nat) (v : α) (k : Nat) :
    sget d (sins m n v) k = if k = n then v else sget d m k := by
  induction m with
  | nil => simp [sins, sget]
  | cons x m ih =>
    obtain ⟨a, w⟩ := x
    simp only [sins]
    split
    · by_cases h : k = n <;> simp [sget, h]
    · split
      · rename_i h
        subst h
        by_cases hk : k = n <;> simp [sget, hk]
      · by_cases hk : k = a
        · have : k ≠ n := by omega
          simp [sget, hk]; omega
        · simp [sget, hk, ih]

theorem sget_sdel {α : Type} (d : α) (m : Store α) (n k : Nat) :
    sget d (sdel m n) k = if k = n then d else sget d m k := by
  induction m with
  | nil => simp [sdel]
  | cons x m ih =>
    obtain ⟨a, w⟩ := x
    simp only [sdel]
    split
    · by_cases hk : k = n
      · rw [ih]; simp [hk]
      · have : k ≠ a := by omega
        simp [ih, sget, hk, this]
    · by_cases hk : k = a
      · have : k ≠ n := by omega
        simp [sget, hk]; omega
      · simp [sget, hk, ih]

/-- A read after a write. -/
theorem sget_sput {α : Type} [DecidableEq α] (d : α) (m : Store α) (n : Nat) (v : α) (k : Nat) :
    sget d (sput d m n v) k = if k = n then v else sget d m k := by
  unfold sput
  split
  · rename_i h; simp [sget_sdel, h]
  · simp [sget_sins]

@[simp] theorem sget_sput_same {α : Type} [DecidableEq α] (d : α) (m : Store α) (n : Nat) (v : α) :
    sget d (sput d m n v) n = v := by simp [sget_sput]

theorem sget_sput_other {α : Type} [DecidableEq α] (d : α) (m : Store α) (n : Nat) (v : α) {k : Nat} (h : k ≠ n) :
    sget d (sput d m n v) k = sget d m k := by simp [sget_sput, h]

/-- Reading a cleared range. -/
theorem sget_sclear {α : Type} [DecidableEq α] (d : α) (m : Store α) (lo n k : Nat) :
    sget d (sclear m lo n) k = if lo ≤ k ∧ k < lo + n then d else sget d m k := by
  unfold sclear
  induction m with
  | nil => simp
  | cons x m ih =>
    obtain ⟨a, w⟩ := x
    simp only [List.filter_cons]
    by_cases ha : a < lo ∨ lo + n ≤ a
    · simp only [ha, Bool.or_eq_true, decide_eq_true_eq, if_true, sget]
      by_cases hk : k = a
      · have : ¬(lo ≤ k ∧ k < lo + n) := by omega
        simp [hk]; omega
      · simp [hk, ih]
    · simp only [ha, Bool.or_eq_true, decide_eq_true_eq, if_false, ih, sget]
      by_cases hk : k = a
      · have : lo ≤ k ∧ k < lo + n := by omega
        simp [this]
      · simp [hk]

/-- A key that a predicate keeps reads the same after a filter on keys. -/
theorem sget_filter_keys {α : Type} (d : α) (m : Store α) (f : Nat → Bool) (k : Nat) (h : f k = true) :
    sget d (m.filter (fun x => f x.1)) k = sget d m k := by
  induction m with
  | nil => rfl
  | cons x m ih =>
    obtain ⟨a, w⟩ := x
    simp only [List.filter_cons]
    by_cases hk : k = a
    · subst hk; simp [h, sget]
    · split <;> simp [sget, hk, ih]

/-! Byte runs. -/

@[simp] theorem readBytes_length (m : Store Byte) (a n : Nat) : (readBytes m a n).length = n := by
  induction n generalizing a with
  | zero => rfl
  | succ n ih => simp [readBytes, ih]

theorem readByte_writeByte (m : Store Byte) (a : Nat) (v : Byte) (b : Nat) :
    readByte (writeByte m a v) b = if b = a then v else readByte m b := sget_sput 0 m a v b

/-- A byte outside a written run is as before. -/
theorem readByte_writeBytes_other (m : Store Byte) (a : Nat) (bs : List Byte) (b : Nat) (h : b < a ∨ a + bs.length ≤ b) :
    readByte (writeBytes m a bs) b = readByte m b := by
  induction bs generalizing m a with
  | nil => rfl
  | cons x bs ih =>
    simp only [List.length_cons] at h
    have hb : b ≠ a := by omega
    rw [writeBytes, ih _ _ (by omega), readByte_writeByte, if_neg hb]

/-- A byte inside a written run is the one written. -/
theorem readByte_writeBytes_same (m : Store Byte) (a : Nat) (bs : List Byte) (i : Nat) (h : i < bs.length) :
    readByte (writeBytes m a bs) (a + i) = bs.getD i 0 := by
  induction bs generalizing m a i with
  | nil => simp at h
  | cons x bs ih =>
    cases i with
    | zero =>
      rw [writeBytes, readByte_writeBytes_other _ _ _ _ (by omega), readByte_writeByte]
      simp
    | succ i =>
      simp only [List.length_cons] at h
      have e : a + (i + 1) = a + 1 + i := by omega
      rw [writeBytes, e, ih _ _ _ (by omega)]
      simp

/-! The canonical form. -/

theorem swfFrom_mono {α : Type} [DecidableEq α] (d : α) (m : Store α) {lo hi : Nat} (h : lo ≤ hi)
    (w : swfFrom d hi m = true) : swfFrom d lo m = true := by
  cases m with
  | nil => rfl
  | cons x m =>
    simp only [swfFrom, Bool.and_eq_true, decide_eq_true_eq] at *
    exact ⟨⟨by omega, w.1.2⟩, w.2⟩

theorem swfFrom_sins {α : Type} [DecidableEq α] (d : α) (m : Store α) (lo n : Nat) (v : α) (hv : v ≠ d) (hn : lo ≤ n)
    (w : swfFrom d lo m = true) : swfFrom d lo (sins m n v) = true := by
  induction m generalizing lo with
  | nil => simp [sins, swfFrom, hv, hn]
  | cons x m ih =>
    obtain ⟨a, u⟩ := x
    simp only [swfFrom, Bool.and_eq_true, decide_eq_true_eq] at w
    simp only [sins]
    split
    · simp only [swfFrom, Bool.and_eq_true, decide_eq_true_eq]
      exact ⟨⟨hn, hv⟩, ⟨by omega, w.1.2⟩, w.2⟩
    · split
      · rename_i h; subst h
        simp only [swfFrom, Bool.and_eq_true, decide_eq_true_eq]
        exact ⟨⟨hn, hv⟩, w.2⟩
      · simp only [swfFrom, Bool.and_eq_true, decide_eq_true_eq]
        exact ⟨w.1, ih (a + 1) (by omega) w.2⟩

theorem swfFrom_filter {α : Type} [DecidableEq α] (d : α) (m : Store α) (f : Nat × α → Bool) (lo : Nat)
    (w : swfFrom d lo m = true) : swfFrom d lo (m.filter f) = true := by
  induction m generalizing lo with
  | nil => rfl
  | cons x m ih =>
    obtain ⟨a, u⟩ := x
    simp only [swfFrom, Bool.and_eq_true, decide_eq_true_eq] at w
    simp only [List.filter_cons]
    split
    · simp only [swfFrom, Bool.and_eq_true, decide_eq_true_eq]
      exact ⟨w.1, ih _ w.2⟩
    · exact ih lo (swfFrom_mono d m (by omega) w.2)

theorem sdel_eq_filter {α : Type} (m : Store α) (n : Nat) : sdel m n = m.filter (fun x => n ≠ x.1) := by
  induction m with
  | nil => rfl
  | cons x m ih =>
    obtain ⟨a, u⟩ := x
    simp only [sdel, List.filter_cons, ih]
    split <;> simp [*]

/-- A write keeps the canonical form. -/
theorem swf_sput {α : Type} [DecidableEq α] (d : α) (m : Store α) (n : Nat) (v : α) (w : swf d m = true) :
    swf d (sput d m n v) = true := by
  unfold sput swf
  split
  · rw [sdel_eq_filter]; exact swfFrom_filter d m _ 0 w
  · rename_i h; exact swfFrom_sins d m 0 n v h (Nat.zero_le n) w

/-- Clearing a range keeps the canonical form. -/
theorem swf_sclear {α : Type} [DecidableEq α] (d : α) (m : Store α) (lo n : Nat) (w : swf d m = true) :
    swf d (sclear m lo n) = true := swfFrom_filter d m _ 0 w

/-- A run of bytes keeps the canonical form. -/
theorem wf_writeBytes (m : Store Byte) (a : Nat) (bs : List Byte) (w : Memory.wf m = true) :
    Memory.wf (writeBytes m a bs) = true := by
  induction bs generalizing m a with
  | nil => exact w
  | cons x bs ih => exact ih _ _ (swf_sput 0 m a x w)

/-- Filling keys keeps the canonical form. -/
theorem swf_sfill {α : Type} [DecidableEq α] (d v : α) (m : Store α) (lo n : Nat) (w : swf d m = true) :
    swf d (sfill d v m lo n) = true := by
  induction n generalizing m lo with
  | zero => exact w
  | succ n ih => exact ih _ _ (swf_sput d m lo v w)

end Sys2Proof.Machine
end

