-- ==== Sys2Proof/Laws/State.lean ====
section
/-! SUPPORT. One lemma for each field and each update of the state and of a core, and what the updates of cores, partitions and
flags read back as. -/

namespace Sys2Proof.Machine

/-! State.setCore. -/

@[simp] theorem State.setCore_tick (s : State) (c : Nat) (k : Core) : (s.setCore c k).tick = s.tick := rfl
@[simp] theorem State.setCore_parts (s : State) (c : Nat) (k : Core) : (s.setCore c k).parts = s.parts := rfl
@[simp] theorem State.setCore_position (s : State) (c : Nat) (k : Core) : (s.setCore c k).position = s.position := rfl
@[simp] theorem State.setCore_absent (s : State) (c : Nat) (k : Core) : (s.setCore c k).absent = s.absent := rfl
@[simp] theorem State.setCore_host (s : State) (c : Nat) (k : Core) : (s.setCore c k).host = s.host := rfl
@[simp] theorem State.setCore_cellar (s : State) (c : Nat) (k : Core) : (s.setCore c k).cellar = s.cellar := rfl
@[simp] theorem State.setCore_ports (s : State) (c : Nat) (k : Core) : (s.setCore c k).ports = s.ports := rfl
@[simp] theorem State.setCore_forigin (s : State) (c : Nat) (k : Core) : (s.setCore c k).forigin = s.forigin := rfl
@[simp] theorem State.setCore_bookings (s : State) (c : Nat) (k : Core) : (s.setCore c k).bookings = s.bookings := rfl
@[simp] theorem State.setCore_windows (s : State) (c : Nat) (k : Core) : (s.setCore c k).windows = s.windows := rfl
@[simp] theorem State.setCore_wstat (s : State) (c : Nat) (k : Core) : (s.setCore c k).wstat = s.wstat := rfl
@[simp] theorem State.setCore_layby (s : State) (c : Nat) (k : Core) : (s.setCore c k).layby = s.layby := rfl
@[simp] theorem State.setCore_receipts (s : State) (c : Nat) (k : Core) : (s.setCore c k).receipts = s.receipts := rfl
@[simp] theorem State.setCore_latePaths (s : State) (c : Nat) (k : Core) : (s.setCore c k).latePaths = s.latePaths := rfl
@[simp] theorem State.setCore_backlog (s : State) (c : Nat) (k : Core) : (s.setCore c k).backlog = s.backlog := rfl
@[simp] theorem State.setCore_laybyCap (s : State) (c : Nat) (k : Core) : (s.setCore c k).laybyCap = s.laybyCap := rfl
@[simp] theorem State.setCore_logs (s : State) (c : Nat) (k : Core) : (s.setCore c k).logs = s.logs := rfl
@[simp] theorem State.setCore_ctlb (s : State) (c : Nat) (k : Core) : (s.setCore c k).ctlb = s.ctlb := rfl
@[simp] theorem State.setCore_towpath (s : State) (c : Nat) (k : Core) : (s.setCore c k).towpath = s.towpath := rfl
@[simp] theorem State.setCore_hthresh (s : State) (c : Nat) (k : Core) : (s.setCore c k).hthresh = s.hthresh := rfl
@[simp] theorem State.setCore_health (s : State) (c : Nat) (k : Core) : (s.setCore c k).health = s.health := rfl
@[simp] theorem State.setCore_svc (s : State) (c : Nat) (k : Core) : (s.setCore c k).svc = s.svc := rfl
@[simp] theorem State.setCore_unavail (s : State) (c : Nat) (k : Core) : (s.setCore c k).unavail = s.unavail := rfl
@[simp] theorem State.setCore_tripped (s : State) (c : Nat) (k : Core) : (s.setCore c k).tripped = s.tripped := rfl
@[simp] theorem State.setCore_limited (s : State) (c : Nat) (k : Core) : (s.setCore c k).limited = s.limited := rfl
@[simp] theorem State.setCore_islands (s : State) (c : Nat) (k : Core) : (s.setCore c k).islands = s.islands := rfl
@[simp] theorem State.setCore_coh (s : State) (c : Nat) (k : Core) : (s.setCore c k).coh = s.coh := rfl
@[simp] theorem State.setCore_cellReads (s : State) (c : Nat) (k : Core) : (s.setCore c k).cellReads = s.cellReads := rfl
@[simp] theorem State.setCore_hostReads (s : State) (c : Nat) (k : Core) : (s.setCore c k).hostReads = s.hostReads := rfl
@[simp] theorem State.setCore_inReset (s : State) (c : Nat) (k : Core) : (s.setCore c k).inReset = s.inReset := rfl
@[simp] theorem State.setCore_nextRec (s : State) (c : Nat) (k : Core) : (s.setCore c k).nextRec = s.nextRec := rfl
@[simp] theorem State.setCore_budgetAt (s : State) (c : Nat) (k : Core) : (s.setCore c k).budgetAt = s.budgetAt := rfl
@[simp] theorem State.setCore_escrow (s : State) (c : Nat) (k : Core) : (s.setCore c k).escrow = s.escrow := rfl
@[simp] theorem State.setCore_cur (s : State) (c : Nat) (k : Core) : (s.setCore c k).cur = s.cur := rfl
@[simp] theorem State.setCore_agenda (s : State) (c : Nat) (k : Core) : (s.setCore c k).agenda = s.agenda := rfl
@[simp] theorem State.setCore_freeCtr (s : State) (c : Nat) (k : Core) : (s.setCore c k).freeCtr = s.freeCtr := rfl

/-! State.modCore. -/

@[simp] theorem State.modCore_tick (s : State) (c : Nat) (f : Core → Core) : (s.modCore c f).tick = s.tick := rfl
@[simp] theorem State.modCore_parts (s : State) (c : Nat) (f : Core → Core) : (s.modCore c f).parts = s.parts := rfl
@[simp] theorem State.modCore_position (s : State) (c : Nat) (f : Core → Core) : (s.modCore c f).position = s.position := rfl
@[simp] theorem State.modCore_absent (s : State) (c : Nat) (f : Core → Core) : (s.modCore c f).absent = s.absent := rfl
@[simp] theorem State.modCore_host (s : State) (c : Nat) (f : Core → Core) : (s.modCore c f).host = s.host := rfl
@[simp] theorem State.modCore_cellar (s : State) (c : Nat) (f : Core → Core) : (s.modCore c f).cellar = s.cellar := rfl
@[simp] theorem State.modCore_ports (s : State) (c : Nat) (f : Core → Core) : (s.modCore c f).ports = s.ports := rfl
@[simp] theorem State.modCore_forigin (s : State) (c : Nat) (f : Core → Core) : (s.modCore c f).forigin = s.forigin := rfl
@[simp] theorem State.modCore_bookings (s : State) (c : Nat) (f : Core → Core) : (s.modCore c f).bookings = s.bookings := rfl
@[simp] theorem State.modCore_windows (s : State) (c : Nat) (f : Core → Core) : (s.modCore c f).windows = s.windows := rfl
@[simp] theorem State.modCore_wstat (s : State) (c : Nat) (f : Core → Core) : (s.modCore c f).wstat = s.wstat := rfl
@[simp] theorem State.modCore_layby (s : State) (c : Nat) (f : Core → Core) : (s.modCore c f).layby = s.layby := rfl
@[simp] theorem State.modCore_receipts (s : State) (c : Nat) (f : Core → Core) : (s.modCore c f).receipts = s.receipts := rfl
@[simp] theorem State.modCore_latePaths (s : State) (c : Nat) (f : Core → Core) : (s.modCore c f).latePaths = s.latePaths := rfl
@[simp] theorem State.modCore_backlog (s : State) (c : Nat) (f : Core → Core) : (s.modCore c f).backlog = s.backlog := rfl
@[simp] theorem State.modCore_laybyCap (s : State) (c : Nat) (f : Core → Core) : (s.modCore c f).laybyCap = s.laybyCap := rfl
@[simp] theorem State.modCore_logs (s : State) (c : Nat) (f : Core → Core) : (s.modCore c f).logs = s.logs := rfl
@[simp] theorem State.modCore_ctlb (s : State) (c : Nat) (f : Core → Core) : (s.modCore c f).ctlb = s.ctlb := rfl
@[simp] theorem State.modCore_towpath (s : State) (c : Nat) (f : Core → Core) : (s.modCore c f).towpath = s.towpath := rfl
@[simp] theorem State.modCore_hthresh (s : State) (c : Nat) (f : Core → Core) : (s.modCore c f).hthresh = s.hthresh := rfl
@[simp] theorem State.modCore_health (s : State) (c : Nat) (f : Core → Core) : (s.modCore c f).health = s.health := rfl
@[simp] theorem State.modCore_svc (s : State) (c : Nat) (f : Core → Core) : (s.modCore c f).svc = s.svc := rfl
@[simp] theorem State.modCore_unavail (s : State) (c : Nat) (f : Core → Core) : (s.modCore c f).unavail = s.unavail := rfl
@[simp] theorem State.modCore_tripped (s : State) (c : Nat) (f : Core → Core) : (s.modCore c f).tripped = s.tripped := rfl
@[simp] theorem State.modCore_limited (s : State) (c : Nat) (f : Core → Core) : (s.modCore c f).limited = s.limited := rfl
@[simp] theorem State.modCore_islands (s : State) (c : Nat) (f : Core → Core) : (s.modCore c f).islands = s.islands := rfl
@[simp] theorem State.modCore_coh (s : State) (c : Nat) (f : Core → Core) : (s.modCore c f).coh = s.coh := rfl
@[simp] theorem State.modCore_cellReads (s : State) (c : Nat) (f : Core → Core) : (s.modCore c f).cellReads = s.cellReads := rfl
@[simp] theorem State.modCore_hostReads (s : State) (c : Nat) (f : Core → Core) : (s.modCore c f).hostReads = s.hostReads := rfl
@[simp] theorem State.modCore_inReset (s : State) (c : Nat) (f : Core → Core) : (s.modCore c f).inReset = s.inReset := rfl
@[simp] theorem State.modCore_nextRec (s : State) (c : Nat) (f : Core → Core) : (s.modCore c f).nextRec = s.nextRec := rfl
@[simp] theorem State.modCore_budgetAt (s : State) (c : Nat) (f : Core → Core) : (s.modCore c f).budgetAt = s.budgetAt := rfl
@[simp] theorem State.modCore_escrow (s : State) (c : Nat) (f : Core → Core) : (s.modCore c f).escrow = s.escrow := rfl
@[simp] theorem State.modCore_cur (s : State) (c : Nat) (f : Core → Core) : (s.modCore c f).cur = s.cur := rfl
@[simp] theorem State.modCore_agenda (s : State) (c : Nat) (f : Core → Core) : (s.modCore c f).agenda = s.agenda := rfl
@[simp] theorem State.modCore_freeCtr (s : State) (c : Nat) (f : Core → Core) : (s.modCore c f).freeCtr = s.freeCtr := rfl

/-! State.setPart. -/

@[simp] theorem State.setPart_tick (s : State) (n : Nat) (p : Partition) : (s.setPart n p).tick = s.tick := rfl
@[simp] theorem State.setPart_cores (s : State) (n : Nat) (p : Partition) : (s.setPart n p).cores = s.cores := rfl
@[simp] theorem State.setPart_position (s : State) (n : Nat) (p : Partition) : (s.setPart n p).position = s.position := rfl
@[simp] theorem State.setPart_absent (s : State) (n : Nat) (p : Partition) : (s.setPart n p).absent = s.absent := rfl
@[simp] theorem State.setPart_host (s : State) (n : Nat) (p : Partition) : (s.setPart n p).host = s.host := rfl
@[simp] theorem State.setPart_cellar (s : State) (n : Nat) (p : Partition) : (s.setPart n p).cellar = s.cellar := rfl
@[simp] theorem State.setPart_ports (s : State) (n : Nat) (p : Partition) : (s.setPart n p).ports = s.ports := rfl
@[simp] theorem State.setPart_forigin (s : State) (n : Nat) (p : Partition) : (s.setPart n p).forigin = s.forigin := rfl
@[simp] theorem State.setPart_bookings (s : State) (n : Nat) (p : Partition) : (s.setPart n p).bookings = s.bookings := rfl
@[simp] theorem State.setPart_windows (s : State) (n : Nat) (p : Partition) : (s.setPart n p).windows = s.windows := rfl
@[simp] theorem State.setPart_wstat (s : State) (n : Nat) (p : Partition) : (s.setPart n p).wstat = s.wstat := rfl
@[simp] theorem State.setPart_layby (s : State) (n : Nat) (p : Partition) : (s.setPart n p).layby = s.layby := rfl
@[simp] theorem State.setPart_receipts (s : State) (n : Nat) (p : Partition) : (s.setPart n p).receipts = s.receipts := rfl
@[simp] theorem State.setPart_latePaths (s : State) (n : Nat) (p : Partition) : (s.setPart n p).latePaths = s.latePaths := rfl
@[simp] theorem State.setPart_backlog (s : State) (n : Nat) (p : Partition) : (s.setPart n p).backlog = s.backlog := rfl
@[simp] theorem State.setPart_laybyCap (s : State) (n : Nat) (p : Partition) : (s.setPart n p).laybyCap = s.laybyCap := rfl
@[simp] theorem State.setPart_logs (s : State) (n : Nat) (p : Partition) : (s.setPart n p).logs = s.logs := rfl
@[simp] theorem State.setPart_ctlb (s : State) (n : Nat) (p : Partition) : (s.setPart n p).ctlb = s.ctlb := rfl
@[simp] theorem State.setPart_towpath (s : State) (n : Nat) (p : Partition) : (s.setPart n p).towpath = s.towpath := rfl
@[simp] theorem State.setPart_hthresh (s : State) (n : Nat) (p : Partition) : (s.setPart n p).hthresh = s.hthresh := rfl
@[simp] theorem State.setPart_health (s : State) (n : Nat) (p : Partition) : (s.setPart n p).health = s.health := rfl
@[simp] theorem State.setPart_svc (s : State) (n : Nat) (p : Partition) : (s.setPart n p).svc = s.svc := rfl
@[simp] theorem State.setPart_unavail (s : State) (n : Nat) (p : Partition) : (s.setPart n p).unavail = s.unavail := rfl
@[simp] theorem State.setPart_tripped (s : State) (n : Nat) (p : Partition) : (s.setPart n p).tripped = s.tripped := rfl
@[simp] theorem State.setPart_limited (s : State) (n : Nat) (p : Partition) : (s.setPart n p).limited = s.limited := rfl
@[simp] theorem State.setPart_islands (s : State) (n : Nat) (p : Partition) : (s.setPart n p).islands = s.islands := rfl
@[simp] theorem State.setPart_coh (s : State) (n : Nat) (p : Partition) : (s.setPart n p).coh = s.coh := rfl
@[simp] theorem State.setPart_cellReads (s : State) (n : Nat) (p : Partition) : (s.setPart n p).cellReads = s.cellReads := rfl
@[simp] theorem State.setPart_hostReads (s : State) (n : Nat) (p : Partition) : (s.setPart n p).hostReads = s.hostReads := rfl
@[simp] theorem State.setPart_inReset (s : State) (n : Nat) (p : Partition) : (s.setPart n p).inReset = s.inReset := rfl
@[simp] theorem State.setPart_nextRec (s : State) (n : Nat) (p : Partition) : (s.setPart n p).nextRec = s.nextRec := rfl
@[simp] theorem State.setPart_budgetAt (s : State) (n : Nat) (p : Partition) : (s.setPart n p).budgetAt = s.budgetAt := rfl
@[simp] theorem State.setPart_escrow (s : State) (n : Nat) (p : Partition) : (s.setPart n p).escrow = s.escrow := rfl
@[simp] theorem State.setPart_cur (s : State) (n : Nat) (p : Partition) : (s.setPart n p).cur = s.cur := rfl
@[simp] theorem State.setPart_agenda (s : State) (n : Nat) (p : Partition) : (s.setPart n p).agenda = s.agenda := rfl
@[simp] theorem State.setPart_freeCtr (s : State) (n : Nat) (p : Partition) : (s.setPart n p).freeCtr = s.freeCtr := rfl

/-! State.modPart. -/

@[simp] theorem State.modPart_tick (s : State) (n : Nat) (f : Partition → Partition) : (s.modPart n f).tick = s.tick := by unfold State.modPart; split <;> rfl
@[simp] theorem State.modPart_cores (s : State) (n : Nat) (f : Partition → Partition) : (s.modPart n f).cores = s.cores := by unfold State.modPart; split <;> rfl
@[simp] theorem State.modPart_position (s : State) (n : Nat) (f : Partition → Partition) : (s.modPart n f).position = s.position := by unfold State.modPart; split <;> rfl
@[simp] theorem State.modPart_absent (s : State) (n : Nat) (f : Partition → Partition) : (s.modPart n f).absent = s.absent := by unfold State.modPart; split <;> rfl
@[simp] theorem State.modPart_host (s : State) (n : Nat) (f : Partition → Partition) : (s.modPart n f).host = s.host := by unfold State.modPart; split <;> rfl
@[simp] theorem State.modPart_cellar (s : State) (n : Nat) (f : Partition → Partition) : (s.modPart n f).cellar = s.cellar := by unfold State.modPart; split <;> rfl
@[simp] theorem State.modPart_ports (s : State) (n : Nat) (f : Partition → Partition) : (s.modPart n f).ports = s.ports := by unfold State.modPart; split <;> rfl
@[simp] theorem State.modPart_forigin (s : State) (n : Nat) (f : Partition → Partition) : (s.modPart n f).forigin = s.forigin := by unfold State.modPart; split <;> rfl
@[simp] theorem State.modPart_bookings (s : State) (n : Nat) (f : Partition → Partition) : (s.modPart n f).bookings = s.bookings := by unfold State.modPart; split <;> rfl
@[simp] theorem State.modPart_windows (s : State) (n : Nat) (f : Partition → Partition) : (s.modPart n f).windows = s.windows := by unfold State.modPart; split <;> rfl
@[simp] theorem State.modPart_wstat (s : State) (n : Nat) (f : Partition → Partition) : (s.modPart n f).wstat = s.wstat := by unfold State.modPart; split <;> rfl
@[simp] theorem State.modPart_layby (s : State) (n : Nat) (f : Partition → Partition) : (s.modPart n f).layby = s.layby := by unfold State.modPart; split <;> rfl
@[simp] theorem State.modPart_receipts (s : State) (n : Nat) (f : Partition → Partition) : (s.modPart n f).receipts = s.receipts := by unfold State.modPart; split <;> rfl
@[simp] theorem State.modPart_latePaths (s : State) (n : Nat) (f : Partition → Partition) : (s.modPart n f).latePaths = s.latePaths := by unfold State.modPart; split <;> rfl
@[simp] theorem State.modPart_backlog (s : State) (n : Nat) (f : Partition → Partition) : (s.modPart n f).backlog = s.backlog := by unfold State.modPart; split <;> rfl
@[simp] theorem State.modPart_laybyCap (s : State) (n : Nat) (f : Partition → Partition) : (s.modPart n f).laybyCap = s.laybyCap := by unfold State.modPart; split <;> rfl
@[simp] theorem State.modPart_logs (s : State) (n : Nat) (f : Partition → Partition) : (s.modPart n f).logs = s.logs := by unfold State.modPart; split <;> rfl
@[simp] theorem State.modPart_ctlb (s : State) (n : Nat) (f : Partition → Partition) : (s.modPart n f).ctlb = s.ctlb := by unfold State.modPart; split <;> rfl
@[simp] theorem State.modPart_towpath (s : State) (n : Nat) (f : Partition → Partition) : (s.modPart n f).towpath = s.towpath := by unfold State.modPart; split <;> rfl
@[simp] theorem State.modPart_hthresh (s : State) (n : Nat) (f : Partition → Partition) : (s.modPart n f).hthresh = s.hthresh := by unfold State.modPart; split <;> rfl
@[simp] theorem State.modPart_health (s : State) (n : Nat) (f : Partition → Partition) : (s.modPart n f).health = s.health := by unfold State.modPart; split <;> rfl
@[simp] theorem State.modPart_svc (s : State) (n : Nat) (f : Partition → Partition) : (s.modPart n f).svc = s.svc := by unfold State.modPart; split <;> rfl
@[simp] theorem State.modPart_unavail (s : State) (n : Nat) (f : Partition → Partition) : (s.modPart n f).unavail = s.unavail := by unfold State.modPart; split <;> rfl
@[simp] theorem State.modPart_tripped (s : State) (n : Nat) (f : Partition → Partition) : (s.modPart n f).tripped = s.tripped := by unfold State.modPart; split <;> rfl
@[simp] theorem State.modPart_limited (s : State) (n : Nat) (f : Partition → Partition) : (s.modPart n f).limited = s.limited := by unfold State.modPart; split <;> rfl
@[simp] theorem State.modPart_islands (s : State) (n : Nat) (f : Partition → Partition) : (s.modPart n f).islands = s.islands := by unfold State.modPart; split <;> rfl
@[simp] theorem State.modPart_coh (s : State) (n : Nat) (f : Partition → Partition) : (s.modPart n f).coh = s.coh := by unfold State.modPart; split <;> rfl
@[simp] theorem State.modPart_cellReads (s : State) (n : Nat) (f : Partition → Partition) : (s.modPart n f).cellReads = s.cellReads := by unfold State.modPart; split <;> rfl
@[simp] theorem State.modPart_hostReads (s : State) (n : Nat) (f : Partition → Partition) : (s.modPart n f).hostReads = s.hostReads := by unfold State.modPart; split <;> rfl
@[simp] theorem State.modPart_inReset (s : State) (n : Nat) (f : Partition → Partition) : (s.modPart n f).inReset = s.inReset := by unfold State.modPart; split <;> rfl
@[simp] theorem State.modPart_nextRec (s : State) (n : Nat) (f : Partition → Partition) : (s.modPart n f).nextRec = s.nextRec := by unfold State.modPart; split <;> rfl
@[simp] theorem State.modPart_budgetAt (s : State) (n : Nat) (f : Partition → Partition) : (s.modPart n f).budgetAt = s.budgetAt := by unfold State.modPart; split <;> rfl
@[simp] theorem State.modPart_escrow (s : State) (n : Nat) (f : Partition → Partition) : (s.modPart n f).escrow = s.escrow := by unfold State.modPart; split <;> rfl
@[simp] theorem State.modPart_cur (s : State) (n : Nat) (f : Partition → Partition) : (s.modPart n f).cur = s.cur := by unfold State.modPart; split <;> rfl
@[simp] theorem State.modPart_agenda (s : State) (n : Nat) (f : Partition → Partition) : (s.modPart n f).agenda = s.agenda := by unfold State.modPart; split <;> rfl
@[simp] theorem State.modPart_freeCtr (s : State) (n : Nat) (f : Partition → Partition) : (s.modPart n f).freeCtr = s.freeCtr := by unfold State.modPart; split <;> rfl

/-! State.mapCores. -/

@[simp] theorem State.mapCores_tick (s : State) (f : Nat → Core → Core) : (s.mapCores f).tick = s.tick := rfl
@[simp] theorem State.mapCores_parts (s : State) (f : Nat → Core → Core) : (s.mapCores f).parts = s.parts := rfl
@[simp] theorem State.mapCores_position (s : State) (f : Nat → Core → Core) : (s.mapCores f).position = s.position := rfl
@[simp] theorem State.mapCores_absent (s : State) (f : Nat → Core → Core) : (s.mapCores f).absent = s.absent := rfl
@[simp] theorem State.mapCores_host (s : State) (f : Nat → Core → Core) : (s.mapCores f).host = s.host := rfl
@[simp] theorem State.mapCores_cellar (s : State) (f : Nat → Core → Core) : (s.mapCores f).cellar = s.cellar := rfl
@[simp] theorem State.mapCores_ports (s : State) (f : Nat → Core → Core) : (s.mapCores f).ports = s.ports := rfl
@[simp] theorem State.mapCores_forigin (s : State) (f : Nat → Core → Core) : (s.mapCores f).forigin = s.forigin := rfl
@[simp] theorem State.mapCores_bookings (s : State) (f : Nat → Core → Core) : (s.mapCores f).bookings = s.bookings := rfl
@[simp] theorem State.mapCores_windows (s : State) (f : Nat → Core → Core) : (s.mapCores f).windows = s.windows := rfl
@[simp] theorem State.mapCores_wstat (s : State) (f : Nat → Core → Core) : (s.mapCores f).wstat = s.wstat := rfl
@[simp] theorem State.mapCores_layby (s : State) (f : Nat → Core → Core) : (s.mapCores f).layby = s.layby := rfl
@[simp] theorem State.mapCores_receipts (s : State) (f : Nat → Core → Core) : (s.mapCores f).receipts = s.receipts := rfl
@[simp] theorem State.mapCores_latePaths (s : State) (f : Nat → Core → Core) : (s.mapCores f).latePaths = s.latePaths := rfl
@[simp] theorem State.mapCores_backlog (s : State) (f : Nat → Core → Core) : (s.mapCores f).backlog = s.backlog := rfl
@[simp] theorem State.mapCores_laybyCap (s : State) (f : Nat → Core → Core) : (s.mapCores f).laybyCap = s.laybyCap := rfl
@[simp] theorem State.mapCores_logs (s : State) (f : Nat → Core → Core) : (s.mapCores f).logs = s.logs := rfl
@[simp] theorem State.mapCores_ctlb (s : State) (f : Nat → Core → Core) : (s.mapCores f).ctlb = s.ctlb := rfl
@[simp] theorem State.mapCores_towpath (s : State) (f : Nat → Core → Core) : (s.mapCores f).towpath = s.towpath := rfl
@[simp] theorem State.mapCores_hthresh (s : State) (f : Nat → Core → Core) : (s.mapCores f).hthresh = s.hthresh := rfl
@[simp] theorem State.mapCores_health (s : State) (f : Nat → Core → Core) : (s.mapCores f).health = s.health := rfl
@[simp] theorem State.mapCores_svc (s : State) (f : Nat → Core → Core) : (s.mapCores f).svc = s.svc := rfl
@[simp] theorem State.mapCores_unavail (s : State) (f : Nat → Core → Core) : (s.mapCores f).unavail = s.unavail := rfl
@[simp] theorem State.mapCores_tripped (s : State) (f : Nat → Core → Core) : (s.mapCores f).tripped = s.tripped := rfl
@[simp] theorem State.mapCores_limited (s : State) (f : Nat → Core → Core) : (s.mapCores f).limited = s.limited := rfl
@[simp] theorem State.mapCores_islands (s : State) (f : Nat → Core → Core) : (s.mapCores f).islands = s.islands := rfl
@[simp] theorem State.mapCores_coh (s : State) (f : Nat → Core → Core) : (s.mapCores f).coh = s.coh := rfl
@[simp] theorem State.mapCores_cellReads (s : State) (f : Nat → Core → Core) : (s.mapCores f).cellReads = s.cellReads := rfl
@[simp] theorem State.mapCores_hostReads (s : State) (f : Nat → Core → Core) : (s.mapCores f).hostReads = s.hostReads := rfl
@[simp] theorem State.mapCores_inReset (s : State) (f : Nat → Core → Core) : (s.mapCores f).inReset = s.inReset := rfl
@[simp] theorem State.mapCores_nextRec (s : State) (f : Nat → Core → Core) : (s.mapCores f).nextRec = s.nextRec := rfl
@[simp] theorem State.mapCores_budgetAt (s : State) (f : Nat → Core → Core) : (s.mapCores f).budgetAt = s.budgetAt := rfl
@[simp] theorem State.mapCores_escrow (s : State) (f : Nat → Core → Core) : (s.mapCores f).escrow = s.escrow := rfl
@[simp] theorem State.mapCores_cur (s : State) (f : Nat → Core → Core) : (s.mapCores f).cur = s.cur := rfl
@[simp] theorem State.mapCores_agenda (s : State) (f : Nat → Core → Core) : (s.mapCores f).agenda = s.agenda := rfl
@[simp] theorem State.mapCores_freeCtr (s : State) (f : Nat → Core → Core) : (s.mapCores f).freeCtr = s.freeCtr := rfl

/-! State.scheduleAt. -/

@[simp] theorem State.scheduleAt_tick (s : State) (h due : Nat) (a : Act) : (s.scheduleAt h due a).tick = s.tick := rfl
@[simp] theorem State.scheduleAt_parts (s : State) (h due : Nat) (a : Act) : (s.scheduleAt h due a).parts = s.parts := rfl
@[simp] theorem State.scheduleAt_position (s : State) (h due : Nat) (a : Act) : (s.scheduleAt h due a).position = s.position := rfl
@[simp] theorem State.scheduleAt_absent (s : State) (h due : Nat) (a : Act) : (s.scheduleAt h due a).absent = s.absent := rfl
@[simp] theorem State.scheduleAt_host (s : State) (h due : Nat) (a : Act) : (s.scheduleAt h due a).host = s.host := rfl
@[simp] theorem State.scheduleAt_cellar (s : State) (h due : Nat) (a : Act) : (s.scheduleAt h due a).cellar = s.cellar := rfl
@[simp] theorem State.scheduleAt_ports (s : State) (h due : Nat) (a : Act) : (s.scheduleAt h due a).ports = s.ports := rfl
@[simp] theorem State.scheduleAt_forigin (s : State) (h due : Nat) (a : Act) : (s.scheduleAt h due a).forigin = s.forigin := rfl
@[simp] theorem State.scheduleAt_bookings (s : State) (h due : Nat) (a : Act) : (s.scheduleAt h due a).bookings = s.bookings := rfl
@[simp] theorem State.scheduleAt_windows (s : State) (h due : Nat) (a : Act) : (s.scheduleAt h due a).windows = s.windows := rfl
@[simp] theorem State.scheduleAt_wstat (s : State) (h due : Nat) (a : Act) : (s.scheduleAt h due a).wstat = s.wstat := rfl
@[simp] theorem State.scheduleAt_layby (s : State) (h due : Nat) (a : Act) : (s.scheduleAt h due a).layby = s.layby := rfl
@[simp] theorem State.scheduleAt_receipts (s : State) (h due : Nat) (a : Act) : (s.scheduleAt h due a).receipts = s.receipts := rfl
@[simp] theorem State.scheduleAt_latePaths (s : State) (h due : Nat) (a : Act) : (s.scheduleAt h due a).latePaths = s.latePaths := rfl
@[simp] theorem State.scheduleAt_backlog (s : State) (h due : Nat) (a : Act) : (s.scheduleAt h due a).backlog = s.backlog := rfl
@[simp] theorem State.scheduleAt_laybyCap (s : State) (h due : Nat) (a : Act) : (s.scheduleAt h due a).laybyCap = s.laybyCap := rfl
@[simp] theorem State.scheduleAt_logs (s : State) (h due : Nat) (a : Act) : (s.scheduleAt h due a).logs = s.logs := rfl
@[simp] theorem State.scheduleAt_ctlb (s : State) (h due : Nat) (a : Act) : (s.scheduleAt h due a).ctlb = s.ctlb := rfl
@[simp] theorem State.scheduleAt_towpath (s : State) (h due : Nat) (a : Act) : (s.scheduleAt h due a).towpath = s.towpath := rfl
@[simp] theorem State.scheduleAt_hthresh (s : State) (h due : Nat) (a : Act) : (s.scheduleAt h due a).hthresh = s.hthresh := rfl
@[simp] theorem State.scheduleAt_health (s : State) (h due : Nat) (a : Act) : (s.scheduleAt h due a).health = s.health := rfl
@[simp] theorem State.scheduleAt_svc (s : State) (h due : Nat) (a : Act) : (s.scheduleAt h due a).svc = s.svc := rfl
@[simp] theorem State.scheduleAt_unavail (s : State) (h due : Nat) (a : Act) : (s.scheduleAt h due a).unavail = s.unavail := rfl
@[simp] theorem State.scheduleAt_tripped (s : State) (h due : Nat) (a : Act) : (s.scheduleAt h due a).tripped = s.tripped := rfl
@[simp] theorem State.scheduleAt_limited (s : State) (h due : Nat) (a : Act) : (s.scheduleAt h due a).limited = s.limited := rfl
@[simp] theorem State.scheduleAt_islands (s : State) (h due : Nat) (a : Act) : (s.scheduleAt h due a).islands = s.islands := rfl
@[simp] theorem State.scheduleAt_coh (s : State) (h due : Nat) (a : Act) : (s.scheduleAt h due a).coh = s.coh := rfl
@[simp] theorem State.scheduleAt_cellReads (s : State) (h due : Nat) (a : Act) : (s.scheduleAt h due a).cellReads = s.cellReads := rfl
@[simp] theorem State.scheduleAt_hostReads (s : State) (h due : Nat) (a : Act) : (s.scheduleAt h due a).hostReads = s.hostReads := rfl
@[simp] theorem State.scheduleAt_inReset (s : State) (h due : Nat) (a : Act) : (s.scheduleAt h due a).inReset = s.inReset := rfl
@[simp] theorem State.scheduleAt_nextRec (s : State) (h due : Nat) (a : Act) : (s.scheduleAt h due a).nextRec = s.nextRec := rfl
@[simp] theorem State.scheduleAt_budgetAt (s : State) (h due : Nat) (a : Act) : (s.scheduleAt h due a).budgetAt = s.budgetAt := rfl
@[simp] theorem State.scheduleAt_escrow (s : State) (h due : Nat) (a : Act) : (s.scheduleAt h due a).escrow = s.escrow := rfl
@[simp] theorem State.scheduleAt_cur (s : State) (h due : Nat) (a : Act) : (s.scheduleAt h due a).cur = s.cur := rfl
@[simp] theorem State.scheduleAt_agenda (s : State) (h due : Nat) (a : Act) : (s.scheduleAt h due a).agenda = s.agenda := rfl
@[simp] theorem State.scheduleAt_freeCtr (s : State) (h due : Nat) (a : Act) : (s.scheduleAt h due a).freeCtr = s.freeCtr := rfl

/-! State.schedule. -/

@[simp] theorem State.schedule_tick (s : State) (c n : Nat) (a : Act) : (s.schedule c n a).tick = s.tick := rfl
@[simp] theorem State.schedule_parts (s : State) (c n : Nat) (a : Act) : (s.schedule c n a).parts = s.parts := rfl
@[simp] theorem State.schedule_position (s : State) (c n : Nat) (a : Act) : (s.schedule c n a).position = s.position := rfl
@[simp] theorem State.schedule_absent (s : State) (c n : Nat) (a : Act) : (s.schedule c n a).absent = s.absent := rfl
@[simp] theorem State.schedule_host (s : State) (c n : Nat) (a : Act) : (s.schedule c n a).host = s.host := rfl
@[simp] theorem State.schedule_cellar (s : State) (c n : Nat) (a : Act) : (s.schedule c n a).cellar = s.cellar := rfl
@[simp] theorem State.schedule_ports (s : State) (c n : Nat) (a : Act) : (s.schedule c n a).ports = s.ports := rfl
@[simp] theorem State.schedule_forigin (s : State) (c n : Nat) (a : Act) : (s.schedule c n a).forigin = s.forigin := rfl
@[simp] theorem State.schedule_bookings (s : State) (c n : Nat) (a : Act) : (s.schedule c n a).bookings = s.bookings := rfl
@[simp] theorem State.schedule_windows (s : State) (c n : Nat) (a : Act) : (s.schedule c n a).windows = s.windows := rfl
@[simp] theorem State.schedule_wstat (s : State) (c n : Nat) (a : Act) : (s.schedule c n a).wstat = s.wstat := rfl
@[simp] theorem State.schedule_layby (s : State) (c n : Nat) (a : Act) : (s.schedule c n a).layby = s.layby := rfl
@[simp] theorem State.schedule_receipts (s : State) (c n : Nat) (a : Act) : (s.schedule c n a).receipts = s.receipts := rfl
@[simp] theorem State.schedule_latePaths (s : State) (c n : Nat) (a : Act) : (s.schedule c n a).latePaths = s.latePaths := rfl
@[simp] theorem State.schedule_backlog (s : State) (c n : Nat) (a : Act) : (s.schedule c n a).backlog = s.backlog := rfl
@[simp] theorem State.schedule_laybyCap (s : State) (c n : Nat) (a : Act) : (s.schedule c n a).laybyCap = s.laybyCap := rfl
@[simp] theorem State.schedule_logs (s : State) (c n : Nat) (a : Act) : (s.schedule c n a).logs = s.logs := rfl
@[simp] theorem State.schedule_ctlb (s : State) (c n : Nat) (a : Act) : (s.schedule c n a).ctlb = s.ctlb := rfl
@[simp] theorem State.schedule_towpath (s : State) (c n : Nat) (a : Act) : (s.schedule c n a).towpath = s.towpath := rfl
@[simp] theorem State.schedule_hthresh (s : State) (c n : Nat) (a : Act) : (s.schedule c n a).hthresh = s.hthresh := rfl
@[simp] theorem State.schedule_health (s : State) (c n : Nat) (a : Act) : (s.schedule c n a).health = s.health := rfl
@[simp] theorem State.schedule_svc (s : State) (c n : Nat) (a : Act) : (s.schedule c n a).svc = s.svc := rfl
@[simp] theorem State.schedule_unavail (s : State) (c n : Nat) (a : Act) : (s.schedule c n a).unavail = s.unavail := rfl
@[simp] theorem State.schedule_tripped (s : State) (c n : Nat) (a : Act) : (s.schedule c n a).tripped = s.tripped := rfl
@[simp] theorem State.schedule_limited (s : State) (c n : Nat) (a : Act) : (s.schedule c n a).limited = s.limited := rfl
@[simp] theorem State.schedule_islands (s : State) (c n : Nat) (a : Act) : (s.schedule c n a).islands = s.islands := rfl
@[simp] theorem State.schedule_coh (s : State) (c n : Nat) (a : Act) : (s.schedule c n a).coh = s.coh := rfl
@[simp] theorem State.schedule_cellReads (s : State) (c n : Nat) (a : Act) : (s.schedule c n a).cellReads = s.cellReads := rfl
@[simp] theorem State.schedule_hostReads (s : State) (c n : Nat) (a : Act) : (s.schedule c n a).hostReads = s.hostReads := rfl
@[simp] theorem State.schedule_inReset (s : State) (c n : Nat) (a : Act) : (s.schedule c n a).inReset = s.inReset := rfl
@[simp] theorem State.schedule_nextRec (s : State) (c n : Nat) (a : Act) : (s.schedule c n a).nextRec = s.nextRec := rfl
@[simp] theorem State.schedule_budgetAt (s : State) (c n : Nat) (a : Act) : (s.schedule c n a).budgetAt = s.budgetAt := rfl
@[simp] theorem State.schedule_escrow (s : State) (c n : Nat) (a : Act) : (s.schedule c n a).escrow = s.escrow := rfl
@[simp] theorem State.schedule_cur (s : State) (c n : Nat) (a : Act) : (s.schedule c n a).cur = s.cur := rfl
@[simp] theorem State.schedule_agenda (s : State) (c n : Nat) (a : Act) : (s.schedule c n a).agenda = s.agenda := rfl
@[simp] theorem State.schedule_freeCtr (s : State) (c n : Nat) (a : Act) : (s.schedule c n a).freeCtr = s.freeCtr := rfl

/-! State.addFlag. -/

@[simp] theorem State.addFlag_tick (s : State) (c f n : Nat) : (s.addFlag c f n).tick = s.tick := rfl
@[simp] theorem State.addFlag_parts (s : State) (c f n : Nat) : (s.addFlag c f n).parts = s.parts := rfl
@[simp] theorem State.addFlag_position (s : State) (c f n : Nat) : (s.addFlag c f n).position = s.position := rfl
@[simp] theorem State.addFlag_absent (s : State) (c f n : Nat) : (s.addFlag c f n).absent = s.absent := rfl
@[simp] theorem State.addFlag_host (s : State) (c f n : Nat) : (s.addFlag c f n).host = s.host := rfl
@[simp] theorem State.addFlag_cellar (s : State) (c f n : Nat) : (s.addFlag c f n).cellar = s.cellar := rfl
@[simp] theorem State.addFlag_ports (s : State) (c f n : Nat) : (s.addFlag c f n).ports = s.ports := rfl
@[simp] theorem State.addFlag_forigin (s : State) (c f n : Nat) : (s.addFlag c f n).forigin = s.forigin := rfl
@[simp] theorem State.addFlag_bookings (s : State) (c f n : Nat) : (s.addFlag c f n).bookings = s.bookings := rfl
@[simp] theorem State.addFlag_windows (s : State) (c f n : Nat) : (s.addFlag c f n).windows = s.windows := rfl
@[simp] theorem State.addFlag_wstat (s : State) (c f n : Nat) : (s.addFlag c f n).wstat = s.wstat := rfl
@[simp] theorem State.addFlag_layby (s : State) (c f n : Nat) : (s.addFlag c f n).layby = s.layby := rfl
@[simp] theorem State.addFlag_receipts (s : State) (c f n : Nat) : (s.addFlag c f n).receipts = s.receipts := rfl
@[simp] theorem State.addFlag_latePaths (s : State) (c f n : Nat) : (s.addFlag c f n).latePaths = s.latePaths := rfl
@[simp] theorem State.addFlag_backlog (s : State) (c f n : Nat) : (s.addFlag c f n).backlog = s.backlog := rfl
@[simp] theorem State.addFlag_laybyCap (s : State) (c f n : Nat) : (s.addFlag c f n).laybyCap = s.laybyCap := rfl
@[simp] theorem State.addFlag_logs (s : State) (c f n : Nat) : (s.addFlag c f n).logs = s.logs := rfl
@[simp] theorem State.addFlag_ctlb (s : State) (c f n : Nat) : (s.addFlag c f n).ctlb = s.ctlb := rfl
@[simp] theorem State.addFlag_towpath (s : State) (c f n : Nat) : (s.addFlag c f n).towpath = s.towpath := rfl
@[simp] theorem State.addFlag_hthresh (s : State) (c f n : Nat) : (s.addFlag c f n).hthresh = s.hthresh := rfl
@[simp] theorem State.addFlag_health (s : State) (c f n : Nat) : (s.addFlag c f n).health = s.health := rfl
@[simp] theorem State.addFlag_svc (s : State) (c f n : Nat) : (s.addFlag c f n).svc = s.svc := rfl
@[simp] theorem State.addFlag_unavail (s : State) (c f n : Nat) : (s.addFlag c f n).unavail = s.unavail := rfl
@[simp] theorem State.addFlag_tripped (s : State) (c f n : Nat) : (s.addFlag c f n).tripped = s.tripped := rfl
@[simp] theorem State.addFlag_limited (s : State) (c f n : Nat) : (s.addFlag c f n).limited = s.limited := rfl
@[simp] theorem State.addFlag_islands (s : State) (c f n : Nat) : (s.addFlag c f n).islands = s.islands := rfl
@[simp] theorem State.addFlag_coh (s : State) (c f n : Nat) : (s.addFlag c f n).coh = s.coh := rfl
@[simp] theorem State.addFlag_cellReads (s : State) (c f n : Nat) : (s.addFlag c f n).cellReads = s.cellReads := rfl
@[simp] theorem State.addFlag_hostReads (s : State) (c f n : Nat) : (s.addFlag c f n).hostReads = s.hostReads := rfl
@[simp] theorem State.addFlag_inReset (s : State) (c f n : Nat) : (s.addFlag c f n).inReset = s.inReset := rfl
@[simp] theorem State.addFlag_nextRec (s : State) (c f n : Nat) : (s.addFlag c f n).nextRec = s.nextRec := rfl
@[simp] theorem State.addFlag_budgetAt (s : State) (c f n : Nat) : (s.addFlag c f n).budgetAt = s.budgetAt := rfl
@[simp] theorem State.addFlag_escrow (s : State) (c f n : Nat) : (s.addFlag c f n).escrow = s.escrow := rfl
@[simp] theorem State.addFlag_cur (s : State) (c f n : Nat) : (s.addFlag c f n).cur = s.cur := rfl
@[simp] theorem State.addFlag_agenda (s : State) (c f n : Nat) : (s.addFlag c f n).agenda = s.agenda := rfl
@[simp] theorem State.addFlag_freeCtr (s : State) (c f n : Nat) : (s.addFlag c f n).freeCtr = s.freeCtr := rfl

/-! State.log. -/

@[simp] theorem State.log_tick (s : State) (src code reason flags bundle slot part detail : Nat) : (s.log src code reason flags bundle slot part detail).tick = s.tick := rfl
@[simp] theorem State.log_cores (s : State) (src code reason flags bundle slot part detail : Nat) : (s.log src code reason flags bundle slot part detail).cores = s.cores := rfl
@[simp] theorem State.log_parts (s : State) (src code reason flags bundle slot part detail : Nat) : (s.log src code reason flags bundle slot part detail).parts = s.parts := rfl
@[simp] theorem State.log_position (s : State) (src code reason flags bundle slot part detail : Nat) : (s.log src code reason flags bundle slot part detail).position = s.position := rfl
@[simp] theorem State.log_absent (s : State) (src code reason flags bundle slot part detail : Nat) : (s.log src code reason flags bundle slot part detail).absent = s.absent := rfl
@[simp] theorem State.log_host (s : State) (src code reason flags bundle slot part detail : Nat) : (s.log src code reason flags bundle slot part detail).host = s.host := rfl
@[simp] theorem State.log_cellar (s : State) (src code reason flags bundle slot part detail : Nat) : (s.log src code reason flags bundle slot part detail).cellar = s.cellar := rfl
@[simp] theorem State.log_ports (s : State) (src code reason flags bundle slot part detail : Nat) : (s.log src code reason flags bundle slot part detail).ports = s.ports := rfl
@[simp] theorem State.log_forigin (s : State) (src code reason flags bundle slot part detail : Nat) : (s.log src code reason flags bundle slot part detail).forigin = s.forigin := rfl
@[simp] theorem State.log_bookings (s : State) (src code reason flags bundle slot part detail : Nat) : (s.log src code reason flags bundle slot part detail).bookings = s.bookings := rfl
@[simp] theorem State.log_windows (s : State) (src code reason flags bundle slot part detail : Nat) : (s.log src code reason flags bundle slot part detail).windows = s.windows := rfl
@[simp] theorem State.log_wstat (s : State) (src code reason flags bundle slot part detail : Nat) : (s.log src code reason flags bundle slot part detail).wstat = s.wstat := rfl
@[simp] theorem State.log_layby (s : State) (src code reason flags bundle slot part detail : Nat) : (s.log src code reason flags bundle slot part detail).layby = s.layby := rfl
@[simp] theorem State.log_receipts (s : State) (src code reason flags bundle slot part detail : Nat) : (s.log src code reason flags bundle slot part detail).receipts = s.receipts := rfl
@[simp] theorem State.log_latePaths (s : State) (src code reason flags bundle slot part detail : Nat) : (s.log src code reason flags bundle slot part detail).latePaths = s.latePaths := rfl
@[simp] theorem State.log_backlog (s : State) (src code reason flags bundle slot part detail : Nat) : (s.log src code reason flags bundle slot part detail).backlog = s.backlog := rfl
@[simp] theorem State.log_laybyCap (s : State) (src code reason flags bundle slot part detail : Nat) : (s.log src code reason flags bundle slot part detail).laybyCap = s.laybyCap := rfl
@[simp] theorem State.log_ctlb (s : State) (src code reason flags bundle slot part detail : Nat) : (s.log src code reason flags bundle slot part detail).ctlb = s.ctlb := rfl
@[simp] theorem State.log_towpath (s : State) (src code reason flags bundle slot part detail : Nat) : (s.log src code reason flags bundle slot part detail).towpath = s.towpath := rfl
@[simp] theorem State.log_hthresh (s : State) (src code reason flags bundle slot part detail : Nat) : (s.log src code reason flags bundle slot part detail).hthresh = s.hthresh := rfl
@[simp] theorem State.log_health (s : State) (src code reason flags bundle slot part detail : Nat) : (s.log src code reason flags bundle slot part detail).health = s.health := rfl
@[simp] theorem State.log_svc (s : State) (src code reason flags bundle slot part detail : Nat) : (s.log src code reason flags bundle slot part detail).svc = s.svc := rfl
@[simp] theorem State.log_unavail (s : State) (src code reason flags bundle slot part detail : Nat) : (s.log src code reason flags bundle slot part detail).unavail = s.unavail := rfl
@[simp] theorem State.log_tripped (s : State) (src code reason flags bundle slot part detail : Nat) : (s.log src code reason flags bundle slot part detail).tripped = s.tripped := rfl
@[simp] theorem State.log_limited (s : State) (src code reason flags bundle slot part detail : Nat) : (s.log src code reason flags bundle slot part detail).limited = s.limited := rfl
@[simp] theorem State.log_islands (s : State) (src code reason flags bundle slot part detail : Nat) : (s.log src code reason flags bundle slot part detail).islands = s.islands := rfl
@[simp] theorem State.log_coh (s : State) (src code reason flags bundle slot part detail : Nat) : (s.log src code reason flags bundle slot part detail).coh = s.coh := rfl
@[simp] theorem State.log_cellReads (s : State) (src code reason flags bundle slot part detail : Nat) : (s.log src code reason flags bundle slot part detail).cellReads = s.cellReads := rfl
@[simp] theorem State.log_hostReads (s : State) (src code reason flags bundle slot part detail : Nat) : (s.log src code reason flags bundle slot part detail).hostReads = s.hostReads := rfl
@[simp] theorem State.log_inReset (s : State) (src code reason flags bundle slot part detail : Nat) : (s.log src code reason flags bundle slot part detail).inReset = s.inReset := rfl
@[simp] theorem State.log_nextRec (s : State) (src code reason flags bundle slot part detail : Nat) : (s.log src code reason flags bundle slot part detail).nextRec = s.nextRec := rfl
@[simp] theorem State.log_budgetAt (s : State) (src code reason flags bundle slot part detail : Nat) : (s.log src code reason flags bundle slot part detail).budgetAt = s.budgetAt := rfl
@[simp] theorem State.log_escrow (s : State) (src code reason flags bundle slot part detail : Nat) : (s.log src code reason flags bundle slot part detail).escrow = s.escrow := rfl
@[simp] theorem State.log_cur (s : State) (src code reason flags bundle slot part detail : Nat) : (s.log src code reason flags bundle slot part detail).cur = s.cur := rfl
@[simp] theorem State.log_agenda (s : State) (src code reason flags bundle slot part detail : Nat) : (s.log src code reason flags bundle slot part detail).agenda = s.agenda := rfl
@[simp] theorem State.log_freeCtr (s : State) (src code reason flags bundle slot part detail : Nat) : (s.log src code reason flags bundle slot part detail).freeCtr = s.freeCtr := rfl

/-! Core.schedule. -/

@[simp] theorem Core.schedule_regs (k : Core) (due issue : Nat) (a : Act) : (k.schedule due issue a).regs = k.regs := rfl
@[simp] theorem Core.schedule_mem (k : Core) (due issue : Nat) (a : Act) : (k.schedule due issue a).mem = k.mem := rfl
@[simp] theorem Core.schedule_sbuf (k : Core) (due issue : Nat) (a : Act) : (k.schedule due issue a).sbuf = k.sbuf := rfl
@[simp] theorem Core.schedule_press (k : Core) (due issue : Nat) (a : Act) : (k.schedule due issue a).press = k.press := rfl
@[simp] theorem Core.schedule_csr (k : Core) (due issue : Nat) (a : Act) : (k.schedule due issue a).csr = k.csr := rfl
@[simp] theorem Core.schedule_gens (k : Core) (due issue : Nat) (a : Act) : (k.schedule due issue a).gens = k.gens := rfl
@[simp] theorem Core.schedule_motor (k : Core) (due issue : Nat) (a : Act) : (k.schedule due issue a).motor = k.motor := rfl
@[simp] theorem Core.schedule_butty (k : Core) (due issue : Nat) (a : Act) : (k.schedule due issue a).butty = k.butty := rfl
@[simp] theorem Core.schedule_reachix (k : Core) (due issue : Nat) (a : Act) : (k.schedule due issue a).reachix = k.reachix := rfl
@[simp] theorem Core.schedule_reachtick (k : Core) (due issue : Nat) (a : Act) : (k.schedule due issue a).reachtick = k.reachtick := rfl
@[simp] theorem Core.schedule_lock (k : Core) (due issue : Nat) (a : Act) : (k.schedule due issue a).lock = k.lock := rfl
@[simp] theorem Core.schedule_fwait (k : Core) (due issue : Nat) (a : Act) : (k.schedule due issue a).fwait = k.fwait := rfl
@[simp] theorem Core.schedule_latch (k : Core) (due issue : Nat) (a : Act) : (k.schedule due issue a).latch = k.latch := rfl
@[simp] theorem Core.schedule_mres (k : Core) (due issue : Nat) (a : Act) : (k.schedule due issue a).mres = k.mres := rfl
@[simp] theorem Core.schedule_statTick (k : Core) (due issue : Nat) (a : Act) : (k.schedule due issue a).statTick = k.statTick := rfl
@[simp] theorem Core.schedule_statBits (k : Core) (due issue : Nat) (a : Act) : (k.schedule due issue a).statBits = k.statBits := rfl
@[simp] theorem Core.schedule_busy (k : Core) (due issue : Nat) (a : Act) : (k.schedule due issue a).busy = k.busy := rfl
@[simp] theorem Core.schedule_fresh (k : Core) (due issue : Nat) (a : Act) : (k.schedule due issue a).fresh = k.fresh := rfl
@[simp] theorem Core.schedule_hand (k : Core) (due issue : Nat) (a : Act) : (k.schedule due issue a).hand = k.hand := rfl
@[simp] theorem Core.schedule_guards (k : Core) (due issue : Nat) (a : Act) : (k.schedule due issue a).guards = k.guards := rfl
@[simp] theorem Core.schedule_racks (k : Core) (due issue : Nat) (a : Act) : (k.schedule due issue a).racks = k.racks := rfl
@[simp] theorem Core.schedule_rackSeq (k : Core) (due issue : Nat) (a : Act) : (k.schedule due issue a).rackSeq = k.rackSeq := rfl
@[simp] theorem Core.schedule_mons (k : Core) (due issue : Nat) (a : Act) : (k.schedule due issue a).mons = k.mons := rfl
@[simp] theorem Core.schedule_sends (k : Core) (due issue : Nat) (a : Act) : (k.schedule due issue a).sends = k.sends := rfl
@[simp] theorem Core.schedule_sendSeq (k : Core) (due issue : Nat) (a : Act) : (k.schedule due issue a).sendSeq = k.sendSeq := rfl
@[simp] theorem Core.schedule_fences (k : Core) (due issue : Nat) (a : Act) : (k.schedule due issue a).fences = k.fences := rfl
@[simp] theorem Core.schedule_sysops (k : Core) (due issue : Nat) (a : Act) : (k.schedule due issue a).sysops = k.sysops := rfl
@[simp] theorem Core.schedule_garr (k : Core) (due issue : Nat) (a : Act) : (k.schedule due issue a).garr = k.garr := rfl
@[simp] theorem Core.schedule_calls (k : Core) (due issue : Nat) (a : Act) : (k.schedule due issue a).calls = k.calls := rfl
@[simp] theorem Core.schedule_traps (k : Core) (due issue : Nat) (a : Act) : (k.schedule due issue a).traps = k.traps := rfl
@[simp] theorem Core.schedule_casts (k : Core) (due issue : Nat) (a : Act) : (k.schedule due issue a).casts = k.casts := rfl
@[simp] theorem Core.schedule_tlb (k : Core) (due issue : Nat) (a : Act) : (k.schedule due issue a).tlb = k.tlb := rfl
@[simp] theorem Core.schedule_halted (k : Core) (due issue : Nat) (a : Act) : (k.schedule due issue a).halted = k.halted := rfl

/-! Core.setFlag. -/

@[simp] theorem Core.setFlag_regs (k : Core) (n : Nat) (v : BitVec 32) : (k.setFlag n v).regs = k.regs := rfl
@[simp] theorem Core.setFlag_sbuf (k : Core) (n : Nat) (v : BitVec 32) : (k.setFlag n v).sbuf = k.sbuf := rfl
@[simp] theorem Core.setFlag_press (k : Core) (n : Nat) (v : BitVec 32) : (k.setFlag n v).press = k.press := rfl
@[simp] theorem Core.setFlag_csr (k : Core) (n : Nat) (v : BitVec 32) : (k.setFlag n v).csr = k.csr := rfl
@[simp] theorem Core.setFlag_gens (k : Core) (n : Nat) (v : BitVec 32) : (k.setFlag n v).gens = k.gens := rfl
@[simp] theorem Core.setFlag_motor (k : Core) (n : Nat) (v : BitVec 32) : (k.setFlag n v).motor = k.motor := rfl
@[simp] theorem Core.setFlag_butty (k : Core) (n : Nat) (v : BitVec 32) : (k.setFlag n v).butty = k.butty := rfl
@[simp] theorem Core.setFlag_reachix (k : Core) (n : Nat) (v : BitVec 32) : (k.setFlag n v).reachix = k.reachix := rfl
@[simp] theorem Core.setFlag_reachtick (k : Core) (n : Nat) (v : BitVec 32) : (k.setFlag n v).reachtick = k.reachtick := rfl
@[simp] theorem Core.setFlag_lock (k : Core) (n : Nat) (v : BitVec 32) : (k.setFlag n v).lock = k.lock := rfl
@[simp] theorem Core.setFlag_fwait (k : Core) (n : Nat) (v : BitVec 32) : (k.setFlag n v).fwait = k.fwait := rfl
@[simp] theorem Core.setFlag_latch (k : Core) (n : Nat) (v : BitVec 32) : (k.setFlag n v).latch = k.latch := rfl
@[simp] theorem Core.setFlag_mres (k : Core) (n : Nat) (v : BitVec 32) : (k.setFlag n v).mres = k.mres := rfl
@[simp] theorem Core.setFlag_pend (k : Core) (n : Nat) (v : BitVec 32) : (k.setFlag n v).pend = k.pend := rfl
@[simp] theorem Core.setFlag_seq (k : Core) (n : Nat) (v : BitVec 32) : (k.setFlag n v).seq = k.seq := rfl
@[simp] theorem Core.setFlag_statTick (k : Core) (n : Nat) (v : BitVec 32) : (k.setFlag n v).statTick = k.statTick := rfl
@[simp] theorem Core.setFlag_statBits (k : Core) (n : Nat) (v : BitVec 32) : (k.setFlag n v).statBits = k.statBits := rfl
@[simp] theorem Core.setFlag_busy (k : Core) (n : Nat) (v : BitVec 32) : (k.setFlag n v).busy = k.busy := rfl
@[simp] theorem Core.setFlag_fresh (k : Core) (n : Nat) (v : BitVec 32) : (k.setFlag n v).fresh = k.fresh := rfl
@[simp] theorem Core.setFlag_hand (k : Core) (n : Nat) (v : BitVec 32) : (k.setFlag n v).hand = k.hand := rfl
@[simp] theorem Core.setFlag_guards (k : Core) (n : Nat) (v : BitVec 32) : (k.setFlag n v).guards = k.guards := rfl
@[simp] theorem Core.setFlag_racks (k : Core) (n : Nat) (v : BitVec 32) : (k.setFlag n v).racks = k.racks := rfl
@[simp] theorem Core.setFlag_rackSeq (k : Core) (n : Nat) (v : BitVec 32) : (k.setFlag n v).rackSeq = k.rackSeq := rfl
@[simp] theorem Core.setFlag_mons (k : Core) (n : Nat) (v : BitVec 32) : (k.setFlag n v).mons = k.mons := rfl
@[simp] theorem Core.setFlag_sends (k : Core) (n : Nat) (v : BitVec 32) : (k.setFlag n v).sends = k.sends := rfl
@[simp] theorem Core.setFlag_sendSeq (k : Core) (n : Nat) (v : BitVec 32) : (k.setFlag n v).sendSeq = k.sendSeq := rfl
@[simp] theorem Core.setFlag_fences (k : Core) (n : Nat) (v : BitVec 32) : (k.setFlag n v).fences = k.fences := rfl
@[simp] theorem Core.setFlag_sysops (k : Core) (n : Nat) (v : BitVec 32) : (k.setFlag n v).sysops = k.sysops := rfl
@[simp] theorem Core.setFlag_garr (k : Core) (n : Nat) (v : BitVec 32) : (k.setFlag n v).garr = k.garr := rfl
@[simp] theorem Core.setFlag_calls (k : Core) (n : Nat) (v : BitVec 32) : (k.setFlag n v).calls = k.calls := rfl
@[simp] theorem Core.setFlag_traps (k : Core) (n : Nat) (v : BitVec 32) : (k.setFlag n v).traps = k.traps := rfl
@[simp] theorem Core.setFlag_casts (k : Core) (n : Nat) (v : BitVec 32) : (k.setFlag n v).casts = k.casts := rfl
@[simp] theorem Core.setFlag_tlb (k : Core) (n : Nat) (v : BitVec 32) : (k.setFlag n v).tlb = k.tlb := rfl
@[simp] theorem Core.setFlag_halted (k : Core) (n : Nat) (v : BitVec 32) : (k.setFlag n v).halted = k.halted := rfl

/-! Core.modRegs. -/

@[simp] theorem Core.modRegs_mem (k : Core) (f : Regs → Regs) : (k.modRegs f).mem = k.mem := rfl
@[simp] theorem Core.modRegs_sbuf (k : Core) (f : Regs → Regs) : (k.modRegs f).sbuf = k.sbuf := rfl
@[simp] theorem Core.modRegs_press (k : Core) (f : Regs → Regs) : (k.modRegs f).press = k.press := rfl
@[simp] theorem Core.modRegs_csr (k : Core) (f : Regs → Regs) : (k.modRegs f).csr = k.csr := rfl
@[simp] theorem Core.modRegs_gens (k : Core) (f : Regs → Regs) : (k.modRegs f).gens = k.gens := rfl
@[simp] theorem Core.modRegs_motor (k : Core) (f : Regs → Regs) : (k.modRegs f).motor = k.motor := rfl
@[simp] theorem Core.modRegs_butty (k : Core) (f : Regs → Regs) : (k.modRegs f).butty = k.butty := rfl
@[simp] theorem Core.modRegs_reachix (k : Core) (f : Regs → Regs) : (k.modRegs f).reachix = k.reachix := rfl
@[simp] theorem Core.modRegs_reachtick (k : Core) (f : Regs → Regs) : (k.modRegs f).reachtick = k.reachtick := rfl
@[simp] theorem Core.modRegs_lock (k : Core) (f : Regs → Regs) : (k.modRegs f).lock = k.lock := rfl
@[simp] theorem Core.modRegs_fwait (k : Core) (f : Regs → Regs) : (k.modRegs f).fwait = k.fwait := rfl
@[simp] theorem Core.modRegs_latch (k : Core) (f : Regs → Regs) : (k.modRegs f).latch = k.latch := rfl
@[simp] theorem Core.modRegs_mres (k : Core) (f : Regs → Regs) : (k.modRegs f).mres = k.mres := rfl
@[simp] theorem Core.modRegs_pend (k : Core) (f : Regs → Regs) : (k.modRegs f).pend = k.pend := rfl
@[simp] theorem Core.modRegs_seq (k : Core) (f : Regs → Regs) : (k.modRegs f).seq = k.seq := rfl
@[simp] theorem Core.modRegs_statTick (k : Core) (f : Regs → Regs) : (k.modRegs f).statTick = k.statTick := rfl
@[simp] theorem Core.modRegs_statBits (k : Core) (f : Regs → Regs) : (k.modRegs f).statBits = k.statBits := rfl
@[simp] theorem Core.modRegs_busy (k : Core) (f : Regs → Regs) : (k.modRegs f).busy = k.busy := rfl
@[simp] theorem Core.modRegs_fresh (k : Core) (f : Regs → Regs) : (k.modRegs f).fresh = k.fresh := rfl
@[simp] theorem Core.modRegs_hand (k : Core) (f : Regs → Regs) : (k.modRegs f).hand = k.hand := rfl
@[simp] theorem Core.modRegs_guards (k : Core) (f : Regs → Regs) : (k.modRegs f).guards = k.guards := rfl
@[simp] theorem Core.modRegs_racks (k : Core) (f : Regs → Regs) : (k.modRegs f).racks = k.racks := rfl
@[simp] theorem Core.modRegs_rackSeq (k : Core) (f : Regs → Regs) : (k.modRegs f).rackSeq = k.rackSeq := rfl
@[simp] theorem Core.modRegs_mons (k : Core) (f : Regs → Regs) : (k.modRegs f).mons = k.mons := rfl
@[simp] theorem Core.modRegs_sends (k : Core) (f : Regs → Regs) : (k.modRegs f).sends = k.sends := rfl
@[simp] theorem Core.modRegs_sendSeq (k : Core) (f : Regs → Regs) : (k.modRegs f).sendSeq = k.sendSeq := rfl
@[simp] theorem Core.modRegs_fences (k : Core) (f : Regs → Regs) : (k.modRegs f).fences = k.fences := rfl
@[simp] theorem Core.modRegs_sysops (k : Core) (f : Regs → Regs) : (k.modRegs f).sysops = k.sysops := rfl
@[simp] theorem Core.modRegs_garr (k : Core) (f : Regs → Regs) : (k.modRegs f).garr = k.garr := rfl
@[simp] theorem Core.modRegs_calls (k : Core) (f : Regs → Regs) : (k.modRegs f).calls = k.calls := rfl
@[simp] theorem Core.modRegs_traps (k : Core) (f : Regs → Regs) : (k.modRegs f).traps = k.traps := rfl
@[simp] theorem Core.modRegs_casts (k : Core) (f : Regs → Regs) : (k.modRegs f).casts = k.casts := rfl
@[simp] theorem Core.modRegs_tlb (k : Core) (f : Regs → Regs) : (k.modRegs f).tlb = k.tlb := rfl
@[simp] theorem Core.modRegs_halted (k : Core) (f : Regs → Regs) : (k.modRegs f).halted = k.halted := rfl

/-! Core.setOut. -/

@[simp] theorem Core.setOut_mem (k : Core) (n : Nat) (v : Word) : (k.setOut n v).mem = k.mem := rfl
@[simp] theorem Core.setOut_sbuf (k : Core) (n : Nat) (v : Word) : (k.setOut n v).sbuf = k.sbuf := rfl
@[simp] theorem Core.setOut_press (k : Core) (n : Nat) (v : Word) : (k.setOut n v).press = k.press := rfl
@[simp] theorem Core.setOut_csr (k : Core) (n : Nat) (v : Word) : (k.setOut n v).csr = k.csr := rfl
@[simp] theorem Core.setOut_gens (k : Core) (n : Nat) (v : Word) : (k.setOut n v).gens = k.gens := rfl
@[simp] theorem Core.setOut_motor (k : Core) (n : Nat) (v : Word) : (k.setOut n v).motor = k.motor := rfl
@[simp] theorem Core.setOut_butty (k : Core) (n : Nat) (v : Word) : (k.setOut n v).butty = k.butty := rfl
@[simp] theorem Core.setOut_reachix (k : Core) (n : Nat) (v : Word) : (k.setOut n v).reachix = k.reachix := rfl
@[simp] theorem Core.setOut_reachtick (k : Core) (n : Nat) (v : Word) : (k.setOut n v).reachtick = k.reachtick := rfl
@[simp] theorem Core.setOut_lock (k : Core) (n : Nat) (v : Word) : (k.setOut n v).lock = k.lock := rfl
@[simp] theorem Core.setOut_fwait (k : Core) (n : Nat) (v : Word) : (k.setOut n v).fwait = k.fwait := rfl
@[simp] theorem Core.setOut_latch (k : Core) (n : Nat) (v : Word) : (k.setOut n v).latch = k.latch := rfl
@[simp] theorem Core.setOut_mres (k : Core) (n : Nat) (v : Word) : (k.setOut n v).mres = k.mres := rfl
@[simp] theorem Core.setOut_pend (k : Core) (n : Nat) (v : Word) : (k.setOut n v).pend = k.pend := rfl
@[simp] theorem Core.setOut_seq (k : Core) (n : Nat) (v : Word) : (k.setOut n v).seq = k.seq := rfl
@[simp] theorem Core.setOut_statTick (k : Core) (n : Nat) (v : Word) : (k.setOut n v).statTick = k.statTick := rfl
@[simp] theorem Core.setOut_statBits (k : Core) (n : Nat) (v : Word) : (k.setOut n v).statBits = k.statBits := rfl
@[simp] theorem Core.setOut_busy (k : Core) (n : Nat) (v : Word) : (k.setOut n v).busy = k.busy := rfl
@[simp] theorem Core.setOut_fresh (k : Core) (n : Nat) (v : Word) : (k.setOut n v).fresh = k.fresh := rfl
@[simp] theorem Core.setOut_hand (k : Core) (n : Nat) (v : Word) : (k.setOut n v).hand = k.hand := rfl
@[simp] theorem Core.setOut_guards (k : Core) (n : Nat) (v : Word) : (k.setOut n v).guards = k.guards := rfl
@[simp] theorem Core.setOut_racks (k : Core) (n : Nat) (v : Word) : (k.setOut n v).racks = k.racks := rfl
@[simp] theorem Core.setOut_rackSeq (k : Core) (n : Nat) (v : Word) : (k.setOut n v).rackSeq = k.rackSeq := rfl
@[simp] theorem Core.setOut_mons (k : Core) (n : Nat) (v : Word) : (k.setOut n v).mons = k.mons := rfl
@[simp] theorem Core.setOut_sends (k : Core) (n : Nat) (v : Word) : (k.setOut n v).sends = k.sends := rfl
@[simp] theorem Core.setOut_sendSeq (k : Core) (n : Nat) (v : Word) : (k.setOut n v).sendSeq = k.sendSeq := rfl
@[simp] theorem Core.setOut_fences (k : Core) (n : Nat) (v : Word) : (k.setOut n v).fences = k.fences := rfl
@[simp] theorem Core.setOut_sysops (k : Core) (n : Nat) (v : Word) : (k.setOut n v).sysops = k.sysops := rfl
@[simp] theorem Core.setOut_garr (k : Core) (n : Nat) (v : Word) : (k.setOut n v).garr = k.garr := rfl
@[simp] theorem Core.setOut_calls (k : Core) (n : Nat) (v : Word) : (k.setOut n v).calls = k.calls := rfl
@[simp] theorem Core.setOut_traps (k : Core) (n : Nat) (v : Word) : (k.setOut n v).traps = k.traps := rfl
@[simp] theorem Core.setOut_casts (k : Core) (n : Nat) (v : Word) : (k.setOut n v).casts = k.casts := rfl
@[simp] theorem Core.setOut_tlb (k : Core) (n : Nat) (v : Word) : (k.setOut n v).tlb = k.tlb := rfl
@[simp] theorem Core.setOut_halted (k : Core) (n : Nat) (v : Word) : (k.setOut n v).halted = k.halted := rfl

/-! Core.setCap. -/

@[simp] theorem Core.setCap_mem (k : Core) (n : Nat) (c : Cap) : (k.setCap n c).mem = k.mem := rfl
@[simp] theorem Core.setCap_sbuf (k : Core) (n : Nat) (c : Cap) : (k.setCap n c).sbuf = k.sbuf := rfl
@[simp] theorem Core.setCap_press (k : Core) (n : Nat) (c : Cap) : (k.setCap n c).press = k.press := rfl
@[simp] theorem Core.setCap_csr (k : Core) (n : Nat) (c : Cap) : (k.setCap n c).csr = k.csr := rfl
@[simp] theorem Core.setCap_gens (k : Core) (n : Nat) (c : Cap) : (k.setCap n c).gens = k.gens := rfl
@[simp] theorem Core.setCap_motor (k : Core) (n : Nat) (c : Cap) : (k.setCap n c).motor = k.motor := rfl
@[simp] theorem Core.setCap_butty (k : Core) (n : Nat) (c : Cap) : (k.setCap n c).butty = k.butty := rfl
@[simp] theorem Core.setCap_reachix (k : Core) (n : Nat) (c : Cap) : (k.setCap n c).reachix = k.reachix := rfl
@[simp] theorem Core.setCap_reachtick (k : Core) (n : Nat) (c : Cap) : (k.setCap n c).reachtick = k.reachtick := rfl
@[simp] theorem Core.setCap_lock (k : Core) (n : Nat) (c : Cap) : (k.setCap n c).lock = k.lock := rfl
@[simp] theorem Core.setCap_fwait (k : Core) (n : Nat) (c : Cap) : (k.setCap n c).fwait = k.fwait := rfl
@[simp] theorem Core.setCap_latch (k : Core) (n : Nat) (c : Cap) : (k.setCap n c).latch = k.latch := rfl
@[simp] theorem Core.setCap_mres (k : Core) (n : Nat) (c : Cap) : (k.setCap n c).mres = k.mres := rfl
@[simp] theorem Core.setCap_pend (k : Core) (n : Nat) (c : Cap) : (k.setCap n c).pend = k.pend := rfl
@[simp] theorem Core.setCap_seq (k : Core) (n : Nat) (c : Cap) : (k.setCap n c).seq = k.seq := rfl
@[simp] theorem Core.setCap_statTick (k : Core) (n : Nat) (c : Cap) : (k.setCap n c).statTick = k.statTick := rfl
@[simp] theorem Core.setCap_statBits (k : Core) (n : Nat) (c : Cap) : (k.setCap n c).statBits = k.statBits := rfl
@[simp] theorem Core.setCap_busy (k : Core) (n : Nat) (c : Cap) : (k.setCap n c).busy = k.busy := rfl
@[simp] theorem Core.setCap_fresh (k : Core) (n : Nat) (c : Cap) : (k.setCap n c).fresh = k.fresh := rfl
@[simp] theorem Core.setCap_hand (k : Core) (n : Nat) (c : Cap) : (k.setCap n c).hand = k.hand := rfl
@[simp] theorem Core.setCap_guards (k : Core) (n : Nat) (c : Cap) : (k.setCap n c).guards = k.guards := rfl
@[simp] theorem Core.setCap_racks (k : Core) (n : Nat) (c : Cap) : (k.setCap n c).racks = k.racks := rfl
@[simp] theorem Core.setCap_rackSeq (k : Core) (n : Nat) (c : Cap) : (k.setCap n c).rackSeq = k.rackSeq := rfl
@[simp] theorem Core.setCap_mons (k : Core) (n : Nat) (c : Cap) : (k.setCap n c).mons = k.mons := rfl
@[simp] theorem Core.setCap_sends (k : Core) (n : Nat) (c : Cap) : (k.setCap n c).sends = k.sends := rfl
@[simp] theorem Core.setCap_sendSeq (k : Core) (n : Nat) (c : Cap) : (k.setCap n c).sendSeq = k.sendSeq := rfl
@[simp] theorem Core.setCap_fences (k : Core) (n : Nat) (c : Cap) : (k.setCap n c).fences = k.fences := rfl
@[simp] theorem Core.setCap_sysops (k : Core) (n : Nat) (c : Cap) : (k.setCap n c).sysops = k.sysops := rfl
@[simp] theorem Core.setCap_garr (k : Core) (n : Nat) (c : Cap) : (k.setCap n c).garr = k.garr := rfl
@[simp] theorem Core.setCap_calls (k : Core) (n : Nat) (c : Cap) : (k.setCap n c).calls = k.calls := rfl
@[simp] theorem Core.setCap_traps (k : Core) (n : Nat) (c : Cap) : (k.setCap n c).traps = k.traps := rfl
@[simp] theorem Core.setCap_casts (k : Core) (n : Nat) (c : Cap) : (k.setCap n c).casts = k.casts := rfl
@[simp] theorem Core.setCap_tlb (k : Core) (n : Nat) (c : Cap) : (k.setCap n c).tlb = k.tlb := rfl
@[simp] theorem Core.setCap_halted (k : Core) (n : Nat) (c : Cap) : (k.setCap n c).halted = k.halted := rfl

/-! Core.setF. -/

@[simp] theorem Core.setF_mem (k : Core) (n : Nat) (v : Word) : (k.setF n v).mem = k.mem := rfl
@[simp] theorem Core.setF_sbuf (k : Core) (n : Nat) (v : Word) : (k.setF n v).sbuf = k.sbuf := rfl
@[simp] theorem Core.setF_press (k : Core) (n : Nat) (v : Word) : (k.setF n v).press = k.press := rfl
@[simp] theorem Core.setF_csr (k : Core) (n : Nat) (v : Word) : (k.setF n v).csr = k.csr := rfl
@[simp] theorem Core.setF_gens (k : Core) (n : Nat) (v : Word) : (k.setF n v).gens = k.gens := rfl
@[simp] theorem Core.setF_motor (k : Core) (n : Nat) (v : Word) : (k.setF n v).motor = k.motor := rfl
@[simp] theorem Core.setF_butty (k : Core) (n : Nat) (v : Word) : (k.setF n v).butty = k.butty := rfl
@[simp] theorem Core.setF_reachix (k : Core) (n : Nat) (v : Word) : (k.setF n v).reachix = k.reachix := rfl
@[simp] theorem Core.setF_reachtick (k : Core) (n : Nat) (v : Word) : (k.setF n v).reachtick = k.reachtick := rfl
@[simp] theorem Core.setF_lock (k : Core) (n : Nat) (v : Word) : (k.setF n v).lock = k.lock := rfl
@[simp] theorem Core.setF_fwait (k : Core) (n : Nat) (v : Word) : (k.setF n v).fwait = k.fwait := rfl
@[simp] theorem Core.setF_latch (k : Core) (n : Nat) (v : Word) : (k.setF n v).latch = k.latch := rfl
@[simp] theorem Core.setF_mres (k : Core) (n : Nat) (v : Word) : (k.setF n v).mres = k.mres := rfl
@[simp] theorem Core.setF_pend (k : Core) (n : Nat) (v : Word) : (k.setF n v).pend = k.pend := rfl
@[simp] theorem Core.setF_seq (k : Core) (n : Nat) (v : Word) : (k.setF n v).seq = k.seq := rfl
@[simp] theorem Core.setF_statTick (k : Core) (n : Nat) (v : Word) : (k.setF n v).statTick = k.statTick := rfl
@[simp] theorem Core.setF_statBits (k : Core) (n : Nat) (v : Word) : (k.setF n v).statBits = k.statBits := rfl
@[simp] theorem Core.setF_busy (k : Core) (n : Nat) (v : Word) : (k.setF n v).busy = k.busy := rfl
@[simp] theorem Core.setF_fresh (k : Core) (n : Nat) (v : Word) : (k.setF n v).fresh = k.fresh := rfl
@[simp] theorem Core.setF_hand (k : Core) (n : Nat) (v : Word) : (k.setF n v).hand = k.hand := rfl
@[simp] theorem Core.setF_guards (k : Core) (n : Nat) (v : Word) : (k.setF n v).guards = k.guards := rfl
@[simp] theorem Core.setF_racks (k : Core) (n : Nat) (v : Word) : (k.setF n v).racks = k.racks := rfl
@[simp] theorem Core.setF_rackSeq (k : Core) (n : Nat) (v : Word) : (k.setF n v).rackSeq = k.rackSeq := rfl
@[simp] theorem Core.setF_mons (k : Core) (n : Nat) (v : Word) : (k.setF n v).mons = k.mons := rfl
@[simp] theorem Core.setF_sends (k : Core) (n : Nat) (v : Word) : (k.setF n v).sends = k.sends := rfl
@[simp] theorem Core.setF_sendSeq (k : Core) (n : Nat) (v : Word) : (k.setF n v).sendSeq = k.sendSeq := rfl
@[simp] theorem Core.setF_fences (k : Core) (n : Nat) (v : Word) : (k.setF n v).fences = k.fences := rfl
@[simp] theorem Core.setF_sysops (k : Core) (n : Nat) (v : Word) : (k.setF n v).sysops = k.sysops := rfl
@[simp] theorem Core.setF_garr (k : Core) (n : Nat) (v : Word) : (k.setF n v).garr = k.garr := rfl
@[simp] theorem Core.setF_calls (k : Core) (n : Nat) (v : Word) : (k.setF n v).calls = k.calls := rfl
@[simp] theorem Core.setF_traps (k : Core) (n : Nat) (v : Word) : (k.setF n v).traps = k.traps := rfl
@[simp] theorem Core.setF_casts (k : Core) (n : Nat) (v : Word) : (k.setF n v).casts = k.casts := rfl
@[simp] theorem Core.setF_tlb (k : Core) (n : Nat) (v : Word) : (k.setF n v).tlb = k.tlb := rfl
@[simp] theorem Core.setF_halted (k : Core) (n : Nat) (v : Word) : (k.setF n v).halted = k.halted := rfl

/-! Core.setQ. -/

@[simp] theorem Core.setQ_mem (k : Core) (n : Nat) (l : List Word) : (k.setQ n l).mem = k.mem := rfl
@[simp] theorem Core.setQ_sbuf (k : Core) (n : Nat) (l : List Word) : (k.setQ n l).sbuf = k.sbuf := rfl
@[simp] theorem Core.setQ_press (k : Core) (n : Nat) (l : List Word) : (k.setQ n l).press = k.press := rfl
@[simp] theorem Core.setQ_csr (k : Core) (n : Nat) (l : List Word) : (k.setQ n l).csr = k.csr := rfl
@[simp] theorem Core.setQ_gens (k : Core) (n : Nat) (l : List Word) : (k.setQ n l).gens = k.gens := rfl
@[simp] theorem Core.setQ_motor (k : Core) (n : Nat) (l : List Word) : (k.setQ n l).motor = k.motor := rfl
@[simp] theorem Core.setQ_butty (k : Core) (n : Nat) (l : List Word) : (k.setQ n l).butty = k.butty := rfl
@[simp] theorem Core.setQ_reachix (k : Core) (n : Nat) (l : List Word) : (k.setQ n l).reachix = k.reachix := rfl
@[simp] theorem Core.setQ_reachtick (k : Core) (n : Nat) (l : List Word) : (k.setQ n l).reachtick = k.reachtick := rfl
@[simp] theorem Core.setQ_lock (k : Core) (n : Nat) (l : List Word) : (k.setQ n l).lock = k.lock := rfl
@[simp] theorem Core.setQ_fwait (k : Core) (n : Nat) (l : List Word) : (k.setQ n l).fwait = k.fwait := rfl
@[simp] theorem Core.setQ_latch (k : Core) (n : Nat) (l : List Word) : (k.setQ n l).latch = k.latch := rfl
@[simp] theorem Core.setQ_mres (k : Core) (n : Nat) (l : List Word) : (k.setQ n l).mres = k.mres := rfl
@[simp] theorem Core.setQ_pend (k : Core) (n : Nat) (l : List Word) : (k.setQ n l).pend = k.pend := rfl
@[simp] theorem Core.setQ_seq (k : Core) (n : Nat) (l : List Word) : (k.setQ n l).seq = k.seq := rfl
@[simp] theorem Core.setQ_statTick (k : Core) (n : Nat) (l : List Word) : (k.setQ n l).statTick = k.statTick := rfl
@[simp] theorem Core.setQ_statBits (k : Core) (n : Nat) (l : List Word) : (k.setQ n l).statBits = k.statBits := rfl
@[simp] theorem Core.setQ_busy (k : Core) (n : Nat) (l : List Word) : (k.setQ n l).busy = k.busy := rfl
@[simp] theorem Core.setQ_fresh (k : Core) (n : Nat) (l : List Word) : (k.setQ n l).fresh = k.fresh := rfl
@[simp] theorem Core.setQ_hand (k : Core) (n : Nat) (l : List Word) : (k.setQ n l).hand = k.hand := rfl
@[simp] theorem Core.setQ_guards (k : Core) (n : Nat) (l : List Word) : (k.setQ n l).guards = k.guards := rfl
@[simp] theorem Core.setQ_racks (k : Core) (n : Nat) (l : List Word) : (k.setQ n l).racks = k.racks := rfl
@[simp] theorem Core.setQ_rackSeq (k : Core) (n : Nat) (l : List Word) : (k.setQ n l).rackSeq = k.rackSeq := rfl
@[simp] theorem Core.setQ_mons (k : Core) (n : Nat) (l : List Word) : (k.setQ n l).mons = k.mons := rfl
@[simp] theorem Core.setQ_sends (k : Core) (n : Nat) (l : List Word) : (k.setQ n l).sends = k.sends := rfl
@[simp] theorem Core.setQ_sendSeq (k : Core) (n : Nat) (l : List Word) : (k.setQ n l).sendSeq = k.sendSeq := rfl
@[simp] theorem Core.setQ_fences (k : Core) (n : Nat) (l : List Word) : (k.setQ n l).fences = k.fences := rfl
@[simp] theorem Core.setQ_sysops (k : Core) (n : Nat) (l : List Word) : (k.setQ n l).sysops = k.sysops := rfl
@[simp] theorem Core.setQ_garr (k : Core) (n : Nat) (l : List Word) : (k.setQ n l).garr = k.garr := rfl
@[simp] theorem Core.setQ_calls (k : Core) (n : Nat) (l : List Word) : (k.setQ n l).calls = k.calls := rfl
@[simp] theorem Core.setQ_traps (k : Core) (n : Nat) (l : List Word) : (k.setQ n l).traps = k.traps := rfl
@[simp] theorem Core.setQ_casts (k : Core) (n : Nat) (l : List Word) : (k.setQ n l).casts = k.casts := rfl
@[simp] theorem Core.setQ_tlb (k : Core) (n : Nat) (l : List Word) : (k.setQ n l).tlb = k.tlb := rfl
@[simp] theorem Core.setQ_halted (k : Core) (n : Nat) (l : List Word) : (k.setQ n l).halted = k.halted := rfl

/-! Core.setRack. -/

@[simp] theorem Core.setRack_regs (k : Core) (i : Nat) (r : Rack) : (k.setRack i r).regs = k.regs := rfl
@[simp] theorem Core.setRack_mem (k : Core) (i : Nat) (r : Rack) : (k.setRack i r).mem = k.mem := rfl
@[simp] theorem Core.setRack_sbuf (k : Core) (i : Nat) (r : Rack) : (k.setRack i r).sbuf = k.sbuf := rfl
@[simp] theorem Core.setRack_press (k : Core) (i : Nat) (r : Rack) : (k.setRack i r).press = k.press := rfl
@[simp] theorem Core.setRack_csr (k : Core) (i : Nat) (r : Rack) : (k.setRack i r).csr = k.csr := rfl
@[simp] theorem Core.setRack_gens (k : Core) (i : Nat) (r : Rack) : (k.setRack i r).gens = k.gens := rfl
@[simp] theorem Core.setRack_motor (k : Core) (i : Nat) (r : Rack) : (k.setRack i r).motor = k.motor := rfl
@[simp] theorem Core.setRack_butty (k : Core) (i : Nat) (r : Rack) : (k.setRack i r).butty = k.butty := rfl
@[simp] theorem Core.setRack_reachix (k : Core) (i : Nat) (r : Rack) : (k.setRack i r).reachix = k.reachix := rfl
@[simp] theorem Core.setRack_reachtick (k : Core) (i : Nat) (r : Rack) : (k.setRack i r).reachtick = k.reachtick := rfl
@[simp] theorem Core.setRack_lock (k : Core) (i : Nat) (r : Rack) : (k.setRack i r).lock = k.lock := rfl
@[simp] theorem Core.setRack_fwait (k : Core) (i : Nat) (r : Rack) : (k.setRack i r).fwait = k.fwait := rfl
@[simp] theorem Core.setRack_latch (k : Core) (i : Nat) (r : Rack) : (k.setRack i r).latch = k.latch := rfl
@[simp] theorem Core.setRack_mres (k : Core) (i : Nat) (r : Rack) : (k.setRack i r).mres = k.mres := rfl
@[simp] theorem Core.setRack_pend (k : Core) (i : Nat) (r : Rack) : (k.setRack i r).pend = k.pend := rfl
@[simp] theorem Core.setRack_seq (k : Core) (i : Nat) (r : Rack) : (k.setRack i r).seq = k.seq := rfl
@[simp] theorem Core.setRack_statTick (k : Core) (i : Nat) (r : Rack) : (k.setRack i r).statTick = k.statTick := rfl
@[simp] theorem Core.setRack_statBits (k : Core) (i : Nat) (r : Rack) : (k.setRack i r).statBits = k.statBits := rfl
@[simp] theorem Core.setRack_busy (k : Core) (i : Nat) (r : Rack) : (k.setRack i r).busy = k.busy := rfl
@[simp] theorem Core.setRack_fresh (k : Core) (i : Nat) (r : Rack) : (k.setRack i r).fresh = k.fresh := rfl
@[simp] theorem Core.setRack_hand (k : Core) (i : Nat) (r : Rack) : (k.setRack i r).hand = k.hand := rfl
@[simp] theorem Core.setRack_guards (k : Core) (i : Nat) (r : Rack) : (k.setRack i r).guards = k.guards := rfl
@[simp] theorem Core.setRack_rackSeq (k : Core) (i : Nat) (r : Rack) : (k.setRack i r).rackSeq = k.rackSeq := rfl
@[simp] theorem Core.setRack_mons (k : Core) (i : Nat) (r : Rack) : (k.setRack i r).mons = k.mons := rfl
@[simp] theorem Core.setRack_sends (k : Core) (i : Nat) (r : Rack) : (k.setRack i r).sends = k.sends := rfl
@[simp] theorem Core.setRack_sendSeq (k : Core) (i : Nat) (r : Rack) : (k.setRack i r).sendSeq = k.sendSeq := rfl
@[simp] theorem Core.setRack_fences (k : Core) (i : Nat) (r : Rack) : (k.setRack i r).fences = k.fences := rfl
@[simp] theorem Core.setRack_sysops (k : Core) (i : Nat) (r : Rack) : (k.setRack i r).sysops = k.sysops := rfl
@[simp] theorem Core.setRack_garr (k : Core) (i : Nat) (r : Rack) : (k.setRack i r).garr = k.garr := rfl
@[simp] theorem Core.setRack_calls (k : Core) (i : Nat) (r : Rack) : (k.setRack i r).calls = k.calls := rfl
@[simp] theorem Core.setRack_traps (k : Core) (i : Nat) (r : Rack) : (k.setRack i r).traps = k.traps := rfl
@[simp] theorem Core.setRack_casts (k : Core) (i : Nat) (r : Rack) : (k.setRack i r).casts = k.casts := rfl
@[simp] theorem Core.setRack_tlb (k : Core) (i : Nat) (r : Rack) : (k.setRack i r).tlb = k.tlb := rfl
@[simp] theorem Core.setRack_halted (k : Core) (i : Nat) (r : Rack) : (k.setRack i r).halted = k.halted := rfl

/-! Core.setMon. -/

@[simp] theorem Core.setMon_regs (k : Core) (i : Nat) (m : Monitor) : (k.setMon i m).regs = k.regs := rfl
@[simp] theorem Core.setMon_mem (k : Core) (i : Nat) (m : Monitor) : (k.setMon i m).mem = k.mem := rfl
@[simp] theorem Core.setMon_sbuf (k : Core) (i : Nat) (m : Monitor) : (k.setMon i m).sbuf = k.sbuf := rfl
@[simp] theorem Core.setMon_press (k : Core) (i : Nat) (m : Monitor) : (k.setMon i m).press = k.press := rfl
@[simp] theorem Core.setMon_csr (k : Core) (i : Nat) (m : Monitor) : (k.setMon i m).csr = k.csr := rfl
@[simp] theorem Core.setMon_gens (k : Core) (i : Nat) (m : Monitor) : (k.setMon i m).gens = k.gens := rfl
@[simp] theorem Core.setMon_motor (k : Core) (i : Nat) (m : Monitor) : (k.setMon i m).motor = k.motor := rfl
@[simp] theorem Core.setMon_butty (k : Core) (i : Nat) (m : Monitor) : (k.setMon i m).butty = k.butty := rfl
@[simp] theorem Core.setMon_reachix (k : Core) (i : Nat) (m : Monitor) : (k.setMon i m).reachix = k.reachix := rfl
@[simp] theorem Core.setMon_reachtick (k : Core) (i : Nat) (m : Monitor) : (k.setMon i m).reachtick = k.reachtick := rfl
@[simp] theorem Core.setMon_lock (k : Core) (i : Nat) (m : Monitor) : (k.setMon i m).lock = k.lock := rfl
@[simp] theorem Core.setMon_fwait (k : Core) (i : Nat) (m : Monitor) : (k.setMon i m).fwait = k.fwait := rfl
@[simp] theorem Core.setMon_latch (k : Core) (i : Nat) (m : Monitor) : (k.setMon i m).latch = k.latch := rfl
@[simp] theorem Core.setMon_mres (k : Core) (i : Nat) (m : Monitor) : (k.setMon i m).mres = k.mres := rfl
@[simp] theorem Core.setMon_pend (k : Core) (i : Nat) (m : Monitor) : (k.setMon i m).pend = k.pend := rfl
@[simp] theorem Core.setMon_seq (k : Core) (i : Nat) (m : Monitor) : (k.setMon i m).seq = k.seq := rfl
@[simp] theorem Core.setMon_statTick (k : Core) (i : Nat) (m : Monitor) : (k.setMon i m).statTick = k.statTick := rfl
@[simp] theorem Core.setMon_statBits (k : Core) (i : Nat) (m : Monitor) : (k.setMon i m).statBits = k.statBits := rfl
@[simp] theorem Core.setMon_busy (k : Core) (i : Nat) (m : Monitor) : (k.setMon i m).busy = k.busy := rfl
@[simp] theorem Core.setMon_fresh (k : Core) (i : Nat) (m : Monitor) : (k.setMon i m).fresh = k.fresh := rfl
@[simp] theorem Core.setMon_hand (k : Core) (i : Nat) (m : Monitor) : (k.setMon i m).hand = k.hand := rfl
@[simp] theorem Core.setMon_guards (k : Core) (i : Nat) (m : Monitor) : (k.setMon i m).guards = k.guards := rfl
@[simp] theorem Core.setMon_racks (k : Core) (i : Nat) (m : Monitor) : (k.setMon i m).racks = k.racks := rfl
@[simp] theorem Core.setMon_rackSeq (k : Core) (i : Nat) (m : Monitor) : (k.setMon i m).rackSeq = k.rackSeq := rfl
@[simp] theorem Core.setMon_sends (k : Core) (i : Nat) (m : Monitor) : (k.setMon i m).sends = k.sends := rfl
@[simp] theorem Core.setMon_sendSeq (k : Core) (i : Nat) (m : Monitor) : (k.setMon i m).sendSeq = k.sendSeq := rfl
@[simp] theorem Core.setMon_fences (k : Core) (i : Nat) (m : Monitor) : (k.setMon i m).fences = k.fences := rfl
@[simp] theorem Core.setMon_sysops (k : Core) (i : Nat) (m : Monitor) : (k.setMon i m).sysops = k.sysops := rfl
@[simp] theorem Core.setMon_garr (k : Core) (i : Nat) (m : Monitor) : (k.setMon i m).garr = k.garr := rfl
@[simp] theorem Core.setMon_calls (k : Core) (i : Nat) (m : Monitor) : (k.setMon i m).calls = k.calls := rfl
@[simp] theorem Core.setMon_traps (k : Core) (i : Nat) (m : Monitor) : (k.setMon i m).traps = k.traps := rfl
@[simp] theorem Core.setMon_casts (k : Core) (i : Nat) (m : Monitor) : (k.setMon i m).casts = k.casts := rfl
@[simp] theorem Core.setMon_tlb (k : Core) (i : Nat) (m : Monitor) : (k.setMon i m).tlb = k.tlb := rfl
@[simp] theorem Core.setMon_halted (k : Core) (i : Nat) (m : Monitor) : (k.setMon i m).halted = k.halted := rfl

/-! Core.setSend. -/

@[simp] theorem Core.setSend_regs (k : Core) (i : Nat) (x : Option Send) : (k.setSend i x).regs = k.regs := rfl
@[simp] theorem Core.setSend_mem (k : Core) (i : Nat) (x : Option Send) : (k.setSend i x).mem = k.mem := rfl
@[simp] theorem Core.setSend_sbuf (k : Core) (i : Nat) (x : Option Send) : (k.setSend i x).sbuf = k.sbuf := rfl
@[simp] theorem Core.setSend_press (k : Core) (i : Nat) (x : Option Send) : (k.setSend i x).press = k.press := rfl
@[simp] theorem Core.setSend_csr (k : Core) (i : Nat) (x : Option Send) : (k.setSend i x).csr = k.csr := rfl
@[simp] theorem Core.setSend_gens (k : Core) (i : Nat) (x : Option Send) : (k.setSend i x).gens = k.gens := rfl
@[simp] theorem Core.setSend_motor (k : Core) (i : Nat) (x : Option Send) : (k.setSend i x).motor = k.motor := rfl
@[simp] theorem Core.setSend_butty (k : Core) (i : Nat) (x : Option Send) : (k.setSend i x).butty = k.butty := rfl
@[simp] theorem Core.setSend_reachix (k : Core) (i : Nat) (x : Option Send) : (k.setSend i x).reachix = k.reachix := rfl
@[simp] theorem Core.setSend_reachtick (k : Core) (i : Nat) (x : Option Send) : (k.setSend i x).reachtick = k.reachtick := rfl
@[simp] theorem Core.setSend_lock (k : Core) (i : Nat) (x : Option Send) : (k.setSend i x).lock = k.lock := rfl
@[simp] theorem Core.setSend_fwait (k : Core) (i : Nat) (x : Option Send) : (k.setSend i x).fwait = k.fwait := rfl
@[simp] theorem Core.setSend_latch (k : Core) (i : Nat) (x : Option Send) : (k.setSend i x).latch = k.latch := rfl
@[simp] theorem Core.setSend_mres (k : Core) (i : Nat) (x : Option Send) : (k.setSend i x).mres = k.mres := rfl
@[simp] theorem Core.setSend_pend (k : Core) (i : Nat) (x : Option Send) : (k.setSend i x).pend = k.pend := rfl
@[simp] theorem Core.setSend_seq (k : Core) (i : Nat) (x : Option Send) : (k.setSend i x).seq = k.seq := rfl
@[simp] theorem Core.setSend_statTick (k : Core) (i : Nat) (x : Option Send) : (k.setSend i x).statTick = k.statTick := rfl
@[simp] theorem Core.setSend_statBits (k : Core) (i : Nat) (x : Option Send) : (k.setSend i x).statBits = k.statBits := rfl
@[simp] theorem Core.setSend_busy (k : Core) (i : Nat) (x : Option Send) : (k.setSend i x).busy = k.busy := rfl
@[simp] theorem Core.setSend_fresh (k : Core) (i : Nat) (x : Option Send) : (k.setSend i x).fresh = k.fresh := rfl
@[simp] theorem Core.setSend_hand (k : Core) (i : Nat) (x : Option Send) : (k.setSend i x).hand = k.hand := rfl
@[simp] theorem Core.setSend_guards (k : Core) (i : Nat) (x : Option Send) : (k.setSend i x).guards = k.guards := rfl
@[simp] theorem Core.setSend_racks (k : Core) (i : Nat) (x : Option Send) : (k.setSend i x).racks = k.racks := rfl
@[simp] theorem Core.setSend_rackSeq (k : Core) (i : Nat) (x : Option Send) : (k.setSend i x).rackSeq = k.rackSeq := rfl
@[simp] theorem Core.setSend_mons (k : Core) (i : Nat) (x : Option Send) : (k.setSend i x).mons = k.mons := rfl
@[simp] theorem Core.setSend_sendSeq (k : Core) (i : Nat) (x : Option Send) : (k.setSend i x).sendSeq = k.sendSeq := rfl
@[simp] theorem Core.setSend_fences (k : Core) (i : Nat) (x : Option Send) : (k.setSend i x).fences = k.fences := rfl
@[simp] theorem Core.setSend_sysops (k : Core) (i : Nat) (x : Option Send) : (k.setSend i x).sysops = k.sysops := rfl
@[simp] theorem Core.setSend_garr (k : Core) (i : Nat) (x : Option Send) : (k.setSend i x).garr = k.garr := rfl
@[simp] theorem Core.setSend_calls (k : Core) (i : Nat) (x : Option Send) : (k.setSend i x).calls = k.calls := rfl
@[simp] theorem Core.setSend_traps (k : Core) (i : Nat) (x : Option Send) : (k.setSend i x).traps = k.traps := rfl
@[simp] theorem Core.setSend_casts (k : Core) (i : Nat) (x : Option Send) : (k.setSend i x).casts = k.casts := rfl
@[simp] theorem Core.setSend_tlb (k : Core) (i : Nat) (x : Option Send) : (k.setSend i x).tlb = k.tlb := rfl
@[simp] theorem Core.setSend_halted (k : Core) (i : Nat) (x : Option Send) : (k.setSend i x).halted = k.halted := rfl

/-! Reading back. -/

/-- A core after one is replaced. -/
theorem State.core_setCore (s : State) (c : Nat) (k : Core) (d : Nat) :
    (s.setCore c k).core d = if d = c then k else s.core d := sget_sput _ _ _ _ _

@[simp] theorem State.core_setCore_same (s : State) (c : Nat) (k : Core) : (s.setCore c k).core c = k := by
  simp [State.core_setCore]

theorem State.core_setCore_other (s : State) (c : Nat) (k : Core) {d : Nat} (h : d ≠ c) : (s.setCore c k).core d = s.core d := by
  simp [State.core_setCore, h]

theorem State.core_modCore (s : State) (c : Nat) (f : Core → Core) (d : Nat) :
    (s.modCore c f).core d = if d = c then f (s.core c) else s.core d := State.core_setCore _ _ _ _

@[simp] theorem State.core_modCore_same (s : State) (c : Nat) (f : Core → Core) : (s.modCore c f).core c = f (s.core c) := by
  simp [State.core_modCore]

theorem State.core_modCore_other (s : State) (c : Nat) (f : Core → Core) {d : Nat} (h : d ≠ c) :
    (s.modCore c f).core d = s.core d := by simp [State.core_modCore, h]

@[simp] theorem State.core_setPart (s : State) (n : Nat) (p : Partition) (d : Nat) : (s.setPart n p).core d = s.core d := rfl

@[simp] theorem State.core_modPart (s : State) (n : Nat) (f : Partition → Partition) (d : Nat) :
    (s.modPart n f).core d = s.core d := by unfold State.modPart; split <;> rfl

@[simp] theorem State.core_log (s : State) (a b c d e f g h n : Nat) : (s.log a b c d e f g h).core n = s.core n := rfl

/-- A partition after one is replaced. -/
theorem State.part_setPart (s : State) (n : Nat) (p : Partition) (m : Nat) :
    (s.setPart n p).part m = if m = n then some p else s.part m := by
  simp only [State.part, State.setPart, sget_sput]

@[simp] theorem State.part_setPart_same (s : State) (n : Nat) (p : Partition) : (s.setPart n p).part n = some p := by
  simp [State.part_setPart]

@[simp] theorem State.part_modPart_same (s : State) (n : Nat) (f : Partition → Partition) :
    (s.modPart n f).part n = (s.part n).map f := by
  unfold State.modPart; split <;> simp_all

theorem State.part_modPart_other (s : State) {m n : Nat} (f : Partition → Partition) (h : m ≠ n) :
    (s.modPart n f).part m = s.part m := by
  unfold State.modPart; split <;> simp [State.part_setPart, h]

@[simp] theorem State.part_setCore (s : State) (c : Nat) (k : Core) (n : Nat) : (s.setCore c k).part n = s.part n := rfl
@[simp] theorem State.part_modCore (s : State) (c : Nat) (f : Core → Core) (n : Nat) : (s.modCore c f).part n = s.part n := rfl
@[simp] theorem State.part_mapCores (s : State) (f : Nat → Core → Core) (n : Nat) : (s.mapCores f).part n = s.part n := rfl
@[simp] theorem State.part_log (s : State) (a b c d e f g h n : Nat) : (s.log a b c d e f g h).part n = s.part n := rfl
@[simp] theorem State.part_schedule (s : State) (c m : Nat) (a : Act) (n : Nat) : (s.schedule c m a).part n = s.part n := rfl
@[simp] theorem State.part_addFlag (s : State) (c f m n : Nat) : (s.addFlag c f m).part n = s.part n := rfl

/-- A flag after one is written. -/
theorem Core.flag_setFlag (k : Core) (n : Nat) (v : BitVec 32) (j : Nat) : (k.setFlag n v).flag j = if j = n then v else k.flag j :=
  sget_sput _ _ _ _ _

/-- An engine increment adds to one flag of one core. -/
theorem State.flag_addFlag (s : State) (c f n j : Nat) :
    ((s.addFlag c f n).core c).flag j = if j = f then (s.core c).flag f + BitVec.ofNat 32 n else (s.core c).flag j := by
  simp [State.addFlag, Core.flag_setFlag]

theorem State.core_addFlag_other (s : State) (c f n : Nat) {d : Nat} (h : d ≠ c) : (s.addFlag c f n).core d = s.core d :=
  State.core_modCore_other _ _ _ h

/-- Every core through a function that leaves an empty core empty. -/
theorem State.core_mapCores (s : State) (f : Nat → Core → Core) (hf : ∀ d, f d Core.init = Core.init) (d : Nat) :
    (s.mapCores f).core d = f d (s.core d) := by
  have key : ∀ (l m : Store Core) (g : Nat → Core), sget Core.init (l.foldl (fun m q => sput Core.init m q.1 (g q.1)) m) d =
      if d ∈ l.map (fun q => q.1) then g d else sget Core.init m d := by
    intro l
    induction l with
    | nil => intro m g; simp
    | cons x l ih =>
      intro m g
      simp only [List.foldl_cons, ih, List.map_cons, List.mem_cons, sget_sput]
      by_cases h1 : d ∈ l.map (fun q => q.1) <;> by_cases h2 : d = x.1 <;> simp [h1, h2]
  have out : ∀ l : Store Core, d ∉ l.map (fun q => q.1) → sget Core.init l d = Core.init := by
    intro l
    induction l with
    | nil => intro _; rfl
    | cons x l ih =>
      intro h
      simp only [List.map_cons, List.mem_cons, not_or] at h
      simp [sget, h.1, ih h.2]
  have h := key s.cores s.cores (fun n => f n (s.core n))
  unfold State.mapCores
  rw [State.core, h]
  split
  · rfl
  · rename_i h; rw [State.core, out _ h, hf]

/-! What is scheduled. -/

/-- A scheduled action is the last of its core's list. -/
theorem State.pend_schedule (s : State) (c n : Nat) (a : Act) :
    ((s.schedule c n a).core c).pend = (s.core c).pend ++ [Pend.mk (s.after c n) s.tick (s.core c).seq a] := by
  simp [State.schedule, State.scheduleAt, Core.schedule]

theorem State.core_schedule_other (s : State) (c n : Nat) (a : Act) {d : Nat} (h : d ≠ c) :
    (s.schedule c n a).core d = s.core d := State.core_modCore_other _ _ _ h

/-! Canonical form. -/

/-- Replacing a core keeps the table of cores canonical. -/
theorem State.swf_setCore (s : State) (c : Nat) (k : Core) (w : swf Core.init s.cores = true) :
    swf Core.init (s.setCore c k).cores = true := swf_sput _ _ _ _ w

theorem State.swf_modCore (s : State) (c : Nat) (f : Core → Core) (w : swf Core.init s.cores = true) :
    swf Core.init (s.modCore c f).cores = true := swf_sput _ _ _ _ w

/-- So does a change of every core. -/
theorem State.swf_mapCores (s : State) (f : Nat → Core → Core) (w : swf Core.init s.cores = true) :
    swf Core.init (s.mapCores f).cores = true := by
  have key : ∀ (l m : Store Core) (g : Nat → Core), swf Core.init m = true →
      swf Core.init (l.foldl (fun m q => sput Core.init m q.1 (g q.1)) m) = true := by
    intro l
    induction l with
    | nil => intro m g h; exact h
    | cons x l ih => intro m g h; exact ih _ g (swf_sput _ _ _ _ h)
  exact key s.cores s.cores (fun n => f n (s.core n)) w

/-- Replacing a partition keeps the table of partitions canonical. -/
theorem State.swf_setPart (s : State) (n : Nat) (p : Partition) (w : swf none s.parts = true) :
    swf none (s.setPart n p).parts = true := by
  simp only [State.setPart]; exact swf_sput _ _ _ _ w

theorem State.swf_modPart (s : State) (n : Nat) (f : Partition → Partition) (w : swf none s.parts = true) :
    swf none (s.modPart n f).parts = true := by
  unfold State.modPart; split
  · exact State.swf_setPart _ _ _ w
  · exact w

end Sys2Proof.Machine
end

