-- ==== Sys2Proof/Laws/Events.lean ====
section
/-! SUPPORT. What the shared operations of the event rows do to a core: a rack or a monitor written, and the end of an engine's
guards. -/

namespace Sys2Proof.Machine

@[simp] theorem Core.rack_setRack (k : Core) (i : Nat) (r : Rack) : (k.setRack i r).rack i = r := by
  simp [Core.rack, Core.setRack]

@[simp] theorem Core.mon_setMon (k : Core) (i : Nat) (m : Monitor) : (k.setMon i m).mon i = m := by
  simp [Core.mon, Core.setMon]

/-- The end of a rack, seal or send drops its guards in every scratchpad, and nothing else (11 R205). -/
theorem dropGuards_core (s : State) (c : Nat) (isRack : Bool) (id d : Nat) :
    (dropGuards s c isRack id).core d =
      { s.core d with guards := (s.core d).guards.filter (fun g => !(g.core == c && g.isRack == isRack && g.id == id)) } := by
  unfold dropGuards
  rw [State.core_mapCores]
  intro d; rfl

/-- A guard that stands after the end of an operation is not its own. -/
theorem dropGuards_mem {s : State} {c d id : Nat} {isRack : Bool} {g : Guard} (h : g ∈ ((dropGuards s c isRack id).core d).guards) :
    ¬(g.core = c ∧ g.isRack = isRack ∧ g.id = id) := by
  rw [dropGuards_core] at h
  rintro ⟨h1, h2, h3⟩
  simp_all

end Sys2Proof.Machine
end

