-- ==== Sys2Proof/Laws/Slot.lean ====
section
/-! SUPPORT. What a slot operation can do: its effect where its checks pass, nothing where its guard is false, and else a wait or
a fault (02 R39, R59). -/

namespace Sys2Proof.Machine

/-- What a check passed lets happen. -/
@[simp] theorem settle_ok (s : State) (c : Nat) (motor : Bool) (detail : Nat) (go : State) :
    settle s c motor .ok detail go = go := rfl

/-- A check that raises a fault takes it at the slot of the bundle in flight. -/
theorem settle_fault (s : State) (c : Nat) (motor : Bool) (code reason detail : Nat) (go : State) :
    settle s c motor (.fault code reason) detail go =
      raiseFault s c motor (s.core c).latch.pc (s.core c).latch.slot code reason detail := rfl

/-- A check that makes a bundle wait offers it again. -/
theorem settle_stall (s : State) (c : Nat) (motor : Bool) (detail : Nat) (go : State) :
    settle s c motor .stall detail go = s.retry c motor := rfl

/-- An operation that passes every check has its effect. -/
theorem slotOp_accepts (h : Head) (dst : Nat) (e : Option Ext) (eff : Eff) (s : State) (a : Accepts s h dst e) :
    slotOp h dst e eff s = .next (eff s s.cur s.motorNow (s.operand h)) := by
  obtain ⟨⟨d, g⟩, t⟩ := a
  unfold State.motorNow at d
  unfold State.operand State.motorNow at t
  simp [slotOp, d, g, t, State.motorNow, State.operand]

/-- An operation whose guard is false has none. -/
theorem slotOp_guard (h : Head) (dst : Nat) (e : Option Ext) (eff : Eff) (s : State)
    (d : s.decodeCheck s.cur s.motorNow h dst e = .ok) (g : s.guard s.cur h = false) : slotOp h dst e eff s = .next s := by
  unfold State.motorNow at d
  simp [slotOp, d, g]

/-- An operation whose unit turns it down takes that fault or waits. -/
theorem slotOp_turned (h : Head) (dst : Nat) (e : Option Ext) (eff : Eff) (s : State) (p : Passes s h dst e) :
    slotOp h dst e eff s = .next (settle s s.cur s.motorNow (trigCheck s s.cur s.motorNow dst e (s.operand h))
      (s.operand h).toNat (eff s s.cur s.motorNow (s.operand h))) := by
  obtain ⟨d, g⟩ := p
  unfold State.motorNow at d
  simp [slotOp, d, g, State.motorNow, State.operand]

/-- A slot operation always answers a next state. -/
theorem slotOp_answers (h : Head) (dst : Nat) (e : Option Ext) (eff : Eff) (s : State) : ∃ t, slotOp h dst e eff s = .next t :=
  ⟨_, rfl⟩

/-- What a slot operation may do at all: its effect, nothing, a wait, or a fault at its slot. -/
theorem slotOp_cases (h : Head) (dst : Nat) (e : Option Ext) (eff : Eff) (s t : State) (x : slotOp h dst e eff s = .next t) :
    t = eff s s.cur s.motorNow (s.operand h) ∨ t = s ∨ t = s.retry s.cur s.motorNow ∨
      ∃ code reason detail,
        t = raiseFault s s.cur s.motorNow (s.core s.cur).latch.pc (s.core s.cur).latch.slot code reason detail := by
  unfold slotOp at x
  simp only [Host.Outcome.next.injEq] at x
  unfold State.motorNow State.operand
  subst x
  cases s.decodeCheck s.cur (s.core s.cur).latch.motor h dst e with
  | ok =>
    simp only [settle_ok]
    split
    · cases trigCheck s s.cur (s.core s.cur).latch.motor dst e (s.src s.cur (s.core s.cur).latch.motor h.src) with
      | ok => exact .inl rfl
      | stall => exact .inr (.inr (.inl rfl))
      | fault a b => exact .inr (.inr (.inr ⟨a, b, _, rfl⟩))
    · exact .inr (.inl rfl)
  | stall => exact .inr (.inr (.inl rfl))
  | fault a b => exact .inr (.inr (.inr ⟨a, b, _, rfl⟩))

/-- A destination that triggers nothing has no unit check. -/
theorem trigCheck_none (s : State) (c : Nat) (motor : Bool) (dst : Nat) (e : Option Ext) (v : Word) (h : dst < 0x100) :
    trigCheck s c motor dst e v = .ok := by simp [trigCheck, trigOf, h]

set_option maxRecDepth 8000 in
/-- Every instruction of a slot but the no-op is one slot operation, at the destination code of its encoding. -/
theorem exec_slot (i : Instr) (h : Head) (dst : BitVec 10) (e : Option Ext) (p : slotParts i = some (h, dst, e)) (n : i ≠ .nop) :
    ∃ eff, ∀ s, exec i s = slotOp h dst.toNat e eff s := by
  revert n
  cases i
  case nop => exact fun n => absurd rfl n
  case queuePush h q =>
    cases p
    refine fun _ => ⟨fun s c _ v => s.schedule c 1 (.push q.toNat v), fun s => ?_⟩
    have : (0x0F8 + q.setWidth 10 : BitVec 10).toNat = 0x0F8 + q.toNat := by simp; omega
    rw [this]
    rfl
  case streamReset h => cases p; exact fun _ => ⟨fun s c _ _ => s.schedule c 1 .sbreset, fun _ => rfl⟩
  case ctBrk h => cases p; exact fun _ => ⟨fun s _ _ _ => s, fun _ => rfl⟩
  case prMode h => cases p; exact fun _ => ⟨fun s c _ v => s.schedule c 1 (.pmode (bits v 2 0)), fun _ => rfl⟩
  case prFmt h =>
    cases p
    exact fun _ => ⟨fun s c _ v => s.schedule c 1 (.pfmt (selFmt (s.core c) (bits v 3 0)) (selFmt (s.core c) (bits v 7 4))), fun _ => rfl⟩
  case prBusy h =>
    cases p
    exact fun _ => ⟨fun s c _ _ => s.schedule c 1 (.busyWord (busyAsked s c)), fun _ => rfl⟩
  all_goals cases p <;> exact fun _ => ⟨_, fun _ => rfl⟩

/-! Frames of what every operation may do. -/

/-- Scheduling changes nothing that a core holds. -/
theorem onlySchedules_willDo (s : State) (n : Nat) (a : Act) : OnlySchedules s (s.willDo n a) := by
  refine ⟨rfl, fun d => ?_⟩
  by_cases h : d = s.cur
  · subst h
    simp [SameHeld, State.willDo, State.schedule, State.scheduleAt]
  · rw [State.willDo, State.core_schedule_other _ _ _ _ h]
    simp [SameHeld]

/-- One action is scheduled. -/
theorem asks_willDo (s : State) (n : Nat) (a : Act) : Asks s (s.willDo n a) s.cur n a := State.pend_schedule s s.cur n a

/-- A wait leaves everything outside the table of cores alone, and every other core. -/
theorem retry_frame (s : State) (c : Nat) (motor : Bool) : SameOutsideCores s (s.retry c motor) ∧ SameCoresBut c s (s.retry c motor) :=
  ⟨rfl, fun _ h => State.core_modCore_other _ _ _ h⟩

end Sys2Proof.Machine
end

