-- ==== Sys2Proof/Tests/Slice0.lean ====
section
/-! SUPPORT. Tests: ill-formed instructions that the checks refuse, words of the spec that decode, small operations on one small
state, and for every statement with hypotheses a state and operands that meet them. Expected values come from the rules cited. -/

namespace Sys2Proof.Machine

set_option Elab.async false

/-! A small machine: partition 1 on basin 0, whose timetable has one task on core 0 with the capabilities of 17 R329, a window
capability on transmit entry 0 (peer 2) in c8 and one on entry 1 (peer 5) in c9, tile 1 lent, a stream buffer of 4 KiB and one
butty frame; core 0 has a butty bundle in flight. -/

def demoTask : Task := Task.mk 0 0 none [1] 0 0 [Reach.mk 0 100 0]

def demoGroup (n : Nat) : Group := Group.mk n 1 0 0 0 0 1 0 [] 0

def demoTt : Timetable :=
  { cmd := Cmd.mk 0 1 7 0 0 64 9, cls := 0, pace := 1, armed := true, t0 := 0, tasks := [demoTask]
    groups := [demoGroup 0, demoGroup 1], featureMask := 0, windows := 3, hold := none, held := 0, timedOut := false
    dry := [], stop := none, stopped := false, timeouts := 0, poisoned := false, incs := [], pre := 0, heldArr := [] }

def demoPart : Partition :=
  { Partition.init [0] with
    csr := { PartCsr.init with fwinCount := 4, fshare := [(0, 100)], ctxbase := 1 }
    tdi := .run, cellarKeys := Keys.first [], tt := some demoTt
    host := Meter.mk 0 1000 0 2000, layby := Meter.mk 0 1000 0 1000
    bindings := [Binding.mk 3 2 1 0 100 100 0 (Keys.first []) (Keys.first [])] }

def demoCaps : Store Cap :=
  taskCaps demoPart 0 ++ [(8, Cap.make 5 (pRead + pWrite + pDerive) 0 480 0), (9, Cap.make 5 (pRead + pWrite + pDerive) 0 480 1)]

def demoLatch : Latch :=
  { Latch.empty with live := true }

def demoCore (inp : Store Word) : Core :=
  { Core.init with
    regs := { Regs.init with c := demoCaps, inp := inp, f := [(0, 0x2A)] }
    press := { Press.init with lent := 2 }
    sbuf := SBuf.mk 0 4096 0 1024
    motor := { Stream.init with st := .run }
    butty := { Stream.init with st := .run, frames := [CFrame.mk 5 0 []] }
    latch := demoLatch }

/-- Bytes of a window-table entry: direction, kind, options, peer, core, length (13 R253). -/
def demoWindow (dir peer : Nat) : List Byte :=
  toBytes 4 dir ++ toBytes 4 peer ++ toBytes 8 0 ++ toBytes 4 0 ++ toBytes 4 4096 ++ toBytes 4 3

def demoWith (inp : Store Word) : State :=
  { State.reset.setCore 0 (demoCore inp) with
    parts := [(1, some demoPart)]
    windows := writeBytes (writeBytes (writeBytes [] 0 (demoWindow 1 2)) 64 (demoWindow 1 5)) 128 (demoWindow 2 255)
    ports := [(0, Port.mk 4 0 0 0 none false)] }

def demo : State := demoWith []

/-- A head without a guard whose source is a 24-bit immediate. -/
def hd (v : Nat) : Head := Head.mk false 0 (.imm24 (BitVec.ofNat 24 v))

/-- An extension word with d, a and b, a type code and all lanes. -/
def ext (d a b ty : Nat) : Ext := Ext.mk (BitVec.ofNat 5 d) false (BitVec.ofNat 4 a) false (BitVec.ofNat 4 b) (BitVec.ofNat 4 ty) 0 0

/-- A slot passes its checks, as a Bool. -/
def passes (s : State) (h : Head) (dst : Nat) (e : Option Ext) : Bool :=
  s.decodeCheck s.cur s.motorNow h dst e == .ok && s.guard s.cur h

/-- A slot is accepted, as a Bool. -/
def accepts (s : State) (h : Head) (dst : Nat) (e : Option Ext) : Bool :=
  passes s h dst e && trigCheck s s.cur s.motorNow dst e (s.operand h) == .ok

theorem Passes.of_bool {s : State} {h : Head} {dst : Nat} {e : Option Ext} (p : passes s h dst e = true) : Passes s h dst e := by
  simpa [passes, Passes] using p

theorem Accepts.of_bool {s : State} {h : Head} {dst : Nat} {e : Option Ext} (p : accepts s h dst e = true) : Accepts s h dst e := by
  simpa [accepts, passes, Accepts, Passes, and_assoc] using p

/-! Ill-formed instructions: one for each check of Sys2Proof/WellFormed.lean. -/

/-- A d code of 16 or more, and types 11-14 outside a conversion or 15 inside one, are refused (02 R45, R46). -/
theorem test_ill_formed_ext :
    WellFormed (.vaAdd (hd 0) (ext 16 0 0 0)) = false ∧ WellFormed (.vaAdd (hd 0) (ext 15 0 0 10)) = true ∧
    WellFormed (.vaAdd (hd 0) (ext 1 0 0 11)) = false ∧ WellFormed (.vmCvt (hd 0) (ext 1 0 0 14)) = true ∧
    WellFormed (.vmCvt (hd 0) (ext 1 0 0 15)) = false ∧ WellFormed (.vmCvt (hd 0) (ext 16 0 0 0)) = false := by decide

/-- The words of the canonical no-op are no move (02 R40). -/
theorem test_ill_formed_move :
    WellFormed (.move (Head.mk true 0 (.x 0)) (.x 0)) = false ∧ WellFormed (.move (Head.mk false 0 (.x 0)) (.x 0)) = true := by decide

/-- Cores end at 271, partitions run from 1 to 4, ports to 31, groups to 255, racks to 63, sends to 31, queues to 15, context
slots to 3, basins to 3, stacks to 7, register numbers to 4095. -/
theorem test_ill_formed_numbers :
    WellFormed (.bundleIssue 272 true) = false ∧ WellFormed (.bundleIssue 271 true) = true ∧
    WellFormed (.selectTimetable 0) = false ∧ WellFormed (.selectTimetable 4) = true ∧ WellFormed (.selectTimetable 5) = false ∧
    WellFormed (.lockOpen 1 256) = false ∧ WellFormed (.lockOpen 1 255) = true ∧
    WellFormed (.portFallback 32 0) = false ∧ WellFormed (.portFallback 31 0) = true ∧
    WellFormed (.slotBeacon 0 (some 256)) = false ∧ WellFormed (.slotBeacon 0 none) = true ∧
    WellFormed (.rackComplete 0 64) = false ∧ WellFormed (.rackComplete 0 63) = true ∧
    WellFormed (.receipt 0 32 0) = false ∧ WellFormed (.receipt 0 31 0) = true ∧
    WellFormed (.queueErrClear 1 16) = false ∧ WellFormed (.queueErrClear 1 15) = true ∧
    WellFormed (.restore 1 4) = false ∧ WellFormed (.restore 1 3) = true ∧
    WellFormed (.thermalTrip 4) = false ∧ WellFormed (.thermalTrip 3) = true ∧
    WellFormed (.partitionCreate [4]) = false ∧ WellFormed (.partitionCreate [3]) = true ∧
    WellFormed (.powerLimitAssert [32]) = false ∧ WellFormed (.powerLimitAssert [31]) = true ∧
    WellFormed (.cellarChannelDegrade 8 true) = false ∧ WellFormed (.cellarChannelDegrade 7 true) = true ∧
    WellFormed (.fshareWrite 0 32 .w 0) = false ∧ WellFormed (.fshareWrite 0 31 .w 0) = true ∧
    WellFormed (.registerWrite 0 4096 .w 0) = false ∧ WellFormed (.registerWrite 0 4095 .w 0) = true := by decide

/-! Words written out from the encoding tables of 02 R39-R45 and R56: every slot constructor. -/

/-- Words of the scalar unit A operations (02 R41, R45, R56): p1 as guard, source x3. -/
theorem test_words_sa_a :
  decode [0x100D00] = .ok (.saMov (Head.mk false 1 (.x 3)), []) ∧
  decode [0x100D01] = .ok (.saAdd (Head.mk false 1 (.x 3)), []) ∧
  decode [0x100D02] = .ok (.saSub (Head.mk false 1 (.x 3)), []) ∧
  decode [0x100D03] = .ok (.saAnd (Head.mk false 1 (.x 3)), []) ∧
  decode [0x100D04] = .ok (.saOr (Head.mk false 1 (.x 3)), []) ∧
  decode [0x100D05] = .ok (.saXor (Head.mk false 1 (.x 3)), []) ∧
  decode [0x100D06] = .ok (.saAndn (Head.mk false 1 (.x 3)), []) ∧
  decode [0x100D07] = .ok (.saOrn (Head.mk false 1 (.x 3)), []) ∧
  decode [0x100D08] = .ok (.saShl (Head.mk false 1 (.x 3)), []) ∧
  decode [0x100D09] = .ok (.saShr (Head.mk false 1 (.x 3)), []) ∧
  decode [0x100D0A] = .ok (.saSar (Head.mk false 1 (.x 3)), []) ∧
  decode [0x100D0B] = .ok (.saRol (Head.mk false 1 (.x 3)), []) ∧
  decode [0x100D0C] = .ok (.saMin (Head.mk false 1 (.x 3)), []) ∧
  decode [0x100D0D] = .ok (.saMax (Head.mk false 1 (.x 3)), []) ∧
  decode [0x100D0E] = .ok (.saMinu (Head.mk false 1 (.x 3)), []) ∧
  decode [0x100D0F] = .ok (.saMaxu (Head.mk false 1 (.x 3)), []) ∧
  decode [0x100D10] = .ok (.saSeq (Head.mk false 1 (.x 3)), []) ∧
  decode [0x100D11] = .ok (.saSne (Head.mk false 1 (.x 3)), []) ∧
  decode [0x100D12] = .ok (.saSlt (Head.mk false 1 (.x 3)), []) ∧
  decode [0x100D13] = .ok (.saSltu (Head.mk false 1 (.x 3)), []) ∧
  decode [0x100D14] = .ok (.saSle (Head.mk false 1 (.x 3)), []) ∧
  decode [0x100D15] = .ok (.saSleu (Head.mk false 1 (.x 3)), []) ∧
  decode [0x100D16] = .ok (.saPeq (Head.mk false 1 (.x 3)), []) ∧
  decode [0x100D17] = .ok (.saPne (Head.mk false 1 (.x 3)), []) := by
  and_intros <;> rfl

/-- Words of the scalar unit A operations (02 R41, R45, R56): p1 as guard, source x3. -/
theorem test_words_sa_b :
  decode [0x100D18] = .ok (.saPlt (Head.mk false 1 (.x 3)), []) ∧
  decode [0x100D19] = .ok (.saPltu (Head.mk false 1 (.x 3)), []) ∧
  decode [0x100D1A] = .ok (.saPge (Head.mk false 1 (.x 3)), []) ∧
  decode [0x100D1B] = .ok (.saPgeu (Head.mk false 1 (.x 3)), []) ∧
  decode [0x100D1C] = .ok (.saClz (Head.mk false 1 (.x 3)), []) ∧
  decode [0x100D1D] = .ok (.saCtz (Head.mk false 1 (.x 3)), []) ∧
  decode [0x100D1E] = .ok (.saPopc (Head.mk false 1 (.x 3)), []) ∧
  decode [0x100D1F] = .ok (.saSext (Head.mk false 1 (.x 3)), []) ∧
  decode [0x100D20] = .ok (.saZext (Head.mk false 1 (.x 3)), []) ∧
  decode [0x100D21] = .ok (.saBfx (Head.mk false 1 (.x 3)), []) ∧
  decode [0x100D22] = .ok (.saBfi (Head.mk false 1 (.x 3)), []) ∧
  decode [0x100D23] = .ok (.saAddw (Head.mk false 1 (.x 3)), []) := by
  and_intros <;> rfl

/-- Words of the scalar unit B operations (02 R41, R45, R56): p1 as guard, source x4. -/
theorem test_words_sb_a :
  decode [0x101140] = .ok (.sbMov (Head.mk false 1 (.x 4)), []) ∧
  decode [0x101141] = .ok (.sbAdd (Head.mk false 1 (.x 4)), []) ∧
  decode [0x101142] = .ok (.sbSub (Head.mk false 1 (.x 4)), []) ∧
  decode [0x101143] = .ok (.sbAnd (Head.mk false 1 (.x 4)), []) ∧
  decode [0x101144] = .ok (.sbOr (Head.mk false 1 (.x 4)), []) ∧
  decode [0x101145] = .ok (.sbXor (Head.mk false 1 (.x 4)), []) ∧
  decode [0x101146] = .ok (.sbAndn (Head.mk false 1 (.x 4)), []) ∧
  decode [0x101147] = .ok (.sbOrn (Head.mk false 1 (.x 4)), []) ∧
  decode [0x101148] = .ok (.sbShl (Head.mk false 1 (.x 4)), []) ∧
  decode [0x101149] = .ok (.sbShr (Head.mk false 1 (.x 4)), []) ∧
  decode [0x10114A] = .ok (.sbSar (Head.mk false 1 (.x 4)), []) ∧
  decode [0x10114B] = .ok (.sbRol (Head.mk false 1 (.x 4)), []) ∧
  decode [0x10114C] = .ok (.sbMin (Head.mk false 1 (.x 4)), []) ∧
  decode [0x10114D] = .ok (.sbMax (Head.mk false 1 (.x 4)), []) ∧
  decode [0x10114E] = .ok (.sbMinu (Head.mk false 1 (.x 4)), []) ∧
  decode [0x10114F] = .ok (.sbMaxu (Head.mk false 1 (.x 4)), []) ∧
  decode [0x101150] = .ok (.sbSeq (Head.mk false 1 (.x 4)), []) ∧
  decode [0x101151] = .ok (.sbSne (Head.mk false 1 (.x 4)), []) ∧
  decode [0x101152] = .ok (.sbSlt (Head.mk false 1 (.x 4)), []) ∧
  decode [0x101153] = .ok (.sbSltu (Head.mk false 1 (.x 4)), []) ∧
  decode [0x101154] = .ok (.sbSle (Head.mk false 1 (.x 4)), []) ∧
  decode [0x101155] = .ok (.sbSleu (Head.mk false 1 (.x 4)), []) ∧
  decode [0x101156] = .ok (.sbPeq (Head.mk false 1 (.x 4)), []) ∧
  decode [0x101157] = .ok (.sbPne (Head.mk false 1 (.x 4)), []) := by
  and_intros <;> rfl

/-- Words of the scalar unit B operations (02 R41, R45, R56): p1 as guard, source x4. -/
theorem test_words_sb_b :
  decode [0x101158] = .ok (.sbPlt (Head.mk false 1 (.x 4)), []) ∧
  decode [0x101159] = .ok (.sbPltu (Head.mk false 1 (.x 4)), []) ∧
  decode [0x10115A] = .ok (.sbPge (Head.mk false 1 (.x 4)), []) ∧
  decode [0x10115B] = .ok (.sbPgeu (Head.mk false 1 (.x 4)), []) ∧
  decode [0x10115C] = .ok (.sbClz (Head.mk false 1 (.x 4)), []) ∧
  decode [0x10115D] = .ok (.sbCtz (Head.mk false 1 (.x 4)), []) ∧
  decode [0x10115E] = .ok (.sbPopc (Head.mk false 1 (.x 4)), []) ∧
  decode [0x10115F] = .ok (.sbSext (Head.mk false 1 (.x 4)), []) ∧
  decode [0x101160] = .ok (.sbZext (Head.mk false 1 (.x 4)), []) ∧
  decode [0x101161] = .ok (.sbBfx (Head.mk false 1 (.x 4)), []) ∧
  decode [0x101162] = .ok (.sbBfi (Head.mk false 1 (.x 4)), []) ∧
  decode [0x101163] = .ok (.sbAddw (Head.mk false 1 (.x 4)), []) ∧
  decode [0x101164] = .ok (.sbMul (Head.mk false 1 (.x 4)), []) ∧
  decode [0x101165] = .ok (.sbMulh (Head.mk false 1 (.x 4)), []) ∧
  decode [0x101166] = .ok (.sbMulhu (Head.mk false 1 (.x 4)), []) ∧
  decode [0x101167] = .ok (.sbDiv (Head.mk false 1 (.x 4)), []) ∧
  decode [0x101168] = .ok (.sbDivu (Head.mk false 1 (.x 4)), []) ∧
  decode [0x101169] = .ok (.sbRem (Head.mk false 1 (.x 4)), []) ∧
  decode [0x10116A] = .ok (.sbRemu (Head.mk false 1 (.x 4)), []) := by
  and_intros <;> rfl

/-- Words of the control operations (02 R41, R45, R56): p1 as guard, source x5. -/
theorem test_words_ct :
  decode [0x101580] = .ok (.ctBr (Head.mk false 1 (.x 5)), []) ∧
  decode [0x101581] = .ok (.ctJmp (Head.mk false 1 (.x 5)), []) ∧
  decode [0x101582] = .ok (.ctCall (Head.mk false 1 (.x 5)), []) ∧
  decode [0x101583] = .ok (.ctRet (Head.mk false 1 (.x 5)), []) ∧
  decode [0x101584] = .ok (.ctLoop (Head.mk false 1 (.x 5)), []) ∧
  decode [0x101585] = .ok (.ctRot (Head.mk false 1 (.x 5)), []) ∧
  decode [0x101586] = .ok (.ctLock (Head.mk false 1 (.x 5)), []) ∧
  decode [0x101587] = .ok (.ctEndtask (Head.mk false 1 (.x 5)), []) ∧
  decode [0x101588] = .ok (.ctTrap (Head.mk false 1 (.x 5)), []) ∧
  decode [0x101589] = .ok (.ctBrk (Head.mk false 1 (.x 5)), []) := by
  and_intros <;> rfl

/-- Words of the load-store operations (02 R41, R45, R56): p1 as guard, source x6. -/
theorem test_words_ls :
  decode [0x1019C0] = .ok (.lsLd8 (Head.mk false 1 (.x 6)), []) ∧
  decode [0x1019C1] = .ok (.lsLd8z (Head.mk false 1 (.x 6)), []) ∧
  decode [0x1019C2] = .ok (.lsLd16 (Head.mk false 1 (.x 6)), []) ∧
  decode [0x1019C3] = .ok (.lsLd16z (Head.mk false 1 (.x 6)), []) ∧
  decode [0x1019C4] = .ok (.lsLd32 (Head.mk false 1 (.x 6)), []) ∧
  decode [0x1019C5] = .ok (.lsLd32z (Head.mk false 1 (.x 6)), []) ∧
  decode [0x1019C6] = .ok (.lsLd64 (Head.mk false 1 (.x 6)), []) ∧
  decode [0x1019C7] = .ok (.lsSt8 (Head.mk false 1 (.x 6)), []) ∧
  decode [0x1019C8] = .ok (.lsSt16 (Head.mk false 1 (.x 6)), []) ∧
  decode [0x1019C9] = .ok (.lsSt32 (Head.mk false 1 (.x 6)), []) ∧
  decode [0x1019CA] = .ok (.lsSt64 (Head.mk false 1 (.x 6)), []) ∧
  decode [0x1019CB] = .ok (.lsLdlab (Head.mk false 1 (.x 6)), []) ∧
  decode [0x1019CC] = .ok (.lsStlab (Head.mk false 1 (.x 6)), []) ∧
  decode [0x1019CD] = .ok (.lsLdcap (Head.mk false 1 (.x 6)), []) ∧
  decode [0x1019CE] = .ok (.lsStcap (Head.mk false 1 (.x 6)), []) ∧
  decode [0x1019CF] = .ok (.lsCbound (Head.mk false 1 (.x 6)), []) ∧
  decode [0x1019D0] = .ok (.lsCmove (Head.mk false 1 (.x 6)), []) ∧
  decode [0x1019D1] = .ok (.lsCperm (Head.mk false 1 (.x 6)), []) ∧
  decode [0x1019D2] = .ok (.lsCbase (Head.mk false 1 (.x 6)), []) ∧
  decode [0x1019D3] = .ok (.lsClen (Head.mk false 1 (.x 6)), []) ∧
  decode [0x1019D4] = .ok (.lsCinfo (Head.mk false 1 (.x 6)), []) ∧
  decode [0x1019D5] = .ok (.lsCcopy (Head.mk false 1 (.x 6)), []) ∧
  decode [0x1019D6] = .ok (.lsCclear (Head.mk false 1 (.x 6)), []) ∧
  decode [0x1019D7] = .ok (.lsHand (Head.mk false 1 (.x 6)), []) := by
  and_intros <;> rfl

/-- Words of the vector arithmetic operations (02 R41, R45, R56): p1 as guard, source x7, and an extension word. -/
theorem test_words_va_a :
  decode [0x101E00, 0x1C4408] = .ok (.vaAdd (Head.mk false 1 (.x 7)) (Ext.mk 3 true 1 false 2 0 2 0), []) ∧
  decode [0x101E01, 0x1C4408] = .ok (.vaSub (Head.mk false 1 (.x 7)) (Ext.mk 3 true 1 false 2 0 2 0), []) ∧
  decode [0x101E02, 0x1C4408] = .ok (.vaMul (Head.mk false 1 (.x 7)) (Ext.mk 3 true 1 false 2 0 2 0), []) ∧
  decode [0x101E03, 0x1C4408] = .ok (.vaFma (Head.mk false 1 (.x 7)) (Ext.mk 3 true 1 false 2 0 2 0), []) ∧
  decode [0x101E04, 0x1C4408] = .ok (.vaFms (Head.mk false 1 (.x 7)) (Ext.mk 3 true 1 false 2 0 2 0), []) ∧
  decode [0x101E05, 0x1C4408] = .ok (.vaNfma (Head.mk false 1 (.x 7)) (Ext.mk 3 true 1 false 2 0 2 0), []) ∧
  decode [0x101E06, 0x1C4408] = .ok (.vaMin (Head.mk false 1 (.x 7)) (Ext.mk 3 true 1 false 2 0 2 0), []) ∧
  decode [0x101E07, 0x1C4408] = .ok (.vaMax (Head.mk false 1 (.x 7)) (Ext.mk 3 true 1 false 2 0 2 0), []) ∧
  decode [0x101E08, 0x1C4408] = .ok (.vaAbs (Head.mk false 1 (.x 7)) (Ext.mk 3 true 1 false 2 0 2 0), []) ∧
  decode [0x101E09, 0x1C4408] = .ok (.vaNeg (Head.mk false 1 (.x 7)) (Ext.mk 3 true 1 false 2 0 2 0), []) ∧
  decode [0x101E0A, 0x1C4408] = .ok (.vaAnd (Head.mk false 1 (.x 7)) (Ext.mk 3 true 1 false 2 0 2 0), []) ∧
  decode [0x101E0B, 0x1C4408] = .ok (.vaOr (Head.mk false 1 (.x 7)) (Ext.mk 3 true 1 false 2 0 2 0), []) ∧
  decode [0x101E0C, 0x1C4408] = .ok (.vaXor (Head.mk false 1 (.x 7)) (Ext.mk 3 true 1 false 2 0 2 0), []) ∧
  decode [0x101E0D, 0x1C4408] = .ok (.vaNot (Head.mk false 1 (.x 7)) (Ext.mk 3 true 1 false 2 0 2 0), []) ∧
  decode [0x101E0E, 0x1C4408] = .ok (.vaShl (Head.mk false 1 (.x 7)) (Ext.mk 3 true 1 false 2 0 2 0), []) ∧
  decode [0x101E0F, 0x1C4408] = .ok (.vaShr (Head.mk false 1 (.x 7)) (Ext.mk 3 true 1 false 2 0 2 0), []) ∧
  decode [0x101E10, 0x1C4408] = .ok (.vaSar (Head.mk false 1 (.x 7)) (Ext.mk 3 true 1 false 2 0 2 0), []) ∧
  decode [0x101E11, 0x1C4408] = .ok (.vaCmp (Head.mk false 1 (.x 7)) (Ext.mk 3 true 1 false 2 0 2 0), []) ∧
  decode [0x101E12, 0x1C4408] = .ok (.vaSel (Head.mk false 1 (.x 7)) (Ext.mk 3 true 1 false 2 0 2 0), []) ∧
  decode [0x101E13, 0x1C4408] = .ok (.vaSum (Head.mk false 1 (.x 7)) (Ext.mk 3 true 1 false 2 0 2 0), []) ∧
  decode [0x101E14, 0x1C4408] = .ok (.vaRmax (Head.mk false 1 (.x 7)) (Ext.mk 3 true 1 false 2 0 2 0), []) ∧
  decode [0x101E15, 0x1C4408] = .ok (.vaRmin (Head.mk false 1 (.x 7)) (Ext.mk 3 true 1 false 2 0 2 0), []) ∧
  decode [0x101E16, 0x1C4408] = .ok (.vaDot4 (Head.mk false 1 (.x 7)) (Ext.mk 3 true 1 false 2 0 2 0), []) ∧
  decode [0x101E17, 0x1C4408] = .ok (.vaScale (Head.mk false 1 (.x 7)) (Ext.mk 3 true 1 false 2 0 2 0), []) := by
  and_intros <;> rfl

/-- Words of the vector arithmetic operations (02 R41, R45, R56): p1 as guard, source x7, and an extension word. -/
theorem test_words_va_b :
  decode [0x101E18, 0x1C4408] = .ok (.vaClamp (Head.mk false 1 (.x 7)) (Ext.mk 3 true 1 false 2 0 2 0), []) ∧
  decode [0x101E19, 0x1C4408] = .ok (.vaAddsat (Head.mk false 1 (.x 7)) (Ext.mk 3 true 1 false 2 0 2 0), []) ∧
  decode [0x101E1A, 0x1C4408] = .ok (.vaSubsat (Head.mk false 1 (.x 7)) (Ext.mk 3 true 1 false 2 0 2 0), []) := by
  and_intros <;> rfl

/-- Words of the vector move operations (02 R41, R45, R56): p1 as guard, source x8, and an extension word. -/
theorem test_words_vm :
  decode [0x102240, 0x1C4408] = .ok (.vmLd (Head.mk false 1 (.x 8)) (Ext.mk 3 true 1 false 2 0 2 0), []) ∧
  decode [0x102241, 0x1C4408] = .ok (.vmSt (Head.mk false 1 (.x 8)) (Ext.mk 3 true 1 false 2 0 2 0), []) ∧
  decode [0x102242, 0x1C4408] = .ok (.vmLdx (Head.mk false 1 (.x 8)) (Ext.mk 3 true 1 false 2 0 2 0), []) ∧
  decode [0x102243, 0x1C4408] = .ok (.vmStx (Head.mk false 1 (.x 8)) (Ext.mk 3 true 1 false 2 0 2 0), []) ∧
  decode [0x102244, 0x1C4408] = .ok (.vmMov (Head.mk false 1 (.x 8)) (Ext.mk 3 true 1 false 2 0 2 0), []) ∧
  decode [0x102245, 0x1C4408] = .ok (.vmBcast (Head.mk false 1 (.x 8)) (Ext.mk 3 true 1 false 2 0 2 0), []) ∧
  decode [0x102246, 0x1C4408] = .ok (.vmLane (Head.mk false 1 (.x 8)) (Ext.mk 3 true 1 false 2 0 2 0), []) ∧
  decode [0x102247, 0x1C4408] = .ok (.vmPerm (Head.mk false 1 (.x 8)) (Ext.mk 3 true 1 false 2 0 2 0), []) ∧
  decode [0x102248, 0x1C4408] = .ok (.vmShuf (Head.mk false 1 (.x 8)) (Ext.mk 3 true 1 false 2 0 2 0), []) ∧
  decode [0x102249, 0x1C4408] = .ok (.vmCvt (Head.mk false 1 (.x 8)) (Ext.mk 3 true 1 false 2 0 2 0), []) ∧
  decode [0x10224A, 0x1C4408] = .ok (.vmPack (Head.mk false 1 (.x 8)) (Ext.mk 3 true 1 false 2 0 2 0), []) ∧
  decode [0x10224B, 0x1C4408] = .ok (.vmUnpack (Head.mk false 1 (.x 8)) (Ext.mk 3 true 1 false 2 0 2 0), []) ∧
  decode [0x10224C, 0x1C4408] = .ok (.vmDecode (Head.mk false 1 (.x 8)) (Ext.mk 3 true 1 false 2 0 2 0), []) ∧
  decode [0x10224D, 0x1C4408] = .ok (.vmEncode (Head.mk false 1 (.x 8)) (Ext.mk 3 true 1 false 2 0 2 0), []) ∧
  decode [0x10224E, 0x1C4408] = .ok (.vmPush (Head.mk false 1 (.x 8)) (Ext.mk 3 true 1 false 2 0 2 0), []) ∧
  decode [0x10224F, 0x1C4408] = .ok (.vmPop (Head.mk false 1 (.x 8)) (Ext.mk 3 true 1 false 2 0 2 0), []) ∧
  decode [0x102250, 0x1C4408] = .ok (.vmMand (Head.mk false 1 (.x 8)) (Ext.mk 3 true 1 false 2 0 2 0), []) ∧
  decode [0x102251, 0x1C4408] = .ok (.vmMor (Head.mk false 1 (.x 8)) (Ext.mk 3 true 1 false 2 0 2 0), []) ∧
  decode [0x102252, 0x1C4408] = .ok (.vmMnot (Head.mk false 1 (.x 8)) (Ext.mk 3 true 1 false 2 0 2 0), []) ∧
  decode [0x102253, 0x1C4408] = .ok (.vmMcount (Head.mk false 1 (.x 8)) (Ext.mk 3 true 1 false 2 0 2 0), []) ∧
  decode [0x102254, 0x1C4408] = .ok (.vmLend (Head.mk false 1 (.x 8)) (Ext.mk 3 true 1 false 2 0 2 0), []) ∧
  decode [0x102255, 0x1C4408] = .ok (.vmReclaim (Head.mk false 1 (.x 8)) (Ext.mk 3 true 1 false 2 0 2 0), []) ∧
  decode [0x102256, 0x1C4408] = .ok (.vmSetfmt (Head.mk false 1 (.x 8)) (Ext.mk 3 true 1 false 2 0 2 0), []) := by
  and_intros <;> rfl

/-- Words of the special function operations (02 R41, R45, R56): p1 as guard, source x9, and an extension word. -/
theorem test_words_sf :
  decode [0x102680, 0x1C4408] = .ok (.sfExp2 (Head.mk false 1 (.x 9)) (Ext.mk 3 true 1 false 2 0 2 0), []) ∧
  decode [0x102681, 0x1C4408] = .ok (.sfLog2 (Head.mk false 1 (.x 9)) (Ext.mk 3 true 1 false 2 0 2 0), []) ∧
  decode [0x102682, 0x1C4408] = .ok (.sfRcp (Head.mk false 1 (.x 9)) (Ext.mk 3 true 1 false 2 0 2 0), []) ∧
  decode [0x102683, 0x1C4408] = .ok (.sfRsqrt (Head.mk false 1 (.x 9)) (Ext.mk 3 true 1 false 2 0 2 0), []) ∧
  decode [0x102684, 0x1C4408] = .ok (.sfSqrt (Head.mk false 1 (.x 9)) (Ext.mk 3 true 1 false 2 0 2 0), []) ∧
  decode [0x102685, 0x1C4408] = .ok (.sfTanh (Head.mk false 1 (.x 9)) (Ext.mk 3 true 1 false 2 0 2 0), []) ∧
  decode [0x102686, 0x1C4408] = .ok (.sfSigm (Head.mk false 1 (.x 9)) (Ext.mk 3 true 1 false 2 0 2 0), []) ∧
  decode [0x102687, 0x1C4408] = .ok (.sfSin (Head.mk false 1 (.x 9)) (Ext.mk 3 true 1 false 2 0 2 0), []) ∧
  decode [0x102688, 0x1C4408] = .ok (.sfCos (Head.mk false 1 (.x 9)) (Ext.mk 3 true 1 false 2 0 2 0), []) ∧
  decode [0x102689, 0x1C4408] = .ok (.sfErf (Head.mk false 1 (.x 9)) (Ext.mk 3 true 1 false 2 0 2 0), []) := by
  and_intros <;> rfl

/-- Words of the press operations (02 R41, R45, R56): p1 as guard, source x10. -/
theorem test_words_pr :
  decode [0x102AC0] = .ok (.prCask (Head.mk false 1 (.x 10)), []) ∧
  decode [0x102AC1] = .ok (.prMm (Head.mk false 1 (.x 10)), []) ∧
  decode [0x102AC2] = .ok (.prMmz (Head.mk false 1 (.x 10)), []) ∧
  decode [0x102AC3] = .ok (.prZero (Head.mk false 1 (.x 10)), []) ∧
  decode [0x102AC4] = .ok (.prMode (Head.mk false 1 (.x 10)), []) ∧
  decode [0x102AC5] = .ok (.prFmt (Head.mk false 1 (.x 10)), []) ∧
  decode [0x102AC6] = .ok (.prBusy (Head.mk false 1 (.x 10)), []) := by
  and_intros <;> rfl

/-- Words of the rack operations (02 R41, R45, R56): p1 as guard, source x11. -/
theorem test_words_rk :
  decode [0x102F00] = .ok (.rkRack (Head.mk false 1 (.x 11)), []) ∧
  decode [0x102F01] = .ok (.rkFill (Head.mk false 1 (.x 11)), []) ∧
  decode [0x102F02] = .ok (.rkGather (Head.mk false 1 (.x 11)), []) ∧
  decode [0x102F03] = .ok (.rkScatter (Head.mk false 1 (.x 11)), []) ∧
  decode [0x102F04] = .ok (.rkReduce (Head.mk false 1 (.x 11)), []) ∧
  decode [0x102F05] = .ok (.rkMcast (Head.mk false 1 (.x 11)), []) ∧
  decode [0x102F06] = .ok (.rkProbe (Head.mk false 1 (.x 11)), []) ∧
  decode [0x102F07] = .ok (.rkCancel (Head.mk false 1 (.x 11)), []) ∧
  decode [0x102F08] = .ok (.rkWaitaddr (Head.mk false 1 (.x 11)), []) ∧
  decode [0x102F09] = .ok (.rkRel (Head.mk false 1 (.x 11)), []) ∧
  decode [0x102F0A] = .ok (.rkAcq (Head.mk false 1 (.x 11)), []) := by
  and_intros <;> rfl

/-- Words of the fabric operations (02 R41, R45, R56): p1 as guard, source x12. -/
theorem test_words_fb :
  decode [0x103340] = .ok (.fbSend (Head.mk false 1 (.x 12)), []) ∧
  decode [0x103341] = .ok (.fbSendr (Head.mk false 1 (.x 12)), []) ∧
  decode [0x103342] = .ok (.fbRfence (Head.mk false 1 (.x 12)), []) ∧
  decode [0x103343] = .ok (.fbSlot (Head.mk false 1 (.x 12)), []) ∧
  decode [0x103344] = .ok (.fbWstat (Head.mk false 1 (.x 12)), []) := by
  and_intros <;> rfl

/-- Words of the flag operations (02 R41, R45, R56): p1 as guard, source x13. -/
theorem test_words_fg :
  decode [0x103780] = .ok (.fgFset (Head.mk false 1 (.x 13)), []) ∧
  decode [0x103781] = .ok (.fgFadd (Head.mk false 1 (.x 13)), []) ∧
  decode [0x103782] = .ok (.fgFcas (Head.mk false 1 (.x 13)), []) ∧
  decode [0x103783] = .ok (.fgFget (Head.mk false 1 (.x 13)), []) ∧
  decode [0x103784] = .ok (.fgFtest (Head.mk false 1 (.x 13)), []) ∧
  decode [0x103785] = .ok (.fgFwait (Head.mk false 1 (.x 13)), []) ∧
  decode [0x103786] = .ok (.fgFclr (Head.mk false 1 (.x 13)), []) ∧
  decode [0x103787] = .ok (.fgGarrive (Head.mk false 1 (.x 13)), []) ∧
  decode [0x103788] = .ok (.fgGcast (Head.mk false 1 (.x 13)), []) ∧
  decode [0x103789] = .ok (.fgGinfo (Head.mk false 1 (.x 13)), []) := by
  and_intros <;> rfl

/-- Words of the system operations (02 R41, R45, R56): p1 as guard, source x14. -/
theorem test_words_sy :
  decode [0x103BC0] = .ok (.syCsrr (Head.mk false 1 (.x 14)), []) ∧
  decode [0x103BC1] = .ok (.syCsrw (Head.mk false 1 (.x 14)), []) ∧
  decode [0x103BC2] = .ok (.syCsrs (Head.mk false 1 (.x 14)), []) ∧
  decode [0x103BC3] = .ok (.syCsrc (Head.mk false 1 (.x 14)), []) ∧
  decode [0x103BC4] = .ok (.syEcall (Head.mk false 1 (.x 14)), []) ∧
  decode [0x103BC5] = .ok (.syTret (Head.mk false 1 (.x 14)), []) ∧
  decode [0x103BC6] = .ok (.syKeyld (Head.mk false 1 (.x 14)), []) ∧
  decode [0x103BC7] = .ok (.syKeyrot (Head.mk false 1 (.x 14)), []) ∧
  decode [0x103BC8] = .ok (.sySeal (Head.mk false 1 (.x 14)), []) ∧
  decode [0x103BC9] = .ok (.syDecant (Head.mk false 1 (.x 14)), []) ∧
  decode [0x103BCA] = .ok (.syScrub (Head.mk false 1 (.x 14)), []) ∧
  decode [0x103BCB] = .ok (.syFbind (Head.mk false 1 (.x 14)), []) ∧
  decode [0x103BCC] = .ok (.syAttest (Head.mk false 1 (.x 14)), []) ∧
  decode [0x103BCD] = .ok (.syHalt (Head.mk false 1 (.x 14)), []) := by
  and_intros <;> rfl


/-- Reserved codes at the edges of their ranges: sources 0x05E, 0x05F, 0x098, 0x09F, 0x0A2, 0x1FF; destinations 0x04D, 0x04F; unused
opcodes 0x124 … 0x3CE, 0x3FF. With test words of five slots each, they are the witness of ReservedCodesRefused. -/
theorem test_reserved_codes :
    (∀ src ∈ [0x05E, 0x05F, 0x098, 0x09F, 0x0A2, 0x1FF], decode [BitVec.ofNat 24 (src * 1024), 0, 0, 0, 0] = .error .source) ∧
    (∀ dst ∈ [0x04D, 0x04F], decode [BitVec.ofNat 24 dst, 0, 0, 0, 0] = .error .destination) ∧
    (∀ dst ∈ [0x124, 0x13F, 0x16B, 0x17F, 0x18A, 0x1BF, 0x1D8, 0x1FF, 0x21B, 0x23F, 0x257, 0x27F, 0x28A, 0x2BF, 0x2C7, 0x2FF, 0x30B,
      0x33F, 0x345, 0x37F, 0x38A, 0x3BF, 0x3CE, 0x3FF], decode [BitVec.ofNat 24 dst, 0, 0, 0, 0] = .error .operation) := by
  refine ⟨?_, ?_, ?_⟩ <;> intro x hx <;> fin_cases hx <;> rfl

/-- The edges of the destination space: x63, p7, an input port, the last queue, and the end of stream reset (02 R42). -/
theorem test_words_moves :
    decode [0x00003F] = .ok (.move (Head.mk false 0 (.x 0)) (.x 63), []) ∧
    decode [0x000047] = .ok (.move (Head.mk false 0 (.x 0)) (.p 7), []) ∧
    decode [0x000048] = .ok (.move (Head.mk false 0 (.x 0)) .lcount, []) ∧
    decode [0x000049] = .ok (.move (Head.mk false 0 (.x 0)) .rotb, []) ∧
    decode [0x00004A] = .ok (.move (Head.mk false 0 (.x 0)) .sbbase, []) ∧
    decode [0x00004B] = .ok (.move (Head.mk false 0 (.x 0)) .sblen, []) ∧
    decode [0x00004C] = .ok (.streamReset (Head.mk false 0 (.x 0)), []) ∧
    decode [0x000050] = .ok (.move (Head.mk false 0 (.x 0)) (.inp 0), []) ∧
    decode [0x0000F7] = .ok (.move (Head.mk false 0 (.x 0)) (.inp 167), []) ∧
    decode [0x0000F8] = .ok (.queuePush (Head.mk false 0 (.x 0)) 0, []) ∧
    decode [0x0000FF] = .ok (.queuePush (Head.mk false 0 (.x 0)) 7, []) := by
  and_intros <;> rfl

/-- The edges of the source space (02 R41, R44). -/
theorem test_words_sources :
    decode [0x00FC01] = .ok (.move (Head.mk false 0 (.x 63)) (.x 1), []) ∧
    decode [0x011C01] = .ok (.move (Head.mk false 0 (.p 7)) (.x 1), []) ∧
    decode [0x012001] = .ok (.move (Head.mk false 0 (.special .tick)) (.x 1), []) ∧
    decode [0x018001] = .ok (.move (Head.mk false 0 (.out 0)) (.x 1), []) ∧
    decode [0x023C01] = .ok (.move (Head.mk false 0 (.out 47)) (.x 1), []) ∧
    decode [0x025C01] = .ok (.move (Head.mk false 0 (.queue 7)) (.x 1), []) ∧
    decode [0x028001, 0xABCDEF] = .ok (.move (Head.mk false 0 (.imm24 0xABCDEF)) (.x 1), []) ∧
    decode [0x028401, 0x000001, 0x800000] = .ok (.move (Head.mk false 0 (.imm48 0x800000000001)) (.x 1), []) ∧
    decode [0x0FFC01] = .ok (.move (Head.mk false 0 (.short 0x1FF)) (.x 1), []) := by
  and_intros <;> rfl

/-- A missing extension slot (02 R43, R44), and an event row of the table read back by its number. -/
theorem test_missing_extension :
    decode [0x000200] = .error .format ∧ decode [0x028001] = .error .format ∧ decode [0x028401, 0x000001] = .error .format := by
  and_intros <;> rfl

/-- What passes for a whole list passes for each of its members. -/
theorem Passes.of_all {α : Type} {l : List α} {s : α → State} {h : α → Head} {d : α → Nat} {e : α → Option Ext}
    (p : l.all (fun x => passes (s x) (h x) (d x) (e x)) = true) : ∀ x ∈ l, Passes (s x) (h x) (d x) (e x) :=
  fun x hx => Passes.of_bool (List.all_eq_true.mp p x hx)

theorem Accepts.of_all {α : Type} {l : List α} {s : α → State} {h : α → Head} {d : α → Nat} {e : α → Option Ext}
    (p : l.all (fun x => accepts (s x) (h x) (d x) (e x)) = true) : ∀ x ∈ l, Accepts (s x) (h x) (d x) (e x) :=
  fun x hx => Accepts.of_bool (List.all_eq_true.mp p x hx)

/-! Witnesses of the statements about slot operations: one state and operands on which each operation passes its checks. -/

/-- Input port k of unit u. -/
def port (u k : Nat) : Nat := 14 * u + k

/-- The extension word an operation of a wide unit takes: each register field it uses names a register of its own. -/
def extFor (u k : Nat) : Ext :=
  let w := wideUse u k
  ext (if w.d = .no then 0 else 1) (if w.a = .no then 0 else 2) (if w.b = .no then 0 else 3)
    (([0, 7, 1].find? (fun n => w.ty.ok n)).getD 0)

/-- Scalar operations of unit A (ScalarArithmeticResults, ScalarShiftResults, ScalarFieldResults, ScalarCountResults,
ScalarCompareResults). -/
theorem witness_scalar_a : ∀ k ∈ List.range 36, Passes demo (hd 5) (0x100 + k) none :=
  Passes.of_all (by decide +kernel)

/-- Scalar operations of unit B, the multiplies and the divisions among them (the same, ScalarMultiplyResults and
ScalarDivideResults), with the largest immediate. -/
theorem witness_scalar_b : ∀ k ∈ List.range 43, Passes demo (hd 0xFFFFFF) (0x140 + k) none :=
  Passes.of_all (by decide +kernel)

/-- A divisor of 0 and a bit field of length 0 (ScalarDivideResults, ScalarFieldResults). -/
theorem witness_scalar_zero : ∀ d ∈ [0x121, 0x122, 0x161, 0x162, 0x167, 0x168, 0x169, 0x16A], Passes demo (hd 0) d none := by
  intro d hd'; exact Passes.of_bool (by revert d; decide)

/-- Moves to every register, predicate and special destination (MoveResults). -/
theorem witness_moves : ∀ d ∈ List.range 0x04D, Passes demo (hd 64) d none :=
  Passes.of_all (by decide +kernel)

/-- Moves to every input port and queue (MoveResults). -/
theorem witness_move_ports : ∀ d ∈ List.range 0x0B0, Passes demo (hd 64) (0x050 + d) none :=
  Passes.of_all (by decide +kernel)

/-- The arithmetic of the vector unit (VectorArithmeticAsks, WideFrame). -/
theorem witness_va : ∀ k ∈ List.range 27, Accepts demo (hd 0) (0x200 + k) (some (extFor 4 k)) :=
  Accepts.of_all (by decide +kernel)

/-- The special functions, and the type their words name (SpecialFunctionAsks). -/
theorem witness_sf : ∀ k ∈ List.range 10, Accepts demo (hd 0) (0x280 + k) (some (extFor 6 k)) :=
  Accepts.of_all (by decide +kernel)

theorem witness_sf_type : ∀ k ∈ List.range 10, (demo.core demo.cur).extTy (extFor 6 k) = .flt fp32 := by decide +kernel

/-- Loads, stores, broadcasts, permutations, conversions, the stream buffer and masks of vm (VectorMoveAsks,
VectorMemoryAsks): every operation but those that follow. -/
theorem witness_vm : ∀ k ∈ [0, 1, 2, 3, 5, 7, 8, 9, 14, 15, 16, 17, 18, 19, 20],
    Accepts demo (hd 0) (0x240 + k) (some (extFor 5 k)) :=
  Accepts.of_all (by decide +kernel)

/-- vm.mov in its three directions, vm.lane in both, pack, unpack, decode, encode, reclaim and setfmt. -/
theorem witness_vm_more :
    Accepts demo (hd 288) 0x244 (some (ext 1 0 0 0)) ∧ Accepts demo (hd 0) 0x244 (some (ext 1 2 0 0)) ∧
    Accepts demo (hd 0) 0x246 (some (ext 0 2 0 0)) ∧ Accepts demo (hd 2048) 0x246 (some (ext 1 0 0 0)) ∧
    Accepts demo (hd 0) 0x24A (some (ext 1 2 3 1)) ∧ Accepts demo (hd 1) 0x24B (some (ext 1 2 0 0)) ∧
    Accepts (demoWith [(port 5 1, 0x800000)]) (hd 0) 0x24C (some (extFor 5 12)) ∧
    Accepts (demoWith [(port 5 1, 0x800000)]) (hd 0) 0x24D (some (ext 0 2 0 0)) ∧
    Accepts demo (hd 1) 0x255 (some (ext 0 0 0 0)) ∧ Accepts demo (hd 0x2A) 0x256 (some (ext 1 0 0 0)) := by
  refine ⟨.of_bool ?_, .of_bool ?_, .of_bool ?_, .of_bool ?_, .of_bool ?_, .of_bool ?_, .of_bool ?_, .of_bool ?_, .of_bool ?_, .of_bool ?_⟩ <;> decide +kernel

/-- The matrix press (PressAsks). -/
theorem witness_press :
    Accepts demo (hd 16388) 0x2C0 none ∧ Accepts demo (hd 1024) 0x2C1 none ∧ Accepts demo (hd 1024) 0x2C2 none ∧
    Accepts demo (hd 0) 0x2C3 none ∧ Accepts demo (hd 0) 0x2C4 none ∧ Accepts demo (hd 17) 0x2C5 none ∧
    Accepts demo (hd 0) 0x2C6 none := by
  refine ⟨.of_bool ?_, .of_bool ?_, .of_bool ?_, .of_bool ?_, .of_bool ?_, .of_bool ?_, .of_bool ?_⟩ <;> decide +kernel

/-- Loads, stores and capability operations (LoadStoreAsks). -/
theorem witness_ls : ∀ k ∈ List.range 24,
    Accepts (demoWith (if k = 16 then [(port 3 0, 4)] else [])) (hd 0) (0x1C0 + k) none :=
  Accepts.of_all (by decide +kernel)

/-- Control (ControlAsks): a loop of one bundle is the shortest. -/
theorem witness_ct : ∀ k ∈ List.range 10, Accepts demo (hd (if k = 4 then 1 else 0)) (0x180 + k) none :=
  Accepts.of_all (by decide +kernel)

/-- The rack engine (RackAsks): capability names, length and flag of each operation. -/
theorem witness_rk : ∀ q ∈ [(0x120, 0, 64, 0), (0x120, 0, 64, 1), (0x102, 0x600, 64, 2), (0x120, 0x600, 64, 3),
    (0x120, 0, 64, 4), (0x120, 0, 64, 5), (0, 0, 0, 6), (0, 0, 0, 7), (0x102, 0, 0, 8), (0x103, 0, 0, 9), (0x103, 0, 0, 10)],
    Accepts (demoWith [(port 8 0, BitVec.ofNat 64 q.1), (port 8 3, 0x10000), (port 8 4, BitVec.ofNat 64 q.2.1)]) (hd q.2.2.1)
      (0x300 + q.2.2.2) none :=
  Accepts.of_all (by decide +kernel)

/-- The fabric port (FabricAsks). -/
theorem witness_fb : ∀ q ∈ [(8, 1, 0, 240, 0), (9, 1, 0x200, 240, 1), (1, 1, 0, 0, 2), (0, 0, 0, 0, 3), (8, 0, 0, 0, 4)],
    Accepts (demoWith [(port 9 0, BitVec.ofNat 64 q.1), (port 9 1, BitVec.ofNat 64 q.2.1), (port 9 2, BitVec.ofNat 64 q.2.2.1),
      (port 9 3, BitVec.ofNat 64 q.2.2.2.1)]) (hd 0) (0x340 + q.2.2.2.2) none :=
  Accepts.of_all (by decide +kernel)

/-- The flags and groups (FlagAsks). -/
theorem witness_fg : ∀ q ∈ [(1, 0, 0, 0), (1, 0, 0, 1), (1, 0, 0, 2), (1, 0, 0, 3), (1, 0, 0, 4), (1, 0, 0, 5), (1, 0, 0, 6),
    (1, 1, 0, 7), (1, 1, 896, 8), (1, 0, 0, 9)],
    Accepts (demoWith [(port 10 0, BitVec.ofNat 64 q.1), (port 10 1, BitVec.ofNat 64 q.2.1), (port 10 2, BitVec.ofNat 64 q.2.2.1)])
      (hd 0) (0x380 + q.2.2.2) none :=
  Accepts.of_all (by decide +kernel)

/-- Control registers, the service call and the untimed operations a tile core may ask for (SystemAsks). -/
theorem witness_sy : ∀ q ∈ [(0, 0, 0x10000, 0, 0), (0, 0, 0x10000, 0x10, 1), (0, 0, 0x10000, 0x10, 2), (0, 0, 0x10000, 0x10, 3),
    (0, 0, 0, 0, 4), (0x102, 0, 0x10000, 0, 7), (0x2100, 0, 0x10000, 0, 8), (0x2102, 0, 0x10000, 0, 9), (0x100, 0, 0x10000, 0, 10),
    (0x102, 0, 0x10000, 0, 11), (0x100, 0, 0x10000, 0, 12)],
    Accepts (demoWith [(port 11 0, BitVec.ofNat 64 q.1), (port 11 1, BitVec.ofNat 64 q.2.1), (port 11 3, BitVec.ofNat 64 q.2.2.1)])
      (hd q.2.2.2.1) (0x3C0 + q.2.2.2.2) none :=
  Accepts.of_all (by decide +kernel)

/-- The keeper core of the small machine with a bundle in flight: it may return from a trap, load keys and halt (SystemAsks). -/
def demoKeeper : State :=
  { demo.setCore 256 { Core.firmware (sramSize 256) with
      regs := { (Core.firmware (sramSize 256)).regs with
        inp := [(port 11 0, 0x100), (port 11 1, 0x100), (port 11 3, 0x10000)] }
      butty := { Stream.init with st := .run }
      latch := demoLatch } with cur := 256 }

theorem witness_sy_keeper :
    Accepts demoKeeper (hd 0) 0x3C5 none ∧ Accepts demoKeeper (hd 0) 0x3C6 none ∧ Accepts demoKeeper (hd 0) 0x3CD none := by
  refine ⟨.of_bool ?_, .of_bool ?_, .of_bool ?_⟩ <;> decide +kernel

/-- An attest that is outstanding. -/
def demoOp : SysOp := SysOp.mk 12 0 [] Cap.null Cap.null Cap.null 0 0 0 0 1 0 0 [] [] [] 0 0 [] []

/-- With four operations outstanding an untimed operation still passes its checks, and reports SYSTEM_FULL (SystemAsks). -/
theorem witness_sy_full :
    Accepts (demoKeeper.modCore 256 (fun k => { k with sysops := List.replicate 4 demoOp })) (hd 0) 0x3C6 none ∧
    ((demoKeeper.modCore 256 (fun k => { k with sysops := List.replicate 4 demoOp })).core 256).sysops.length = 4 :=
  ⟨.of_bool (by decide +kernel), by decide +kernel⟩

/-- Instructions with operands at their extremes: the witness of DecodeOfEncode and EncodeOfDecode. -/
theorem witness_encode :
    (WellFormed (.move (Head.mk true 7 (.imm48 0xFFFFFFFFFFFF)) (.inp 167)) = true ∧
      encode (.move (Head.mk true 7 (.imm48 0xFFFFFFFFFFFF)) (.inp 167)) = some [0xF284F7, 0xFFFFFF, 0xFFFFFF]) ∧
    (WellFormed (.sfErf (Head.mk true 7 (.short 0x1FF)) (Ext.mk 15 true 15 true 15 10 7 3)) = true ∧
      encode (.sfErf (Head.mk true 7 (.short 0x1FF)) (Ext.mk 15 true 15 true 15 10 7 3)) = some [0xFFFE89, 0x7FFF5F]) ∧
    (WellFormed .nop = true ∧ encode .nop = some [0x800000]) ∧
    decode [0xFFFE89, 0x7FFF5F, 0x800000] = .ok (.sfErf (Head.mk true 7 (.short 0x1FF)) (Ext.mk 15 true 15 true 15 10 7 3), [0x800000]) := by
  and_intros <;> rfl

/-- A bundle in flight with one word left, with none, and with a word that is no instruction (StepRunsDecoded). -/
def demoWords (ws : List Slot) : State := demo.modCore 0 (fun k => { k with latch := { demoLatch with words := ws, slots := [0] } })

theorem witness_step :
    ((demoWords [0x081501]).core 0).latch.live = true ∧ ((demoWords [0x081501]).core 0).latch.words = [0x081501] ∧
    decode [0x081501] = .ok (.saAdd (Head.mk false 0 (.short 5)), []) ∧
    ((demoWords []).core 0).latch.live = true ∧ ((demoWords []).core 0).latch.words = [] ∧
    ((demoWords [0x000124]).core 0).latch.words = [0x000124] ∧ decode [0x000124] = .error .operation ∧
    (demoWords []).inReset = false ∧ ({ demoWords [] with inReset := true }).inReset = true := by
  and_intros <;> rfl

/-- No bundle in flight: the premise of StepStopsOnlyOnUndecodable holds. -/
theorem witness_step_idle : (State.reset.core State.reset.cur).latch.live = false := by decide +kernel

/-- A guard that is false on an operation that decodes: p1 holds 0 (GuardFalse). -/
theorem witness_guard : slotParts (.saAdd (Head.mk false 1 (.x 0))) = some (Head.mk false 1 (.x 0), 0x101, none) ∧
    demo.decodeCheck demo.cur demo.motorNow (Head.mk false 1 (.x 0)) 0x101 none = .ok ∧
    demo.guard demo.cur (Head.mk false 1 (.x 0)) = false := by
  and_intros <;> decide +kernel

/-- The small machine with the special-function lanes busy. -/
def demoBusy : State := demo.modCore 0 (fun k => { k with busy := [(rsSf, 100)] })

/-- A fault of the decode checks (a d code of 16, type code 11), a wait of theirs (a pop of an empty queue in the butty stream), a
fault of a unit (a csrr of register 0x3FF), and a wait of one (a busy resource): ChecksDecide. -/
theorem witness_checks :
    demo.decodeCheck demo.cur demo.motorNow (hd 0) 0x200 (some (ext 16 2 3 0)) = .fault stRegister 0 ∧
    demo.decodeCheck demo.cur demo.motorNow (hd 0) 0x200 (some (ext 1 2 3 11)) = .fault stType 0 ∧
    demo.decodeCheck demo.cur demo.motorNow (Head.mk false 0 (.queue 2)) 0x101 none = .stall ∧
    passes demo (hd 4096) 0x3C0 none = true ∧
    trigCheck demo demo.cur demo.motorNow 0x3C0 none (demo.operand (hd 4096)) = .fault stSystem 2 ∧
    passes demoBusy (hd 0) 0x280 (some (extFor 6 0)) = true ∧
    trigCheck demoBusy 0 false 0x280 (some (extFor 6 0)) (demoBusy.operand (hd 0)) = .stall := by
  refine ⟨?_, ?_, ?_, ?_, ?_, ?_, ?_⟩ <;> decide +kernel

/-- A core of a tile with a fault to take, in its motor stream with a timetable and in its butty stream (FaultTaken). -/
theorem witness_fault : isTile 255 = true ∧ isTile 256 = false ∧ stTiming ≠ stDebugStop ∧
    demo.part (demo.partId 0) = some demoPart ∧ demoPart.tt.isSome = true := by
  refine ⟨?_, ?_, ?_, ?_, ?_⟩ <;> decide +kernel

/-- Breakpoints enabled (BreakpointStops). -/
def demoDebug : State := demo.modPart 1 (fun p => { p with csr := { p.csr with dbgctl := true } })

theorem witness_breakpoint : Passes demoDebug (hd 0) 0x189 none ∧
    (demoDebug.part (demoDebug.viewPart 0)).any (fun p => p.csr.dbgctl) = true :=
  ⟨.of_bool (by decide +kernel), by decide +kernel⟩

/-- Lane selection, at the last lane of each width (VectorIntegerResults). -/
theorem witness_lanes : selLane 0 1024 1023 = false ∧
    selLane ((demo.core 0).mask 0) 1024 1023 = true ∧ selLane ((demo.core 0).mask 0) 512 511 = true ∧
    selLane ((demo.core 0).mask 0) 256 255 = true := by
  refine ⟨?_, ?_, ?_, ?_⟩ <;> decide +kernel

/-- The greatest flag operands (FlagOperationEffects). -/
theorem witness_flag_operands : (0xFFFFFFFF : Nat) < 2 ^ 32 ∧ ¬(0x100000000 : Nat) < 2 ^ 32 := by decide

/-- An operation of each group that SchedulingFrame and WideFrame speak of. -/
theorem witness_frames : slotParts (.saAdd (hd 5)) = some (hd 5, 0x101, none) ∧ onlyAsks (.saAdd (hd 5)) = true ∧
    Accepts demo (hd 5) 0x101 none ∧
    slotParts (.vaAdd (hd 0) (extFor 4 0)) = some (hd 0, 0x200, some (extFor 4 0)) ∧
    Accepts demo (hd 0) 0x200 (some (extFor 4 0)) := by
  refine ⟨rfl, rfl, .of_bool ?_, rfl, .of_bool ?_⟩ <;> decide +kernel

/-! Witnesses of the statements about streams. -/

/-- A stream with a frame and a transfer of each kind in its last delay, a return to the index of its frame, and a return from a trap
beside a jump (StreamTransfers). -/
theorem witness_transfers :
    Stream.init.delay = none ∧
    ({ Stream.init with delay := some (Delay.mk 2 7 .jump) }).delay = some (Delay.mk 2 7 .jump) ∧ 1 < (Delay.mk 2 7 .jump).cnt ∧
    (Delay.mk 1 7 .jump).cnt ≤ 1 ∧ (Delay.mk 1 7 .jump).kind = .jump ∧ (Delay.mk 1 0 .fall).kind = .fall ∧
    (Delay.mk 1 7 .call).kind = .call ∧ (Delay.mk 1 5 .ret).kind = .ret ∧
    ({ Stream.init with frames := [CFrame.mk 5 0 []] }).frames = CFrame.mk 5 0 [] :: [] ∧
    (Delay.mk 1 5 .ret).tgt = (CFrame.mk 5 0 []).ret ∧
    ({ demoLatch with ctl := .xfer (Delay.mk 2 7 .jump) }).ctl = .xfer (Delay.mk 2 7 .jump) ∧
    (match demoLatch.sys with
     | .xfer _ => false
     | _ => true) = true ∧
    ({ demoLatch with ctl := .xfer (Delay.mk 2 7 .jump), sys := .xfer (Delay.mk 2 9 .jump) }).sys = .xfer (Delay.mk 2 9 .jump) := by
  refine ⟨?_, ?_, ?_, ?_, ?_, ?_, ?_, ?_, ?_, ?_, ?_, ?_, ?_⟩ <;> decide

/-- A loop of three trips before, at and after its last bundle (LoopIterations). -/
def demoLoop (idx : Nat) : Loop :=
  { pcLoop := 10, last := 12, count := 3, idx := idx, stages := 0, rot := true, start := 0, len := 0 }

theorem witness_loops : (demoLoop 0).last ≠ 11 ∧ (demoLoop 1).last = 12 ∧ (demoLoop 1).idx + 1 < (demoLoop 1).trips ∧
    (demoLoop 2).trips ≤ (demoLoop 2).idx + 1 := by decide

/-! Witnesses of the statements about events. -/

/-- Core 0 idle between bundles, with a change. -/
def demoCoreWith (f : Core → Core) : State := demo.modCore 0 (fun k => f { k with latch := Latch.empty })

/-- One result due, of each kind MoveDelivery names: x0 and x63, an output port, p0 and p7. -/
theorem witness_delivery : ∀ a ∈ [Act.x 0 5, .x 63 5, .out 0 7, .out 47 7, .rpred 0 false, .rpred 7 true],
    ((demoCoreWith (fun k => { k with pend := [Pend.mk 0 0 0 a] })).core 0).dueActs 0 (fun r => r < 8) = [Pend.mk 0 0 0 a] ∧
    a.rank ≤ 1 := by decide +kernel

/-- An 8-byte store at the last bytes of a scratchpad, due alone (StorePerform). -/
def demoStore : StoreW := StoreW.mk 0 .ls (bytesCells 0x1FFFF8 8 0x123456789ABCDEF0) [] []

theorem witness_store :
    (({ demoCoreWith (fun k => { k with pend := [Pend.mk 1 0 0 (.store demoStore)] }) with tick := 1 }).core 0).dueActs 1
      (fun r => r == 8) = [Pend.mk 1 0 0 (.store demoStore)] ∧
    demoStore.labels = [] ∧ demoStore.tagSet = [] ∧ (demo.core 0).fresh.tick ≠ 1 ∧ demoStore.issuer / 8 = 0 / 8 := by
  refine ⟨?_, ?_, ?_, ?_, ?_⟩ <;> decide +kernel

/-- Group 0 of one member that has arrived, at its lock, with its re-base tick, or past its patience. -/
def demoLock (x : Group) (f : Core → Core) : State :=
  { demoCoreWith f with
    tick := 3000100
    parts := [(1, some { demoPart with tt := some { demoTt with groups := [x, demoGroup 1] } })] }

def atLock (k : Core) : Core :=
  { k with motor := { k.motor with st := .locked }, lock := some (LockWait.mk 0 [] 0 0 0 0 0) }

def arrivedGroup : Group := Group.mk 0 1 1 1 0 0 1 1 [] 0

theorem witness_lock_open :
    (demoLock arrivedGroup atLock).part 1 = some { demoPart with tt := some { demoTt with groups := [arrivedGroup, demoGroup 1] } } ∧
    ({ demoTt with groups := [arrivedGroup, demoGroup 1] }).group 0 = some arrivedGroup ∧
    lockOpens (demoLock arrivedGroup atLock) { demoPart with tt := some { demoTt with groups := [arrivedGroup, demoGroup 1] } }
      { demoTt with groups := [arrivedGroup, demoGroup 1] } arrivedGroup = true ∧ 0 < demoTt.pace := by
  refine ⟨?_, ?_, ?_, ?_⟩ <;> decide +kernel

theorem witness_lock_rebase : ({ arrivedGroup with rebase := 3000100 }).rebase ≠ 0 ∧
    ({ arrivedGroup with rebase := 3000100 }).rebase ≤ (demoLock arrivedGroup atLock).tick ∧ demoTt.stop = none ∧
    bitOf arrivedGroup.map 0 = true := by
  refine ⟨?_, ?_, ?_, ?_⟩ <;> decide +kernel

/-- A lock whose other member never comes: overdue, and dry where that member's task has ended. -/
def waitingGroup : Group := Group.mk 0 2 1 1 0 0 3 1 [] 0

theorem witness_lock_overdue :
    lockOverdue (demoLock waitingGroup atLock) demoPart { demoTt with groups := [waitingGroup] } waitingGroup = true := by
  decide +kernel

/-- A lock on a flag that nothing sets is dry (LockEvents). -/
theorem witness_dry : dryProof (demoLock arrivedGroup (fun k =>
      { atLock k with
        lock := some (LockWait.mk 0 [Cond.mk 3 1 1] 0 0 0 0 0)
        butty := { k.butty with st := .ended } }))
    { demoTt with groups := [arrivedGroup] } arrivedGroup = true := by decide +kernel

/-- A reach of 100 core cycles that runs past its end (LockEvents). -/
theorem witness_overrun : overruns { demoCoreWith id with tick := 100 } 0 = true ∧
    overruns { demoCoreWith id with tick := 99 } 0 = false := by
  refine ⟨?_, ?_⟩ <;> decide +kernel

/-- Group 0 in its garrive generation: the arrival that completes it, and one that does not (GroupAndWaitEvents). -/
def countedGroup : Group := Group.mk 0 2 1 2 0 0 3 2 [] 0

theorem witness_garrive :
    ((demoLock countedGroup (fun k => { k with garr := [Garr.mk 0 0 5 true 0 0] })).part 1).bind (fun p => p.tt) =
      some { demoTt with groups := [countedGroup, demoGroup 1] } ∧
    ({ demoTt with groups := [countedGroup, demoGroup 1] }).group 0 = some countedGroup ∧
    ((demoLock countedGroup (fun k => { k with garr := [Garr.mk 0 0 5 true 0 0] })).core 0).garr.find?
      (fun y => y.group == 0 && y.due ≤ 3000100) = some (Garr.mk 0 0 5 true 0 0) ∧
    countedGroup.arrived + 1 = countedGroup.members ∧ (demoGroup 0).arrived + 1 = (demoGroup 0).members ∧
    ({ countedGroup with arrived := 0 }).arrived + 1 ≠ countedGroup.members := by
  refine ⟨?_, ?_, ?_, ?_, ?_, ?_⟩ <;> decide +kernel

theorem witness_increments :
    ({ demoTt with incs := [(0, 5, 1023, 7)] }).incs[0]? = some (0, 5, 1023, 7) ∧
    castAt (demoCoreWith (fun k => { k with casts := [(3, 896, 1, 0)] })) demoPart.tileCores 0 = some (0, 0) ∧
    ((demoCoreWith (fun k => { k with casts := [(3, 896, 1, 0)] })).core 0).casts[0]? = some (3, 896, 1, 0) ∧
    castFirst [(3, 896, 1, 0)] 0 = true := by
  refine ⟨?_, ?_, ?_, ?_⟩ <;> decide +kernel

/-- A butty wait whose condition holds at its limit, and one whose limit has passed (GroupAndWaitEvents). -/
def demoWait (tick : Nat) (cond : Nat) : State :=
  { demoCoreWith (fun k => { k with butty := { k.butty with st := .fwait }, fwait := some (FWait.mk 3 cond 1 0 (some 10)) }) with
    tick := tick }

theorem witness_fwait : waitHolds (demoWait 10 2) ((demoWait 10 2).core 0) = true ∧
    waitOver (demoWait 11 1) 0 = true ∧ waitOver (demoWait 10 1) 0 = false ∧
    ((demoWait 11 1).core 0).butty.st = .fwait := by
  refine ⟨?_, ?_, ?_, ?_⟩ <;> decide +kernel

/-- A bundle of eight no-ops at index 0, and one whose extension map names slot 0 (BoundaryEvents). -/
def demoBundle (ext : Nat) : State :=
  demoCoreWith (fun k => { k with
    mem := { k.mem with bundles := writeBytes [] 0 (toBytes 8 (ext * 2 ^ 56 + 2 ^ 38) ++ (List.replicate 8 [0, 0, 0x80]).flatten) }
    motor := { k.motor with pc := 0 } })

theorem witness_issue :
    (demoBundle 0).canIssue 0 true = true ∧
    formatSlot 0 true (((demoBundle 0).core 0).header 0)
      (bundleLayout (hdExt (((demoBundle 0).core 0).header 0)) (((demoBundle 0).core 0).bundleSlots 0)) = none ∧
    decodeFault 0 true ((bundleLayout (hdExt (((demoBundle 0).core 0).header 0)) (((demoBundle 0).core 0).bundleSlots 0)).1.map
      Entry.parts) 2 6 = none ∧
    order8 (demoBundle 0) 0 true (((demoBundle 0).core 0).header 0)
      ((bundleLayout (hdExt (((demoBundle 0).core 0).header 0)) (((demoBundle 0).core 0).bundleSlots 0)).1.map Entry.parts) = none ∧
    (demoBundle 0).canIssue 1 true = false := by
  refine ⟨?_, ?_, ?_, ?_, ?_⟩ <;> decide +kernel

theorem witness_issue_unit :
    let ps := (bundleLayout (hdExt (((demoBundle 0).core 0).header 0)) (((demoBundle 0).core 0).bundleSlots 0)).1.map Entry.parts
    unitFault ((demoBundle 0).setCore 0 (portWrites ((demoBundle 0).modCore 0 (fun k => { k with
      latch := latchOf true 0 (((demoBundle 0).core 0).header 0) ps })) 0 true ps)) 0 true ps = none := by
  decide +kernel

theorem witness_issue_format : ∃ slot, formatSlot 0 true (((demoBundle 1).core 0).header 0)
    (bundleLayout (hdExt (((demoBundle 1).core 0).header 0)) (((demoBundle 1).core 0).bundleSlots 0)) = some slot := by
  refine ⟨0, ?_⟩; decide +kernel

/-- Register writes in each mode: a tile core 0, a keeper core 256, a control core 264 that looks at partition 1
(RegisterWriteEvents). -/
def demoOpen : State :=
  { demo.modCore 264 (fun k => { k with csr := { k.csr with wsel := 1 } }) with
    parts := [(1, some { demoPart with tt := none, tdi := .unlocked })] }

theorem witness_registers :
    modeOf 0 = 0 ∧ modeOf 256 ≠ 0 ∧ modeOf 264 = 2 ∧ demoOpen.part (demoOpen.viewPart 264) = some { demoPart with tt := none, tdi := .unlocked } ∧
    demoOpen.part (demoOpen.viewPart 256) = some { demoPart with tt := none, tdi := .unlocked } ∧
    ({ demoPart with tt := none, tdi := .unlocked }).cfgOpen = true ∧
    demoOpen.otherShares 1 31 + (496 : Word).toNat % 2 ^ 10 ≤ 496 ∧ demoOpen.sending = false ∧
    demoOpen.otherAllots 1 false + (700000 : Word).toNat % 2 ^ 20 ≤ 700000 ∧
    demoOpen.otherAllots 1 true + (0 : Word).toNat % 2 ^ 20 ≤ demoOpen.laybyCap := by
  refine ⟨?_, ?_, ?_, ?_, ?_, ?_, ?_, ?_, ?_, ?_⟩ <;> decide +kernel

/-- A keeper core with a record waiting and a transfer in its delay (TrapEvents). -/
def demoRec : TrapRec := TrapRec.mk 4 21 0 false 3 0 true none

def demoTrap : State := demoKeeper.modCore 256 (fun k =>
  { k with latch := Latch.empty, traps := [demoRec], butty := { k.butty with delay := some (Delay.mk 1 9 .jump) } })

theorem witness_trap_entry : isTile 256 = false ∧ demoTrap.mayEnter 256 = true ∧
    (demoTrap.core 256).traps = demoRec :: [] ∧ (demoTrap.core 256).butty.delay = some (Delay.mk 1 9 .jump) ∧
    (Delay.mk 1 9 .jump).kind ≠ .fall ∧ (demoKeeper.core 256).butty.delay = none := by
  refine ⟨?_, ?_, ?_, ?_, ?_, ?_⟩ <;> decide +kernel

/-- A butty stream that waits for its reply, a motor call with a flag, and a halted butty stream. -/
def demoCall (r : Option (Nat × Nat)) (st : Status) : State :=
  demoCoreWith (fun k => { k with calls := [{ demoRec with reply := r }], butty := { k.butty with st := st } })

def demoCallB : State := (demoCall none .run).modCore 0 (fun k => { k with butty := { k.butty with call := some 4 } })

theorem witness_calls :
    ((demoCall none .run).core 0).call 4 = some demoRec ∧ demoRec.reply = none ∧ demoRec.id = 4 ∧
    ((demoCallB).core 0).butty.call = some 4 ∧
    ((demoCall (some (1023, 65535)) .run).core 0).call 4 = some { demoRec with reply := some (1023, 65535) } ∧
    ((demoCall none (.halted .trap 32)).core 0).butty.st = .halted .trap 32 := by
  refine ⟨?_, ?_, ?_, ?_, ?_, ?_⟩ <;> decide +kernel

/-- A page table of four levels whose only leaf maps page 0 of space 3 to frame 0x100000 (RackEvents). -/
def demoTables : Store Byte :=
  writeNat (writeNat (writeNat (writeNat [] 0x10000 8 0x10801) 0x10800 8 0x11001) 0x11000 8 0x11801) 0x11800 8 0x10000F

def demoPaged : State :=
  { demo with
    cellar := { demo.cellar with bytes := demoTables }
    parts := [(1, some { demoPart with csr := { demoPart.csr with croot := 0x10001 } })] }

/-- A fill of one line of the cellar that has been asked for (RackEvents). -/
def demoFill : Rack :=
  { Rack.none with
    state := 1, left := 1
    job := rackJob (demoWith [(port 8 0, 0x120), (port 8 3, 0x10000), (port 8 4, 0)]) 0 1 64 }

def demoRack (r : Rack) : State := demoPaged.modCore 0 (fun k => { k with latch := Latch.empty, racks := [(63, r)] })

def noEnv : LineEnv := LineEnv.mk [] false false []

/-- The rack of a state that takes its next part, to which place, as the clauses of RackEvents on parts have it. -/
def partTo (s : State) (id : Nat) (isIt : Place → Bool) : Bool :=
  let s1 := readLists (startUpTo s 0 ((s.core 0).rack id).seq) 0
  let r := (s1.core 0).rack id
  let p := r.job.part r.entries r.pos
  match readyPart s1 0 r p with
  | (s2, .ok rd) => partMoves s2 0 id r p rd noEnv && !r.job.scales && r.buf.isNone && r.blk.isNone && rd.slotSrc.isEmpty &&
      rd.slotDst.isEmpty && decide (0 < p.n) && (match rd.dst with
        | [(q, n)] => isIt q && n == p.n
        | _ => false)
  | (_, .stop _) => false

/-- A rack of an operation from one capability to another, i1 and i2 0, 64 bytes. -/
def demoMove (op caps : Nat) : Rack :=
  { demoFill with job := rackJob (demoWith [(port 8 0, caps), (port 8 3, 0x10000), (port 8 4, 0)]) 0 op 64 }

theorem witness_rack :
    demoFill.moves = true ∧ ((demoRack demoFill).core 0).rack 63 = demoFill ∧ (demoRack demoFill).racksStopped 0 = false ∧
    (demoRack demoFill).hostWritesFree ((demoRack demoFill).enginePart 0) noEnv.hostWrites = true ∧
    lineMoves (readLists (startUpTo (((demoRack demoFill).hostWrites ((demoRack demoFill).enginePart 0) noEnv.hostWrites).giveUp
      ((demoRack demoFill).enginePart 0) noEnv.drops) 0 demoFill.seq) 0) 0 63 noEnv = some 64 ∧ demoFill.job.scales = false ∧
    ({ demoFill with pos := demoFill.job.work }).ending = true ∧
    ({ demoFill with pos := demoFill.job.work, wtick := 0 }).wtick < 1 ∧ ({ demoFill with cancel := true }).ending = true ∧
    ({ demoFill with cancel := true }).pos = 0 ∧ demoFill.cancel = false ∧
    ({ (demoRack demoFill).core 0 with pend := [Pend.mk 5 0 0 (.rackCancel 63)] }).pend = [Pend.mk 5 0 0 (.rackCancel 63)] := by
  refine ⟨?_, ?_, ?_, ?_, ?_, ?_, ?_, ?_, ?_, ?_, ?_, ?_⟩ <;> decide +kernel

/-- Parts that move: a fill of the cellar, a rack of scratchpad to scratchpad, one to the host, and a reduce (RackEvents). -/
theorem witness_parts :
    partTo (demoRack demoFill) 63 (fun q => match q with
      | .cellar pa => pa == 0x100000
      | _ => false) = true ∧
    partTo (demoRack (demoMove 0 0x100)) 63 (fun q => match q with
      | .pad o a => o == 0 && a == 0
      | _ => false) = true ∧
    partTo ((demoRack (demoMove 0 0x130)).modPart 1 (fun p => { p with csr := { p.csr with hroot := 0x10001 } })) 63 (fun q => match q with
      | .host n ga => n == 1 && ga == 0x100000
      | _ => false) = true ∧
    partTo (demoRack (demoMove 4 0x100)) 63 (fun q => match q with
      | .pad o a => o == 0 && a == 0
      | _ => false) = true ∧
    (demo.core 0).fresh.tick ≠ 1 ∧ (demoPaged.cellar.mdOf (0x100000 / 64)).minor ≠ 127 ∧ 0x100000 % 64 + 64 ≤ 64 := by
  refine ⟨?_, ?_, ?_, ?_, ?_, ?_, ?_⟩ <;> decide +kernel

/-- Jobs of each operation whose parts RackEvents gives, before their end: a gather of 64-byte elements, an element's end, a second
replica (12 R229). -/
theorem witness_jobs : let j := (demoMove 2 0x120).job;
    0 < j.len ∧ j.op = 2 ∧ 6 ≤ bits (BitVec.ofNat 64 0x600) 11 8 ∧ 63 < j.len ∧ (64 + 1) / (demoMove 5 0x120).job.len = 1 ∧
    isPad 0 = true ∧ (64 * 3) % 64 + 64 ≤ 64 ∧ [(1 : Byte), 2, 3, 4].length % 4 = 0 ∧ 4 * 0 < [(1 : Byte), 2, 3, 4].length := by
  refine ⟨?_, ?_, ?_, ?_, ?_, ?_, ?_, ?_, ?_⟩ <;> decide +kernel

def demoMon : Monitor := Monitor.mk 1 3 0x40 0 5 1 4 0x40 5 false 1 0 0

/-- The small machine whose root page table stands in a line that fails its check. -/
def demoBroken : State := { demoPaged with cellar := { demoPaged.cellar with md := [(0x400, LineMd.mk 0 0 false (BitVec.allOnes 40))] } }

theorem witness_monitor :
    (match translate (demoPaged.modCore 0 (fun k => { k with mons := [(3, demoMon)] })) 0 1 3 0x40 false with
     | (_, .ok (.cellar pa)) => pa == 0x100040
     | _ => false) = true ∧
    (match translate (demoPaged.modCore 0 (fun k => { k with mons := [(3, demoMon)] })) 0 1 3 0x1000000 false with
     | (_, .stop (.page ..)) => true
     | _ => false) = true ∧
    (match directPlace demo (demo.enginePart 256) 4 0x40 false with
     | .ok (.host n ga) => n == 1 && ga == 0x40
     | _ => false) = true ∧ (payHost demo 256 (if demo.cached 1 (0x40 / 64) then 0 else 1)).isSome = true ∧
    demoTt.pre < 3 ∧ demoTt.bottleHeld = false ∧ demo.timetable 0 = some demoTt ∧
    (match directPlace demo (demo.enginePart 256) 3 0x2000000000 false with
     | .stop (.fence pa) => pa == 0x2000000000
     | _ => false) = true ∧
    (match translate (demoBroken.modCore 0 (fun k => { k with mons := [(3, demoMon)] })) 0 1 3 0x40 false with
     | (_, .stop (.integrity pa)) => pa / 64 == 0x400
     | _ => false) = true ∧
    untranslated 264 (Cap.make 3 (pRead + pGlobal) 0 64 0) = true ∧ demoMon.state = 1 ∧ ({ demoMon with state := 4 }).state = 4 ∧
    ({ demoMon with state := 4 }).wtick < 1 := by
  refine ⟨?_, ?_, ?_, ?_, ?_, ?_, ?_, ?_, ?_, ?_, ?_, ?_, ?_⟩ <;> decide +kernel

theorem witness_pages :
    demoPaged.pageEntry 1 0 = some 0x11800 ∧ demoPaged.ownsPa 1 0x110000 = true ∧ 0x110000 % 2 ^ 16 = 0 ∧ demoPart.migr = none ∧
    ({ demoPart with migr := some (Migration.mk 0 0x110000 3 0 8) }).migr = some (Migration.mk 0 0x110000 3 0 8) ∧
    demo.partOfStack (64 / 2 ^ 36) ≠ 0 ∧ (demo.cellar.mdOf 1).minor ≠ 127 := by
  refine ⟨?_, ?_, ?_, ?_, ?_, ?_, ?_⟩ <;> decide +kernel

/-- A fault record of a rack and of a monitor, and a TLB invalidation under way. -/
theorem witness_replies :
    ((demo.modPart 1 (fun p => { p with faultq := [PageFault.mk 0 false 63 2 3 0x40 false none, PageFault.mk 0 true 3 2 3 0x40 false none] })).faultRec
      1 0 false 63).isSome = true ∧
    ((demo.modPart 1 (fun p => { p with faultq := [PageFault.mk 0 false 63 2 3 0x40 false none, PageFault.mk 0 true 3 2 3 0x40 false none] })).faultRec
      1 0 true 3).isSome = true ∧ demo.enginePart 0 = 1 ∧
    ({ demoPart with csr := { demoPart.csr with tlbBusy := true } }).csr.tlbBusy = true := by
  refine ⟨?_, ?_, ?_, ?_⟩ <;> decide +kernel

/-! Queues and launches. -/

/-- A launch queue of 16 entries that is enabled, at an entry that launches the image at 0 of space 3 (16 R303, R305). -/
def demoQueue : Queue := { Queue.init with size := 16, enable := true, tail := 16 }

def demoEntry : List Byte := toBytes 8 1 ++ toBytes 8 0 ++ toBytes 8 0 ++ toBytes 8 0x40 ++ toBytes 8 9 ++ List.replicate 24 0

def demoIdle (q : Queue) : Partition :=
  { (demoPart.setQueue 0 q) with
    tt := none, csr := { demoPart.csr with croot := 0x10001 } }

/-- A timetable image of one task on core 0: header, task, two segments, one reach, one bundle (03 R67-R70). -/
def demoImage : List Byte :=
  toBytes 4 0xA4800717 ++ toBytes 2 1 ++ toBytes 1 1 ++ toBytes 1 0 ++ toBytes 2 1 ++ List.replicate 6 0 ++
  toBytes 4 0x40 ++ List.replicate 12 0 ++ List.replicate 24 0 ++ toBytes 8 192 ++
  toBytes 4 0 ++ toBytes 4 0xFFFF ++ List.replicate 16 0 ++ toBytes 4 0x60 ++ toBytes 4 2 ++
  toBytes 4 0 ++ toBytes 4 0 ++ toBytes 4 32 ++ toBytes 4 0xA0 ++
  toBytes 4 1 ++ toBytes 4 0 ++ toBytes 4 16 ++ toBytes 4 0x80 ++
  toBytes 4 0 ++ toBytes 4 100 ++ toBytes 8 0 ++ List.replicate 16 0 ++
  toBytes 8 (2 ^ 38) ++ (List.replicate 8 [0, 0, 0x80]).flatten

def demoQueues (p : Partition) : State :=
  { demo with
    cellar := { demo.cellar with bytes := writeBytes demoTables 0x100000 demoImage, up := 255 }
    host := [(1, writeBytes [] 0 demoEntry)]
    svc := 1
    parts := [(1, some p)] }

def demoReady : State := demoQueues (demoIdle demoQueue)

/-- Tails at the size and past it, enabled or not; configurations that may be enabled and that may not; a selection of the head
entry (QueueEvents). -/
theorem witness_queues :
    demoReady.part 1 = some (demoIdle demoQueue) ∧ (demoIdle demoQueue).queue 0 = demoQueue ∧
    demoQueue.enable = true ∧ ((16 : BitVec 16) - demoQueue.head).toNat ≤ demoQueue.size ∧
    demoQueue.size < ((17 : BitVec 16) - demoQueue.head).toNat ∧ ((demoIdle demoQueue).queue 15).enable = false ∧
    demoQueue.valid = true ∧ Queue.init.valid = false ∧ (demoIdle demoQueue).flrAt ≠ some demoReady.tick ∧
    ({ demoIdle demoQueue with flrAt := some 0 }).flrAt = some demoReady.tick ∧ flrDue demoReady 1 = false ∧
    flrDue { demoReady with agenda := [(0, .flr 1)] } 1 = true := by
  refine ⟨?_, ?_, ?_, ?_, ?_, ?_, ?_, ?_, ?_, ?_, ?_, ?_⟩ <;> decide +kernel

theorem witness_select :
    (demoIdle demoQueue).tt = none ∧ (demoIdle demoQueue).taken = none ∧ (demoIdle demoQueue).chosen = none ∧
    (demoIdle demoQueue).holding = false ∧ (demoIdle demoQueue).lent = none ∧ selectQueue demoReady 1 (demoIdle demoQueue) = some (0, 0) ∧
    (demoIdle demoQueue).eligibleCtx 0 = none ∧ cmdBad (headEntry demoReady 1 demoQueue) = false ∧
    (cmdOf 0 (headEntry demoReady 1 demoQueue)).op = 1 ∧ (payKeeper demoReady 1 1).2 = true := by
  refine ⟨?_, ?_, ?_, ?_, ?_, ?_, ?_, ?_, ?_, ?_⟩ <;> decide +kernel

/-- A context that is eligible for queue 0 in slot 3 (QueueEvents, PreemptEvents); it names no task. -/
def demoCtx (eligible : Bool) : Ctx :=
  { tt := { demoTt with tasks := [], windows := 0 }, tick := 0, byTimeout := true, eligible := eligible, journal := [], cores := [], sysops := [] }

def demoSuspended (e : Bool) : Partition := { demoIdle Queue.init with ctxs := [(3, some (demoCtx e))] }

theorem witness_select_context :
    (demoSuspended true).eligibleCtx 0 = some 3 ∧ selectQueue (demoQueues (demoSuspended true)) 1 (demoSuspended true) = some (0, 0) := by
  refine ⟨?_, ?_⟩ <;> decide +kernel

/-- A launch that is accepted, and one that is refused for an interface that does not run (LaunchEvents). -/
theorem witness_launch :
    ({ demoIdle demoQueue with taken := some (cmdOf 0 demoEntry) }).taken = some (cmdOf 0 demoEntry) ∧
    readImage (demoQueues { demoIdle demoQueue with taken := some (cmdOf 0 demoEntry) }) 1 (cmdOf 0 demoEntry).image = some demoImage ∧
    launchRefusal (demoQueues { demoIdle demoQueue with taken := some (cmdOf 0 demoEntry) })
      { demoIdle demoQueue with taken := some (cmdOf 0 demoEntry) } (cmdOf 0 demoEntry) (some demoImage) none = none ∧
    launchRefusal (demoQueues { demoIdle demoQueue with taken := some (cmdOf 0 demoEntry), tdi := .locked })
      { demoIdle demoQueue with taken := some (cmdOf 0 demoEntry), tdi := .locked } (cmdOf 0 demoEntry)
      (readImage (demoQueues { demoIdle demoQueue with taken := some (cmdOf 0 demoEntry), tdi := .locked }) 1 0) none = some stTdiNotRun := by
  refine ⟨?_, ?_, ?_, ?_⟩ <;> decide +kernel

/-- A core at its start tick, a timetable that may be held, that has ended, and that stops (LaunchEvents). -/
def heldTt : Timetable := { demoTt with groups := [arrivedGroup, demoGroup 1], hold := some (Hold.mk .voltage 0) }

theorem witness_runs :
    ((demoCoreWith (fun k => { k with motor := { Stream.init with st := .armed } })).core 0).startsNow 0 = true ∧
    canHold (demoLock arrivedGroup atLock) 1 demoPart { demoTt with groups := [arrivedGroup, demoGroup 1] } .bottle = true ∧
    heldTt.hold.isSome = true ∧ heldTt.pre ≤ 1 ∧ demoTt.armed = true ∧ demoTt.incs = [] ∧
    demoTt.tasks.all (fun k => (demoCoreWith (fun k => { k with motor := { Stream.init with st := .ended } })).taskOver k.core) = true ∧
    haltedWith (demoCall none (.halted .trap 32)) demoTt 32 = some 0 ∧
    demoTt.tasks.all (fun k => ((demoCoreWith id).core k.core).quiet) = true := by
  refine ⟨?_, ?_, ?_, ?_, ?_, ?_, ?_, ?_, ?_⟩ <;> decide +kernel

/-! Pre-emption. -/

def preemptPart : Partition := { demoPart with csr := { demoPart.csr with tmo := true } }

def overdueTt : Timetable := { demoTt with groups := [waitingGroup, demoGroup 1], timedOut := true }

/-- A group 0 lock that has timed out may be pre-empted; a timetable that has settled, and one that has not (PreemptEvents). -/
theorem witness_preempt :
    canHold (demoLock waitingGroup atLock) 1 preemptPart overdueTt .preempt = true ∧
    settledAll (demoCoreWith atLock) demoTt = true ∧
    settledAll (demoCoreWith atLock) { demoTt with incs := [(0, 5, 1023, 7)] } = false ∧ demoTt.heldArr = [] := by
  refine ⟨?_, ?_, ?_, ?_⟩ <;> decide +kernel

theorem witness_context :
    sget none (demoSuspended false).ctxs 3 = some (demoCtx false) ∧ (demoCtx false).due 300000 300000 = true ∧
    (demoCtx false).due 299999 300000 = false := by
  refine ⟨?_, ?_, ?_⟩ <;> decide +kernel

def chosenPart : Partition := { demoSuspended true with chosen := some 3 }

theorem witness_restore : let s := demoQueues chosenPart; let x := demoCtx true;
    readFrames s 1 chosenPart 3 (x.tt.tasks.map (fun k => k.core)) = some [] ∧ readImage s 1 x.tt.cmd.image = some demoImage ∧
    x.tilesOf s 1 = 1 ∧ s.part 1 = some chosenPart ∧ tilesFree s 1 1 = true ∧ chosenPart.lent = none ∧ chosenPart.holding = false ∧
    restoreRefusal s chosenPart x [0] (some []) (some demoImage) = none ∧
    restoreRefusal s chosenPart { x with tt := { x.tt with poisoned := true } } [0] (some []) (some demoImage) = some stCtxPoisoned ∧
    (payKeeper s 1 1).2 = true := by
  refine ⟨?_, ?_, ?_, ?_, ?_, ?_, ?_, ?_, ?_, ?_⟩ <;> decide +kernel

/-- A context of core 0 whose tile has become unavailable, and the first bytes of its frame: it goes to the tiles of basin 1, whose
partition 2 is idle (PreemptEvents). That its frame reads so takes 4 MiB of memory, which no test writes out. -/
def otherPart : Partition := { Partition.init [1] with tdi := .run }

def movedCtx : Ctx := { demoCtx true with tt := { (demoCtx true).tt with tasks := [demoTask] } }

def movedFrame : Store Byte := writeNat (writeNat (writeNat [] 0 4 0xA4800F3A) 4 2 1) 8 8 (featuresOf 0)

def movedState : State :=
  { demoQueues { chosenPart with ctxs := [(3, some movedCtx)] } with
    unavail := 1
    parts := [(1, some { chosenPart with ctxs := [(3, some movedCtx)] }), (2, some otherPart)] }

theorem witness_replacement : let p := { chosenPart with ctxs := [(3, some movedCtx)] };
    movedCtx.tilesOf movedState 1 = 1 ∧ tileUnfit movedState 0 movedFrame = true ∧
    replacement movedState 1 1 [0] [(0, movedFrame)] = some 2 ∧ movedState.part 2 = some otherPart ∧
    restoreRefusal movedState p movedCtx [0] (some [(0, movedFrame)]) (some demoImage) = none := by
  refine ⟨?_, ?_, ?_, ?_, ?_⟩ <;> decide +kernel

/-! The fabric: slot 1, in which port 0 of position 0 is matched with position 2. -/

def demoSend : Send :=
  { entry := 0, slot := 1, port := 0, via := none, loopback := false, off := 0, len := 240, flits := 2, first := 0, part := 1
    st := .booked, late := false, tail := 0, gone := 0, scalemap := 0, src := [], labs := [], scales := [], relayed := false
    issue := 0, seq := 0, phase := 0, wire := [] }

def demoFabric (tick : Nat) (x : Send) (ports : Store Port) : State :=
  { demoCoreWith (fun k => { k with sends := [(31, some x)] }) with
    tick := tick
    ports := ports
    bookings := [Booking.mk 0 1 1 0 31 2 false] }

def upPort : Store Port := [(0, Port.mk 4 0 0 0 none false)]

/-- A beacon that names the peer and one that does not; a send whose flits may depart, one whose port is down, and a spilled
tail in a later slot with the same peer (FabricEvents). -/
theorem witness_departures :
    (demoFabric 5800 demoSend upPort).curSlot = some 1 ∧ ({ demo with tick := 5800 }).guardOver = true ∧
    ({ demo with tick := 4991 }).guardOver = false ∧ (demo.port 0).state ≠ 0 ∧ (demo.port 0).deadSlot ≠ some 1 ∧
    demo.slotPeer 0 1 = 2 ∧ headDue (demoFabric 5800 demoSend upPort) 0 31 demoSend = true ∧
    (demoFabric 5800 demoSend upPort).carries 0 1 = true ∧ headDue (demoFabric 5800 demoSend []) 0 31 demoSend = true ∧
    (demoFabric 5800 demoSend []).carries 0 1 = false ∧
    headDue (demoFabric 5800 { demoSend with loopback := true } upPort) 0 31 { demoSend with loopback := true } = true ∧
    (demoFabric 5800 demoSend upPort).headFlits 0 31 = 2 := by
  refine ⟨?_, ?_, ?_, ?_, ?_, ?_, ?_, ?_, ?_, ?_, ?_, ?_⟩ <;> decide +kernel

def tailSend : Send := { demoSend with st := .spilled, tail := 2 }

/-- The first slot after slot 1 in which port 0 is matched with position 2 again. -/
def tailTick : Nat := 4800 * 128 + 200

theorem witness_tail :
    headDue (demoFabric tailTick tailSend upPort) 0 31 tailSend = false ∧ tailDue (demoFabric tailTick tailSend upPort) 0 31 tailSend = true ∧
    tailPort (demoFabric tailTick tailSend upPort) tailSend = some (0, 128) ∧
    (demoFabric tailTick tailSend upPort).reserveTakes 0 128 2 = some 2 ∧
    (demoFabric tailTick tailSend upPort).reserveTakes 0 128 100 = some reserveMax := by
  refine ⟨?_, ?_, ?_, ?_, ?_⟩ <;> decide +kernel

/-- Ports that may fall and that may be retrained; no partition runs. -/
theorem witness_ports : 2 < (demo.port 0).state ∧ (demo.port 31).state < 1 ∧ ({ demo with svc := 1 }).svc.getLsbD 0 = true ∧
    demoOpen.parts.any (fun q => match q.2 with
      | some p => p.tt.isSome
      | none => false) = false := by
  refine ⟨?_, ?_, ?_, ?_⟩ <;> decide +kernel

/-- An arrival from position 2 for window 2, whose status is 0, and one for a window past the count. -/
def demoTransfer (window : Nat) : Transfer :=
  { src := 2, srcCore := 0, sendId := 0, dst := 0, via := none, loopback := false, handle := 3, srcPart := 1, dstPart := 1
    window := window, lpol := 0, offset := 0, data := List.replicate 240 7, labels := [], scales := [], phase := 1, depart := 0, tagOk := true, late := false }

theorem witness_arrival :
    (demoTransfer 2).dst = demo.position ∧ (demoTransfer 2).src ≠ demo.position ∧ holdsArrivals demo 1 = false ∧
    arrivalFree { demo with tick := 9600 } (demoTransfer 2) = true ∧ arrivalStatus demo (demoTransfer 2) = 0 ∧
    arrivalStatus demo (demoTransfer 4) = 4 ∧ (demoTransfer 4).window = demoPart.csr.fwinCount ∧
    recvTarget demoPart (demo.winCore (recvIndex demoPart (demoTransfer 2))) = .core 0 ∧
    arrivalStatus demo { demoTransfer 2 with tagOk := false } ≠ 0 ∧ demo.winDir (recvIndex demoPart (demoTransfer 2)) = 2 ∧
    (demoTransfer 2).window < demoPart.csr.fwinCount ∧ arrivalStatus demo (demoTransfer 1) ≠ 0 ∧
    demo.winDir (recvIndex demoPart (demoTransfer 1)) ≠ 2 := by
  refine ⟨?_, ?_, ?_, ?_, ?_, ?_, ?_, ?_, ?_, ?_, ?_, ?_, ?_⟩ <;> decide +kernel

/-- A layby item for position 2 that may depart, a send that has departed, and a fence with nothing left to wait for. -/
def demoItem : LayItem := LayItem.mk { demoTransfer 2 with dst := 2 } 1 2 0

theorem witness_relay :
    laybyPort { demo with tick := tailTick, ports := upPort } demoItem = some (0, 128) ∧
    ({ demo with tick := tailTick, ports := upPort }).relayTakes 0 128 demoItem.left = some 2 ∧
    ({ demo with tick := tailTick, ports := upPort }).relayTakes 0 128 100 ≠ some 100 ∧
    laybyFirst { demo with layby := [demoItem] } 0 demoItem = true ∧ ({ demoSend with st := .departed }).tail = 0 ∧
    ({ demoSend with st := .departed, via := some 5 }).via = some 5 ∧ demoSend.relayed = false ∧
    ({ demoSend with st := .departed }).st = .departed ∧ ({ demoSend with st := .departed }).loopback = false ∧
    fenceReady (demoCoreWith (fun k => { k with fences := [Fence.mk 1023 65535 [] 0] })) 0 = true := by
  refine ⟨?_, ?_, ?_, ?_, ?_, ?_, ?_, ?_, ?_, ?_⟩ <;> decide +kernel

/-! Keys and system operations. -/

/-- Keys that may be promoted, that may not, and a retiring key that may go (KeyEvents). -/
theorem witness_keys :
    (Keys.mk 1 2 0 [] [] []).canPromote = true ∧ (Keys.mk 1 2 1 [] [] []).canPromote = false ∧
    demoPart.keysOf .cellar = some (Keys.first []) ∧ demoPart.keysOf (.fabric 3 true) = some (Keys.first []) ∧
    (wantsAt { demoCoreWith (fun k => { k with sysops := [{ demoOp with op := 7 }] }) with tick := 2 } 1 .cellar).isSome = true ∧
    retiringFree demo 1 demoPart .cellar (Keys.mk 2 3 1 [] [] []) = true ∧ demoPart.keysOf .bottle = some Keys.none := by
  refine ⟨?_, ?_, ?_, ?_, ?_, ?_, ?_⟩ <;> decide +kernel

/-- A walk at the first block of stack 0, whose line 0 still carries phase 1. -/
def walkCellar : Cellar := { demo.cellar with md := [(0, LineMd.mk 0 0 true 0)] }

theorem witness_walk :
    walkClear walkCellar 0 true 0 0 = true ∧ walkCellar.blockHas (0 * stackBlocks + 0) true = true ∧ 0 < stackBlocks ∧
    demoPart.stacks[1]? = some 1 ∧ ({ demoPart with walk := [0, 5] }).walk[1]? = some 5 := by
  refine ⟨?_, ?_, ?_, ?_, ?_⟩ <;> decide +kernel

/-- A scrub of nothing that ends, and an fbind that waits (KeyEvents). -/
def demoScrub : SysOp := { demoOp with op := 10, acap := Cap.make 3 (pRead + pWrite) 0 0 0 }

def demoFbind : SysOp := { demoOp with op := 11 }

theorem witness_system_ends :
    sysAt (demoCoreWith (fun k => { k with sysops := [demoScrub] })) 0 0 = some (demoScrub, none) ∧
    recordFree { demoCoreWith (fun k => { k with sysops := [demoScrub] }) with tick := 2 } 0 none demoScrub = true ∧
    (sysEnd { demoCoreWith (fun k => { k with sysops := [demoScrub] }) with tick := 2 }
      (issuerOf (demoCoreWith (fun k => { k with sysops := [demoScrub] })) 0 none demoScrub) (SysEnv.mk false false 0) demoScrub).2.isSome = true ∧
    racksBefore { demoCoreWith (fun k => { k with sysops := [demoScrub] }) with tick := 2 } 0 demoScrub.seq
      (demoScrub.pours { demoCoreWith (fun k => { k with sysops := [demoScrub] }) with tick := 2 } 0) = true ∧
    fbBound demoFbind = false ∧ fbRejected demoFbind = false ∧ fbByPeer demoFbind = false ∧ demoFbind.issue + fbindLimit ≤ 30000000 ∧
    fbByPeer { demoFbind with stage := 6 } = true ∧ fbBound { demoFbind with stage := 6 } = true ∧ 29999999 < demoFbind.issue + fbindLimit := by
  refine ⟨?_, ?_, ?_, ?_, ?_, ?_, ?_, ?_, ?_, ?_, ?_⟩ <;> decide +kernel

/-- A policy record for partition 1 of position 1, with handle 9, in the scratchpad. -/
def demoPolicy : List Byte := [1, 1, 9, 0, 0, 1] ++ List.replicate 314 0

def policyState : State := demoCoreWith (fun k => { k with
  mem := { k.mem with sp := writeBytes [] 0 demoPolicy }
  sysops := [{ demoFbind with acap := Cap.make 0 (pRead + pWrite) 0 2097152 0 }] })

theorem witness_policy :
    (match sysRead policyState (issuerOf policyState 0 none { demoFbind with acap := Cap.make 0 (pRead + pWrite) 0 2097152 0 })
        (SysEnv.mk false false 0) (Cap.make 0 (pRead + pWrite) 0 2097152 0) 0 policyLen with
     | (_, .ok b) => !policyBad policyState b && !handleUsed policyState 1 b
     | _ => false) = true := by decide +kernel

/-! Take-overs, resets and partitions. -/

/-- The package with the keepers of basin 0 loaded: 256 leads, 257 is its shadow. -/
def demoKept : State := loadKeepers (demo.modPart 1 (fun p => { p with tt := none })) 0

/-- The same package with its leading keeper stopped at tick 0, and with a shadow that has failed its self-test. -/
def demoDown : State := demoKept.keeperDown (demoKept.activeKeeper 0) 0

def aloneDown : State :=
  (demoKept.modPart 1 (fun p => { p with csr := { p.csr with keepAlone := [0] } })).keeperDown (demoKept.activeKeeper 0) 0

theorem witness_keepers :
    (demoKept.part (demoKept.partOfBasin 0)).isSome = true ∧ (demoKept.core (demoKept.activeKeeper 0)).halted = false ∧
    (demoKept.core (demoKept.activeKeeper 0)).butty.st ≠ .idle ∧ demoPart.basins.headD 0 = 0 ∧
    (demoDown.part 1).any (fun p => p.csr.holdAt 0) = true ∧ takeoverRipe { demoDown with tick := 64 } 0 = true ∧
    takeoverRipe { demoDown with tick := 63 } 0 = false ∧ keeperStopped aloneDown 0 = true ∧
    (aloneDown.part 1).any (fun p => p.csr.holdAt 0) = false := by
  refine ⟨?_, ?_, ?_, ?_, ?_, ?_, ?_, ?_, ?_⟩ <;> decide +kernel

theorem witness_complexes : tableDue { State.reset with tick := 3000000 } = true ∧ tableDue { State.reset with tick := 2999999 } = false ∧
    State.reset.towpath.b = .standby ∧ State.reset.towpath.a = .active ∧
    ({ State.reset.towpath with a := .standby, b := .failed }).b = .failed := by
  refine ⟨?_, ?_, ?_, ?_, ?_⟩ <;> decide +kernel

/-- A command with its signature (19 R383). -/
def signed (op target flags : Nat) : Command :=
  { op := op, target := target, flags := flags, reserved := 0, counter := 1, counterKept := true
    sig := Config.slhSign operatorKey (commandBytes (Command.mk op target flags 0 1 [] true)) }

/-- A command that is signed is accepted, at the ends of its range of targets (TakeoverEvents). -/
theorem witness_commands : ∀ q ∈ [(1, 0, 0), (1, 3, 0), (2, 1, 0), (2, 4, 0), (3, 0, 0), (4, 0, 0), (5, 1, 0), (5, 4, 1)],
    commandOk demo (signed q.1 q.2.1 q.2.2) = true ∧ (signed q.1 q.2.1 q.2.2).counterKept = true := by
  have c : demo.towpath.counter = 0 := by decide +kernel
  intro q hq
  refine ⟨?_, rfl⟩
  fin_cases hq <;> simp [commandOk, signed, c, Config.slhVerify, commandBytes]

/-- A counter that does not rise, and one that the flash does not keep (TakeoverEvents). -/
theorem witness_command_rejected : commandOk demo (Command.mk 1 0 0 0 0 [] true) = false ∧
    ({ signed 1 0 0 with counterKept := false }).counterKept = false := by
  have c : demo.towpath.counter = 0 := by decide +kernel
  simp [commandOk, c]

/-- An image that may be taken up, and two that may not. -/
theorem witness_update :
    ({ State.reset.towpath with staged := some (Firmware.mk [1] 0 0 []) }).staged = some (Firmware.mk [1] 0 0 []) ∧
    State.reset.towpath.minSecver ≤ 0 ∧ (Firmware.mk [1] 0 0 []).tableVersion = State.reset.towpath.running.tableVersion ∧
    (Firmware.mk [1] 0 1 []).tableVersion ≠ State.reset.towpath.running.tableVersion ∧ State.reset.towpath.staged = none ∧
    (Firmware.mk [1] 0 0 []).secver < ({ State.reset.towpath with minSecver := 1 }).minSecver := by
  refine ⟨?_, ?_, ?_, ?_, ?_, ?_⟩ <;> decide +kernel

/-- A timetable whose core 0 waits at the lock of group 1 on the flag of receive window 2, and one in which it waits on that flag in
an fwait: nobody else can set it. -/
def blockTt : Timetable := { demoTt with groups := [demoGroup 0, { arrivedGroup with num := 1 }] }

def blockedAt : State :=
  { demoCoreWith (fun k => { k with
      motor := { k.motor with st := .locked }, lock := some (LockWait.mk 1 [Cond.mk 0 1 1] 0 0 0 0 0) }) with
    parts := [(1, some { demoPart with tt := some blockTt })] }

def blockedIn : State :=
  demoCoreWith (fun k => { k with butty := { k.butty with st := .fwait }, fwait := some (FWait.mk 0 1 1 0 none) })

theorem witness_migrate : let p := { demoPart with tt := some blockTt };
    migrateBlocked demo demoPart [] = false ∧ migrateBlocked blockedAt p [255] = false ∧
    migrateBlocked blockedAt p [] = true ∧ blockedLocks blockedAt p blockTt [] = [{ arrivedGroup with num := 1 }] ∧
    p.preempts blockTt 1 = false ∧ migrateBlocked blockedAt { p with tt := none } [] = false ∧
    migrateBlocked blockedIn demoPart [] = true ∧ blockedLocks blockedIn demoPart demoTt [] = [] := by
  refine ⟨?_, ?_, ?_, ?_, ?_, ?_, ?_, ?_⟩ <;> decide +kernel

/-- A page that is out, with a line that failed its check, and its copy in an empty host memory. -/
def demoOut : Evicted :=
  { version := 1, bytes := [], labels := [], bad := [0x401], at_ := 0x1000, copy := List.replicate copySize 0, owner := some demoTt.cmd }

theorem witness_pages_out :
    demo.ownsPa 1 0x10000 = true ∧ 0x10000 % evictSize = 0 ∧ sget none demoPart.evicted 0x10000 = none ∧
    sget none ({ demoPart with evicted := [(0x10000, some demoOut)] }).evicted 0x10000 = some demoOut ∧
    (payKeeper demo 1 pageTokens).2 = true ∧ demoPart.contexts = [] ∧
    (∀ l ∈ pageLines 0x10000, (demo.cellar.mdOf l).minor ≠ 127) ∧ demoOut.bad.contains 0x401 = true ∧
    0x401 ∈ pageLines 0x10000 ∧ 0x400 ∈ pageLines 0x10000 ∧ demoOut.bad.contains 0x400 = false := by
  refine ⟨?_, ?_, ?_, rfl, ?_, ?_, ?_, ?_, ?_, ?_, ?_⟩ <;> decide +kernel

/-- That copy reads back, and a shorter one does not. -/
theorem witness_page_copy : readBytes (demo.hostMem 1) demoOut.at_ copySize = demoOut.copy ∧
    readBytes (demo.hostMem 1) 0 copySize ≠ [] := by
  have z : demo.hostMem 1 = [] := by decide +kernel
  have r : ∀ n a, readBytes ([] : Store Byte) a n = List.replicate n 0 := by
    intro n
    induction n with
    | zero => intro a; rfl
    | succ n ih => intro a; rw [readBytes, ih]; rfl
  have p : 0 < copySize := by decide
  refine ⟨by rw [z, r]; rfl, ?_⟩
  rw [z, r]
  intro h
  have l := congrArg List.length h
  simp at l
  omega

theorem witness_partitions :
    [0].any (basinBusy demo) = true ∧ [2, 3].any (basinBusy demo) = false ∧ [2, 3] ∈ basinSets ∧
    [2, 3].any (fun b => (demo.part (demo.partOfBasin b)).isSome || basinDirty demo b) = false ∧
    demoPart.basins.any (basinBusy demo) = true ∧
    demoOpen.part 1 = some { demoPart with tt := none, tdi := .unlocked } ∧
    ({ demoPart with tt := none, tdi := .unlocked }).basins.any (basinBusy demoOpen) = false ∧
    demoPart.csr.cfScrubbed = true ∧ isTile 255 = true := by
  refine ⟨?_, ?_, ?_, ?_, ?_, ?_, ?_, ?_, ?_⟩ <;> decide +kernel

/-- Time, health and bottles (PowerTimeHealthEvents). -/
theorem witness_power :
    ({ State.reset.towpath with tstate := 2 }).tstate = 2 ∧ demo.tt (demo.partOfBasin 0) = some demoTt ∧
    reached { demo with hthresh := { demo.hthresh with droop := 0 } } .droop 0 = false ∧
    reached { demo with health := { demo.health with temp := [(0, 95)] } } .temperature 0 = true ∧
    reached { demo with hthresh := { demo.hthresh with ce := 1 }, health := { demo.health with ce := [(0, 1)] } } .cellar 0 = true ∧
    warns demo 1 demoPart .cellar 0 = true ∧ State.reset.health.windowEnd ≤ 3000000000 ∧ State.reset.budgetAt ≤ 300000 := by
  refine ⟨?_, ?_, ?_, ?_, ?_, ?_, ?_, ?_⟩ <;> decide +kernel

def bottlePart : Partition :=
  { demoPart with csr := { demoPart.csr with botcfg := 0x6401, botWarn := true, bothost := 1 } }

/-- One object of 4 KiB declared in the staging area. -/
def bottleState : State :=
  { demoPaged with cellar := { demoPaged.cellar with
      bytes := writeBytes demoTables 0x100000 (toBytes 8 1 ++ toBytes 8 0 ++ toBytes 8 0x200000000 ++ toBytes 8 0x1000) } }

theorem witness_bottle :
    bottleWanted demo bottlePart = true ∧ bottleReady demo demoTt = false ∧ declaration demo 1 bottlePart = none ∧
    declaration bottleState 1 { bottlePart with csr := { bottlePart.csr with croot := 0x10001 } } = some [(0x200000000, 0x1000)] ∧
    bottleReady (demoCoreWith atLock) { demoTt with hold := some (Hold.mk .bottle 0) } = true ∧ bottlePart.areaSize ≠ 0 ∧
    bottleEnd [(0x200000000, 0x1000)] ≤ bottlePart.areaSize := by
  refine ⟨?_, ?_, ?_, ?_, ?_, ?_, ?_⟩ <;> decide +kernel

/-- Interfaces in each state, and a responder in each phase (TdispEvents, SpdmEvents). -/
theorem witness_tdi :
    (demo.seedOf { demoPart with tdi := .locked, custA := Custody.mk (some []) [] }).isSome = true ∧ demoPart.tdi = .run ∧
    demo.seedOf demoPart = none ∧
    demoTt.stop = none ∧ ({ demoPart with tdi := .locked }).tdi ≠ .run ∧ demo.partOfStack 1 = 1 ∧
    TdiCause.tree 1 6 7 = .tree 1 6 7 ∧ 7 < 2 ^ (21 - 3 * 6) := by
  refine ⟨?_, ?_, ?_, ?_, ?_, ?_, ?_, ?_⟩ <;> decide +kernel

def demoSpdm : Spdm := { version := true, caps := true, algs := offeredAlgs, sessions := [Session.mk 7 true 0 []], reply := [] }

theorem witness_spdm :
    demoSpdm.version = true ∧ demoSpdm.caps = true ∧ demoSpdm.ready = true ∧ demo.towpath.spdm.ready = false ∧
    demoSpdm.session 7 = some (Session.mk 7 true 0 []) ∧ demoSpdm.session 8 = none ∧
    ({ demoSpdm with sessions := [Session.mk 7 false 0 []] }).session 7 = some (Session.mk 7 false 0 []) := by
  refine ⟨?_, ?_, ?_, ?_, ?_, ?_, ?_⟩ <;> decide +kernel

/-! Single steps on the small machine; the results come from the rules cited, worked by hand. -/

/-- What an instruction leaves to come on the current core. -/
def acts (o : Host.Outcome State Fault Refusal) : List Act :=
  match o with
  | .next t => (t.core t.cur).pend.map Pend.act
  | _ => []

/-- The result of an operation whose ports hold a and i1, on unit u. -/
def onPorts (u : Nat) (a i1 : Word) (i : Instr) : List Act := acts (exec i (demoWith [(port u 0, a), (port u 1, i1)]))

/-- The scalar operations of 09 R173 on unit A. -/
theorem test_scalar_arithmetic : ∀ q ∈ ([
    (.saMov (hd 5), 9, 5), (.saAdd (hd 5), BitVec.allOnes 64, 4), (.saSub (hd 5), 3, 0xFFFFFFFFFFFFFFFE),
    (.saAnd (hd 0x0FF0), 0xFF0F, 0x0F00), (.saOr (hd 0x0FF0), 0xFF0F, 0xFFFF), (.saXor (hd 0x0FF0), 0xFF0F, 0xF0FF),
    (.saAndn (hd 0x0FF0), 0xFF0F, 0xF00F), (.saOrn (hd 0x0FF0), 0xFF0F, 0xFFFFFFFFFFFFFF0F),
    (.saMin (hd 5), BitVec.allOnes 64, BitVec.allOnes 64), (.saMax (hd 5), BitVec.allOnes 64, 5),
    (.saMinu (hd 5), BitVec.allOnes 64, 5), (.saMaxu (hd 5), BitVec.allOnes 64, BitVec.allOnes 64),
    (.saSeq (hd 5), 5, 1), (.saSne (hd 5), 5, 0), (.saSlt (hd 5), BitVec.allOnes 64, 1), (.saSltu (hd 5), BitVec.allOnes 64, 0),
    (.saSle (hd 5), 5, 1), (.saSleu (hd 5), BitVec.allOnes 64, 0), (.saAddw (hd 1), 0x7FFFFFFF, 0xFFFFFFFF80000000)]
      : List (Instr × Word × Word)), onPorts 0 q.2.1 0 q.1 = [.out 0 q.2.2] := by decide +kernel

/-- Shifts take the whole count, rol its low six bits (09 R174); fields (09 R175); counts (09 R173). -/
theorem test_scalar_bits : ∀ q ∈ ([
    (.saShl (hd 63), 1, 0x8000000000000000), (.saShl (hd 64), 1, 0), (.saShr (hd 63), 0x8000000000000000, 1),
    (.saSar (hd 64), 0x8000000000000000, BitVec.allOnes 64), (.saRol (hd 65), 0x8000000000000001, 3),
    (.saSext (hd 8), 0x80, 0xFFFFFFFFFFFFFF80), (.saZext (hd 8), 0x1FF, 0xFF), (.saBfx (hd 0x0804), 0xABCD, 0xBC),
    (.saBfx (hd 0x8804), 0xABCD, 0xFFFFFFFFFFFFFFBC), (.saBfi (hd 0x0408), 0x5, 0xF05), (.saClz (hd 5), 0, 61),
    (.saCtz (hd 8), 0, 3), (.saPopc (hd 0xFF), 0, 8), (.saCtz (hd 0), 0, 64)]
      : List (Instr × Word × Word)), onPorts 0 q.2.1 0xFF q.1 = [.out 0 q.2.2] := by decide +kernel

/-- Products and quotients on their own ports, and the results of a zero divisor (09 R177, R178). -/
theorem test_scalar_multiply_divide : ∀ q ∈ ([
    (.sbMul (hd 5), BitVec.allOnes 64, .out 5 0xFFFFFFFFFFFFFFFB), (.sbMulh (hd 5), BitVec.allOnes 64, .out 5 (BitVec.allOnes 64)),
    (.sbMulhu (hd 5), BitVec.allOnes 64, .out 5 4), (.sbDiv (hd 2), 0xFFFFFFFFFFFFFFF9, .out 6 0xFFFFFFFFFFFFFFFD),
    (.sbDivu (hd 2), 7, .out 6 3), (.sbRem (hd 2), 0xFFFFFFFFFFFFFFF9, .out 6 (BitVec.allOnes 64)), (.sbRemu (hd 2), 7, .out 6 1),
    (.sbDiv (hd 0), 7, .out 6 (BitVec.allOnes 64)), (.sbRem (hd 0), 7, .out 6 7)]
      : List (Instr × Word × Act)), onPorts 1 q.2.1 0 q.1 = [q.2.2] := by decide +kernel

/-- Compares write the predicate that i1 names (09 R176). -/
theorem test_scalar_compare : ∀ q ∈ ([
    (.saPeq (hd 5), 5, true), (.saPne (hd 5), 5, false), (.saPlt (hd 5), BitVec.allOnes 64, true),
    (.saPltu (hd 5), BitVec.allOnes 64, false), (.saPge (hd 5), 5, true), (.saPgeu (hd 5), 4, false)]
      : List (Instr × Word × Bool)), onPorts 0 q.2.1 3 q.1 = [.rpred 3 q.2.2] := by decide +kernel

/-- A guard that is false leaves the state as it was (02 R39); a move to an input port is seen at once (02 R51). -/
theorem test_guard_and_port :
    (match exec (.saAdd (Head.mk false 1 (.x 0))) demo with
     | .next t => decide (t = demo)
     | _ => false) = true ∧
    (match exec (.move (hd 7) (.inp 0)) demo with
     | .next t => (t.core 0).inp 0 0
     | _ => 0) = 7 := by
  refine ⟨?_, ?_⟩ <;> decide +kernel

/-- x0 discards its write; x63 takes it (01 R15). -/
theorem test_x0 :
    (match exec (.resultDelivery 0) (demoCoreWith (fun k => { k with pend := [Pend.mk 0 0 0 (.x 0 5), Pend.mk 0 0 1 (.x 63 6)] })) with
     | .next t => ((t.core 0).x 0, (t.core 0).x 63)
     | _ => (9, 9)) = (0, 6) := by decide +kernel

/-- A guard-true decode fault in the butty stream halts it and reaches the keeper (19 R373). -/
theorem test_fault :
    (match exec (.vaAdd (hd 0) (ext 16 2 3 0)) demo with
     | .next t => ((t.core 0).butty.st, (t.core 0).latch.live, (t.core 256).traps.map TrapRec.code)
     | _ => (.idle, true, [])) = (.halted .fault 6, false, [6]) := by decide +kernel

/-- A store writes little-endian and clears the tag of its granule (00 R4, 17 R327). -/
theorem test_store :
    (match exec (.timedAccessPerform 0 false) { demoCoreWith (fun k => { k with
        mem := { k.mem with tags := [(0x1FFFF, true)] }, pend := [Pend.mk 1 0 0 (.store demoStore)] }) with tick := 1 } with
     | .next t => (readBytes (t.core 0).mem.sp 0x1FFFF8 8, (t.core 0).mem.tags)
     | _ => ([], [])) = ([0xF0, 0xDE, 0xBC, 0x9A, 0x78, 0x56, 0x34, 0x12], []) := by decide +kernel

/-- Flag operations at their perform point (11 R211-R213). -/
theorem test_flags :
    flagStep .fadd 0xFFFFFFFF 1 0 = (0, []) ∧ flagStep .fcas 5 5 9 = (9, [.out 40 5]) ∧ flagStep .fcas 6 5 9 = (6, [.out 40 6]) ∧
    flagStep .fclr 0xFF 0x0F 0 = (0xF0, []) ∧ flagStep (.ftest 2 3) 4 5 0 = (4, [.out 40 1, .rpred 2 true]) := by
  refine ⟨?_, ?_, ?_, ?_, ?_⟩ <;> decide +kernel

/-- Two rows and a mask that selects every lane. -/
def wideOf (a b : Nat) : WideIn :=
  let e : Ext := extFor 4 0
  { (demo.core 0).wide e 0 with
    a := BitVec.ofNat 8192 a, b := BitVec.ofNat 8192 b, d := 0 }

/-- Lanes of the vector arithmetic: n8 addition wraps, s8 saturation stops, fp32 rounds (07 R135, R137; 04 R77). -/
theorem test_vector_lanes :
    laneOf (vaResult .add (.int false 8) (wideOf 0xFF 0x02) (demo.core 0).gens).row 8 0 = 1 ∧
    laneOf (vaResult .addsat (.int true 8) (wideOf 0x7F 0x02) (demo.core 0).gens).row 8 0 = 0x7F ∧
    laneOf (vaResult .subsat (.int false 8) (wideOf 0x01 0x02) (demo.core 0).gens).row 8 0 = 0 ∧
    laneOf (vaResult .mul (.int true 16) (wideOf 0xFFFF 0x0003) (demo.core 0).gens).row 16 0 = 0xFFFD ∧
    laneOf (vaResult .add (.flt fp32) (wideOf 0x3F800000 0x40000000) (demo.core 0).gens).row 32 0 = 0x40400000 ∧
    laneOf (vaResult .mul (.flt fp32) (wideOf 0x3FC00000 0x40000000) (demo.core 0).gens).row 32 0 = 0x40400000 := by
  refine ⟨?_, ?_, ?_, ?_, ?_, ?_⟩ <;> decide +kernel

/-- A step runs the word in flight and moves past it (02 R51). -/
theorem test_step :
    (match step (demoWords [0x081501]) with
     | .next t => ((t.core 0).latch.words, (t.core 0).pend.map Pend.act)
     | _ => ([], [])) = ([], [.out 0 5]) := by decide +kernel

/-- The table's word of an instruction decodes, and the next step runs it (fetch). -/
theorem test_fetch :
    decodeTableWord 24 0x081501 = some (.saAdd (Head.mk false 0 (.short 5))) ∧
    (match step (State.reset.withFetchWord 24 0x081501) with
     | .next t => (t.core t.cur).pend.map Pend.act
     | _ => []) = [.out 0 5] := by
  refine ⟨?_, ?_⟩ <;> decide +kernel

/-- A state that no run from reset reaches meets the invariants (SettingsKept, MemoriesCanonical); the memories of reset are empty. -/
theorem witness_invariants : demo.SettingsOk ∧ demo.memWf = true ∧ Memory.wf State.reset.cellar.bytes = true := by
  refine ⟨?_, ?_, ?_⟩ <;> first | decide +kernel | (unfold State.SettingsOk; decide +kernel)

/-! Witnesses of the clauses that a second form of an operation, a full table or an edge of a range reaches. -/

/-- The small machine with core 0 changed and these input ports. -/
def demoBut (inp : Store Word) (f : Core → Core) : State := (demoWith inp).modCore 0 f

/-- All of a scratchpad handed to core 0 (17 R339). -/
def lendTo0 (c : Nat) (s : State) : State := s.modCore c (fun k => { k with hand := [(0, HandEnt.mk true false 0 32768 0)] })

/-- Rows and lanes of the scratchpad of core 3 through space 1 (VectorMemoryAsks). -/
def peerState : State := lendTo0 3 (demoBut [(port 5 0, 10), (port 5 1, 0x800000)] (fun k => { k with regs := { k.regs with
  c := k.regs.c ++ [(10, Cap.make 1 (pRead + pWrite + pLabel) 0 (2 ^ 21) 0x600000)] } }))

theorem witness_vm_peer :
    (∀ k ∈ [0, 1, 2, 3, 12, 13], Accepts peerState (hd 0) (0x240 + k) (some (if k = 13 then ext 0 2 0 0 else extFor 5 k))) ∧
    vmPeer (peerState.core 0) = true ∧ vmPeer (demo.core 0) = false ∧ (vmPlace 0 (peerState.core 0) 0).1 = 3 := by
  refine ⟨Accepts.of_all (by decide +kernel), ?_, ?_, ?_⟩ <;> decide +kernel

/-- Two fp32 lanes, one in the scratchpad of core 1 and one in that of core 2; and none (VectorMemoryAsks). -/
def spreadState (picked : Mask) : State := lendTo0 1 <| lendTo0 2 <| demoBut [(port 5 0, 4)] (fun k => { k with regs := { k.regs with
  v := [(3, BitVec.ofNat 8192 (0x80000 + 0x100000 * 2 ^ 32))], e := [(1, picked)] } })

def spreadExt : Ext := Ext.mk 1 false 2 false 3 0 1 0

theorem witness_vm_lanes :
    (∀ k ∈ [2, 3], Accepts (spreadState 0xFFFF) (hd 0) (0x240 + k) (some (if k = 2 then { spreadExt with a := 0 } else { spreadExt with d := 0 })) ∧
      Accepts (spreadState 0) (hd 0) (0x240 + k) (some (if k = 2 then { spreadExt with a := 0 } else { spreadExt with d := 0 }))) ∧
    laneOwners 0 ((spreadState 0xFFFF).core 0) spreadExt 0 = [1, 2] ∧ laneOwners 0 ((spreadState 0).core 0) spreadExt 0 = [] ∧
    Accepts (spreadState 0) (hd 0) 0x24E (some (Ext.mk 0 false 2 false 0 0 1 0)) := by
  refine ⟨fun k hk => ⟨.of_bool ?_, .of_bool ?_⟩, ?_, ?_, .of_bool ?_⟩
  · revert k; decide +kernel
  · revert k; decide +kernel
  all_goals decide +kernel

/-- Loads, stores and a hand-over through space 1 (LoadStoreAsks): core 0 hands the first lines of core 3's scratchpad, which that core
has handed to it, on to lane 5, and its own to lane 7. -/
def handCap (space base : Nat) : Cap := Cap.make space (pRead + pWrite + pHand) 0 64 base

def handState (space base : Nat) : State :=
  (demoBut [] (fun k => { k with regs := { k.regs with c := [(0, handCap space base)] } })).modCore 3
    (fun k => { k with hand := [(0, HandEnt.mk true false 0 1 0)] })

theorem witness_ls_peer :
    (∀ k ∈ List.range 15, Accepts (lendTo0 3 (demoWith [(port 3 0, 4)])) (hd 0x600000) (0x1C0 + k) none) ∧
    lsPeer ((lendTo0 3 (demoWith [(port 3 0, 4)])).core 0) = true ∧ lsPeer (demo.core 0) = false ∧
    Accepts (handState 1 0x600000) (hd 5) 0x1D7 none ∧
    ((handState 1 0x600000).core 3).handEqual 0 1 = some 0 ∧ Accepts (handState 0 0) (hd 7) 0x1D7 none ∧
    ((handState 0 0).core 0).handEqual 0 1 = none ∧ Accepts (handState 0 0) (hd 0) 0x1D7 none ∧
    Accepts (demoWith [(port 3 0, 4), (port 3 2, 4)]) (hd 1) 0x1D0 none ∧
    ((((handState 1 0).core 0).handEnt 0).transit = false ∧ (HandEnt.mk true true 0 1 0).transit = true) := by
  refine ⟨Accepts.of_all ?_, ?_, ?_, .of_bool ?_, ?_, .of_bool ?_, ?_, .of_bool ?_, .of_bool ?_, ?_⟩ <;> decide +kernel

/-- All racks busy, all monitors busy, and a monitor on the line already (RackAsks). -/
theorem witness_rk_full :
    let inp := [(port 8 0, 0x120), (port 8 3, 0x10000), (port 8 4, 0)]
    let full := demoBut inp (fun k => { k with racks := (List.range 64).map (fun i => (i, demoFill)) })
    let mons := demoBut [(port 8 0, 0x102), (port 8 3, 0x10000)] (fun k => { k with mons := (List.range 4).map (fun i => (i, { demoMon with va := 0x1000 * (i + 1) })) })
    let same := demoBut [(port 8 0, 0x102), (port 8 3, 0x10000)] (fun k => { k with mons := [(2, { demoMon with va := 0 })] })
    Accepts full (hd 64) 0x300 none ∧ (full.core 0).freeRack = none ∧ (demo.core 0).freeRack = some 0 ∧
    Accepts full (hd 0) 0x307 none ∧ ((full.core 0).rack 0).live = true ∧ ((demo.core 0).rack 0).live = false ∧
    Accepts mons (hd 0) 0x308 none ∧ (∀ i ∈ List.range 4, ((mons.core 0).mon i).state ≠ 0 ∧
      ((mons.core 0).mon i).sameLine (monOf mons 0 0) = false) ∧
    Accepts same (hd 0) 0x308 none ∧ ((same.core 0).mon 2).sameLine (monOf same 0 0) = true := by
  refine ⟨.of_bool ?_, ?_, ?_, .of_bool ?_, ?_, ?_, .of_bool ?_, ?_, .of_bool ?_, ?_⟩ <;> decide +kernel

/-- A send with all ids taken; a sendr that has its credit and one that has none; a full fence list; and a loop-back (FabricAsks). -/
def sendInp (cap via : Nat) : Store Word :=
  [(port 9 0, BitVec.ofNat 64 cap), (port 9 1, 1), (port 9 2, BitVec.ofNat 64 (256 * via)), (port 9 3, 240)]

def loopState : State :=
  { demoWith (sendInp 8 0) with windows := writeBytes [] 0 (toBytes 2 1 ++ toBytes 2 1 ++ toBytes 4 0 ++ toBytes 8 0 ++ toBytes 4 0 ++ toBytes 4 4096 ++ toBytes 4 3) }

theorem witness_fb_full :
    let full := fun inp => demoBut inp (fun k => { k with sends := (List.range 32).map (fun i => (i, some demoSend)) })
    let broke := { demoWith (sendInp 9 2) with parts := [(1, some { demoPart with bindings := [Binding.mk 3 2 1 0 1 100 0 (Keys.first []) (Keys.first [])] })] }
    Accepts (full (sendInp 8 0)) (hd 0) 0x340 none ∧ ((full (sendInp 8 0)).core 0).freeSend = none ∧ (demo.core 0).freeSend = some 0 ∧
    Accepts (full (sendInp 9 2)) (hd 0) 0x341 none ∧ Accepts (demoWith (sendInp 9 2)) (hd 0) 0x341 none ∧
    (payRelay (demoWith (sendInp 9 2)) 1 2 2).isSome = true ∧ Accepts broke (hd 0) 0x341 none ∧ payRelay broke 1 2 2 = none ∧
    Accepts (demoBut [(port 9 0, 1), (port 9 1, 1)] (fun k => { k with fences := List.replicate 4 (Fence.mk 0 1 [] 0) })) (hd 0) 0x342 none ∧
    Accepts loopState (hd 0) 0x340 none ∧ loopState.winLoop 0 = true ∧ demo.winLoop 0 = false := by
  refine ⟨.of_bool ?_, ?_, ?_, .of_bool ?_, .of_bool ?_, ?_, .of_bool ?_, ?_, .of_bool ?_, .of_bool ?_, ?_, ?_⟩ <;> decide +kernel

/-- Reserved source codes with a defined destination; reserved destination codes and unused opcodes with every kind of defined source,
each range at both ends (ReservedCodesRefused). -/
def codeWord (src dst : Nat) : Slot := BitVec.ofNat 24 (src * 1024 + dst)

def refusedAs (w : Slot) (e : DecodeError) : Bool :=
  match decode (w :: List.replicate 4 0) with
  | .error x => x == e
  | .ok _ => false

theorem witness_reserved_codes :
    (∀ src ∈ [0x05E, 0x05F, 0x098, 0x09F, 0x0A2, 0x1FF], refusedAs (codeWord src 0x001) .source = true) ∧
    (∀ src ∈ [0x000, 0x05D, 0x060, 0x097, 0x0A0, 0x0A1, 0x200, 0x3FF], (∀ dst ∈ [0x04D, 0x04F], refusedAs (codeWord src dst) .destination = true) ∧
      ∀ dst ∈ [0x124, 0x13F, 0x16B, 0x17F, 0x18A, 0x1BF, 0x1D8, 0x1FF, 0x21B, 0x23F, 0x257, 0x27F, 0x28A, 0x2BF, 0x2C7, 0x2FF, 0x30B, 0x33F,
        0x345, 0x37F, 0x38A, 0x3BF, 0x3CE, 0x3FF], refusedAs (codeWord src dst) .operation = true) := by
  refine ⟨?_, ?_⟩ <;> decide +kernel

/-- Operands of the vector unit: all lanes, lane 0 alone, and no lane; a NaN and a number in lane 0 (VectorArithmeticAsks,
VectorIntegerResults, SpecialFunctionAsks, VectorMoveAsks). -/
def wideIn (e : Mask) (a : Nat) : WideIn := { (wideOf a 0) with e := e }

def pickedOf (e : Mask) (n : Nat) : List Nat := (List.range n).filter (fun j => selLane e n j)

theorem witness_wide_lanes :
    (∀ n ∈ [256, 512, 1024], pickedOf (wideIn 1 0).e n = [0] ∧ pickedOf (wideIn 0 0).e n = []) ∧
    (∀ f ∈ [fp32, bf16, fp16], 8192 / f.cont ∈ [256, 512] ∧
      fmtVal f (laneOf (wideIn 1 (fmtNanCode f)).a f.cont 0) = .nan ∧ (fmtVal f (laneOf (wideIn 1 0).a f.cont 0)).isNan = false) ∧
    (bf16.cont = 16 ∧ fp16.cont = 16) ∧ (Gens.mk 1 []).cur 0 ≠ 0 ∧ genStep ((Gens.mk 1 []).cur 0) ≠ 0 := by
  refine ⟨?_, ?_, ?_, ?_, ?_⟩ <;> decide +kernel

/-- Integers that exp2 meets, at both ends of the clause's range, and values to round: an overflow and none (SpecialFunctionAsks). -/
theorem witness_values : (1 : Nat) * pow2 0 = 1 * pow2 (-0) ∧ 2047 * 2 ^ 700 * pow2 (-700) = 2047 * pow2 700 ∧ (-700 : Int) ≤ -700 ∧
    (0 < 2 ^ 25 - 1 ∧ 2 ^ 25 - 1 < 2 ^ 25) ∧
    roundFmt fp16 .rne (.fin false 65520 1 0) = (0x7C00, (roundFmt fp16 .rne (.fin false 65520 1 0)).2) ∧
    (roundFmt fp16 .rtz (.fin false 65520 1 0)).1 = 0x7BFF ∧ (roundFmt fp16 .rne (.fin false 65519 1 0)).1 = 0x7BFF := by
  refine ⟨?_, ?_, ?_, ?_, ?_, ?_, ?_⟩ <;> decide +kernel

/-- vm.mov from a matrix row, in each of its directions; an insertion; conversions between widths (VectorMoveAsks). -/
theorem witness_vm_modes : movDir (BitVec.ofNat 64 0) = 0 ∧ movDir (BitVec.ofNat 64 288) = 1 ∧
    (BitVec.ofNat 64 2048).getLsbD 11 = true ∧ (BitVec.ofNat 64 0).getLsbD 11 = false ∧
    8192 / 16 = 2 * 256 ∧ (511 : Nat) / 256 = 2 * 0 + 1 ∧ (255 : Nat) / 256 = 2 * 0 ∧ (2047 : Nat) / 256 = 2 * 3 + 1 := by
  refine ⟨?_, ?_, ?_, ?_, ?_, ?_, ?_, ?_⟩ <;> decide +kernel

/-- Columns and passes at the greatest sizes, and an integer sum (PressAsks). -/
theorem witness_press_jobs :
    (ColJob.mk 3 255 256 (PFmt.mk 9 0) []).col < (if (PFmt.mk 9 0).is16 then 128 else 256) ∧
    (ColJob.mk 3 127 256 (PFmt.mk 1 0) []).col < (if (PFmt.mk 1 0).is16 then 128 else 256) ∧
    (PFmt.mk 9 0).is16 = false ∧ (PFmt.mk 1 0).is16 = true ∧
    (Val.fin true 6 2 0).frac.1 = -3 * (Val.fin true 6 2 0).frac.2 ∧ (0 : Int) < (Val.fin true 6 2 0).frac.2 := by
  refine ⟨?_, ?_, ?_, ?_, ?_, ?_⟩ <;> decide +kernel

/-- A loop that starts with a count of 0 and one that starts with trips (LoopIterations). -/
theorem witness_loop_starts : ({ demoLatch with ctl := .loop (demoLoop 0) 0 }).ctl = .loop (demoLoop 0) 0 ∧
    ({ demoLatch with ctl := .loop { demoLoop 0 with stages := 3 } 5 }).ctl = .loop { demoLoop 0 with stages := 3 } 5 ∧
    ({ demoLoop 0 with stages := 3 }).trips = 5 := by
  refine ⟨?_, ?_, ?_⟩ <;> decide +kernel

/-- Writes of registers that are turned away: a share past 496, allotments past the capacity, a partition whose configuration is closed,
a send outstanding, an invalidation under way or of the reserved scope, a threshold out of range (RegisterWriteEvents). -/
def sharedOpen : State :=
  { demoOpen with parts := demoOpen.parts ++ [(2, some { Partition.init [1] with csr := { PartCsr.init with fshare := [(31, 496)] }, host := Meter.mk 0 700000 0 0, layby := Meter.mk 0 1000 0 0 })] }

theorem witness_refused_writes : let open_ := { demoPart with tt := none, tdi := .unlocked };
    496 < sharedOpen.otherShares 1 31 + (1 : Word).toNat % 2 ^ 10 ∧ open_.cfgOpen = true ∧ open_.taken = none ∧
    open_.ctxs.all (fun x => x.2.isNone) = true ∧ demoPart.cfgOpen = false ∧ demoPart.tt.isSome = true ∧
    700000 < sharedOpen.otherAllots 1 false + (1 : Word).toNat % 2 ^ 20 ∧
    sharedOpen.laybyCap < sharedOpen.otherAllots 1 true + (0xFFFFF : Word).toNat % 2 ^ 20 ∧
    (demoBut [] (fun k => { k with sends := [(0, some demoSend)] })).sending = true ∧
    ({ demoPart.csr with tlbBusy := true }).tlbBusy = true ∧ (bits (13 : Word) 3 2 = 3 ∧ (13 : Word).getLsbD 0 = true) ∧
    ¬(70 ≤ bits (69 : Word) 7 0 ∧ bits (69 : Word) 7 0 ≤ 95) ∧ (70 ≤ bits (95 : Word) 7 0 ∧ bits (95 : Word) 7 0 ≤ 95) := by
  refine ⟨?_, ?_, ?_, ?_, ?_, ?_, ?_, ?_, ?_, ?_, ?_, ?_, ?_⟩ <;> decide +kernel

/-! Witnesses of the clauses on what the asked accesses deliver, on stores, and on records. -/

/-- One act due for core 0 at tick 0. -/
def demoDue (a : Act) : State := demoCoreWith (fun k => { k with pend := [Pend.mk 0 0 0 a] })

/-- Each kind of act that MoveDelivery gives: it is the only one due and its rank is at most 5. -/
theorem witness_delivery_kinds : ∀ a ∈ [Act.pred 1 true, .lcount true 3, .rotb 1, .sbbase 4096, .sblen 128, .sbreset, .ring 1 2, .push 0 5,
      .pop 7, .vrow 0 1 1, .mrow 255 1 1, .accRow 31 1 2, .emask 0 1, .emask 7 1, .freg 7 5, .cap 15 Cap.null, .untag 0, .lend 7 true,
      .pmode 1, .pfmt (PFmt.mk 1 0) (PFmt.mk 2 0), .zeroTile 7],
    ((demoDue a).core 0).dueActs 0 (fun r => r < 8) = [Pend.mk 0 0 0 a] ∧ a.rank ≤ 5 := by decide +kernel

/-- The acts that other statements deliver: the word of busy, and a register read (PressAsks, SystemAsks). -/
theorem witness_delivery_words : ∀ a ∈ [Act.busyWord 5, .csrRead 0x001],
    ((demoDue a).core 0).dueActs 0 (fun r => r < 8) = [Pend.mk 0 0 0 a] := by decide +kernel

/-- A load through space 1 due alone, and a scratchpad with two stores of core 0 pending, of which the later one writes the byte
(LoadStoreAsks). -/
theorem witness_forward :
    ((demoDue (.readLs 3 4 (.data 8 true))).core 0).dueActs 0 (fun r => r == 9) = [Pend.mk 0 0 0 (.readLs 3 4 (.data 8 true))] ∧
    [Pend.mk 5 0 0 (.store demoStore), Pend.mk 6 1 1 (.store { demoStore with labels := [(7, 3)] })] =
      [Pend.mk 5 0 0 (.store demoStore)] ++ Pend.mk 6 1 1 (.store { demoStore with labels := [(7, 3)] }) :: [] ∧
    (demoStore.byteAt 0x1FFFFF).isSome = true ∧ demoStore.byteAt 0x1FFFF7 = none ∧
    (({ demoStore with labels := [(7, 3)] } : StoreW).labels.find? (fun (x : Nat × BitVec 16) => x.1 == 7)).isSome = true ∧
    demoStore.touches 0x1FFFF = true ∧ demoStore.touches 0 = false ∧ demoStore.issuer = 0 ∧ demoStore.kind = .ls ∧ 1 < 2 := by
  refine ⟨?_, ?_, ?_, ?_, ?_, ?_, ?_, ?_, ?_, ?_⟩ <;> decide +kernel

/-- A window root, an entry capability and one of space 0, with the greatest length (LoadStoreAsks). -/
theorem witness_cbound :
    (Cap.make 5 (pRead + pGlobal) 0 4 0).space = 5 ∧ (Cap.make 5 (pRead + pGlobal) 0 4 0).perm / 64 % 2 = 1 ∧
    (Cap.make 5 pRead 0 4 0).perm / 64 % 2 = 0 ∧ (Cap.make 0 pRead 0 4 0).space ≠ 5 ∧ 2 ^ 48 < 2 ^ 49 ∧ 255 < 2 ^ 8 ∧ 15 < 2 ^ 4 := by
  refine ⟨?_, ?_, ?_, ?_, ?_, ?_, ?_⟩ <;> decide +kernel

/-- Two stores of one boundary, of one core and of two of its cluster; one with a label; an encode of another core (StorePerform). -/
def labelStore : StoreW := { demoStore with issuer := 7, labels := [(7, 3)], tagSet := [] }

theorem witness_stores :
    (({ demoCoreWith (fun k => { k with pend := [Pend.mk 1 0 0 (.store labelStore)] }) with tick := 1 }).core 0).dueActs 1
      (fun r => r == 8) = [Pend.mk 1 0 0 (.store labelStore)] ∧
    (({ demoCoreWith (fun k => { k with pend := [Pend.mk 1 0 0 (.store demoStore), Pend.mk 1 0 1 (.store labelStore)] }) with
      tick := 1 }).core 0).dueActs 1 (fun r => r == 8) = [Pend.mk 1 0 0 (.store demoStore), Pend.mk 1 0 1 (.store labelStore)] ∧
    labelStore.issuer / 8 = 0 / 8 ∧ demoStore.issuer ≠ labelStore.issuer ∧
    (demoStore.cells ++ labelStore.cells).all (fun x => x.2.2 == BitVec.allOnes 8) = true ∧
    demoStore.cells = bytesCells 0x1FFFF8 8 0x123456789ABCDEF0 := by
  refine ⟨?_, ?_, ?_, ?_, ?_, ?_⟩ <;> decide +kernel

/-- An encode of 256 fp32 lanes to e4m3 codes in blocks of 32, issued by core 5. -/
def e4m3 : Fmt := Fmt.mk true 4 3 7 true .nanMax

def demoEnc (grain : Nat) : EncJob :=
  { issuer := 5, ty := .flt fp32, a := 0, b := 0, mode := 0, fmt := e4m3, sfmt := e8m0, grain := grain, smode := 1, lscale := 127, fidx := 3
    off := 640, slots := if grain = 0 then none else some 4096 }

/-- Widths, blocks and lines at their edges; a lane that is selected and one that is not (VectorMemoryAsks, StorePerform). -/
theorem witness_codes :
    (demoEnc 32).issuer ≠ 0 ∧ (demoEnc 32).ty.cont = 32 ∧ (demoEnc 32).fmt.cont = 8 ∧ (demoEnc 32).grain ≠ 0 ∧ (demoEnc 0).grain = 0 ∧
    255 < 8192 / (demoEnc 32).ty.cont ∧ (demoEnc 0).slots = none ∧ (demoEnc 32).slots = some 4096 ∧
    (true :: List.replicate 255 false).length = 8192 / 32 ∧ (true :: List.replicate 255 false)[0]? = some true ∧
    (true :: List.replicate 255 false)[255]? = some false ∧
    [LineMeta.mk 0 0 Val.one none e8m0 0][0 / (512 / 8)]? = some (LineMeta.mk 0 0 Val.one none e8m0 0) ∧
    0x7F00 % 256 = 0 ∧ 0x7F03 % 256 ≠ 0 ∧ [0, 255].length % 2 = 0 ∧ 255 < 2 ^ 8 ∧ [0, 8, 16, 32].getD 3 0 = 32 := by
  refine ⟨?_, ?_, ?_, ?_, ?_, ?_, ?_, ?_, ?_, ?_, ?_, ?_, ?_, ?_, ?_, ?_, ?_⟩ <;> decide +kernel

/-- Blocks of no value, of zeros and of a value, for e4m3 and for a format whose codes are all zero; a NaN line scale (VectorMemoryAsks). -/
theorem witness_scales :
    Val.nan.isNan = true ∧ Val.one.isNan = false ∧ maxAbs [Val.zero] = Val.fin false 0 1 0 ∧
    maxAbs [Val.nan, Val.fin true 3 1 0] = Val.fin false 3 1 0 ∧
    (match (Val.mul (fmtVal e4m3 (fmtMaxMag e4m3)) Val.one).1 with
     | .fin _ n d _ => decide (0 < n) && decide (0 < d)
     | _ => false) = true := by
  refine ⟨?_, ?_, ?_, ?_, ?_⟩ <;> decide +kernel

/-- A lock arrival on whose reach, on whose group, and on neither a patience is set (ControlAsks). -/
theorem witness_patience :
    (Reach.mk 0 100 0).patience = 0 ∧ (Reach.mk 0 100 5).patience ≠ 0 ∧ (demoGroup 0).patience = 0 ∧
    ({ demoGroup 0 with patience := 9 }).patience ≠ 0 ∧ demo.reach 0 = some (Reach.mk 0 100 0) ∧
    demo.timetable 0 = some demoTt ∧ demoTt.group 0 = some (demoGroup 0) := by
  refine ⟨?_, ?_, ?_, ?_, ?_, ?_, ?_⟩ <;> decide +kernel

/-- Words of an open and of a passed slot, of a receive entry, and of a group that holds the core or does not (FabricAsks, FlagAsks);
register views in every mode, with and without a partition (SystemAsks). -/
theorem witness_words :
    (demo.port 0).state < 8 ∧ demo.slotPeer 0 5 < 128 ∧ demo.effShare 1 0 - demo.booked 1 0 5 < 2 ^ 10 ∧ demo.position < 128 ∧
    demo.forigin.toNat + 4800 * 5 > demo.tick ∧ demo.forigin.toNat + 4800 * 0 ≤ demo.tick ∧ (demo.wst 2).last < 2 ^ 8 ∧
    bitOf (demoGroup 0).map 0 = true ∧ bitOf (demoGroup 0).map 1 = false ∧ (demoGroup 0).arrived < 2 ^ 9 ∧ (demoGroup 0).mode < 4 ∧
    modeOf 255 = 0 ∧ modeOf 256 = 1 ∧ modeOf 264 = 2 ∧ demo.part (demo.viewPart 0) = some demoPart ∧ demo.part (demo.viewPart 64) = none ∧
    Tepc.mk true 2 16383 16383 .jump = { CoreCsr.init.tepc with inside := true, dcnt := 2, dtgt := 16383, ret := 16383 } := by
  refine ⟨?_, ?_, ?_, ?_, ?_, ?_, ?_, ?_, ?_, ?_, ?_, ?_, ?_, ?_, ?_, ?_, ?_⟩ <;> decide +kernel

/-- A cast of a task of partition 1, and members with and without a named flag (GroupAndWaitEvents). -/
theorem witness_cast :
    castAt (demoCoreWith (fun k => { k with casts := [(3, 896, 1, 0)] })) (demo.workCores 1 demoPart) 0 = some (0, 0) ∧
    sget 0 ({ countedGroup with named := [(1, 6)] }).named 1 ≠ 0 ∧ sget 0 ({ countedGroup with named := [(1, 6)] }).named 0 = 0 := by
  refine ⟨?_, ?_, ?_⟩ <;> decide +kernel

/-- A queue whose head entry is a marker, and one whose entry has a reserved op or a reserved field set (QueueEvents). -/
def headState (entry : List Byte) : State := { demoReady with host := [(1, writeBytes [] 0 entry)] }

theorem witness_marker :
    (cmdOf 0 (headEntry (headState (toBytes 8 2 ++ demoEntry.drop 8)) 1 demoQueue)).op = 2 ∧
    cmdBad (headEntry (headState (toBytes 8 2 ++ demoEntry.drop 8)) 1 demoQueue) = false ∧
    selectQueue (headState (toBytes 8 2 ++ demoEntry.drop 8)) 1 (demoIdle demoQueue) = some (0, 0) ∧
    cmdBad (headEntry (headState (toBytes 8 3 ++ demoEntry.drop 8)) 1 demoQueue) = true ∧
    cmdBad (headEntry (headState (demoEntry.take 63 ++ [1])) 1 demoQueue) = true ∧
    selectQueue (headState (demoEntry.take 63 ++ [1])) 1 (demoIdle demoQueue) = some (0, 0) ∧
    (payKeeper (headState (demoEntry.take 63 ++ [1])) 1 2).2 = true := by
  refine ⟨?_, ?_, ?_, ?_, ?_, ?_, ?_⟩ <;> decide +kernel

/-- A timetable that stops, before and after its cores are halted, with a keeper and while it is taken over; starts now and at an instant;
a stopping interface error (LaunchEvents, TdispEvents). -/
def stopTt (stopped : Bool) : Timetable := { demoTt with stop := some (0, 0, true, 32), stopped := stopped }

theorem witness_stop :
    (stopTt false).stop = some (0, 0, true, 32) ∧ (stopTt false).stopped = false ∧ (stopTt true).stopped = true ∧
    (stopTt true).tasks.all (fun k => (demoCoreWith id).stilled k.core) = true ∧
    ({ demoCoreWith (fun k => { k with casts := [(3, 896, 1, 0)] }) with tripped := 1 }).stilled 0 = true ∧
    demoPart.holding = false ∧ ({ demoPart with csr := { demoPart.csr with keepDown := [(0, 5)] } }).holding = true ∧
    (payKeeper demo 1 1).2 = true ∧ (cmdOf 0 demoEntry).start = 0 ∧ ({ cmdOf 0 demoEntry with start := 5 }).start ≠ 0 ∧ 6 % 4 = 2 ∧
    demoPart.lent = none ∧ demoPart.taken = none ∧ demoPart.ctxs = [] ∧ demoPart.tdi = .run ∧ demoPart.tt = some demoTt := by
  refine ⟨?_, ?_, ?_, ?_, ?_, ?_, ?_, ?_, ?_, ?_, ?_, ?_, ?_, ?_, ?_, ?_⟩ <;> decide +kernel

/-- Registers that a keeper core and a control core write (RegisterWriteEvents). -/
theorem witness_register_forms :
    modeOf 256 ≠ 0 ∧ modeOf 264 = 2 ∧ demoPart.basins.contains (127 / 128) = true ∧ demoPart.basins.contains (128 / 128) = false ∧
    demoOpen.part (demoOpen.viewPart 264) = some { demoPart with tt := none, tdi := .unlocked } ∧
    (∀ x ∈ [0x008, 0x0F0], 0x059 ≠ x) := by
  refine ⟨?_, ?_, ?_, ?_, ?_, ?_⟩ <;> decide +kernel

end Sys2Proof.Machine
end

section
/-! What a cold reset leaves (01 R18, R24, R25, 17 R322): every core, register and partition at its reset value. -/

namespace Sys2Proof.Machine


/-- What the default and every listed entry of a store have, every reading has. -/
theorem sget_of_forall {α : Type} {d : α} {m : Store α} {P : α → Prop} (hd : P d) (hm : ∀ x ∈ m, P x.2) (n : Nat) :
    P (sget d m n) := by
  induction m with
  | nil => exact hd
  | cons x m ih =>
    unfold sget
    split
    · exact hm _ List.mem_cons_self
    · exact ih fun y hy => hm y (List.mem_cons_of_mem _ hy)

/-- An unlisted key reads as the default. -/
theorem sget_unlisted {α : Type} {d : α} {m : Store α} {n : Nat} (h : ∀ x ∈ m, n ≠ x.1) : sget d m n = d := by
  induction m with
  | nil => rfl
  | cons x m ih => simp_all [sget]

theorem core_reset_tile {c : Nat} (h : c < 256) : State.reset.core c = Core.init := by
  have firmware : ∀ x ∈ resetCores, 256 ≤ x.1 := by decide
  exact sget_unlisted fun x hx => by have := firmware x hx; omega

/-- Every core, listed or not, has the control registers of its reset. -/
theorem csr_core_reset (c : Nat) : (State.reset.core c).csr = CoreCsr.init :=
  sget_of_forall (P := fun k : Core => k.csr = CoreCsr.init) rfl (by decide) c

@[simp] theorem part_reset (n : Nat) : State.reset.part n = none := rfl

/-- But for FEATURES, a register reads the same from every core at reset. -/
theorem csrRaw_reset_eq (c d : Nat) {n : Nat} (h : n ≠ 0x001) : State.reset.csrRaw c n = State.reset.csrRaw d n := by
  simp only [State.csrRaw, csr_core_reset, part_reset]
  split
  · rfl
  · split <;> simp_all

theorem csrRaw_reset_port {n : Nat} (h : 0x060 ≤ n ∧ n ≤ 0x07F) (c : Nat) : State.reset.csrRaw c n = 0 := by
  obtain ⟨lo, hi⟩ := h
  interval_cases n <;> rfl

/-- Every CACT of a partition, as of the package, counts from 0. -/
theorem partRaw_init_cact {n : Nat} (h : 0x800 ≤ n) (bs : List Nat) : partRaw State.reset (Partition.init bs) n = 0 := by
  have cact : State.reset.cellar.cact = [] := rfl
  rw [partRaw]
  · simp [cact]; omega
  all_goals omega

theorem partRaw_init_share {n : Nat} (h : 0x080 ≤ n ∧ n ≤ 0x09F) (bs : List Nat) :
    partRaw State.reset (Partition.init bs) n = 0 := by
  obtain ⟨lo, hi⟩ := h
  interval_cases n <;> rfl

theorem features_reset (c : Nat) : State.reset.csrRaw c 0x001 = if c < 256 then 0x1000F else 0x10010 := by
  have : State.reset.csrRaw c 0x001 = featuresOf c := rfl
  simp [this, featuresOf, isTile]


/-- Every register that is not a partition's reads its reset value from every core. -/
theorem csrRaw_reset (c : Nat) : ∀ x ∈ ([ (0x008, 0), (0x009, 0), (0x00A, 0), (0x010, 0), (0x011, 0), (0x018, 0), (0x020, 0),
      (0x050, 0), (0x058, 0xFFFF0000), (0x059, 0), (0x0F0, 64 * 2 ^ 48 + 1024 * 2 ^ 32 + 16 * 2 ^ 16 + 95) ] : List (Nat × Nat)),
    State.reset.csrRaw c x.1 = x.2 := by
  intro x hx
  suffices x.1 ≠ 0x001 ∧ State.reset.csrRaw 0 x.1 = x.2 from (csrRaw_reset_eq c 0 this.1).trans this.2
  revert x
  decide

/-- No register of a partition as it is created tells of its basins. -/
theorem partRaw_init_eq (bs cs : List Nat) (n : Nat) :
    partRaw State.reset (Partition.init bs) n = partRaw State.reset (Partition.init cs) n := by
  have cact (i : Nat) : (sget 0 State.reset.cellar.cact i).toNat = 0 := rfl
  simp only [partRaw, Partition.init, Partition.keystat, cact, ite_self]

/-- The registers of a partition read their reset values as it is created. -/
theorem partRaw_init (bs : List Nat) : ∀ x ∈ ([ (0x030, 3000000), (0x031, 3000000), (0x032, 300000 * 2 ^ 16 + 4 * 2 ^ 8 + 3),
      (0x033, 0), (0x034, 7), (0x038, 0), (0x040, 0), (0x041, 0), (0x042, 0), (0x043, 0x106), (0x051, 0), (0x0C0, 0), (0x0C1, 0),
      (0x0C2, 0), (0x0C3, 0), (0x0D0, 0), (0x0E0, 1), (0x0E8, 0x6400), (0x0E9, 0), (0x0EA, 0) ] : List (Nat × Nat)),
    partRaw State.reset (Partition.init bs) x.1 = x.2 := by
  simp only [partRaw_init_eq bs []]
  decide

/-- Settles O56: the fixed fields stand in the literals State.reset, PartCsr.init and CoreCsr.init; what is said of every core, of
every register number and of every set of basins is said above. -/
theorem resetHolds : Obligations.ResetHolds := by
  unfold Obligations.ResetHolds
  refine ⟨rfl, rfl, part_reset, fun _ => core_reset_tile, rfl, rfl, by decide, rfl, rfl, rfl, rfl, rfl, rfl, rfl, rfl, rfl, rfl, rfl, rfl,
    rfl, rfl, rfl, rfl, rfl, rfl, rfl, rfl, rfl, rfl, rfl, csrRaw_reset, features_reset, fun c _ lo hi => csrRaw_reset_port ⟨lo, hi⟩ c,
    partRaw_init, fun bs _ h => h.elim (partRaw_init_share · bs) (partRaw_init_cact ·.1 bs)⟩

end Sys2Proof.Machine
end

section
/-! A table of partitions out of canonical form loses a failure warning (20 R386, log entry 108). -/

namespace Sys2Proof.Machine

/-- A timetable with no task. -/
def emptyTt : Timetable :=
  { cmd := Cmd.mk 0 1 0 0 0 0 0, cls := 0, pace := 1, armed := true, t0 := 0, tasks := [], groups := [], featureMask := 0
    windows := 0, hold := none, held := 0, timedOut := false, dry := [], stop := none, stopped := false, timeouts := 0
    poisoned := false, incs := [], pre := 0, heldArr := [] }

/-- The partition whose warning is lost: it has a timetable of its own, and its work has been placed. -/
def droopedPart : Partition := { Partition.init [2] with tt := some emptyTt }

/-- A table of partitions whose keys do not rise. Island 0 droops. Partition 5 lends its tiles, island 0 among them, to partition 9;
partition 3 lends island 8 to it, and is warned itself, since partition 7 has lent it island 0. -/
def droopState : State :=
  { State.reset with
    health := { State.reset.health with droop := [(0, 16)] }
    parts := [(5, some { Partition.init [0] with lent := some 9 }),
      (3, some { Partition.init [1] with lent := some 9, tt := some emptyTt }),
      (7, some { Partition.init [0] with lent := some 3 }), (9, some droopedPart)] }

/-- The state after the failure warning of island 0. -/
def droopWarned : State :=
  warnAll { droopState with health := { droopState.health with raised := sput false droopState.health.raised (healthKey .droop 0) true } }
    .droop 0 droopState.parts

theorem reached_droopState : reached droopState .droop 0 = true := by decide

/-- Partition 9 is to be warned as the failure warning begins. -/
theorem warns_droopState : warns droopState 9 droopedPart .droop 0 = true := by decide

theorem exec_failureWarning_droopState : exec (.failureWarning .droop 0) droopState = .next droopWarned :=
  congrArg Host.Outcome.next (if_pos reached_droopState)

/-- The warning of partition 3 puts its entry before that of partition 5, so that partition 9 counts as placed on island 8 when its own
turn comes: it stays as it was. -/
theorem part_droopWarned : droopWarned.part 9 = some droopedPart := by decide

/-- Refutes O53: whether a droop warns a partition is looked up again after each warning. In droopState, a table of partitions that is not
in the canonical form of Machine/Store.lean, the warning of another partition moves an entry, and partition 9 is not warned. -/
theorem not_powerTimeHealthEvents : ¬ Obligations.PowerTimeHealthEvents := by
  unfold Obligations.PowerTimeHealthEvents
  intro h
  obtain ⟨-, -, -, -, -, -, -, -, warning, -⟩ := h droopState
  obtain ⟨u, r, step, here, warned, -⟩ := warning .droop 0 9 droopedPart reached_droopState (by decide) (by decide)
  obtain rfl : droopWarned = u := by
    rw [exec_failureWarning_droopState] at step
    exact Host.Outcome.next.inj step
  obtain rfl : droopedPart = r := Option.some.inj (part_droopWarned.symm.trans here)
  exact absurd (warned warns_droopState) (by decide)

end Sys2Proof.Machine
end

section
/-! O59. Where and when the package is: what every function of the model, every instruction and every event leaves of the position
and the tick (01 R11, R18). -/

namespace Sys2Proof.Machine

/-- Where and when the package is: its position in the pod and its tick (01 R11, R18). -/
def State.locus (s : State) : Nat × Nat := (s.position, s.tick)

@[simp] theorem State.locus_fold (s : State) : (s.position, s.tick) = s.locus := rfl

/-- The locus of a state that is written out, or that differs from another in some of its fields. -/
@[simp] theorem State.locus_mk
    (tick position absent laybyCap unavail tripped limited nextRec budgetAt cur freeCtr : Nat) (cores : Store Core) (parts : Store
    (Option Partition)) (host : Store (Store Byte)) (cellar : Cellar) (ports : Store Port) (forigin svc : Word) (bookings : List
    Booking) (windows : Store Byte) (wstat : Store WStat) (layby : List LayItem) (receipts : List Receipt) (latePaths : List LatePath)
    (backlog : List Transfer) (logs : Store Log) (ctlb : Store (List (Nat × Nat × Nat × Nat))) (towpath : Towpath) (hthresh : Hthresh)
    (health : Health) (islands : Store Nat) (coh : List (Nat × Nat)) (cellReads : Nat × List Nat) (hostReads : Nat × List (Nat × Nat))
    (inReset : Bool) (escrow : Store (List Byte)) (agenda : List (Nat × Instr)) :
    (State.mk tick cores parts position absent host cellar ports forigin bookings windows wstat layby receipts latePaths backlog
      laybyCap logs ctlb towpath hthresh health svc unavail tripped limited islands coh cellReads hostReads inReset nextRec budgetAt
      escrow cur agenda freeCtr).locus = (position, tick) := rfl

/-- An answer that goes on leaves position and tick at l. -/
def Ans.keeps (a : Ans State) (l : Nat × Nat) : Prop :=
  match a with
  | .next t => t.locus = l
  | _ => True

@[simp] theorem Ans.keeps_next (t : State) (l : Nat × Nat) : Ans.keeps (.next t) l ↔ t.locus = l := Iff.rfl

@[simp] theorem Ans.keeps_fault (r : Fault) (l : Nat × Nat) : Ans.keeps (.fault r) l := trivial

@[simp] theorem Ans.keeps_refused (r : Refusal) (l : Nat × Nat) : Ans.keeps (.refused r) l := trivial

@[simp] theorem State.locus_ite (p : Prop) [Decidable p] (s t : State) :
    (if p then s else t).locus = if p then s.locus else t.locus := apply_ite State.locus p s t

theorem foldl_locus {α : Type} {f : State → α → State} (h : ∀ s x, (f s x).locus = s.locus) (l : List α) (s : State) :
    (l.foldl f s).locus = s.locus := by
  induction l generalizing s with
  | nil => rfl
  | cons x l ih => exact (ih (f s x)).trans (h s x)

/-- The state of a pair that an operation answered, where the operation leaves the locus alone. -/
theorem locus_of_pair {α : Type} {x : State × α} {t : State} {a : α} {l : Nat × Nat} (h : x.1.locus = l) (e : x = (t, a)) :
    t.locus = l := by
  subst e
  exact h

/-! The functions of Machine/Ops.lean. -/

@[simp] theorem State.setCore_locus (s : State) (c : Nat) (k : Core) : (s.setCore c k).locus = s.locus := rfl

@[simp] theorem State.modCore_locus (s : State) (c : Nat) (f : Core → Core) : (s.modCore c f).locus = s.locus := rfl

@[simp] theorem State.setPart_locus (s : State) (n : Nat) (p : Partition) : (s.setPart n p).locus = s.locus := rfl

@[simp] theorem State.modPart_locus (s : State) (n : Nat) (f : Partition → Partition) : (s.modPart n f).locus = s.locus := by
  unfold State.modPart
  split <;> simp

@[simp] theorem State.scheduleAt_locus (s : State) (holder due : Nat) (a : Act) : (s.scheduleAt holder due a).locus = s.locus := rfl

@[simp] theorem State.schedule_locus (s : State) (c n : Nat) (a : Act) : (s.schedule c n a).locus = s.locus := rfl

@[simp] theorem State.scheduleAll_locus (s : State) (c n : Nat) (l : List Act) : (s.scheduleAll c n l).locus = s.locus := by
  induction l generalizing s with
  | nil => rfl
  | cons x xs ih => simp [State.scheduleAll, ih]

@[simp] theorem State.mapCores_locus (s : State) (f : Nat → Core → Core) : (s.mapCores f).locus = s.locus := rfl

@[simp] theorem State.addFlag_locus (s : State) (c f n : Nat) : (s.addFlag c f n).locus = s.locus := rfl

@[simp] theorem State.log_locus (s : State) (source code reason flags bundle slot part detail : Nat) :
    (s.log source code reason flags bundle slot part detail).locus = s.locus := rfl

@[simp] theorem State.stopTimetable_locus (s : State) (part core : Nat) (motor : Bool) (status : Nat) :
    (s.stopTimetable part core motor status).locus = s.locus := by simp [State.stopTimetable]

@[simp] theorem State.trapTo_locus (s : State) (target : Nat) (r : TrapRec) : (s.trapTo target r).locus = s.locus := rfl

@[simp] theorem State.keeperDown_locus (s : State) (c bundle : Nat) : (s.keeperDown c bundle).locus = s.locus := by simp [State.keeperDown]

@[simp] theorem State.complexDown_locus (s : State) (c : Nat) : (s.complexDown c).locus = s.locus := by
  unfold State.complexDown
  split <;> simp

@[simp] theorem haltStream_locus (s : State) (c : Nat) (motor : Bool) (why : Why) (code : Nat) (r : TrapRec) :
    (haltStream s c motor why code r).locus = s.locus := by
  unfold haltStream
  (repeat' split) <;> simp

@[simp] theorem raiseFault_locus (s : State) (c : Nat) (motor : Bool) (bundle slot code reason detail : Nat) :
    (raiseFault s c motor bundle slot code reason detail).locus = s.locus := by simp [raiseFault]

@[simp] theorem trapEntry_locus (s : State) (c : Nat) : (trapEntry s c).locus = s.locus := rfl

/-! The functions of Machine/Csr.lean. -/

@[simp] theorem State.modView_locus (s : State) (c : Nat) (f : Partition → Partition) : (s.modView c f).locus = s.locus := by
  simp [State.modView]

@[simp] theorem State.modCsr_locus (s : State) (c : Nat) (f : CoreCsr → CoreCsr) : (s.modCsr c f).locus = s.locus := rfl

@[simp] theorem arithWrite_locus (s : State) (c : Nat) (kind : CsrKind) (val : Word) : (arithWrite s c kind val).locus = s.locus := rfl

@[simp] theorem astatWrite_locus (s : State) (c : Nat) (kind : CsrKind) (val : Word) : (astatWrite s c kind val).locus = s.locus := rfl

@[simp] theorem cfoldWrite_locus (s : State) (c : Nat) (kind : CsrKind) (val : Word) : (cfoldWrite s c kind val).locus = s.locus := by
  unfold cfoldWrite
  split <;> simp

@[simp] theorem foriginWrite_locus (s : State) (c : Nat) (kind : CsrKind) (val : Word) : (foriginWrite s c kind val).locus = s.locus := by
  simp only [foriginWrite]
  (repeat' split) <;> simp

@[simp] theorem restKeeper_locus (s : State) (c : Nat) : (restKeeper s c).locus = s.locus := rfl

@[simp] theorem State.freeBasins_locus (s : State) (part : Nat) (p : Partition) : (s.freeBasins part p).locus = s.locus := by
  unfold State.freeBasins
  exact foldl_locus (fun _ _ => by simp) _ _

@[simp] theorem uncreate_locus (s : State) (part : Nat) : (uncreate s part).locus = s.locus := by
  unfold uncreate
  (repeat' split) <;> simp

@[simp] theorem fshareWrite_locus (s : State) (c port : Nat) (kind : CsrKind) (val : Word) :
    (fshareWrite s c port kind val).locus = s.locus := by
  simp only [fshareWrite]
  (repeat' split) <;> simp

@[simp] theorem budgetWrite_locus (s : State) (c : Nat) (layby : Bool) (kind : CsrKind) (val : Word) :
    (budgetWrite s c layby kind val).locus = s.locus := by
  simp only [budgetWrite]
  (repeat' split) <;> simp

@[simp] theorem fwinWrite_locus (s : State) (c : Nat) (kind : CsrKind) (val : Word) : (fwinWrite s c kind val).locus = s.locus := by
  unfold fwinWrite
  split <;> simp

@[simp] theorem reachlimWrite_locus (s : State) (c : Nat) (kind : CsrKind) (val : Word) : (reachlimWrite s c kind val).locus = s.locus := by
  simp only [reachlimWrite]
  split <;> simp

@[simp] theorem lpatienceWrite_locus (s : State) (c : Nat) (kind : CsrKind) (val : Word) :
    (lpatienceWrite s c kind val).locus = s.locus := by
  simp only [lpatienceWrite]
  split <;> simp

@[simp] theorem taskcapWrite_locus (s : State) (c : Nat) (kind : CsrKind) (val : Word) : (taskcapWrite s c kind val).locus = s.locus := by
  unfold taskcapWrite
  split <;> simp

@[simp] theorem hthreshWrite_locus (s : State) (c : Nat) (kind : CsrKind) (val : Word) : (hthreshWrite s c kind val).locus = s.locus := by
  unfold hthreshWrite
  split <;> simp

@[simp] theorem tlbinvWrite_locus (s : State) (c : Nat) (kind : CsrKind) (val : Word) : (tlbinvWrite s c kind val).locus = s.locus := by
  unfold tlbinvWrite
  split <;> simp

@[simp] theorem coreRegWrite_locus (s : State) (c num n clr : Nat) : (coreRegWrite s c num n clr).locus = s.locus := by
  unfold coreRegWrite
  (repeat' split) <;> simp

@[simp] theorem registerWrite_locus (s : State) (c num : Nat) (kind : CsrKind) (val : Word) :
    (registerWrite s c num kind val).locus = s.locus := by
  simp only [registerWrite]
  (repeat' split) <;> simp

@[simp] theorem csrWrite_locus (s : State) (c num : Nat) (kind : CsrKind) (val : Word) : (csrWrite s c num kind val).locus = s.locus := by
  unfold csrWrite
  (repeat' split) <;> simp

/-! The functions of Machine/SlotOp.lean. -/

@[simp] theorem State.retry_locus (s : State) (c : Nat) (motor : Bool) : (s.retry c motor).locus = s.locus := rfl

theorem settle_locus {s go : State} (h : go.locus = s.locus) (c : Nat) (motor : Bool) (chk : Check) (detail : Nat) :
    (settle s c motor chk detail go).locus = s.locus := by
  cases chk with
  | ok => exact h
  | stall => rfl
  | fault code reason => simp [settle]

/-- A slot operation leaves the locus where its effect does. -/
theorem slotOp_keeps {eff : Eff} (h : ∀ s c motor v, (eff s c motor v).locus = s.locus) (hd : Head) (dst : Nat) (e : Option Ext)
    (s : State) : Ans.keeps (slotOp hd dst e eff s) s.locus := by
  refine settle_locus ?_ _ _ _ _
  split
  · exact settle_locus (h _ _ _ _) _ _ _ _
  · rfl

@[simp] theorem moveEff_locus (d : Dest) (s : State) (n : Nat) (b : Bool) (v : Word) : (moveEff d s n b v).locus = s.locus := by
  unfold moveEff
  split <;> simp

@[simp] theorem execNop_keeps (s : State) : Ans.keeps (execNop s) s.locus := rfl

/-! The functions of Machine/Rack.lean. -/

@[simp] theorem State.addGuard_locus (s : State) (owner : Nat) (g : Guard) : (s.addGuard owner g).locus = s.locus := rfl

@[simp] theorem dropGuards_locus (s : State) (c : Nat) (isRack : Bool) (id : Nat) : (dropGuards s c isRack id).locus = s.locus := rfl

@[simp] theorem addGuards_locus (s : State) (c : Nat) (isRack : Bool) (id : Nat) (l : List (Nat × Nat × Nat)) :
    (addGuards s c isRack id l).locus = s.locus := by
  induction l generalizing s with
  | nil => rfl
  | cons x xs ih => simp [addGuards, ih]

@[simp] theorem startRack_locus (s : State) (c id : Nat) (j : RackJob) : (startRack s c id j).locus = s.locus := by simp [startRack]

@[simp] theorem rkOut_locus (s : State) (c n : Nat) : (rkOut s c n).locus = s.locus := rfl

@[simp] theorem rackEff_locus (op : Nat) (s : State) (n : Nat) (b : Bool) (v : Word) : (rackEff op s n b v).locus = s.locus := by
  unfold rackEff
  split <;> simp

@[simp] theorem probeEff_locus (s : State) (n : Nat) (b : Bool) (v : Word) : (probeEff s n b v).locus = s.locus := rfl

@[simp] theorem cancelEff_locus (s : State) (n : Nat) (b : Bool) (v : Word) : (cancelEff s n b v).locus = s.locus := by
  unfold cancelEff
  split <;> simp

@[simp] theorem cancelRack_locus (s : State) (c id : Nat) : (cancelRack s c id).locus = s.locus := rfl

@[simp] theorem waitaddrEff_locus (s : State) (n : Nat) (b : Bool) (v : Word) : (waitaddrEff s n b v).locus = s.locus := by
  simp only [waitaddrEff]
  split <;> simp

/-! The functions of Machine/Budget.lean. -/

@[simp] theorem drawFrom_locus (s : State) (part : Nat) (layby : Bool) (l : List Nat) (n : Nat) :
    (drawFrom s part layby l n).locus = s.locus := by
  fun_induction drawFrom s part layby l n <;> simp_all

theorem payTokens_locus (s : State) (part : Nat) (layby : Bool) (d : Nat) (t : State) :
    (payTokens s part layby d) = some t → t.locus = s.locus := by
  grind [payTokens, State.setPart_locus, drawFrom_locus, State.modPart_locus]

@[simp] theorem execBudgetPeriod_keeps (s : State) : Ans.keeps (execBudgetPeriod s) s.locus := by
  unfold execBudgetPeriod
  split <;> simp

/-! The functions of Machine/Fabric.lean. -/

@[simp] theorem fbOut_locus (s : State) (c n : Nat) : (fbOut s c n).locus = s.locus := rfl

theorem payRelay_locus (s : State) (part via flits : Nat) (t : State) : (payRelay s part via flits) = some t → t.locus = s.locus := by
  grind [payRelay, payTokens_locus, State.setPart_locus]

@[simp] theorem sendEff_locus (relayed : Bool) (s : State) (n : Nat) (b : Bool) (v : Word) : (sendEff relayed s n b v).locus = s.locus := by
  grind [sendEff, State.locus_mk, State.locus_fold, fbOut_locus, payRelay_locus, State.modCore_locus, State.schedule_locus]

@[simp] theorem startSend_locus (s : State) (c id : Nat) (x : Send) : (startSend s c id x).locus = s.locus := by
  unfold startSend
  split <;> simp

@[simp] theorem rfenceEff_locus (s : State) (n : Nat) (b : Bool) (v : Word) : (rfenceEff s n b v).locus = s.locus := by
  simp only [rfenceEff]
  split <;> simp

@[simp] theorem slotEff_locus (s : State) (n : Nat) (b : Bool) (v : Word) : (slotEff s n b v).locus = s.locus := rfl

@[simp] theorem wstatEff_locus (s : State) (n : Nat) (b : Bool) (v : Word) : (wstatEff s n b v).locus = s.locus := by
  simp only [wstatEff]
  split <;> simp

@[simp] theorem State.modWst_locus (s : State) (e : Nat) (f : WStat → WStat) : (s.modWst e f).locus = s.locus := rfl

@[simp] theorem creditBack_locus (s : State) (x : Send) : (creditBack s x).locus = s.locus := by
  unfold creditBack
  (repeat' split) <;> simp

@[simp] theorem endSend_locus (s : State) (c id : Nat) (x : Send) (status : Nat) : (endSend s c id x status).locus = s.locus := by
  simp [endSend]

@[simp] theorem endLoop_locus (s : State) (c id status : Nat) : (endLoop s c id status).locus = s.locus := by
  unfold endLoop
  (repeat' split) <;> simp

/-! The functions of Machine/FlagOps.lean. -/

@[simp] theorem flagEff_locus (op : FlagOp) (s : State) (n : Nat) (b : Bool) (v : Word) : (flagEff op s n b v).locus = s.locus := rfl

@[simp] theorem ftestEff_locus (s : State) (n : Nat) (b : Bool) (v : Word) : (ftestEff s n b v).locus = s.locus := rfl

@[simp] theorem fwaitEff_locus (s : State) (n : Nat) (b : Bool) (v : Word) : (fwaitEff s n b v).locus = s.locus := rfl

@[simp] theorem garriveEff_locus (s : State) (n : Nat) (b : Bool) (v : Word) : (garriveEff s n b v).locus = s.locus := rfl

@[simp] theorem gcastEff_locus (s : State) (n : Nat) (b : Bool) (v : Word) : (gcastEff s n b v).locus = s.locus := rfl

@[simp] theorem State.modGroup_locus (s : State) (part g : Nat) (f : Group → Group) : (s.modGroup part g f).locus = s.locus := by
  simp [State.modGroup]

@[simp] theorem startGarrive_locus (s : State) (c issue : Nat) (g : Garr) : (startGarrive s c issue g).locus = s.locus := by
  simp [startGarrive]

@[simp] theorem startGcast_locus (s : State) (c issue g idx add : Nat) : (startGcast s c issue g idx add).locus = s.locus := by
  unfold startGcast
  split <;> simp

@[simp] theorem ginfoEff_locus (s : State) (n : Nat) (b : Bool) (v : Word) : (ginfoEff s n b v).locus = s.locus := rfl

/-! The functions of Machine/LoadStore.lean. -/

@[simp] theorem loadEff_locus (l : Core → LsLoad) (s : State) (n : Nat) (b : Bool) (v : Word) : (loadEff l s n b v).locus = s.locus := by
  simp only [loadEff]
  split <;> simp

@[simp] theorem storeAt_locus (s : State) (c owner n : Nat) (peer : Bool) (w : StoreW) : (storeAt s c owner n peer w).locus = s.locus := rfl

@[simp] theorem storeEff_locus (size : Nat) (s : State) (n : Nat) (b : Bool) (v : Word) : (storeEff size s n b v).locus = s.locus := rfl

@[simp] theorem stlabEff_locus (s : State) (n : Nat) (b : Bool) (v : Word) : (stlabEff s n b v).locus = s.locus := rfl

@[simp] theorem stcapEff_locus (s : State) (n : Nat) (b : Bool) (v : Word) : (stcapEff s n b v).locus = s.locus := rfl

@[simp] theorem capEff_locus (f : State → Nat → Cap → Word → Cap) (s : State) (n : Nat) (b : Bool) (v : Word) :
    (capEff f s n b v).locus = s.locus := rfl

@[simp] theorem inspectEff_locus (f : Cap → Word) (s : State) (n : Nat) (b : Bool) (v : Word) : (inspectEff f s n b v).locus = s.locus :=
    rfl

@[simp] theorem cmoveEff_locus (s : State) (n : Nat) (b : Bool) (v : Word) : (cmoveEff s n b v).locus = s.locus := by
  simp only [cmoveEff]
  split <;> simp

@[simp] theorem State.setHand_locus (s : State) (owner i : Nat) (e : HandEnt) : (s.setHand owner i e).locus = s.locus := rfl

@[simp] theorem handEff_locus (s : State) (n : Nat) (b : Bool) (v : Word) : (handEff s n b v).locus = s.locus := by
  simp only [handEff]
  split <;> simp

@[simp] theorem handDone_locus (s : State) (owner i h : Nat) : (handDone s owner i h).locus = s.locus := by
  simp only [handDone]
  split <;> simp

/-! The functions of Machine/Vector.lean. -/

@[simp] theorem vaEff_locus (u k : Nat) (op : VaOp) (n : Nat) (e : Ext) (s : State) (m : Nat) (b : Bool) (v : Word) :
    (vaEff u k op n e s m b v).locus = s.locus := rfl

@[simp] theorem State.busyFor_locus (s : State) (c r n : Nat) : (s.busyFor c r n).locus = s.locus := rfl

@[simp] theorem sfEff_locus (op : SfOp) (e : Ext) (s : State) (n : Nat) (b : Bool) (v : Word) : (sfEff op e s n b v).locus = s.locus := rfl

/-! The functions of Machine/VectorMem.lean. -/

@[simp] theorem vmLast_locus (s : State) (c : Nat) (e : Ext) (d a b : Bool) : (vmLast s c e d a b).locus = s.locus := rfl

@[simp] theorem vmLdEff_locus (e : Ext) (s : State) (n : Nat) (b : Bool) (v : Word) : (vmLdEff e s n b v).locus = s.locus := by
  simp only [vmLdEff]
  split <;> simp

@[simp] theorem vmStEff_locus (e : Ext) (s : State) (n : Nat) (b : Bool) (v : Word) : (vmStEff e s n b v).locus = s.locus := rfl

@[simp] theorem gatherFrom_locus (s : State) (c : Nat) (e : Ext) (v : Word) (k : Core) (l : List Nat) :
    (gatherFrom s c e v k l).locus = s.locus := by
  induction l generalizing s with
  | nil => rfl
  | cons x xs ih =>
    simp only [gatherFrom, ih]
    split <;> simp

@[simp] theorem vmLdxEff_locus (e : Ext) (s : State) (n : Nat) (b : Bool) (v : Word) : (vmLdxEff e s n b v).locus = s.locus := by
  simp only [vmLdxEff]
  split <;> simp

@[simp] theorem scatterTo_locus (s : State) (c : Nat) (e : Ext) (v : Word) (k : Core) (due : Nat) (l : List Nat) :
    (scatterTo s c e v k due l).locus = s.locus := by
  induction l generalizing s with
  | nil => rfl
  | cons x xs ih => simp [scatterTo, ih]

@[simp] theorem vmStxEff_locus (e : Ext) (s : State) (n : Nat) (b : Bool) (v : Word) : (vmStxEff e s n b v).locus = s.locus := by
  simp [vmStxEff]

@[simp] theorem vmMovEff_locus (e : Ext) (s : State) (n : Nat) (b : Bool) (v : Word) : (vmMovEff e s n b v).locus = s.locus := by
  unfold vmMovEff
  split <;> simp

@[simp] theorem vmBcastEff_locus (e : Ext) (s : State) (n : Nat) (b : Bool) (v : Word) : (vmBcastEff e s n b v).locus = s.locus := rfl

@[simp] theorem vmLaneEff_locus (e : Ext) (s : State) (n : Nat) (b : Bool) (v : Word) : (vmLaneEff e s n b v).locus = s.locus := by
  unfold vmLaneEff
  split <;> simp

@[simp] theorem vmPermEff_locus (e : Ext) (s : State) (n : Nat) (b : Bool) (v : Word) : (vmPermEff e s n b v).locus = s.locus := rfl

@[simp] theorem vmShufEff_locus (e : Ext) (s : State) (n : Nat) (b : Bool) (v : Word) : (vmShufEff e s n b v).locus = s.locus := rfl

@[simp] theorem vmConvEff_locus (op : ConvOp) (e : Ext) (s : State) (n : Nat) (b : Bool) (v : Word) :
    (vmConvEff op e s n b v).locus = s.locus := rfl

@[simp] theorem vmDecodeEff_locus (e : Ext) (s : State) (n : Nat) (b : Bool) (v : Word) : (vmDecodeEff e s n b v).locus = s.locus := by
  simp only [vmDecodeEff]
  split <;> simp

@[simp] theorem vmEncodeEff_locus (e : Ext) (s : State) (n : Nat) (b : Bool) (v : Word) : (vmEncodeEff e s n b v).locus = s.locus := by
  simp [vmEncodeEff]

@[simp] theorem vmPushEff_locus (e : Ext) (s : State) (n : Nat) (b : Bool) (v : Word) : (vmPushEff e s n b v).locus = s.locus := by
  simp only [vmPushEff]
  split <;> simp

@[simp] theorem vmPopEff_locus (e : Ext) (s : State) (n : Nat) (b : Bool) (v : Word) : (vmPopEff e s n b v).locus = s.locus := rfl

@[simp] theorem maskEff_locus (f : Mask → Mask → Mask) (e : Ext) (s : State) (n : Nat) (b : Bool) (v : Word) :
    (maskEff f e s n b v).locus = s.locus := rfl

@[simp] theorem mcountEff_locus (e : Ext) (s : State) (n : Nat) (b : Bool) (v : Word) : (mcountEff e s n b v).locus = s.locus := rfl

@[simp] theorem lendEff_locus (on : Bool) (s : State) (n : Nat) (b : Bool) (v : Word) : (lendEff on s n b v).locus = s.locus := rfl

@[simp] theorem setfmtEff_locus (e : Ext) (s : State) (n : Nat) (b : Bool) (v : Word) : (setfmtEff e s n b v).locus = s.locus := rfl

/-! The functions of Machine/PressOps.lean. -/

@[simp] theorem caskReads_locus (s : State) (c : Nat) (v : Word) (n m : Nat) : (caskReads s c v n m).locus = s.locus := by
  fun_induction caskReads s c v n m <;> simp_all

@[simp] theorem caskEff_locus (s : State) (n : Nat) (b : Bool) (v : Word) : (caskEff s n b v).locus = s.locus := by simp [caskEff]

@[simp] theorem passReads_locus (s : State) (c : Nat) (v : Word) (zeroFirst : Bool) (w n m : Nat) :
    (passReads s c v zeroFirst w n m).locus = s.locus := by
  fun_induction passReads s c v zeroFirst w n m <;> simp_all

@[simp] theorem mmEff_locus (zeroFirst : Bool) (s : State) (n : Nat) (b : Bool) (v : Word) : (mmEff zeroFirst s n b v).locus = s.locus := by
  simp [mmEff]

@[simp] theorem zeroEff_locus (s : State) (n : Nat) (b : Bool) (v : Word) : (zeroEff s n b v).locus = s.locus := rfl

/-! The functions of Machine/Control.lean. -/

@[simp] theorem State.modLatch_locus (s : State) (c : Nat) (f : Latch → Latch) : (s.modLatch c f).locus = s.locus := rfl

@[simp] theorem State.setCtl_locus (s : State) (c : Nat) (x : Ctl) : (s.setCtl c x).locus = s.locus := rfl

@[simp] theorem State.setSys_locus (s : State) (c : Nat) (x : Ctl) : (s.setSys c x).locus = s.locus := rfl

@[simp] theorem brEff_locus (s : State) (n : Nat) (b : Bool) (v : Word) : (brEff s n b v).locus = s.locus := rfl

@[simp] theorem jumpEff_locus (kind : Xfer) (s : State) (n : Nat) (b : Bool) (v : Word) : (jumpEff kind s n b v).locus = s.locus := rfl

@[simp] theorem retEff_locus (s : State) (n : Nat) (b : Bool) (v : Word) : (retEff s n b v).locus = s.locus := rfl

@[simp] theorem loopEff_locus (s : State) (n : Nat) (b : Bool) (v : Word) : (loopEff s n b v).locus = s.locus := rfl

@[simp] theorem rotEff_locus (s : State) (n : Nat) (b : Bool) (v : Word) : (rotEff s n b v).locus = s.locus := rfl

@[simp] theorem lockEff_locus (s : State) (n : Nat) (b : Bool) (v : Word) : (lockEff s n b v).locus = s.locus := rfl

@[simp] theorem endtaskEff_locus (s : State) (n : Nat) (b : Bool) (v : Word) : (endtaskEff s n b v).locus = s.locus := rfl

@[simp] theorem trapEff_locus (s : State) (n : Nat) (b : Bool) (v : Word) : (trapEff s n b v).locus = s.locus := rfl

/-! The functions of Machine/System.lean. -/

@[simp] theorem syOut_locus (s : State) (c n : Nat) : (syOut s c n).locus = s.locus := rfl

@[simp] theorem csrrEff_locus (s : State) (n : Nat) (b : Bool) (v : Word) : (csrrEff s n b v).locus = s.locus := rfl

@[simp] theorem csrEff_locus (kind : CsrKind) (s : State) (n : Nat) (b : Bool) (v : Word) : (csrEff kind s n b v).locus = s.locus := rfl

@[simp] theorem ecallEff_locus (s : State) (n : Nat) (b : Bool) (v : Word) : (ecallEff s n b v).locus = s.locus := rfl

@[simp] theorem tretEff_locus (s : State) (n : Nat) (b : Bool) (v : Word) : (tretEff s n b v).locus = s.locus := rfl

@[simp] theorem haltEff_locus (s : State) (n : Nat) (b : Bool) (v : Word) : (haltEff s n b v).locus = s.locus := rfl

@[simp] theorem sysEff_locus (op : Nat) (s : State) (n : Nat) (b : Bool) (v : Word) : (sysEff op s n b v).locus = s.locus := by
  unfold sysEff
  split <;> simp

@[simp] theorem startSys_locus (s : State) (c : Nat) (o : SysOp) : (startSys s c o).locus = s.locus := by
  unfold startSys
  split <;> simp

/-! The functions of Machine/Delivery.lean. -/

@[simp] theorem startMon_locus (s : State) (c id : Nat) (m : Monitor) : (startMon s c id m).locus = s.locus := by
  unfold startMon
  split <;> simp

@[simp] theorem withdrawBooking_locus (s : State) (c id : Nat) (x : Send) : (withdrawBooking s c id x).locus = s.locus := rfl

@[simp] theorem startFence_locus (s : State) (c : Nat) (f : Fence) : (startFence s c f).locus = s.locus := rfl

theorem unlessStopped_locus {s t : State} (h : t.locus = s.locus) (c : Nat) : (unlessStopped s t c).locus = s.locus := by
  unfold unlessStopped
  split
  · rfl
  · exact h

@[simp] theorem lockArrive_locus (s : State) (c g : Nat) : (lockArrive s c g).locus = s.locus := by
  unfold lockArrive
  (repeat' split) <;> simp

@[simp] theorem garriveTaken_locus (s : State) (c issue : Nat) (g : Garr) : (garriveTaken s c issue g).locus = s.locus := by
  unfold garriveTaken
  split <;> simp

@[simp] theorem deliverAct_locus (s : State) (c : Nat) (p : Pend) : (deliverAct s c p).locus = s.locus := by
  unfold deliverAct
  (repeat' split) <;> simp [unlessStopped]

@[simp] theorem deliverRanks_locus (s : State) (c : Nat) (due : List Pend) (n m : Nat) : (deliverRanks s c due n m).locus = s.locus := by
  fun_induction deliverRanks <;> simp_all [foldl_locus]

@[simp] theorem execResultDelivery_keeps (c : Nat) (s : State) : Ans.keeps (execResultDelivery c s) s.locus := by simp [execResultDelivery]

@[simp] theorem performWrite_locus (s : State) (c : Nat) (p : Pend) : (performWrite s c p).locus = s.locus := by
  unfold performWrite
  split <;> simp

@[simp] theorem addResult_locus (s : State) (c : Nat) (p : Pend) (n : Nat) (a : Act) : (addResult s c p n a).locus = s.locus := rfl

@[simp] theorem performRead_locus (s : State) (c : Nat) (p : Pend) : (performRead s c p).locus = s.locus := by
  unfold performRead
  split <;> simp

@[simp] theorem execTimedAccessPerform_keeps (c : Nat) (reads : Bool) (s : State) :
    Ans.keeps (execTimedAccessPerform c reads s) s.locus := by
  cases reads <;> simp [execTimedAccessPerform, foldl_locus]

@[simp] theorem execResourceFree_keeps (c : Nat) (s : State) : Ans.keeps (execResourceFree c s) s.locus := rfl

/-! The functions of Machine/Bundle.lean. -/

@[simp] theorem issueChecked_locus (s : State) (c : Nat) (motor : Bool) (pc h : Nat) (ps : List Parts) :
    (issueChecked s c motor pc h ps).locus = s.locus := by
  simp only [issueChecked]
  (repeat' split) <;> simp

@[simp] theorem execBundleIssue_keeps (c : Nat) (motor : Bool) (s : State) : Ans.keeps (execBundleIssue c motor s) s.locus := by
  simp only [execBundleIssue]
  (repeat' split) <;> simp

@[simp] theorem makeCall_locus (s : State) (c : Nat) (l : Latch) (code : Nat) (arg i3 : Word) :
    (makeCall s c l code arg i3).locus = s.locus := rfl

@[simp] theorem takeTrap_locus (s : State) (c : Nat) (l : Latch) (code slot : Nat) : (takeTrap s c l code slot).locus = s.locus := by
  unfold takeTrap
  (repeat' split) <;> simp

@[simp] theorem endMotor_locus (s : State) (c : Nat) : (endMotor s c).locus = s.locus := rfl

@[simp] theorem ctlEnd_locus (s : State) (c : Nat) (l : Latch) (x : Ctl) : (ctlEnd s c l x).locus = s.locus := by
  unfold ctlEnd
  (repeat' split) <;> simp

@[simp] theorem finishBundle_locus (s : State) (c : Nat) : (finishBundle s c).locus = s.locus := by
  simp only [finishBundle]
  split <;> simp

/-! The functions of Machine/Locks.lean. -/

@[simp] theorem State.modTt_locus (s : State) (part : Nat) (f : Timetable → Timetable) : (s.modTt part f).locus = s.locus := by
  simp [State.modTt]

@[simp] theorem State.modCores_locus (s : State) (f : Core → Core) (l : List Nat) : (s.modCores f l).locus = s.locus := by
  induction l generalizing s with
  | nil => rfl
  | cons x xs ih => simp [State.modCores, ih]

@[simp] theorem execLockOpen_keeps (part group : Nat) (s : State) : Ans.keeps (execLockOpen part group s) s.locus := by
  unfold execLockOpen
  (repeat' split) <;> simp

@[simp] theorem rebaseMembers_locus (s : State) (t : Timetable) (l : List Nat) : (rebaseMembers s t l).locus = s.locus := by
  induction l generalizing s with
  | nil => rfl
  | cons x xs ih => simp [rebaseMembers, ih]

@[simp] theorem State.settleIslands_locus (s : State) (pace : Nat) (l : List Nat) : (s.settleIslands pace l).locus = s.locus := by
  induction l generalizing s with
  | nil => rfl
  | cons x xs ih => simp [State.settleIslands, ih]

@[simp] theorem State.settlePart_locus (s : State) (part pace : Nat) : (s.settlePart part pace).locus = s.locus := by
  unfold State.settlePart
  split <;> simp

@[simp] theorem State.leaveTiles_locus (s : State) (part : Nat) (p : Partition) : (s.leaveTiles part p).locus = s.locus := rfl

@[simp] theorem freePartHands_locus (s : State) (part : Nat) (p : Partition) : (freePartHands s part p).locus = s.locus := rfl

@[simp] theorem rebaseAll_locus (s : State) (part : Nat) (t : Timetable) : (rebaseAll s part t).locus = s.locus := by
  unfold rebaseAll
  split <;> simp

@[simp] theorem execLockRebase_keeps (part group : Nat) (s : State) : Ans.keeps (execLockRebase part group s) s.locus := by
  unfold execLockRebase
  (repeat' split) <;> simp

@[simp] theorem lockStops_locus (s : State) (part : Nat) (p : Partition) (g : Group) (status : Nat) :
    (lockStops s part p g status).locus = s.locus := by simp [lockStops]

@[simp] theorem execLockTimeout_keeps (part group : Nat) (s : State) : Ans.keeps (execLockTimeout part group s) s.locus := by
  unfold execLockTimeout
  (repeat' split) <;> simp

@[simp] theorem execDryLock_keeps (part group : Nat) (s : State) : Ans.keeps (execDryLock part group s) s.locus := by
  unfold execDryLock
  (repeat' split) <;> simp

@[simp] theorem execGarriveRecorded_keeps (part group core : Nat) (s : State) :
    Ans.keeps (execGarriveRecorded part group core s) s.locus := by
  simp only [execGarriveRecorded]
  split <;> simp

@[simp] theorem execGroupFlagIncrement_keeps (part idx : Nat) (s : State) : Ans.keeps (execGroupFlagIncrement part idx s) s.locus := by
  unfold execGroupFlagIncrement
  (repeat' split) <;> simp

@[simp] theorem execGcastIncrement_keeps (part idx : Nat) (s : State) : Ans.keeps (execGcastIncrement part idx s) s.locus := by
  simp only [execGcastIncrement]
  (repeat' split) <;> simp

@[simp] theorem execFwaitSatisfied_keeps (core : Nat) (s : State) : Ans.keeps (execFwaitSatisfied core s) s.locus := by
  simp only [execFwaitSatisfied]
  split <;> simp

@[simp] theorem execFwaitTimeout_keeps (core : Nat) (s : State) : Ans.keeps (execFwaitTimeout core s) s.locus := by
  unfold execFwaitTimeout
  split <;> simp

@[simp] theorem execReachOverrun_keeps (core : Nat) (s : State) : Ans.keeps (execReachOverrun core s) s.locus := by
  unfold execReachOverrun
  split <;> simp

/-! The functions of Machine/Cellar.lean. -/

@[simp] theorem State.withCellar_locus (s : State) (k : Cellar) (part : Nat) : (s.withCellar k part).locus = s.locus := by
  simp [State.withCellar]

@[simp] theorem State.hitMonitors_locus (s : State) (part by_ space line : Nat) : (s.hitMonitors part by_ space line).locus = s.locus := rfl

@[simp] theorem State.logLines_locus (s : State) (part : Nat) (lines : List Nat) : (s.logLines part lines).locus = s.locus := by
  unfold State.logLines
  exact foldl_locus (fun _ _ => by simp) _ _

theorem State.putCellar_locus {s t : State} {by_ pa : Nat} {new : List Byte} {label : Option (BitVec 16)}
    (h : s.putCellar by_ pa new label = some t) : t.locus = s.locus := by
  obtain ⟨k, -, rfl⟩ := Option.map_eq_some_iff.mp h
  simp

@[simp] theorem State.putOrLog_locus (s : State) (by_ pa : Nat) (new : List Byte) (label : Option (BitVec 16)) :
    (s.putOrLog by_ pa new label).locus = s.locus := by
  unfold State.putOrLog
  cases h : s.putCellar by_ pa new label with
  | none => simp
  | some t => exact State.putCellar_locus h

@[simp] theorem State.logRead_locus (s : State) (part line : Nat) : (s.logRead part line).locus = s.locus := by
  unfold State.logRead
  split <;> simp

@[simp] theorem State.countGranule_locus (s : State) (g : Nat) : (s.countGranule g).locus = s.locus := rfl

@[simp] theorem State.countAccess_locus (s : State) (first pa n : Nat) : (s.countAccess first pa n).locus = s.locus := by
  unfold State.countAccess
  exact foldl_locus (fun _ _ => by simp) _ _

@[simp] theorem State.cache_locus (s : State) (part line : Nat) : (s.cache part line).locus = s.locus := by
  unfold State.cache
  split <;> simp

@[simp] theorem State.uncache_locus (s : State) (part : Nat) (gone : Nat → Bool) : (s.uncache part gone).locus = s.locus := rfl

@[simp] theorem State.giveUp_locus (s : State) (part : Nat) (lines : List Nat) : (s.giveUp part lines).locus = s.locus := rfl

@[simp] theorem State.putHost_locus (s : State) (part by_ ga : Nat) (new : List Byte) : (s.putHost part by_ ga new).locus = s.locus := by
  have hit := foldl_locus fun (s : State) l => s.hitMonitors_locus part by_ 4 l
  simp [State.putHost, hit]

@[simp] theorem State.hostWrites_locus (s : State) (part : Nat) (l : List (Nat × Byte)) : (s.hostWrites part l).locus = s.locus := by
  induction l generalizing s with
  | nil => rfl
  | cons x xs ih => simp [State.hostWrites, ih]

@[simp] theorem State.readCellar_locus (s : State) (lines : List Nat) : (s.readCellar lines).locus = s.locus := rfl

@[simp] theorem State.readHost_locus (s : State) (part line : Nat) : (s.readHost part line).locus = s.locus := rfl

@[simp] theorem State.logIntegrity_locus (s : State) (c part pa : Nat) : (s.logIntegrity c part pa).locus = s.locus := by
  simp [State.logIntegrity]

@[simp] theorem State.logFence_locus (s : State) (part pa : Nat) : (s.logFence part pa).locus = s.locus := rfl

/-! The functions of Machine/Sealing.lean. -/

@[simp] theorem State.takeFree_locus (s : State) : (s.takeFree).2.locus = s.locus := rfl

@[simp] theorem freeIv_locus (s : State) : (freeIv s).2.locus = s.locus := rfl

/-! The functions of Machine/Translate.lean. -/

@[simp] theorem State.fillFirst_locus (s : State) (c tag key e : Nat) : (s.fillFirst c tag key e).locus = s.locus := rfl

@[simp] theorem State.fillCluster_locus (s : State) (c part space key e : Nat) : (s.fillCluster c part space key e).locus = s.locus := by
  unfold State.fillCluster
  split <;> simp

@[simp] theorem lookup_locus (s : State) (c part space va : Nat) : (lookup s c part space va).1.locus = s.locus := by
  simp only [lookup]
  (repeat' split) <;> simp

theorem meetMigration_locus (s : State) (part va : Nat) (wr : Bool) (t : State) :
    (meetMigration s part va wr) = some t → t.locus = s.locus := by
  grind [meetMigration, State.modPart_locus]

@[simp] theorem translate_locus (s : State) (c part space va : Nat) (wr : Bool) : (translate s c part space va wr).1.locus = s.locus := by
  grind [translate, !lookup_locus, meetMigration_locus]

@[simp] theorem resolveFor_locus (s : State) (part c : Nat) (cap : Cap) (off : Nat) (wr : Bool) :
    (resolveFor s part c cap off wr).1.locus = s.locus := by
  unfold resolveFor
  (repeat' split) <;> simp

@[simp] theorem resolve_locus (s : State) (c : Nat) (cap : Cap) (off : Nat) (wr : Bool) : (resolve s c cap off wr).1.locus = s.locus := by
  simp [resolve]

@[simp] theorem resolveAllFor_locus (s : State) (part c : Nat) (cap : Cap) (wr : Bool) (l : List (Nat × Nat)) :
    (resolveAllFor s part c cap wr l).1.locus = s.locus := by
  induction l generalizing s with
  | nil => rfl
  | cons x l ih =>
    unfold resolveAllFor
    split
    · next e =>
      have first := locus_of_pair (resolveFor_locus ..) e
      split <;> next e => exact (locus_of_pair (ih _) e).trans first
    · next e => exact locus_of_pair (resolveFor_locus ..) e

@[simp] theorem resolveAll_locus (s : State) (c : Nat) (cap : Cap) (wr : Bool) (rs : List (Nat × Nat)) :
    (resolveAll s c cap wr rs).1.locus = s.locus := by simp [resolveAll]

theorem writePlace_locus {s t : State} {c : Nat} {p : Place} {bs : List Byte} {label : Option (BitVec 16)}
    (h : writePlace s c p bs label = .ok t) : t.locus = s.locus := by
  unfold writePlace at h
  split at h
  · cases h; rfl
  · split at h
    · next e => cases h; exact State.putCellar_locus e
    · cases h
  · cases h; simp

theorem writePlaces_locus {s t : State} {c : Nat} {l : List (Place × Nat)} {bs : List Byte} {label : Option (BitVec 16)}
    (h : writePlaces s c l bs label = .ok t) : t.locus = s.locus := by
  induction l generalizing s bs with
  | nil => cases h; rfl
  | cons x l ih =>
    unfold writePlaces at h
    split at h
    · next e => exact (ih h).trans (writePlace_locus e)
    · cases h

@[simp] theorem markPlace_locus (s : State) (p : Place) : (markPlace s p).locus = s.locus := by
  unfold markPlace
  split <;> simp

@[simp] theorem haveRead_locus (s : State) (ps : List (Place × Nat)) : (haveRead s ps).locus = s.locus := by
  unfold haveRead
  exact foldl_locus (fun _ _ => by simp) _ _

@[simp] theorem countPlaces_locus (s : State) (first va : Nat) (l : List (Place × Nat)) : (countPlaces s first va l).locus = s.locus := by
  induction l generalizing s va with
  | nil => rfl
  | cons x l ih =>
    simp only [countPlaces, ih]
    split <;> simp

@[simp] theorem dropTlb_locus (s : State) (part : Nat) (gone : Nat → Nat → Bool) : (dropTlb s part gone).locus = s.locus := rfl

@[simp] theorem execTlbinvComplete_keeps (part : Nat) (s : State) : Ans.keeps (execTlbinvComplete part s) s.locus := by
  unfold execTlbinvComplete
  (repeat' split) <;> simp

/-! The functions of Machine/FrameMem.lean. -/

@[simp] theorem logSpace_locus (s : State) (part va n : Nat) : (logSpace s part va n).locus = s.locus := by
  unfold logSpace
  split <;> simp

@[simp] theorem countSpace_locus (s : State) (part va n : Nat) : (countSpace s part va n).locus = s.locus := by
  refine foldl_locus (fun s r => ?_) _ s
  simp only []
  split <;> simp

@[simp] theorem markLine_locus (s : State) (part va : Nat) : (markLine s part va).locus = s.locus := by simp [markLine]

@[simp] theorem putSpace_locus (s : State) (part by_ va : Nat) (bs : List Byte) (label : Option (BitVec 16)) :
    (putSpace s part by_ va bs label).locus = s.locus := by
  unfold putSpace
  split <;> simp

@[simp] theorem writeFrame_locus (s : State) (part by_ va : Nat) (m : Store Byte) (n : Nat) :
    (writeFrame s part by_ va m n).locus = s.locus := by
  induction n generalizing s with
  | zero => rfl
  | succ n ih => simp [writeFrame, ih]

@[simp] theorem frameBytes_locus (s : State) (part by_ va off : Nat) (bs : List Byte) :
    (frameBytes s part by_ va off bs).locus = s.locus := by simp [frameBytes]

@[simp] theorem frameFlag_locus (s : State) (part by_ va f inc : Nat) : (frameFlag s part by_ va f inc).locus = s.locus := by
  simp [frameFlag]

@[simp] theorem frameUntag_locus (s : State) (part by_ va off n : Nat) : (frameUntag s part by_ va off n).locus = s.locus := by
  unfold frameUntag
  exact foldl_locus (fun _ _ => by split <;> simp) _ _

@[simp] theorem framePad_locus (s : State) (part by_ va off : Nat) (bs : List Byte) (label : Option (BitVec 16)) :
    (framePad s part by_ va off bs label).locus = s.locus := by
  unfold framePad
  split <;> simp

@[simp] theorem framePut_locus (s : State) (part by_ va off n v : Nat) : (framePut s part by_ va off n v).locus = s.locus := by
  simp [framePut]

@[simp] theorem frameJournal_locus (s : State) (part by_ va target reply addr : Nat) :
    (frameJournal s part by_ va target reply addr).locus = s.locus := by simp [frameJournal]

@[simp] theorem journalReply_locus (s : State) (part c target : Nat) (reply : Word) (va slot : Nat) :
    (journalReply s part c target reply va slot).locus = s.locus := by
  simp only [journalReply]
  (repeat' split) <;> simp

@[simp] theorem poisonCtx_locus (s : State) (part slot : Nat) : (poisonCtx s part slot).locus = s.locus := by
  simp only [poisonCtx]
  (repeat' split) <;> simp [foldl_locus]

/-! The functions of Machine/RackEngine.lean. -/

@[simp] theorem pageFault_locus (s : State) (c : Nat) (mon : Bool) (idx kind space va : Nat) (wr : Bool) :
    (pageFault s c mon idx kind space va wr).locus = s.locus := by
  simp only [pageFault]
  split <;> simp

@[simp] theorem rackStop_locus (s : State) (c id : Nat) (r : Rack) (x : Stop) : (rackStop s c id r x).locus = s.locus := by
  unfold rackStop
  split <;> simp

theorem payHost_locus (s : State) (c n : Nat) (t : State) : (payHost s c n) = some t → t.locus = s.locus := by
  grind [payHost, payTokens_locus]

@[simp] theorem payEach_locus (s : State) (c n m : Nat) : (payEach s c n m).1.locus = s.locus := by
  induction n generalizing s m with
  | zero => rfl
  | succ n ih =>
    unfold payEach
    split
    · next h => exact (ih _ _).trans (payHost_locus _ _ _ _ h)
    · rfl

@[simp] theorem payPart_locus (s : State) (c id : Nat) (r : Rack) (need : Nat) : (payPart s c id r need).1.locus = s.locus := by
  simp only [payPart]
  split <;> simp

@[simp] theorem breakLine_locus (s : State) (ps : List (Place × Nat)) : (breakLine s ps).locus = s.locus := by
  unfold breakLine
  split <;> simp

@[simp] theorem releaseRead_locus (s : State) (c id : Nat) (cap : Cap) (off n : Nat) : (releaseRead s c id cap off n).locus = s.locus := by
  unfold releaseRead
  split <;> simp

@[simp] theorem copyLineOf_locus (s : State) (c id : Nat) (r : Rack) (env : LineEnv) : (copyLineOf s c id r env).locus = s.locus := by
  grind [copyLineOf, !resolveAll_locus, rackStop_locus, State.modCore_locus, !payPart_locus, breakLine_locus, releaseRead_locus,
    haveRead_locus, countPlaces_locus]

@[simp] theorem partSlots_locus (s : State) (c : Nat) (j : RackJob) (l : Nat) : (partSlots s c j l).1.locus = s.locus := by
  grind [partSlots, !resolveAll_locus]

@[simp] theorem readyLine_locus (s : State) (c : Nat) (j : RackJob) (l : Nat) : (readyLine s c j l).1.locus = s.locus := by
  unfold readyLine
  split
  · next e => exact locus_of_pair (resolveAll_locus ..) e
  · next e =>
    have first := locus_of_pair (resolveAll_locus ..) e
    split
    · next e => exact (locus_of_pair (resolveAll_locus ..) e).trans first
    · next e =>
      have second := (locus_of_pair (resolveAll_locus ..) e).trans first
      split
      · next e => exact (locus_of_pair (partSlots_locus ..) e).trans second
      · next e => exact (locus_of_pair (partSlots_locus ..) e).trans second
      · next e =>
        have third := (locus_of_pair (partSlots_locus ..) e).trans second
        split <;> exact third

@[simp] theorem readyLines_locus (s : State) (c : Nat) (j : RackJob) (n l : Nat) : (readyLines s c j n l).1.locus = s.locus := by
  induction n generalizing s l with
  | zero => rfl
  | succ n ih =>
    unfold readyLines
    split
    · next e => exact locus_of_pair (readyLine_locus ..) e
    · next e =>
      have first := locus_of_pair (readyLine_locus ..) e
      split
      · exact first
      · split
        · next e =>
          split
          · exact first
          · exact (locus_of_pair (ih _ _) e).trans first
        · next e =>
          split
          · exact (locus_of_pair (ih _ _) e).trans first
          · exact first

@[simp] theorem resolveRuns_locus (s : State) (c : Nat) (wr : Bool) (l : List Run) : (resolveRuns s c wr l).1.locus = s.locus := by
  induction l generalizing s with
  | nil => rfl
  | cons x l ih =>
    unfold resolveRuns
    split
    · next e => exact locus_of_pair (resolveAll_locus ..) e
    · next e =>
      have first := locus_of_pair (resolveAll_locus ..) e
      split <;> next e => exact (locus_of_pair (ih _) e).trans first

@[simp] theorem readyPart_locus (s : State) (c : Nat) (r : Rack) (p : Part) : (readyPart s c r p).1.locus = s.locus := by
  grind [readyPart, !readyLines_locus, !resolveRuns_locus, !resolveAll_locus]

@[simp] theorem releasePart_locus (s : State) (c id : Nat) (r : Rack) (p : Part) : (releasePart s c id r p).locus = s.locus := by
  simp only [releasePart]
  (repeat' split) <;> simp [foldl_locus]

@[simp] theorem countPart_locus (s : State) (r : Rack) (p : Part) (rd : Ready) : (countPart s r p rd).locus = s.locus := by
  simp [countPart, foldl_locus]

@[simp] theorem partRead_locus (s : State) (r : Rack) (rd : Ready) : (partRead s r rd).locus = s.locus := by simp [partRead]

@[simp] theorem advanceRack_locus (s : State) (c id : Nat) (r : Rack) (p : Part) (rd : Ready) (blk : Held) (st : BitVec 4) :
    (advanceRack s c id r p rd blk st).locus = s.locus := by simp [advanceRack]

theorem writeSlots_locus {s t : State} {c : Nat} {rd : Ready} (h : writeSlots s c rd = .ok t) : t.locus = s.locus := by
  grind [writeSlots, writePlaces_locus]

theorem writeLabelled_locus {s t : State} {c : Nat} {l : List (Place × Nat)} {labels : List (Option (BitVec 16))} {bs : List Byte}
    (h : writeLabelled s c l labels bs = .ok t) : t.locus = s.locus := by
  induction l generalizing s labels bs with
  | nil => cases h; rfl
  | cons x l ih =>
    unfold writeLabelled at h
    split at h
    · next e => exact (ih h).trans (writePlace_locus e)
    · cases h

@[simp] theorem writePart_locus (s : State) (c id : Nat) (r : Rack) (p : Part) (rd : Ready) (bs : List Byte)
    (labels : List (Option (BitVec 16))) (st : BitVec 4) : (writePart s c id r p rd bs labels st).locus = s.locus := by
  unfold writePart
  split
  · simp
  · next e =>
    split
    · simp
    · next e2 => simp [writeLabelled_locus e2, writeSlots_locus e]

theorem movePart_locus {s0 s : State} (h : s0.locus = s.locus) (c id : Nat) (r : Rack) (p : Part) (rd : Ready) (env : LineEnv) :
    (movePart s0 s c id r p rd env).locus = s.locus := by
  simp only [movePart]
  split
  · simp
  · split
    · simp
    · split
      · exact h
      · split <;> next e =>
          have paid := locus_of_pair (payPart_locus ..) e
          (repeat' split) <;> simp [paid]

@[simp] theorem boundsFault_locus (s : State) (c id : Nat) (r : Rack) (idx : Nat) : (boundsFault s c id r idx).locus = s.locus := by
  simp [boundsFault]

@[simp] theorem startUpTo_locus (s : State) (c seq : Nat) : (startUpTo s c seq).locus = s.locus := rfl

@[simp] theorem readList_locus (s : State) (c id : Nat) : (readList s c id).locus = s.locus := by
  simp only [readList]
  split <;> simp

@[simp] theorem readLists_locus (s : State) (c : Nat) : (readLists s c).locus = s.locus := by
  unfold readLists
  exact foldl_locus (fun _ _ => by simp) _ _

@[simp] theorem rackPart_locus (s : State) (c id : Nat) (env : LineEnv) : (rackPart s c id env).locus = s.locus := by
  grind [rackPart, copyLineOf_locus, boundsFault_locus, !readyPart_locus, rackStop_locus, movePart_locus]

@[simp] theorem execRackLineTransfer_keeps (core rack : Nat) (env : LineEnv) (s : State) :
    Ans.keeps (execRackLineTransfer core rack env s) s.locus := by
  simp only [execRackLineTransfer]
  (repeat' split) <;> simp

@[simp] theorem dropFaults_locus (s : State) (c : Nat) (mon : Bool) (idx : Nat) : (dropFaults s c mon idx).locus = s.locus := by
  simp [dropFaults]

@[simp] theorem endRack_locus (s : State) (c id : Nat) : (endRack s c id).locus = s.locus := by simp [endRack]

@[simp] theorem execRackComplete_keeps (core rack : Nat) (s : State) : Ans.keeps (execRackComplete core rack s) s.locus := by
  simp only [execRackComplete]
  split <;> simp

@[simp] theorem endMonitor_locus (s : State) (c id : Nat) (m : Monitor) : (endMonitor s c id m).locus = s.locus := rfl

@[simp] theorem armMonitor_locus (s : State) (c id : Nat) (m : Monitor) : (armMonitor s c id m).locus = s.locus := by
  grind [armMonitor, State.modCore_locus, !translate_locus, payHost_locus, State.cache_locus, pageFault_locus, endMonitor_locus,
    State.logFence_locus, State.logIntegrity_locus]

@[simp] theorem execMonitorArmed_keeps (core mon : Nat) (s : State) : Ans.keeps (execMonitorArmed core mon s) s.locus := by
  simp only [execMonitorArmed]
  (repeat' split) <;> simp

@[simp] theorem execMonitorFire_keeps (core mon : Nat) (s : State) : Ans.keeps (execMonitorFire core mon s) s.locus := by
  simp only [execMonitorFire]
  split <;> simp

@[simp] theorem replyNow_locus (s : State) (c : Nat) (mon : Bool) (idx : Nat) (abort : Bool) :
    (replyNow s c mon idx abort).locus = s.locus := by
  simp only [replyNow]
  (repeat' split) <;> simp

@[simp] theorem faultReply_locus (s : State) (c : Nat) (mon : Bool) (idx : Nat) (abort : Bool) :
    (faultReply s c mon idx abort).locus = s.locus := by
  simp only [faultReply]
  (repeat' split) <;> simp

@[simp] theorem execFaultReplyResume_keeps (core : Nat) (mon : Bool) (idx : Nat) (s : State) :
    Ans.keeps (execFaultReplyResume core mon idx s) s.locus := by simp [execFaultReplyResume]

@[simp] theorem execFaultReplyAbort_keeps (core : Nat) (mon : Bool) (idx : Nat) (s : State) :
    Ans.keeps (execFaultReplyAbort core mon idx s) s.locus := by simp [execFaultReplyAbort]

@[simp] theorem dropPage_locus (s : State) (part va : Nat) : (dropPage s part va).locus = s.locus := rfl

@[simp] theorem writeEntry_locus (s : State) (part a e : Nat) : (writeEntry s part a e).locus = s.locus := by simp [writeEntry]

@[simp] theorem copyLine_locus (s : State) (part old new i : Nat) : (copyLine s part old new i).locus = s.locus := by
  simp only [copyLine]
  split <;> simp

@[simp] theorem moveMonitors_locus (s : State) (part va frame : Nat) : (moveMonitors s part va frame).locus = s.locus := rfl

@[simp] theorem copyLines_locus (s : State) (part old new marked : Nat) : (copyLines s part old new marked).locus = s.locus := by
  unfold copyLines
  exact foldl_locus (fun _ _ => by simp) _ _

@[simp] theorem migrateStep_locus (s : State) (part va frame a : Nat) (m : Option Migration) (phase : MigPhase) :
    (migrateStep s part va frame a m phase).locus = s.locus := by
  unfold migrateStep
  (repeat' split) <;> simp only [State.modPart_locus, copyLines_locus, dropPage_locus, writeEntry_locus, moveMonitors_locus]

@[simp] theorem execPageMigration_keeps (part va frame : Nat) (phase : MigPhase) (s : State) :
    Ans.keeps (execPageMigration part va frame phase s) s.locus := by
  unfold execPageMigration
  (repeat' split) <;> simp

@[simp] theorem putRuns_locus (s : State) (pa : Nat) (l : List (Nat × Nat)) (l2 : List Byte) : (putRuns s pa l l2).locus = s.locus := by
  fun_induction putRuns s pa l l2 <;> simp_all

@[simp] theorem execHostCxlMemWrite_keeps (pa : Nat) (data : List Byte) (s : State) :
    Ans.keeps (execHostCxlMemWrite pa data s) s.locus := by
  unfold execHostCxlMemWrite
  split <;> simp

/-! The functions of Machine/Traps.lean. -/

@[simp] theorem execTrapHandlerEntry_keeps (core : Nat) (s : State) : Ans.keeps (execTrapHandlerEntry core s) s.locus := by
  unfold execTrapHandlerEntry
  split <;> simp

@[simp] theorem replyCall_locus (s : State) (c : Nat) (r : TrapRec) (v : Word) : (replyCall s c r v).locus = s.locus := by
  unfold replyCall
  split <;> simp

@[simp] theorem replySuspended_locus (s : State) (part slot c recId : Nat) (v : Word) (saved : Core) :
    (replySuspended s part slot c recId v saved).locus = s.locus := by
  simp only [replySuspended]
  (repeat' split) <;> simp

@[simp] theorem execEcallReply_keeps (core recId : Nat) (v : Word) (s : State) : Ans.keeps (execEcallReply core recId v s) s.locus := by
  simp only [execEcallReply]
  (repeat' split) <;> simp

@[simp] theorem resumeButty_locus (s : State) (c pc : Nat) : (resumeButty s c pc).locus = s.locus := rfl

@[simp] theorem execButtyResumeAt_keeps (core : Nat) (s : State) : Ans.keeps (execButtyResumeAt core s) s.locus := by
  unfold execButtyResumeAt
  split <;> simp

@[simp] theorem execButtyResumeNext_keeps (core : Nat) (s : State) : Ans.keeps (execButtyResumeNext core s) s.locus := by
  simp only [execButtyResumeNext]
  (repeat' split) <;> simp

@[simp] theorem execButtyEnd_keeps (core : Nat) (s : State) : Ans.keeps (execButtyEnd core s) s.locus := by
  unfold execButtyEnd
  split <;> simp

/-! The functions of Machine/Keeper.lean. -/

@[simp] theorem State.note_locus (s : State) (part op queue slot status : Nat) (cmd : Option Cmd) :
    (s.note part op queue slot status cmd).locus = s.locus := by
  unfold State.note
  (repeat' split) <;> simp

@[simp] theorem writeOwed_locus (s : State) (part : Nat) (p : Partition) (cmd : Cmd) (cls detail : Nat) :
    (writeOwed s part p cmd cls detail).locus = s.locus := by simp [writeOwed]

@[simp] theorem writeCompletion_locus (s : State) (part : Nat) (p : Partition) (cmd : Cmd) (cls detail : Nat) :
    (writeCompletion s part p cmd cls detail).locus = s.locus := by simp [writeCompletion]

@[simp] theorem complete_locus (s : State) (part : Nat) (cmd : Cmd) (cls detail : Nat) :
    (complete s part cmd cls detail).locus = s.locus := by
  unfold complete
  (repeat' split) <;> simp

@[simp] theorem payGranules_locus (s : State) (part n m : Nat) : (payGranules s part n m).1.locus = s.locus := by
  induction n generalizing s m with
  | zero => rfl
  | succ n ih =>
    unfold payGranules
    split
    · next h => exact (ih _ _).trans (payTokens_locus _ _ _ _ _ h)
    · rfl

@[simp] theorem payKeeper_locus (s : State) (part n : Nat) : (payKeeper s part n).1.locus = s.locus := by
  unfold payKeeper
  split <;> simp

@[simp] theorem whenPaid_locus (s : State) (part n : Nat) (go : State → State) (h : ∀ u, (go u).locus = u.locus) :
    (whenPaid s part n go).locus = s.locus := by
  simp only [whenPaid]
  split <;> simp [h]

@[simp] theorem completeOwed_locus (s : State) (part : Nat) (cmd : Cmd) (cls detail : Nat) :
    (completeOwed s part cmd cls detail).locus = s.locus := by
  simp only [completeOwed]
  split <;> simp

@[simp] theorem payOwed_locus (s : State) (part : Nat) : (payOwed s part).locus = s.locus := by
  unfold payOwed
  (repeat' split) <;> simp

@[simp] theorem execHostQueueNotify_keeps (part q : Nat) (tail : BitVec 16) (writes : List (Nat × Byte)) (s : State) :
    Ans.keeps (execHostQueueNotify part q tail writes s) s.locus := by
  simp only [execHostQueueNotify]
  (repeat' split) <;> simp

@[simp] theorem execQueueEnableWrite_keeps (part q : Nat) (v : Byte) (s : State) : Ans.keeps (execQueueEnableWrite part q v s) s.locus := by
  simp only [execQueueEnableWrite]
  (repeat' split) <;> simp

@[simp] theorem execQueueErrClear_keeps (part q : Nat) (s : State) : Ans.keeps (execQueueErrClear part q s) s.locus := by
  simp [execQueueErrClear]

@[simp] theorem execQueuePageWrite_keeps (part q : Nat) (field : QueueField) (v : Word) (s : State) :
    Ans.keeps (execQueuePageWrite part q field v s) s.locus := by simp [execQueuePageWrite]

@[simp] theorem logImage_locus (s : State) (part image : Nat) : (logImage s part image).locus = s.locus := by
  unfold logImage
  split <;> simp

@[simp] theorem loadWindows_locus (s : State) (p : Partition) (m : Image) (n : Nat) : (loadWindows s p m n).locus = s.locus := by
  induction n generalizing s with
  | zero => rfl
  | succ n ih => simp [loadWindows, ih]

@[simp] theorem freeReceive_locus (s : State) (first n : Nat) : (freeReceive s first n).locus = s.locus := by
  induction n generalizing s with
  | zero => rfl
  | succ n ih => simp [freeReceive, ih]

@[simp] theorem armTasks_locus (s : State) (p : Partition) (m : Image) (t0 n : Nat) : (armTasks s p m t0 n).locus = s.locus := by
  induction n generalizing s with
  | zero => rfl
  | succ n ih => simp [armTasks, ih]

@[simp] theorem armLaunch_locus (s : State) (part : Nat) (p : Partition) (cmd : Cmd) (m : Image) (t0 : Nat) :
    (armLaunch s part p cmd m t0).locus = s.locus := by simp [armLaunch]

@[simp] theorem execLaunchCommit_keeps (part : Nat) (servo : Option Nat) (s : State) :
    Ans.keeps (execLaunchCommit part servo s) s.locus := by
  simp only [execLaunchCommit]
  (repeat' split) <;> simp

@[simp] theorem execTaskStart_keeps (core : Nat) (s : State) : Ans.keeps (execTaskStart core s) s.locus := by
  unfold execTaskStart
  split <;> simp

@[simp] theorem scanQueues_locus (s : State) (part : Nat) (l : List Nat) : (scanQueues s part l).locus = s.locus := by
  induction l generalizing s with
  | nil => rfl
  | cons x l ih =>
    simp only [scanQueues, ih]
    (repeat' split) <;> simp

@[simp] theorem takeEntry_locus (s : State) (part q : Nat) (p : Partition) : (takeEntry s part q p).locus = s.locus := by
  simp only [takeEntry]
  (repeat' split) <;> simp

@[simp] theorem selectNext_locus (s : State) (part : Nat) (p : Partition) : (selectNext s part p).locus = s.locus := by
  simp only [selectNext, whenPaid]
  split
  · split
    · simp
    · split
      · split <;> simp
      · simp
  · rfl

@[simp] theorem execSelectTimetable_keeps (part : Nat) (s : State) : Ans.keeps (execSelectTimetable part s) s.locus := by
  simp only [execSelectTimetable]
  (repeat' split) <;> simp

@[simp] theorem placeHold_locus (s : State) (part : Nat) (why : HoldReason) : (placeHold s part why).locus = s.locus := by simp [placeHold]

@[simp] theorem execKeeperHold_keeps (part : Nat) (why : HoldReason) (s : State) : Ans.keeps (execKeeperHold part why s) s.locus := by
  unfold execKeeperHold
  (repeat' split) <;> simp

@[simp] theorem reloadTasks_locus (s : State) (m : Image) (tasks : List Task) : (reloadTasks s m tasks).locus = s.locus := by
  unfold reloadTasks
  exact foldl_locus (fun _ _ => by simp) _ _

@[simp] theorem holdWork_locus (s : State) (part : Nat) (t : Timetable) (why : HoldReason) : (holdWork s part t why).locus = s.locus := by
  unfold holdWork
  (repeat' split) <;> simp

@[simp] theorem releaseHold_locus (s : State) (part : Nat) (h : Hold) : (releaseHold s part h).locus = s.locus := by simp [releaseHold]

@[simp] theorem execKeeperHoldRelease_keeps (part : Nat) (s : State) : Ans.keeps (execKeeperHoldRelease part s) s.locus := by
  unfold execKeeperHoldRelease
  (repeat' split) <;> simp

@[simp] theorem endTimetable_locus (s : State) (part : Nat) (p : Partition) (t : Timetable) (cls detail : Nat) :
    (endTimetable s part p t cls detail).locus = s.locus := by simp [endTimetable]

@[simp] theorem execTimetableComplete_keeps (part : Nat) (s : State) : Ans.keeps (execTimetableComplete part s) s.locus := by
  unfold execTimetableComplete
  (repeat' split) <;> simp

@[simp] theorem stopCore_locus (s : State) (c status : Nat) : (stopCore s c status).locus = s.locus := by
  unfold stopCore
  exact foldl_locus (fun _ _ => by simp) _ _

@[simp] theorem stopCores_locus (s : State) (status : Nat) (l : List Nat) : (stopCores s status l).locus = s.locus := by
  induction l generalizing s with
  | nil => rfl
  | cons x l ih =>
    simp [stopCores, ih]

@[simp] theorem State.unhold_locus (s : State) (ts : List Transfer) : (s.unhold ts).locus = s.locus := rfl

@[simp] theorem haltTimetable_locus (s : State) (part : Nat) (t : Timetable) (status : Nat) :
    (haltTimetable s part t status).locus = s.locus := by simp [haltTimetable]

@[simp] theorem execTimetableStop_keeps (part status : Nat) (s : State) : Ans.keeps (execTimetableStop part status s) s.locus := by
  unfold execTimetableStop
  (repeat' split) <;> simp

/-! The functions of Machine/FabricEvents.lean. -/

@[simp] theorem State.setPort_locus (s : State) (p : Nat) (x : Port) : (s.setPort p x).locus = s.locus := rfl

@[simp] theorem spill_locus (s : State) (c id n : Nat) : (spill s c id n).locus = s.locus := by
  unfold spill
  split <;> simp

@[simp] theorem spillSlot_locus (s : State) (p n : Nat) (l : List Booking) : (spillSlot s p n l).locus = s.locus := by
  induction l generalizing s with
  | nil => rfl
  | cons x l ih =>
    simp only [spillSlot, ih]
    (repeat' split) <;> simp

@[simp] theorem spillRest_locus (s : State) (p n : Nat) (l : List Booking) : (spillRest s p n l).locus = s.locus := by
  induction l generalizing s with
  | nil => rfl
  | cons x xs ih =>
    simp only [spillRest, ih]
    split <;> simp

@[simp] theorem spillShare_locus (s : State) (p n : Nat) (done l : List Booking) : (spillShare s p n done l).locus = s.locus := by
  fun_induction spillShare s p n done l <;> simp_all

@[simp] theorem execSlotBeacon_keeps (port : Nat) (named : Option Nat) (s : State) : Ans.keeps (execSlotBeacon port named s) s.locus := by
  simp only [execSlotBeacon]
  (repeat' split) <;> simp

@[simp] theorem readFor_locus (s : State) (c : Nat) (x : Send) : (readFor s c x).locus = s.locus := by
  simp only [readFor]
  split <;> simp

@[simp] theorem departFlits_locus (s : State) (c id : Nat) (x : Send) (f n : Nat) : (departFlits s c id x f n).locus = s.locus := by
  simp [departFlits]

@[simp] theorem departHead_locus (s : State) (c id : Nat) (x : Send) : (departHead s c id x).locus = s.locus := by
  unfold departHead
  (repeat' split) <;> simp

@[simp] theorem departTail_locus (s : State) (c id : Nat) (x : Send) : (departTail s c id x).locus = s.locus := by
  unfold departTail
  (repeat' split) <;> simp

@[simp] theorem execSendDeparture_keeps (core send : Nat) (s : State) : Ans.keeps (execSendDeparture core send s) s.locus := by
  unfold execSendDeparture
  (repeat' split) <;> simp

@[simp] theorem spillFall_locus (s : State) (p n : Nat) : (spillFall s p n).locus = s.locus := by simp [spillFall]

@[simp] theorem execPortFallback_keeps (port st : Nat) (s : State) : Ans.keeps (execPortFallback port st s) s.locus := by
  simp only [execPortFallback]
  split <;> simp

@[simp] theorem execPortRetrain_keeps (port st : Nat) (s : State) : Ans.keeps (execPortRetrain port st s) s.locus := by
  simp only [execPortRetrain]
  split <;> simp

@[simp] theorem execReceipt_keeps (core send status : Nat) (s : State) : Ans.keeps (execReceipt core send status s) s.locus := by
  unfold execReceipt
  (repeat' split) <;> simp

@[simp] theorem execFenceComplete_keeps (core : Nat) (s : State) : Ans.keeps (execFenceComplete core s) s.locus := by
  unfold execFenceComplete
  (repeat' split) <;> simp

@[simp] theorem logTarget_locus (s : State) (part : Nat) (t : Target) (off n : Nat) : (logTarget s part t off n).locus = s.locus := by
  unfold logTarget
  split <;> simp

@[simp] theorem targetPut_locus (s : State) (part : Nat) (t : Target) (off : Nat) (bs : List Byte) (label : Option (BitVec 16)) :
    (targetPut s part t off bs label).locus = s.locus := by
  unfold targetPut
  split <;> simp

@[simp] theorem targetFlag_locus (s : State) (part : Nat) (t : Target) (f inc : Nat) : (targetFlag s part t f inc).locus = s.locus := by
  unfold targetFlag
  split <;> simp

@[simp] theorem landLines_locus (s : State) (part kind : Nat) (t : Target) (map : Word) (tr : Transfer) (l : List (Nat × Nat × Nat)) :
    (landLines s part kind t map tr l).1.locus = s.locus := by
  induction l generalizing s with
  | nil => rfl
  | cons x l ih =>
    simp only [landLines, ih]
    (repeat' split) <;> simp

@[simp] theorem laterFlag_locus (s : State) (part : Nat) (t : Target) (f inc : Nat) : (laterFlag s part t f inc).locus = s.locus := by
  unfold laterFlag
  split <;> simp

@[simp] theorem landTransfer_locus (s : State) (p : Partition) (tr : Transfer) : (landTransfer s p tr).locus = s.locus := by
  simp [landTransfer]

@[simp] theorem refuseTransfer_locus (s : State) (tr : Transfer) (status : Nat) : (refuseTransfer s tr status).locus = s.locus := by
  unfold refuseTransfer
  (repeat' split) <;> simp

@[simp] theorem receive_locus (s : State) (tr : Transfer) : (receive s tr).1.locus = s.locus := by
  unfold receive
  split <;> simp

@[simp] theorem lateAfter_locus (s : State) (tr : Transfer) : (lateAfter s tr).locus = s.locus := by
  unfold lateAfter
  split <;> simp

@[simp] theorem promoteRecv_locus (s : State) (tr : Transfer) : (promoteRecv s tr).locus = s.locus := by
  unfold promoteRecv
  split <;> simp

@[simp] theorem receivePeer_locus (s : State) (tr : Transfer) : (receivePeer s tr).locus = s.locus := by simp [receivePeer]

@[simp] theorem sendReceipts_locus (s : State) : (sendReceipts s).locus = s.locus := rfl

@[simp] theorem landLoop_locus (s : State) (c id : Nat) (x : Send) : (landLoop s c id x).locus = s.locus := by
  simp only [landLoop]
  split <;> simp

@[simp] theorem execArrival_keeps (tr : Transfer) (s : State) : Ans.keeps (execArrival tr s) s.locus := by
  unfold execArrival
  (repeat' split) <;> simp

@[simp] theorem layDown_locus (s : State) (pa : Nat) (bs : List Byte) (n : Nat) : (layDown s pa bs n).locus = s.locus := by
  induction n generalizing s with
  | zero => rfl
  | succ n ih => simp [layDown, ih]

@[simp] theorem execLaybyLanding_keeps (tr : Transfer) (s : State) : Ans.keeps (execLaybyLanding tr s) s.locus := by
  unfold execLaybyLanding
  (repeat' split) <;> simp

@[simp] theorem relayItem_locus (s : State) (idx : Nat) : (relayItem s idx).locus = s.locus := by
  unfold relayItem
  (repeat' split) <;> simp

@[simp] theorem execLaybyRelay_keeps (r : Relay) (s : State) : Ans.keeps (execLaybyRelay r s) s.locus := by
  unfold execLaybyRelay
  (repeat' split) <;> simp

/-! The functions of Machine/Preempt.lean. -/

@[simp] theorem noteStep_locus (s : State) (part slot step : Nat) : (noteStep s part slot step).locus = s.locus := by simp [noteStep]

@[simp] theorem disarmMonitors_locus (s : State) (part : Nat) : (disarmMonitors s part).locus = s.locus := by
  unfold disarmMonitors
  split <;> simp

@[simp] theorem writeFrames_locus (s : State) (part : Nat) (p : Partition) (slot : Nat) (f : FrameInfo) (l : List Nat) :
    (writeFrames s part p slot f l).locus = s.locus := by
  fun_induction writeFrames s part p slot f l <;> simp_all

@[simp] theorem clearCores_locus (s : State) (l : List Nat) : (clearCores s l).locus = s.locus := by
  induction l generalizing s with
  | nil => rfl
  | cons x xs ih => simp [clearCores, ih]

@[simp] theorem saveContext_locus (s : State) (part : Nat) (p : Partition) (t : Timetable) (slot : Nat) :
    (saveContext s part p t slot).locus = s.locus := by simp [saveContext]

@[simp] theorem landHeld_locus (s : State) (part : Nat) (l : List Transfer) : (landHeld s part l).locus = s.locus := by
  induction l generalizing s with
  | nil => rfl
  | cons x xs ih => simp [landHeld, ih]

@[simp] theorem repoint_locus (s : State) (part : Nat) : (repoint s part).locus = s.locus := by
  unfold repoint
  split <;> simp

@[simp] theorem releaseCores_locus (s : State) (part : Nat) (p : Partition) : (releaseCores s part p).locus = s.locus := by
  simp [releaseCores]

@[simp] theorem stepDone_locus (s : State) (part slot n : Nat) : (stepDone s part slot n).locus = s.locus := by simp [stepDone]

@[simp] theorem preemptStep_locus (s : State) (part : Nat) (p : Partition) (t : Timetable) (n : Nat) :
    (preemptStep s part p t n).locus = s.locus := by
  unfold preemptStep
  (repeat' split) <;> simp

@[simp] theorem execPreempt_keeps (part stepNo : Nat) (s : State) : Ans.keeps (execPreempt part stepNo s) s.locus := by
  unfold execPreempt
  (repeat' split) <;> simp

@[simp] theorem execContextEligible_keeps (part slot : Nat) (s : State) : Ans.keeps (execContextEligible part slot s) s.locus := by
  simp [execContextEligible]

@[simp] theorem applyReply_locus (s : State) (c : Nat) (e : Nat × Word × Nat) : (applyReply s c e).locus = s.locus := by
  unfold applyReply
  (repeat' split) <;> simp

@[simp] theorem applyJournal_locus (s : State) (at_ : Nat → Nat) (f : Nat × Store Byte) : (applyJournal s at_ f).locus = s.locus := by
  unfold applyJournal
  exact foldl_locus (fun _ _ => by simp) _ _

@[simp] theorem fireMonitors_locus (s : State) (c : Nat) : (fireMonitors s c).locus = s.locus := by
  unfold fireMonitors
  exact foldl_locus (fun _ _ => by split <;> simp) _ _

@[simp] theorem loadFrames_locus (s : State) (x : Ctx) (img : Image) (at_ : Nat → Nat) (l : List (Nat × Store Byte)) :
    (loadFrames s x img at_ l).locus = s.locus := by
  induction l generalizing s with
  | nil => rfl
  | cons x xs ih => simp [loadFrames, ih]

@[simp] theorem endContext_locus (s : State) (part slot : Nat) (p : Partition) (x : Ctx) (status : Nat) :
    (endContext s part slot p x status).locus = s.locus := by simp [endContext]

@[simp] theorem noteRestore_locus (s : State) (part slot : Nat) (x : Ctx) (l : List Nat) :
    (noteRestore s part slot x l).locus = s.locus := by
  induction l generalizing s with
  | nil => rfl
  | cons x xs ih => simp [noteRestore, ih]

@[simp] theorem moveWindows_locus (s : State) (at_ : Nat → Nat) (first n : Nat) : (moveWindows s at_ first n).locus = s.locus := by
  induction n generalizing s with
  | zero => rfl
  | succ n ih => simp [moveWindows, ih]

@[simp] theorem rebuildWindows_locus (s : State) (p : Partition) (at_ : Nat → Nat) (m : Image) :
    (rebuildWindows s p at_ m).locus = s.locus := by simp [rebuildWindows]

@[simp] theorem restoreOn_locus (s : State) (part slot home : Nat) (p : Partition) (old : List Nat) (x : Ctx) (img : Image)
    (fs : List (Nat × Store Byte)) :
    (restoreOn s part slot home p old x img fs).locus = s.locus := by
  simp only [restoreOn]
  (repeat' split) <;> simp [foldl_locus]

@[simp] theorem logRestore_locus (s : State) (part slot : Nat) (p : Partition) (x : Ctx) (status : Nat) :
    (logRestore s part slot p x status).locus = s.locus := by
  simp only [logRestore]
  (repeat' split) <;> simp [foldl_locus]

@[simp] theorem restoreContext_locus (s : State) (part slot : Nat) (p : Partition) (x : Ctx) :
    (restoreContext s part slot p x).locus = s.locus := by
  simp only [restoreContext]
  (repeat' split) <;> simp

@[simp] theorem execRestore_keeps (part slot : Nat) (s : State) : Ans.keeps (execRestore part slot s) s.locus := by
  unfold execRestore
  (repeat' split) <;> simp

/-! The functions of Machine/SystemOps.lean. -/

@[simp] theorem sysStop_locus {α : Type} (s : State) (i : Issuer) (env : SysEnv) (x : Stop) :
    (sysStop (α := α) s i env x).1.locus = s.locus := by
  cases x <;> rfl

@[simp] theorem sysCount_locus (s : State) (i : Issuer) (first va : Nat) (ps : List (Place × Nat)) :
    (sysCount s i first va ps).locus = s.locus := by
  unfold sysCount
  split <;> simp

@[simp] theorem sysRead_locus (s : State) (i : Issuer) (env : SysEnv) (cap : Cap) (off n : Nat) :
    (sysRead s i env cap off n).1.locus = s.locus := by
  unfold sysRead
  split
  · simp
  · split
    · next e => simp [locus_of_pair (resolveAllFor_locus ..) e]
    · next e =>
      have placed := locus_of_pair (resolveAllFor_locus ..) e
      split <;> simp [placed]

@[simp] theorem sysLabels_locus (s : State) (i : Issuer) (env : SysEnv) (cap : Cap) (n : Nat) :
    (sysLabels s i env cap n).1.locus = s.locus := by
  simp only [sysLabels]
  split
  · rfl
  · split <;> next e => simp [locus_of_pair (resolveAllFor_locus ..) e]

@[simp] theorem sysWriteRuns_locus (s : State) (i : Issuer) (env : SysEnv) (cap : Cap) (first : Nat) (l : List (Nat × Nat))
    (bs : List Byte) (labels : List (Option (BitVec 16))) : (sysWriteRuns s i env cap first l bs labels).1.locus = s.locus := by
  induction l generalizing s bs labels with
  | nil => rfl
  | cons x l ih =>
    unfold sysWriteRuns
    simp only
    split
    · simp [ih]
    · split
      · next e => simp [locus_of_pair (resolveFor_locus ..) e]
      · next e =>
        have placed := locus_of_pair (resolveFor_locus ..) e
        split
        · next e => simp [ih, writePlace_locus e, placed]
        · simp [placed]

@[simp] theorem sysWrite_locus (s : State) (i : Issuer) (env : SysEnv) (cap : Cap) (off : Nat) (bs : List Byte) :
    (sysWrite s i env cap off bs).1.locus = s.locus := by simp [sysWrite]

@[simp] theorem breakAt_locus (s : State) (i : Issuer) (cap : Cap) (off : Nat) : (breakAt s i cap off).locus = s.locus := by
  unfold breakAt
  split <;> simp

@[simp] theorem meetEnv_locus (s : State) (i : Issuer) (env : SysEnv) (o : SysOp) : (meetEnv s i env o).locus = s.locus := by
  simp only [meetEnv]
  (repeat' split) <;> simp

/-- What goes on from an access leaves the locus where the access and what follows it do. -/
theorem Io.then_locus {α : Type} {x : State × Io α} {l : Nat × Nat} (hx : x.1.locus = l) (abort integrity : Nat × Nat)
    {go : State → α → SysEnd} (hgo : ∀ s v, s.locus = l → (go s v).1.locus = l) : (Io.then x abort integrity go).1.locus = l := by
  unfold Io.then
  split
  · exact hgo _ _ hx
  all_goals exact hx

@[simp] theorem State.mapSysOps_locus (s : State) (f : SysOp → SysOp) : (s.mapSysOps f).locus = s.locus := rfl

@[simp] theorem promoteStream_locus (s : State) (part : Nat) (p : Partition) (k : KeyStream) (x : Keys) :
    (promoteStream s part p k x).locus = s.locus := rfl

@[simp] theorem execKeyPromotion_keeps (part : Nat) (stream : KeyStream) (s : State) :
    Ans.keeps (execKeyPromotion part stream s) s.locus := by
  unfold execKeyPromotion
  (repeat' split) <;> simp

@[simp] theorem execCellarKeyWalk_keeps (part block : Nat) (s : State) : Ans.keeps (execCellarKeyWalk part block s) s.locus := by
  simp only [execCellarKeyWalk]
  (repeat' split) <;> simp

@[simp] theorem execRetiringKeyDestroyed_keeps (part : Nat) (stream : KeyStream) (s : State) :
    Ans.keeps (execRetiringKeyDestroyed part stream s) s.locus := by
  unfold execRetiringKeyDestroyed
  (repeat' split) <;> simp

@[simp] theorem execPendingKeyDerive_keeps (part : Nat) (stream : KeyStream) (s : State) :
    Ans.keeps (execPendingKeyDerive part stream s) s.locus := by
  unfold execPendingKeyDerive
  (repeat' split) <;> simp

@[simp] theorem State.loadPending_locus (s : State) (part : Nat) (key : List Byte) (k : KeyStream) :
    (s.loadPending part key k).locus = s.locus := by simp [State.loadPending]

@[simp] theorem endKeyld_locus (s : State) (i : Issuer) (env : SysEnv) (o : SysOp) : (endKeyld s i env o).1.locus = s.locus := by
  have load (part : Nat) (key : List Byte) := foldl_locus fun (s : State) k => s.loadPending_locus part key k
  refine Io.then_locus (sysRead_locus ..) _ _ fun s blob h => ?_
  simp only []
  (repeat' split) <;> simp [load, h]

@[simp] theorem endKeyrot_locus (s : State) (o : SysOp) : (endKeyrot s o).1.locus = s.locus := by
  unfold endKeyrot
  (repeat' split) <;> simp

@[simp] theorem payloadOf_locus (s : State) (i : Issuer) (env : SysEnv) (cap : Cap) : (payloadOf s i env cap).1.locus = s.locus := by
  grind [payloadOf, !sysRead_locus, !sysLabels_locus]

@[simp] theorem putPayload_locus (s : State) (i : Issuer) (env : SysEnv) (cap : Cap) (bs : List Byte) :
    (putPayload s i env cap bs).1.locus = s.locus := by
  grind [putPayload, State.locus_mk, State.locus_fold, State.modCore_locus, !sysWriteRuns_locus]

@[simp] theorem fillEntries_locus (s : State) (i : Issuer) (env : SysEnv) (area : Cap) (step : Nat) (l : List (List Byte)) :
    (fillEntries s i env area step l).1.locus = s.locus := by
  induction l generalizing s with
  | nil => rfl
  | cons x l ih =>
    unfold fillEntries
    split
    · next e => exact locus_of_pair (sysRead_locus ..) e
    · next e => exact locus_of_pair (sysRead_locus ..) e
    · next e => exact locus_of_pair (sysRead_locus ..) e
    · next e =>
      have first := locus_of_pair (sysRead_locus ..) e
      split
      · exact first
      · split
        · exact first
        · split
          · next e => exact (locus_of_pair (ih _) e).trans first
          · simp [ih, first]

@[simp] theorem sealShard_locus (s : State) (i : Issuer) (env : SysEnv) (o : SysOp) (p : Partition) :
    (sealShard s i env o p).1.locus = s.locus := by
  unfold sealShard
  split
  · rfl
  · refine Io.then_locus (payloadOf_locus ..) _ _ fun s pl h => ?_
    exact Io.then_locus (by simp [h]) _ _ fun s _ h => h

@[simp] theorem sealBottle_locus (s : State) (i : Issuer) (env : SysEnv) (o : SysOp) (p : Partition) :
    (sealBottle s i env o p).1.locus = s.locus := by
  simp only [sealBottle]
  split
  · rfl
  · refine Io.then_locus (sysRead_locus ..) _ _ fun s hd h => ?_
    split
    · exact h
    · refine Io.then_locus (by simp [h]) _ _ fun s draft h => ?_
      split
      · exact h
      · refine Io.then_locus (by simp [h]) _ _ fun s r h => ?_
        split
        · exact h
        · exact Io.then_locus (by simp [h]) _ _ fun s _ h => h

@[simp] theorem checkShard_locus (s : State) (i : Issuer) (env : SysEnv) (area : Cap) (key : List Byte) (step : Nat) (e : List Byte) :
    (checkShard s i env area key step e).1.locus = s.locus := by
  grind [checkShard, !sysRead_locus]

@[simp] theorem checkShards_locus (s : State) (i : Issuer) (env : SysEnv) (area : Cap) (key : List Byte) (step : Nat)
    (l : List (List Byte)) : (checkShards s i env area key step l).1.locus = s.locus := by
  induction l generalizing s with
  | nil => rfl
  | cons x l ih =>
    unfold checkShards
    split <;> next e => simp [ih, locus_of_pair (checkShard_locus ..) e]

@[simp] theorem logStep_locus (s : State) (part : Nat) (p : Partition) (status : Nat) : (logStep s part p status).locus = s.locus := by
  unfold logStep
  split <;> simp

@[simp] theorem openBottle_locus (s : State) (i : Issuer) (env : SysEnv) (o : SysOp) (p : Partition) :
    (openBottle s i env o p).1.locus = s.locus := by
  unfold openBottle
  split
  · rfl
  · refine Io.then_locus (sysRead_locus ..) _ _ fun s hd h => ?_
    split
    · exact h
    · split
      · exact h
      · refine Io.then_locus (by simp [h]) _ _ fun s b h => ?_
        (repeat' split) <;> simp [h]
        refine Io.then_locus (by simp [h]) _ _ fun s st h => ?_
        split <;> simp [h]

@[simp] theorem closeBottle_locus (s : State) (part : Nat) : (closeBottle s part).locus = s.locus := by simp [closeBottle]

@[simp] theorem pourShard_locus (s : State) (i : Issuer) (env : SysEnv) (o : SysOp) (p : Partition) (b : OpenBottle) :
    (pourShard s i env o p b).1.locus = s.locus := by
  unfold pourShard
  split
  · rfl
  · split
    · rfl
    · refine Io.then_locus (sysRead_locus ..) _ _ fun s hd h => ?_
      split
      · exact h
      · refine Io.then_locus (by simp [h]) _ _ fun s r h => ?_
        split
        · exact h
        · exact Io.then_locus (by simp [h]) _ _ fun s _ h => h

@[simp] theorem endSeal_locus (s : State) (i : Issuer) (env : SysEnv) (o : SysOp) : (endSeal s i env o).1.locus = s.locus := by
  unfold endSeal
  (repeat' split) <;> simp

@[simp] theorem endDecant_locus (s : State) (i : Issuer) (env : SysEnv) (o : SysOp) : (endDecant s i env o).1.locus = s.locus := by
  have close (x : SysEnd) : (closeOn o.part x).1.locus = x.1.locus := by
    unfold closeOn
    split <;> simp
  unfold endDecant
  (repeat' split) <;> simp [close]

@[simp] theorem markBlock_locus (s : State) (part va : Nat) : (markBlock s part va).locus = s.locus := by
  unfold markBlock
  exact foldl_locus (fun _ _ => by simp) _ _

@[simp] theorem scrubBlocks_locus (s : State) (i : Issuer) (env : SysEnv) (cap : Cap) (n m : Nat) :
    (scrubBlocks s i env cap n m).1.locus = s.locus := by
  induction n generalizing s m with
  | zero => rfl
  | succ n ih =>
    unfold scrubBlocks
    split
    · next e =>
      have placed := locus_of_pair (resolveFor_locus ..) e
      split <;> next e => simp [locus_of_pair (sysStop_locus ..) e, placed]
    · next e =>
      have placed := locus_of_pair (resolveFor_locus ..) e
      simp only [ih]
      split <;> simp [placed]

@[simp] theorem markScrubbed_locus (s : State) (o : SysOp) (core : Nat) : (markScrubbed s o core).locus = s.locus := by
  unfold markScrubbed
  split <;> simp

@[simp] theorem endScrub_locus (s : State) (i : Issuer) (env : SysEnv) (o : SysOp) : (endScrub s i env o).1.locus = s.locus := by
  simp only [endScrub]
  (repeat' split) <;> simp

/-! The functions of Machine/SystemEnd.lean. -/

@[simp] theorem endAttest_locus (s : State) (i : Issuer) (env : SysEnv) (o : SysOp) : (endAttest s i env o).1.locus = s.locus := by
  unfold endAttest
  split
  · rfl
  · exact Io.then_locus (by simp [sysWrite]) _ _ fun s _ h => h

@[simp] theorem freeNonce_locus (s : State) : (freeNonce s).2.locus = s.locus := by simp [freeNonce]

@[simp] theorem fbRequest_locus (s : State) (b : List Byte) (o : SysOp) (nonce ephemeral : List Byte) (opts : Nat) :
    (fbRequest s b o nonce ephemeral opts).1.locus = s.locus := by simp [fbRequest]

@[simp] theorem fbAnnounce_locus (s : State) (o : SysOp) : (fbAnnounce s o).1.locus = s.locus := by
  unfold fbAnnounce
  split <;> simp

@[simp] theorem fbEvidence_locus (s : State) (b : List Byte) (o : SysOp) (rep : List Byte) : (fbEvidence s b o rep).1.locus = s.locus := by
  simp only [fbEvidence]
  split <;> simp

@[simp] theorem fbSendBottle_locus (s : State) (b : List Byte) (o : SysOp) (key : List Byte) :
    (fbSendBottle s b o key).1.locus = s.locus := by
  unfold fbSendBottle
  (repeat' split) <;> simp

@[simp] theorem installBinding_locus (s : State) (b : List Byte) (o : SysOp) (cipher : List Byte) (wbase credit : Nat) :
    (installBinding s b o cipher wbase credit).1.locus = s.locus := by simp [installBinding]

@[simp] theorem fbBottle_locus (s : State) (b : List Byte) (o : SysOp) (iv sealed : List Byte) (vintage : Nat) :
    (fbBottle s b o iv sealed vintage).1.locus = s.locus := by
  simp only [fbBottle]
  (repeat' split) <;> simp

@[simp] theorem fbindStep_locus (s : State) (b : List Byte) (o : SysOp) (msg : FbindMsg) : (fbindStep s b o msg).1.locus = s.locus := by
  cases msg <;> simp only [fbindStep] <;> split <;> simp

@[simp] theorem State.putOp_locus (s : State) (core : Nat) (slot : Option Nat) (o : SysOp) (n : Option SysOp) :
    (s.putOp core slot o n).locus = s.locus := by
  unfold State.putOp
  split <;> simp

@[simp] theorem sysEnd_locus (s : State) (i : Issuer) (env : SysEnv) (o : SysOp) : (sysEnd s i env o).1.locus = s.locus := by
  have policy := Io.then_locus (sysRead_locus s i env o.acap 0 policyLen) (5, 0) (6, 0)
    (go := fun s b =>
      if policyBad s b then (s, some (1, 0, 0)) else if handleUsed s o.part b then (s, some (2, 0, 0)) else (s, none))
    fun s b h => by (repeat' split) <;> exact h
  unfold sysEnd
  (repeat' split) <;> simp [policy]

@[simp] theorem markEnded_locus (s : State) (core : Nat) (slot : Option Nat) (o : SysOp) : (markEnded s core slot o).locus = s.locus := by
  unfold markEnded
  split
  · refine foldl_locus (fun s n => ?_) _ _
    simp only []
    split <;> simp
  · rfl

@[simp] theorem finishSys_locus (s : State) (core : Nat) (slot : Option Nat) (o : SysOp) (r : Nat × Nat × Nat) :
    (finishSys s core slot o r).locus = s.locus := by
  unfold finishSys
  split <;> simp

@[simp] theorem execSystemOpComplete_keeps (core idx : Nat) (env : SysEnv) (s : State) :
    Ans.keeps (execSystemOpComplete core idx env s) s.locus := by
  simp only [execSystemOpComplete, Ans.keeps_next]
  split
  · split
    · rfl
    · split
      · next e => simp [locus_of_pair (sysEnd_locus ..) e]
      · rfl
  · rfl

@[simp] theorem execFbindExchange_keeps (core idx : Nat) (msg : FbindMsg) (s : State) :
    Ans.keeps (execFbindExchange core idx msg s) s.locus := by
  simp only [execFbindExchange, Ans.keeps_next]
  split
  · split
    · next e =>
      split
      · rfl
      · simp [locus_of_pair (sysRead_locus ..) e]
    · rfl
  · rfl

@[simp] theorem execFbindTimeout_keeps (core idx : Nat) (s : State) : Ans.keeps (execFbindTimeout core idx s) s.locus := by
  unfold execFbindTimeout
  (repeat' split) <;> simp

/-! The functions of Machine/Firmware.lean. -/

@[simp] theorem loadCore_locus (s : State) (c : Nat) (image : List Byte) (begin_ : Option Nat) :
    (loadCore s c image begin_).locus = s.locus := rfl

@[simp] theorem loadKeepers_locus (s : State) (b : Nat) : (loadKeepers s b).locus = s.locus := rfl

@[simp] theorem loadComplex_locus (s : State) (first : Nat) (image : List Byte) : (loadComplex s first image).locus = s.locus :=
  foldl_locus (fun s j => loadCore_locus s (first + j) image (some 0)) _ s

@[simp] theorem stopFor_locus (s : State) (part status : Nat) : (stopFor s part status).locus = s.locus := by
  unfold stopFor
  split <;> simp

@[simp] theorem deliverHeld_locus (s : State) (part : Nat) (l : List (Cmd × Nat × Nat)) : (deliverHeld s part l).locus = s.locus := by
  induction l generalizing s with
  | nil => rfl
  | cons x xs ih =>
    simp only [deliverHeld, ih]
    split <;> simp

@[simp] theorem deliverOwed_locus (s : State) (part : Nat) (l : List (Cmd × Nat × Nat)) : (deliverOwed s part l).locus = s.locus := by
  induction l generalizing s with
  | nil => rfl
  | cons x xs ih =>
    simp only [deliverOwed, ih]
    split <;> simp

@[simp] theorem endHold_locus (s : State) (part basin : Nat) (shadow : Bool) (owed held : List (Cmd × Nat × Nat)) :
    (endHold s part basin shadow owed held).locus = s.locus := by
  simp only [endHold]
  (repeat' split) <;> simp

@[simp] theorem resetKeepers_locus (s : State) (basin : Nat) : (resetKeepers s basin).locus = s.locus := by
  simp only [resetKeepers]
  split <;> simp

@[simp] theorem execKeeperHeartbeatTimeout_keeps (basin : Nat) (s : State) : Ans.keeps (execKeeperHeartbeatTimeout basin s) s.locus := by
  simp only [execKeeperHeartbeatTimeout]
  split <;> simp

@[simp] theorem takeOver_locus (s : State) (basin : Nat) (selfTest : Bool) : (takeOver s basin selfTest).locus = s.locus := by
  simp only [takeOver]
  split <;> simp

@[simp] theorem execKeeperTakeover_keeps (basin : Nat) (selfTest : Bool) (s : State) :
    Ans.keeps (execKeeperTakeover basin selfTest s) s.locus := by
  simp only [execKeeperTakeover]
  (repeat' split) <;> simp

@[simp] theorem execStateTableWrite_keeps (s : State) : Ans.keeps (execStateTableWrite s) s.locus := by
  unfold execStateTableWrite
  split <;> simp

@[simp] theorem reform_locus (s : State) (x : Nat × List Nat × PartCsr) : (reform s x).locus = s.locus := by
  have load := foldl_locus loadKeepers_locus
  simp [reform, load]

@[simp] theorem partsFromTable_locus (s : State) : (partsFromTable s).locus = s.locus := by
  have free := foldl_locus reform_locus
  simp only [partsFromTable, free]
  refine foldl_locus (fun s q => ?_) _ _
  split <;> simp

@[simp] theorem recoverSeeds_locus (s : State) : (recoverSeeds s).locus = s.locus := rfl

@[simp] theorem failOver_locus (s : State) (toB : Bool) : (failOver s toB).locus = s.locus := by simp [failOver]

@[simp] theorem execTowpathFailover_keeps (s : State) : Ans.keeps (execTowpathFailover s) s.locus := by
  unfold execTowpathFailover
  split <;> simp

@[simp] theorem State.reply_locus (s : State) (bs : List Byte) : (s.reply bs).locus = s.locus := rfl

@[simp] theorem State.answer_locus (s : State) (status : Nat) : (s.answer status).locus = s.locus := rfl

@[simp] theorem takeCommand_locus (s : State) (c : Command) : (takeCommand s c).locus = s.locus := rfl

@[simp] theorem command_locus (s : State) (c : Command) (op : Nat) (effect : State → State) (h : ∀ u, (effect u).locus = u.locus) :
    (command s c op effect).locus = s.locus := by
  unfold command
  split <;> simp [h]

@[simp] theorem execKeeperReset_keeps (cmd : Command) (s : State) : Ans.keeps (execKeeperReset cmd s) s.locus := by simp [execKeeperReset]

@[simp] theorem discardContexts_locus (s : State) (part status : Nat) (host : Bool) (l : List (Nat × Ctx)) :
    (discardContexts s part status host l).locus = s.locus := by
  induction l generalizing s with
  | nil => rfl
  | cons x xs ih =>
    simp only [discardContexts, ih]
    split <;> simp

@[simp] theorem scrubCores_locus (s : State) (l : List Nat) : (scrubCores s l).locus = s.locus := by
  induction l generalizing s with
  | nil => rfl
  | cons x xs ih => simp [scrubCores, ih]

@[simp] theorem scrubStacks_locus (s : State) (l : List Nat) : (scrubStacks s l).locus = s.locus := by
  induction l generalizing s with
  | nil => rfl
  | cons x xs ih => simp [scrubStacks, ih]

@[simp] theorem clearWindows_locus (s : State) (first n : Nat) : (clearWindows s first n).locus = s.locus := rfl

@[simp] theorem scrubKeepers_locus (s : State) (basins : List Nat) : (scrubKeepers s basins).locus = s.locus := by
  unfold scrubKeepers
  exact foldl_locus (fun _ _ => by simp) _ _

@[simp] theorem endGuest_locus (s : State) (p : Partition) (status : Nat) : (endGuest s p status).locus = s.locus := by
  unfold endGuest
  (repeat' split) <;> simp

@[simp] theorem scrubPartition_locus (s : State) (part status : Nat) (host : Bool) (tdi : Tdi) :
    (scrubPartition s part status host tdi).locus = s.locus := by
  unfold scrubPartition
  (repeat' split) <;> simp

@[simp] theorem reviveKeeper_locus (s : State) (b : Nat) : (reviveKeeper s b).locus = s.locus := by
  simp only [reviveKeeper]
  (repeat' split) <;> simp

@[simp] theorem reviveKeepers_locus (s : State) (bs : List Nat) : (reviveKeepers s bs).locus = s.locus := by
  unfold reviveKeepers
  exact foldl_locus (fun _ _ => by simp) _ _

@[simp] theorem execPartitionReset_keeps (cmd : Command) (s : State) : Ans.keeps (execPartitionReset cmd s) s.locus := by
  refine command_locus _ _ _ _ fun u => ?_
  split <;> simp

@[simp] theorem warmState_locus (s : State) : (warmState s).locus = s.locus := by
  simp only [warmState, State.locus_mk, State.locus_fold]

@[simp] theorem execPackageReset_keeps (cmd : Command) (s : State) : Ans.keeps (execPackageReset cmd s) s.locus := by
  simp only [execPackageReset, Ans.keeps_next]
  refine command_locus _ _ _ _ fun u => ?_
  simp only [State.answer_locus, loadComplex_locus, warmState_locus]

@[simp] theorem switchTo_locus (s : State) (f : Firmware) (toB : Bool) : (switchTo s f toB).locus = s.locus := by
  unfold switchTo
  extract_lets t old new s1 s2
  have handed : s1.locus = s.locus := State.locus_mk ..
  have loaded : s2.locus = s1.locus := loadComplex_locus ..
  rw [State.modCore_locus, State.modCore_locus, loaded, handed]

@[simp] theorem execLiveUpdate_keeps (cmd : Command) (accepts : Bool) (s : State) : Ans.keeps (execLiveUpdate cmd accepts s) s.locus := by
  simp only [execLiveUpdate, Ans.keeps_next]
  refine command_locus _ _ _ _ fun u => ?_
  split
  · split
    · exact (State.answer_locus ..).trans (switchTo_locus ..)
    · exact State.answer_locus ..
  · exact State.answer_locus ..

@[simp] theorem forceTimeouts_locus (s : State) (part : Nat) (p : Partition) (t : Timetable) (l : List Group) :
    (forceTimeouts s part p t l).locus = s.locus := by
  induction l generalizing s with
  | nil => rfl
  | cons x xs ih =>
    simp only [forceTimeouts, ih]
    split <;> simp

@[simp] theorem migrateAnswer_locus (s : State) (part : Nat) (setv : List Nat) : (migrateAnswer s part setv).locus = s.locus := rfl

@[simp] theorem execMigrate_keeps (cmd : Command) (setv : List Nat) (s : State) : Ans.keeps (execMigrate cmd setv s) s.locus := by
  refine command_locus _ _ _ _ fun u => ?_
  (repeat' split) <;> simp

@[simp] theorem execFlr_keeps (part : Nat) (s : State) : Ans.keeps (execFlr part s) s.locus := by
  unfold execFlr
  (repeat' split) <;> simp

@[simp] theorem execPageEviction_keeps (part : Nat) (page : EvictTo) (s : State) : Ans.keeps (execPageEviction part page s) s.locus := by
  unfold execPageEviction
  simp only [Ans.keeps_next]
  split
  · rfl
  · refine whenPaid_locus _ _ _ _ fun u => ?_
    split <;> simp

@[simp] theorem pageBack_locus (s : State) (part pa : Nat) (p : Partition) (k : Cellar) : (pageBack s part pa p k).locus = s.locus := by
  unfold pageBack
  rw [foldl_locus fun s l => State.hitMonitors_locus ..]
  simp

@[simp] theorem poisonOwner_locus (s : State) (part : Nat) (p : Partition) (c : Cmd) : (poisonOwner s part p c).locus = s.locus := by
  simp [poisonOwner, foldl_locus]

@[simp] theorem execPageReturn_keeps (part pa version : Nat) (macOk : Bool) (s : State) :
    Ans.keeps (execPageReturn part pa version macOk s) s.locus := by
  simp only [execPageReturn]
  (repeat' split) <;> simp

@[simp] theorem execPartitionCreate_keeps (basins : List Nat) (s : State) : Ans.keeps (execPartitionCreate basins s) s.locus := by
  have load := foldl_locus loadKeepers_locus
  simp [execPartitionCreate, load]

@[simp] theorem execPartitionDissolve_keeps (part : Nat) (s : State) : Ans.keeps (execPartitionDissolve part s) s.locus := by
  unfold execPartitionDissolve
  (repeat' split) <;> simp

@[simp] theorem execFullService_keeps (portMask stackMask basinMask : Nat) (s : State) :
    Ans.keeps (execFullService portMask stackMask basinMask s) s.locus := rfl

@[simp] theorem execCellarChannelDegrade_keeps (stack : Nat) (holds6 : Bool) (s : State) :
    Ans.keeps (execCellarChannelDegrade stack holds6 s) s.locus := by
  unfold execCellarChannelDegrade
  split <;> simp

@[simp] theorem execTileCoreUnavailable_keeps (core : Nat) (s : State) : Ans.keeps (execTileCoreUnavailable core s) s.locus := by
  unfold execTileCoreUnavailable
  split <;> simp

@[simp] theorem execPldmFirmwareUpdate_keeps (img : Firmware) (s : State) : Ans.keeps (execPldmFirmwareUpdate img s) s.locus := rfl

@[simp] theorem execPtpMessage_keeps (state terr taiNum : Nat) (s : State) : Ans.keeps (execPtpMessage state terr taiNum s) s.locus := by
  simp [execPtpMessage]

@[simp] theorem execPpsPulse_keeps (edge : Nat) (s : State) : Ans.keeps (execPpsPulse edge s) s.locus := by
  unfold execPpsPulse
  split <;> simp

@[simp] theorem execHoldover_keeps (terr : Nat) (s : State) : Ans.keeps (execHoldover terr s) s.locus := by
  unfold execHoldover
  split <;> simp

@[simp] theorem execInputVoltage_keeps (mV : Nat) (s : State) : Ans.keeps (execInputVoltage mV s) s.locus := by
  unfold execInputVoltage
  split <;> simp

@[simp] theorem execPowerLimitAssert_keeps (islands : List Nat) (s : State) : Ans.keeps (execPowerLimitAssert islands s) s.locus := rfl

@[simp] theorem execPowerLimitClear_keeps (s : State) : Ans.keeps (execPowerLimitClear s) s.locus := rfl

@[simp] theorem tripBasin_locus (s : State) (basin : Nat) : (tripBasin s basin).locus = s.locus := by simp [tripBasin]

@[simp] theorem execThermalTrip_keeps (basin : Nat) (s : State) : Ans.keeps (execThermalTrip basin s) s.locus := by
  unfold execThermalTrip
  split <;> simp

@[simp] theorem warnAll_locus (s : State) (k : HealthSrc) (idx : Nat) (l : List (Nat × Option Partition)) :
    (warnAll s k idx l).locus = s.locus := by
  fun_induction warnAll <;> simp_all

@[simp] theorem execFailureWarning_keeps (src : HealthSrc) (idx : Nat) (s : State) : Ans.keeps (execFailureWarning src idx s) s.locus := by
  unfold execFailureWarning
  split <;> simp

@[simp] theorem execHealthEvent_keeps (src : HealthInput) (idx : Nat) (s : State) : Ans.keeps (execHealthEvent src idx s) s.locus := by
  unfold execHealthEvent
  (repeat' split) <;> simp

@[simp] theorem execHealthWindowEnd_keeps (s : State) : Ans.keeps (execHealthWindowEnd s) s.locus := by
  unfold execHealthWindowEnd
  split <;> simp

/-! The functions of Machine/Bottling.lean. -/

@[simp] theorem releaseBottle_locus (s : State) (part : Nat) : (releaseBottle s part).locus = s.locus := by
  unfold releaseBottle
  (repeat' split) <;> simp

@[simp] theorem beginBottle_locus (s : State) (part : Nat) (p : Partition) : (beginBottle s part p).locus = s.locus := by
  grind [beginBottle, countSpace_locus, logSpace_locus, releaseBottle_locus, State.log_locus, State.setPart_locus, disarmMonitors_locus]

@[simp] theorem putLines_locus (s : State) (part by_ va : Nat) (bs : List Byte) (n : Nat) :
    (putLines s part by_ va bs n).locus = s.locus := by
  induction n generalizing s with
  | zero => rfl
  | succ n ih => simp [putLines, ih]

@[simp] theorem bottleShard_locus (s : State) (part : Nat) (p : Partition) (b : BottleJob) (e : Nat × Nat) :
    (bottleShard s part p b e).locus = s.locus := by
  simp only [bottleShard]
  split <;> simp

@[simp] theorem bottleNext_locus (s : State) (part : Nat) (p : Partition) (b : BottleJob) (e : Nat × Nat) :
    (bottleNext s part p b e).locus = s.locus := by
  unfold bottleNext
  split <;> simp

@[simp] theorem bottleDone_locus (s : State) (part : Nat) (p : Partition) (b : BottleJob) : (bottleDone s part p b).locus = s.locus := by
  simp [bottleDone]

@[simp] theorem execKeeperBottling_keeps (part : Nat) (phase : BottlePhase) (s : State) :
    Ans.keeps (execKeeperBottling part phase s) s.locus := by
  unfold execKeeperBottling
  (repeat' split) <;> simp

/-! The functions of Machine/CsrEvents.lean. -/

@[simp] theorem execArithWrite_keeps (core : Nat) (kind : CsrKind) (v : Word) (s : State) :
    Ans.keeps (execArithWrite core kind v s) s.locus := rfl

@[simp] theorem execAstatWrite_keeps (core : Nat) (kind : CsrKind) (v : Word) (s : State) :
    Ans.keeps (execAstatWrite core kind v s) s.locus := rfl

@[simp] theorem execCfoldWrite_keeps (core : Nat) (kind : CsrKind) (v : Word) (s : State) :
    Ans.keeps (execCfoldWrite core kind v s) s.locus := by simp [execCfoldWrite]

@[simp] theorem execForiginWrite_keeps (core : Nat) (kind : CsrKind) (v : Word) (s : State) :
    Ans.keeps (execForiginWrite core kind v s) s.locus := by simp [execForiginWrite]

@[simp] theorem execFshareWrite_keeps (core port : Nat) (kind : CsrKind) (v : Word) (s : State) :
    Ans.keeps (execFshareWrite core port kind v s) s.locus := by simp [execFshareWrite]

@[simp] theorem execBudgetWrite_keeps (core : Nat) (layby : Bool) (kind : CsrKind) (v : Word) (s : State) :
    Ans.keeps (execBudgetWrite core layby kind v s) s.locus := by simp [execBudgetWrite]

@[simp] theorem execFwinWrite_keeps (core : Nat) (kind : CsrKind) (v : Word) (s : State) :
    Ans.keeps (execFwinWrite core kind v s) s.locus := by simp [execFwinWrite]

@[simp] theorem execReachlimWrite_keeps (core : Nat) (kind : CsrKind) (v : Word) (s : State) :
    Ans.keeps (execReachlimWrite core kind v s) s.locus := by simp [execReachlimWrite]

@[simp] theorem execLpatienceWrite_keeps (core : Nat) (kind : CsrKind) (v : Word) (s : State) :
    Ans.keeps (execLpatienceWrite core kind v s) s.locus := by simp [execLpatienceWrite]

@[simp] theorem execTaskcapWrite_keeps (core : Nat) (kind : CsrKind) (v : Word) (s : State) :
    Ans.keeps (execTaskcapWrite core kind v s) s.locus := by simp [execTaskcapWrite]

@[simp] theorem execHthreshWrite_keeps (core : Nat) (kind : CsrKind) (v : Word) (s : State) :
    Ans.keeps (execHthreshWrite core kind v s) s.locus := by simp [execHthreshWrite]

@[simp] theorem execTlbinvWrite_keeps (core : Nat) (kind : CsrKind) (v : Word) (s : State) :
    Ans.keeps (execTlbinvWrite core kind v s) s.locus := by simp [execTlbinvWrite]

@[simp] theorem execRegisterWrite_keeps (core num : Nat) (kind : CsrKind) (v : Word) (s : State) :
    Ans.keeps (execRegisterWrite core num kind v s) s.locus := by simp [execRegisterWrite]

/-! The functions of Machine/Scalar.lean. -/

@[simp] theorem scalarEff_locus (u port n : Nat) (f : Word → Word → Word → Word) (s : State) (m : Nat) (b : Bool) (v : Word) :
    (scalarEff u port n f s m b v).locus = s.locus := rfl

@[simp] theorem compareEff_locus (u : Nat) (f : Word → Word → Bool) (s : State) (n : Nat) (b : Bool) (v : Word) :
    (compareEff u f s n b v).locus = s.locus := rfl

/-! The functions of Machine/Tdisp.lean. -/

@[simp] theorem lockInterface_locus (s : State) (part : Nat) : (lockInterface s part).locus = s.locus := by simp [lockInterface]

@[simp] theorem startInterface_locus (s : State) (part : Nat) : (startInterface s part).locus = s.locus := by simp [startInterface]

@[simp] theorem stopInterface_locus (s : State) (part : Nat) : (stopInterface s part).locus = s.locus := by
  unfold stopInterface
  (repeat' split) <;> simp

@[simp] theorem interfaceReport_locus (s : State) (part : Nat) : (interfaceReport s part).locus = s.locus := by
  unfold interfaceReport
  split <;> simp

@[simp] theorem execLockInterfaceRequest_keeps (part : Nat) (s : State) : Ans.keeps (execLockInterfaceRequest part s) s.locus := by
  simp [execLockInterfaceRequest]

@[simp] theorem execStartInterfaceRequest_keeps (part : Nat) (s : State) : Ans.keeps (execStartInterfaceRequest part s) s.locus := by
  simp [execStartInterfaceRequest]

@[simp] theorem execStopInterfaceRequest_keeps (part : Nat) (s : State) : Ans.keeps (execStopInterfaceRequest part s) s.locus := by
  simp [execStopInterfaceRequest]

@[simp] theorem execGetDeviceInterfaceReport_keeps (part : Nat) (s : State) : Ans.keeps (execGetDeviceInterfaceReport part s) s.locus := by
  simp [execGetDeviceInterfaceReport]

@[simp] theorem treeFailure_locus (s : State) (part stack level idx : Nat) : (treeFailure s part stack level idx).locus = s.locus := by
  unfold treeFailure
  split <;> simp

@[simp] theorem enterError_locus (s : State) (part : Nat) : (enterError s part).locus = s.locus := by
  unfold enterError
  (repeat' split) <;> simp

@[simp] theorem execTdiError_keeps (f : TdiFault) (s : State) : Ans.keeps (execTdiError f s) s.locus := by
  unfold execTdiError
  split <;> simp

@[simp] theorem State.modSpdm_locus (s : State) (f : Spdm → Spdm) : (s.modSpdm f).locus = s.locus := rfl

@[simp] theorem respond_locus (s : State) (code : Nat) (content : List Byte) : (respond s code content).locus = s.locus := rfl

@[simp] theorem respondError_locus (s : State) : (respondError s).locus = s.locus := rfl

theorem whenReady_locus {s go : State} (h : go.locus = s.locus) : (whenReady s go).locus = s.locus := by
  unfold whenReady
  split
  · exact h
  · simp

theorem inSession_locus {s : State} {go : Session → State} (h : ∀ x, (go x).locus = s.locus) (id : Nat) :
    (inSession s id go).locus = s.locus := by
  unfold inSession
  (repeat' split) <;> simp [h]

@[simp] theorem execGetVersion_keeps (s : State) : Ans.keeps (execGetVersion s) s.locus := rfl

@[simp] theorem execGetCapabilities_keeps (s : State) : Ans.keeps (execGetCapabilities s) s.locus := by
  unfold execGetCapabilities
  split <;> simp

@[simp] theorem execNegotiateAlgorithms_keeps (algs : List Nat) (s : State) : Ans.keeps (execNegotiateAlgorithms algs s) s.locus := by
  unfold execNegotiateAlgorithms
  split <;> simp

@[simp] theorem execGetDigests_keeps (s : State) : Ans.keeps (execGetDigests s) s.locus := whenReady_locus (respond_locus _ _ _)

@[simp] theorem execGetCertificate_keeps (offset len : Nat) (s : State) : Ans.keeps (execGetCertificate offset len s) s.locus :=
  whenReady_locus (respond_locus _ _ _)

@[simp] theorem execChallenge_keeps (nonce : List Byte) (s : State) : Ans.keeps (execChallenge nonce s) s.locus :=
  whenReady_locus (respond_locus _ _ _)

@[simp] theorem execGetMeasurements_keeps (nonce : List Byte) (signed : Bool) (s : State) :
    Ans.keeps (execGetMeasurements nonce signed s) s.locus := whenReady_locus (by simp)

@[simp] theorem execKeyExchange_keeps (sess : Nat) (psk : Bool) (exchange : List Byte) (s : State) :
    Ans.keeps (execKeyExchange sess psk exchange s) s.locus := whenReady_locus (by simp)

@[simp] theorem execFinish_keeps (sess : Nat) (verified : Bool) (s : State) : Ans.keeps (execFinish sess verified s) s.locus := by
  unfold execFinish
  (repeat' split) <;> simp

@[simp] theorem execKeyUpdate_keeps (sess : Nat) (s : State) : Ans.keeps (execKeyUpdate sess s) s.locus :=
  inSession_locus (fun _ => by simp) sess

@[simp] theorem execHeartbeat_keeps (sess : Nat) (s : State) : Ans.keeps (execHeartbeat sess s) s.locus :=
  inSession_locus (fun _ => respond_locus _ _ _) sess

@[simp] theorem execEndSession_keeps (sess : Nat) (s : State) : Ans.keeps (execEndSession sess s) s.locus :=
  inSession_locus (fun _ => by simp) sess

@[simp] theorem setSeed_locus (s : State) (sess part : Nat) (cipher : List Byte) : (setSeed s sess part cipher).locus = s.locus := by
  unfold setSeed
  (repeat' split) <;> simp

@[simp] theorem execVendorDefinedRequest_keeps (sess : Nat) (req : VendorReq) (s : State) :
    Ans.keeps (execVendorDefinedRequest sess req s) s.locus := inSession_locus (fun _ => by cases req <;> simp) sess

/-! Every instruction. -/

set_option maxRecDepth 8000 in
/-- A slot operation leaves the locus alone. -/
theorem exec_slot_keeps {i : Instr} {h : Head} {dst : BitVec 10} {e : Option Ext} (p : slotParts i = some (h, dst, e)) (s : State) :
    Ans.keeps (exec i s) s.locus := by
  cases i
  case nop => rfl
  case queuePush h q => exact slotOp_keeps (eff := fun s c _ v => s.schedule c 1 (.push q.toNat v)) (fun _ _ _ _ => by simp) ..
  case streamReset h => exact slotOp_keeps (eff := fun s c _ _ => s.schedule c 1 .sbreset) (fun _ _ _ _ => by simp) ..
  case ctBrk h => exact slotOp_keeps (eff := fun s _ _ _ => s) (fun _ _ _ _ => rfl) ..
  case prMode h => exact slotOp_keeps (eff := fun s c _ v => s.schedule c 1 (.pmode (bits v 2 0))) (fun _ _ _ _ => by simp) ..
  case prFmt h =>
    exact slotOp_keeps (eff := fun s c _ v => s.schedule c 1 (.pfmt (selFmt (s.core c) (bits v 3 0)) (selFmt (s.core c) (bits v 7 4))))
      (fun _ _ _ _ => by simp) ..
  case prBusy h => exact slotOp_keeps (eff := fun s c _ _ => s.schedule c 1 (.busyWord (busyAsked s c))) (fun _ _ _ _ => by simp) ..
  all_goals cases p <;> exact slotOp_keeps (fun _ _ _ _ => by simp) ..

set_option maxRecDepth 8000 in
/-- An event but a cold reset leaves the locus alone. -/
theorem exec_event_keeps {i : Instr} (p : slotParts i = none) (h : ∀ okA okB, i ≠ .coldReset okA okB) (s : State) :
    Ans.keeps (exec i s) s.locus := by
  cases i
  case coldReset okA okB => exact absurd rfl (h okA okB)
  all_goals cases p
  all_goals dsimp only [exec]
  all_goals simp

/-- An answer that goes on leaves the package where l has it, and its tick too, or the tick at zero (01 R18). -/
def Ans.keepsOrResets (a : Ans State) (l : Nat × Nat) : Prop := Ans.keeps a l ∨ Ans.keeps a (l.1, 0)

theorem execColdReset_resets (okA okB : Bool) (s : State) : Ans.keeps (execColdReset okA okB s) (s.position, 0) := by
  unfold execColdReset
  extract_lets w t r r1 r2
  have placed : w.position = s.position := congrArg Prod.fst (warmState_locus s)
  have zeroed : r.locus = (s.position, 0) := by rw [← placed]; exact State.locus_mk ..
  have loadedA : r1.locus = r.locus := by
    unfold r1
    split
    · exact loadComplex_locus ..
    · rfl
  have loadedB : r2.locus = r1.locus := by
    unfold r2
    split
    · exact loadComplex_locus ..
    · rfl
  have kept : r2.locus = (s.position, 0) := loadedB.trans (loadedA.trans zeroed)
  rw [Ans.keeps_next]
  split
  · exact kept
  · exact (State.log_locus ..).trans kept

theorem exec_keepsOrResets (i : Instr) (s : State) : Ans.keepsOrResets (exec i s) s.locus := by
  by_cases h : ∃ okA okB, i = .coldReset okA okB
  · obtain ⟨okA, okB, rfl⟩ := h
    exact .inr (execColdReset_resets okA okB s)
  · push Not at h
    cases p : slotParts i with
    | none => exact .inl (exec_event_keeps p h s)
    | some x => exact .inl (exec_slot_keeps p s)

/-! What each boundary evaluates. -/

/-- A candidate for the next event, where there is one, leaves the package in its place. -/
def Placed (f : State → Option (Ans State)) : Prop := ∀ s a, f s = some a → Ans.keepsOrResets a s.locus

theorem keeps_of_map {α : Type} {o : Option α} {f : α → Ans State} {a : Ans State} {l : Nat × Nat} (h : ∀ x, Ans.keeps (f x) l)
    (e : o.map f = some a) : Ans.keepsOrResets a l := by
  obtain ⟨x, -, rfl⟩ := Option.map_eq_some_iff.mp e
  exact .inl (h x)

theorem takeAgenda_placed (ok : Instr → Bool) : Placed fun s => takeAgenda s ok := by
  intro s a e
  obtain ⟨x, -, rfl⟩ := Option.map_eq_some_iff.mp e
  split
  · exact .inl rfl
  · exact exec_keepsOrResets _ _

theorem nextWrite_placed : Placed nextWrite := fun _ _ e => keeps_of_map (fun _ => by simp) e

theorem nextResult_placed : Placed nextResult := by
  intro s a e
  unfold nextResult at e
  split at e
  · cases e
    exact .inl (by simp)
  · exact keeps_of_map (fun _ => by simp) e

theorem nextRead_placed : Placed nextRead := fun _ _ e => keeps_of_map (fun _ => by simp) e

theorem nextGarrive_placed : Placed nextGarrive := fun _ _ e => keeps_of_map (fun _ => by simp) e

theorem nextFence_placed : Placed nextFence := fun _ _ e => keeps_of_map (fun _ => by simp) e

theorem nextWait_placed : Placed nextWait := by
  intro s a e
  unfold nextWait at e
  split at e
  · cases e
    exact .inl (by simp)
  · exact keeps_of_map (fun _ => by simp) e

theorem nextLock_placed : Placed nextLock := by
  intro s a e
  unfold nextLock at e
  split at e <;> cases e <;> exact .inl (by simp)

theorem nextBottle_placed : Placed nextBottle := fun _ _ e => keeps_of_map (fun _ => by simp) e

theorem nextTakeover_placed : Placed nextTakeover := by
  intro s a e
  have drawn : s.takeFree.2.locus = s.locus := by simp
  rw [← drawn]
  exact keeps_of_map (fun _ => execKeeperTakeover_keeps ..) e

theorem nextOwed_placed : Placed nextOwed := fun _ _ e => keeps_of_map (fun _ => by simp) e

theorem nextKeeper_placed : Placed nextKeeper := by
  intro s a e
  unfold nextKeeper at e
  split at e <;> cases e <;> exact .inl (by simp)

theorem nextPeriod_placed : Placed nextPeriod := by
  intro s a e
  unfold nextPeriod at e
  split at e
  · cases e
    exact .inl (by simp)
  · split at e <;> cases e
    exact .inl (by simp)

theorem nextUpkeep_placed : Placed nextUpkeep := by
  intro s a e
  unfold nextUpkeep at e
  split at e
  · cases e
    exact .inl (by simp)
  · split at e
    · cases e
      exact .inl (by simp)
    · exact keeps_of_map (fun _ => by simp) e

theorem nextEligible_placed : Placed nextEligible := fun _ _ e => keeps_of_map (fun _ => by simp) e

theorem nextRetire_placed : Placed nextRetire := fun _ _ e => keeps_of_map (fun _ => by simp) e

theorem nextPending_placed : Placed nextPending := fun _ _ e => keeps_of_map (fun _ => by simp) e

theorem nextSend_placed : Placed nextSend := fun _ _ e => keeps_of_map (fun _ => by simp) e

theorem nextLoop_placed : Placed nextLoop := fun _ _ e => keeps_of_map (fun _ => by simp) e

theorem nextBacklog_placed : Placed nextBacklog := by
  intro s a e
  have cut (n : Nat) : ({ s with backlog := s.backlog.eraseIdx n } : State).locus = s.locus := State.locus_mk ..
  exact keeps_of_map (fun x => by rw [← cut x.2]; exact execArrival_keeps ..) e

theorem nextReceipt_placed : Placed nextReceipt := by
  intro s a e
  unfold nextReceipt at e
  split at e <;> cases e
  exact .inl (by simp)

theorem nextRelay_placed : Placed nextRelay := fun _ _ e => keeps_of_map (fun _ => by simp) e

theorem nextIssue_placed : Placed nextIssue := by
  intro s a e
  unfold nextIssue at e
  split at e
  · cases e
    exact .inl (by simp)
  · cases e
    refine .inl ?_
    split
    · simp
    · split <;> simp
  · cases e

theorem firstOf_placed {fs : List (State → Option (Ans State))} (h : ∀ f ∈ fs, Placed f) : Placed (firstOf fs) := by
  intro s a e
  induction fs with
  | nil => cases e
  | cons f fs ih =>
    unfold firstOf at e
    split at e
    · next found => cases e; exact h f List.mem_cons_self s a found
    · exact ih (fun g m => h g (List.mem_cons_of_mem f m)) e

theorem heldEvents_placed : ∀ f ∈ heldEvents, Placed f := by
  simp only [heldEvents, List.forall_mem_singleton]
  exact takeAgenda_placed boardEvent

theorem boundaryEvents_placed : ∀ f ∈ boundaryEvents, Placed f := by
  have agenda : Placed nextAgenda := takeAgenda_placed _
  simp [boundaryEvents, agenda, nextWrite_placed, nextResult_placed, nextPeriod_placed, nextLoop_placed, nextBacklog_placed,
    nextRead_placed, nextGarrive_placed, nextFence_placed, nextWait_placed, nextBottle_placed, nextLock_placed, nextKeeper_placed,
    nextTakeover_placed, nextOwed_placed, nextUpkeep_placed, nextEligible_placed, nextRetire_placed, nextPending_placed,
    nextReceipt_placed, nextRelay_placed, nextSend_placed, nextIssue_placed]

/-! The step. -/

theorem runLatch_keepsOrResets (s : State) : Ans.keepsOrResets (runLatch s) s.locus := by
  simp only [runLatch]
  split
  · exact .inl (by simp)
  · split
    · exact exec_keepsOrResets _ (s.modCore s.cur _)
    · exact .inl trivial

theorem nextEvent_cases (s : State) : Ans.keepsOrResets (nextEvent s) s.locus ∨ nextEvent s = .next (advance s) := by
  have placed : Placed (firstOf (if s.inReset then heldEvents else boundaryEvents)) := by
    split
    · exact firstOf_placed heldEvents_placed
    · exact firstOf_placed boundaryEvents_placed
  unfold nextEvent
  cases e : firstOf (if s.inReset then heldEvents else boundaryEvents) s with
  | none => exact .inr rfl
  | some a => exact .inl (placed s a e)

theorem step_cases (s : State) : Ans.keepsOrResets (step s) s.locus ∨ step s = .next (advance s) := by
  unfold step
  split
  · exact .inl (runLatch_keepsOrResets s)
  · exact nextEvent_cases s

/-- Settles O59: an instruction or event keeps the position and the tick, but that a cold reset sets the tick to zero; where there is
none, the tick passes. -/
theorem placeAndClock : Obligations.PlaceAndClock := by
  unfold Obligations.PlaceAndClock
  intro s t e
  rcases step_cases s with (kept | reset) | passed
  · rw [e] at kept
    obtain ⟨place, tick⟩ := Prod.ext_iff.mp kept
    exact ⟨place, .inl ⟨tick.ge, by simp only [State.locus] at tick; omega⟩⟩
  · rw [e] at reset
    obtain ⟨place, tick⟩ := Prod.ext_iff.mp reset
    exact ⟨place, .inr tick⟩
  · rw [e] at passed
    cases passed
    exact ⟨rfl, .inl ⟨Nat.le_succ _, Nat.le_refl _⟩⟩

end Sys2Proof.Machine
end

section
/-! O1, O2, O3, O4. The encoding (02 R39-R45, R56): the fields of words, sources, extension words and destinations, there and back, and
what reserved codes are refused as. -/

namespace Sys2Proof

/-! The fields of a move word and of an extension word (02 R39, R45). -/

theorem getLsbD_encodeWord (h : Head) (dst : BitVec 10) (i : Nat) :
    (encodeWord h dst).getLsbD i =
      if i < 10 then dst.getLsbD i
      else if i < 20 then (encodeSrc h.src).getLsbD (i - 10)
      else if i < 23 then h.pred.getLsbD (i - 20)
      else decide (i - 23 = 0) && h.inv := by
  change BitVec.getLsbD (w := 1 + 3 + 10 + 10) (BitVec.ofBool h.inv ++ h.pred ++ encodeSrc h.src ++ dst) i = _
  simp only [BitVec.getLsbD_append, BitVec.getLsbD_ofBool]
  grind

theorem encodeWord_dst (h : Head) (dst : BitVec 10) : (encodeWord h dst).extractLsb' 0 10 = dst := by
  ext i hi
  rw [BitVec.getElem_extractLsb', getLsbD_encodeWord]
  grind

theorem encodeWord_src (h : Head) (dst : BitVec 10) : (encodeWord h dst).extractLsb' 10 10 = encodeSrc h.src := by
  ext i hi
  rw [BitVec.getElem_extractLsb', getLsbD_encodeWord]
  grind

theorem encodeWord_pred (h : Head) (dst : BitVec 10) : (encodeWord h dst).extractLsb' 20 3 = h.pred := by
  ext i hi
  rw [BitVec.getElem_extractLsb', getLsbD_encodeWord]
  grind

theorem encodeWord_inv (h : Head) (dst : BitVec 10) : (encodeWord h dst).getLsbD 23 = h.inv := by
  rw [getLsbD_encodeWord]
  simp

/-- A word is that of its own fields. -/
theorem encodeWord_fields {w : Slot} {src : Src} (e : encodeSrc src = w.extractLsb' 10 10) :
    encodeWord (Head.mk (w.getLsbD 23) (w.extractLsb' 20 3) src) (w.extractLsb' 0 10) = w := by
  apply BitVec.eq_of_getLsbD_eq
  intro i hi
  simp only [getLsbD_encodeWord, e, BitVec.getLsbD_extractLsb']
  obtain h | rfl : i < 23 ∨ i = 23 := by omega
  · grind
  · simp

theorem getLsbD_encodeExt (e : Ext) (i : Nat) :
    (encodeExt e).getLsbD i =
      if i < 2 then e.rnd.getLsbD i
      else if i < 5 then e.mask.getLsbD (i - 2)
      else if i < 9 then e.ty.getLsbD (i - 5)
      else if i < 13 then e.b.getLsbD (i - 9)
      else if i = 13 then e.bLast
      else if i < 18 then e.a.getLsbD (i - 14)
      else if i = 18 then e.aLast
      else e.d.getLsbD (i - 19) := by
  change BitVec.getLsbD (w := 5 + 1 + 4 + 1 + 4 + 4 + 3 + 2)
    (e.d ++ BitVec.ofBool e.aLast ++ e.a ++ BitVec.ofBool e.bLast ++ e.b ++ e.ty ++ e.mask ++ e.rnd) i = _
  simp only [BitVec.getLsbD_append, BitVec.getLsbD_ofBool]
  grind

@[simp] theorem decodeExt_encodeExt (e : Ext) : decodeExt (encodeExt e) = e := by
  have field {n : Nat} (lo : Nat) (x : BitVec n) (h : ∀ i < n, (encodeExt e).getLsbD (lo + i) = x.getLsbD i) :
      (encodeExt e).extractLsb' lo n = x := by
    ext i hi
    rw [BitVec.getElem_extractLsb', h i hi, BitVec.getLsbD_eq_getElem hi]
  unfold decodeExt
  congr 1
  case e_aLast => exact getLsbD_encodeExt e 18
  case e_bLast => exact getLsbD_encodeExt e 13
  all_goals
    refine field _ _ fun i hi => ?_
    rw [getLsbD_encodeExt]
    grind

@[simp] theorem encodeExt_decodeExt (w : Slot) : encodeExt (decodeExt w) = w := by
  apply BitVec.eq_of_getLsbD_eq
  intro i hi
  simp only [getLsbD_encodeExt, decodeExt, BitVec.getLsbD_extractLsb']
  grind

/-! Sources (02 R41, R44). -/

theorem decodeSpecial_encodeSpecial (k : Special) : decodeSpecial (encodeSpecial k) = some k := by
  cases k <;> rfl

theorem encodeSpecial_bounds (k : Special) : 0x048 ≤ encodeSpecial k ∧ encodeSpecial k < 0x05E := by
  cases k <;> decide

theorem encodeSpecial_of_decodeSpecial {n : Nat} {k : Special} (e : decodeSpecial n = some k) : encodeSpecial k = n := by
  unfold decodeSpecial at e
  split at e <;> cases e <;> rfl

/-- The two slots of a 48-bit immediate, low slot first (02 R44). -/
theorem imm48_slots (v : BitVec 48) : ((v >>> 24).setWidth 24 ++ v.setWidth 24 : BitVec 48) = v := by
  apply BitVec.eq_of_getLsbD_eq
  intro i hi
  simp only [BitVec.getLsbD_append, BitVec.getLsbD_setWidth, BitVec.getLsbD_ushiftRight]
  grind

theorem imm48_low (a b : Slot) : (b ++ a : BitVec 48).setWidth 24 = a := by
  apply BitVec.eq_of_getLsbD_eq
  intro i hi
  rw [BitVec.getLsbD_setWidth]
  refine (congrArg _ (BitVec.getLsbD_append (x := b) (y := a))).trans ?_
  simp [hi]

theorem imm48_high (a b : Slot) : ((b ++ a : BitVec 48) >>> 24).setWidth 24 = b := by
  apply BitVec.eq_of_getLsbD_eq
  intro i hi
  rw [BitVec.getLsbD_setWidth, BitVec.getLsbD_ushiftRight]
  refine (congrArg _ (BitVec.getLsbD_append (x := b) (y := a))).trans ?_
  simp [hi]

section
variable {code : BitVec 10} {imm : List Slot}

theorem decodeSrc_x (h : code.toNat < 0x040) : decodeSrc code imm = .ok (.x (code.setWidth 6), imm) := if_pos h

theorem decodeSrc_p (h : 0x040 ≤ code.toNat ∧ code.toNat < 0x048) : decodeSrc code imm = .ok (.p (code.setWidth 3), imm) := by
  unfold decodeSrc
  rw [if_neg (by omega), if_pos h.2]

theorem decodeSrc_special {k : Special} (h : 0x048 ≤ code.toNat ∧ code.toNat < 0x060) (e : decodeSpecial code.toNat = some k) :
    decodeSrc code imm = .ok (.special k, imm) := by
  unfold decodeSrc
  rw [if_neg (by omega), if_neg (by omega), if_pos h.2, e]

theorem decodeSrc_out (h : 0x060 ≤ code.toNat ∧ code.toNat < 0x090) :
    decodeSrc code imm = .ok (.out (Fin.ofNat 48 (code.toNat - 0x060)), imm) := by
  unfold decodeSrc
  rw [if_neg (by omega), if_neg (by omega), if_neg (by omega), if_pos h.2]

theorem decodeSrc_queue (h : 0x090 ≤ code.toNat ∧ code.toNat < 0x098) :
    decodeSrc code imm = .ok (.queue (code.setWidth 3), imm) := by
  unfold decodeSrc
  rw [if_neg (by omega), if_neg (by omega), if_neg (by omega), if_neg (by omega), if_pos h.2]

theorem decodeSrc_short (h : 0x200 ≤ code.toNat) : decodeSrc code imm = .ok (.short (code.setWidth 9), imm) := by
  unfold decodeSrc
  iterate 7 rw [if_neg (by omega)]
  rw [if_pos h]

theorem decodeSpecial_isSome {n : Nat} : (decodeSpecial n).isSome ↔ 0x048 ≤ n ∧ n < 0x05E := by
  refine ⟨fun h => ?_, fun ⟨lo, hi⟩ => ?_⟩
  · obtain ⟨k, e⟩ := Option.isSome_iff_exists.mp h
    exact encodeSpecial_of_decodeSpecial e ▸ encodeSpecial_bounds k
  · interval_cases n <;> rfl

/-- A special source below the codes of the ports, or none (02 R41). -/
theorem decodeSrc_reserved (h : (0x05E ≤ code.toNat ∧ code.toNat < 0x060) ∨ (0x098 ≤ code.toNat ∧ code.toNat < 0x0A0) ∨
    (0x0A2 ≤ code.toNat ∧ code.toNat < 0x200)) : decodeSrc code imm = .error .source := by
  unfold decodeSrc
  rw [if_neg (by omega), if_neg (by omega)]
  split
  · have : decodeSpecial code.toNat = none := by
      rw [← Option.not_isSome_iff_eq_none, decodeSpecial_isSome]
      omega
    rw [this]
  · iterate 5 rw [if_neg (by omega)]
end

theorem decodeSrc_encodeSrc (x : Src) (rest : List Slot) : decodeSrc (encodeSrc x) (encodeImm x ++ rest) = .ok (x, rest) := by
  cases x with
  | x n =>
    have t : (encodeSrc (.x n)).toNat = n.toNat := by simp [encodeSrc]; omega
    rw [decodeSrc_x (by omega)]
    simp [encodeSrc, encodeImm]
  | p n =>
    have t : (encodeSrc (.p n)).toNat = 0x040 + n.toNat := by simp [encodeSrc]; omega
    have b : (encodeSrc (.p n)).setWidth 3 = n := by bv_omega
    rw [decodeSrc_p (by omega), b]
    rfl
  | special k =>
    have b := encodeSpecial_bounds k
    have t : (encodeSrc (.special k)).toNat = encodeSpecial k := by simp [encodeSrc]; omega
    exact decodeSrc_special (by omega) (t ▸ decodeSpecial_encodeSpecial k)
  | out n =>
    have t : (encodeSrc (.out n)).toNat = 0x060 + n.val := by simp [encodeSrc]; omega
    rw [decodeSrc_out (by omega), t]
    simp [encodeImm]
  | queue n =>
    have t : (encodeSrc (.queue n)).toNat = 0x090 + n.toNat := by simp [encodeSrc]; omega
    have b : (encodeSrc (.queue n)).setWidth 3 = n := by bv_omega
    rw [decodeSrc_queue (by omega), b]
    rfl
  | imm24 v => rfl
  | imm48 v => exact congrArg (fun w => Except.ok (Src.imm48 w, rest)) (imm48_slots v)
  | short v =>
    have t : (encodeSrc (.short v)).toNat = 0x200 + v.toNat := by simp [encodeSrc]; omega
    have b : (encodeSrc (.short v)).setWidth 9 = v := by bv_omega
    rw [decodeSrc_short (by omega), b]
    rfl

/-- What a source code stands for has that code, and takes its immediate's slots. -/
theorem encodeSrc_of_decodeSrc {code : BitVec 10} {imm rest : List Slot} {x : Src} (e : decodeSrc code imm = .ok (x, rest)) :
    encodeSrc x = code ∧ imm = encodeImm x ++ rest := by
  unfold decodeSrc at e
  extract_lets n at e
  split at e
  · next h =>
    cases e
    exact ⟨by simp only [encodeSrc]; bv_omega, rfl⟩
  split at e
  · next h =>
    cases e
    exact ⟨by simp only [encodeSrc]; bv_omega, rfl⟩
  split at e
  · split at e <;> cases e
    next d =>
    refine ⟨?_, rfl⟩
    rw [encodeSrc, encodeSpecial_of_decodeSpecial d]
    exact BitVec.ofNat_toNat _ _
  split at e
  · cases e
    refine ⟨?_, rfl⟩
    have : (n - 0x060) % 48 = n - 0x060 := Nat.mod_eq_of_lt (by omega)
    simp only [encodeSrc, Fin.ofNat, this]
    bv_omega
  split at e
  · cases e
    exact ⟨by simp only [encodeSrc]; bv_omega, rfl⟩
  split at e
  · split at e <;> cases e
    exact ⟨by simp only [encodeSrc]; bv_omega, rfl⟩
  split at e
  · split at e <;> cases e
    next a b r h =>
    exact ⟨by simp only [encodeSrc]; bv_omega, by simp [encodeImm, imm48_low, imm48_high]⟩
  split at e
  · cases e
    exact ⟨by simp only [encodeSrc]; bv_omega, rfl⟩
  · cases e

/-! Extension words (02 R43, R45). -/

/-- A destination code triggers a unit whose operations take an extension word. -/
def wideDst (dst : BitVec 10) : Bool := (trigUnit dst).any isWideUnit

theorem takeExt_append {dst : BitVec 10} {e : Option Ext} (h : e.isSome = wideDst dst) (rest : List Slot) :
    takeExt dst ((e.map encodeExt).toList ++ rest) = .ok (e, rest) := by
  unfold takeExt wideDst at *
  cases u : trigUnit dst <;> cases e <;> simp_all

theorem takeExt_ok {dst : BitVec 10} {slots rest : List Slot} {e : Option Ext} (t : takeExt dst slots = .ok (e, rest)) :
    e.isSome = wideDst dst ∧ slots = (e.map encodeExt).toList ++ rest := by
  unfold takeExt wideDst at *
  split at t
  · next u => cases t; simp [u]
  · next u =>
    split at t
    · next w =>
      split at t <;> cases t
      simp [u, w]
    · next w => cases t; simp [u, w]

/-! Opcodes (02 R56). -/

theorem slotParts_decodeTrigger {h : Head} {u k : Nat} {i : Instr} (e : decodeTrigger h u k = some i) :
    slotParts i = some (h, trig u k, none) := by
  unfold decodeTrigger decodeSa decodeSb decodeCt decodeLs decodePr decodeRk decodeFb decodeFg decodeSy at e
  split at e
  case h_10 => cases e
  all_goals split at e <;> cases e <;> rfl

theorem slotParts_decodeWide {h : Head} {x : Ext} {u k : Nat} {i : Instr} (e : decodeWide h x u k = some i) :
    slotParts i = some (h, trig u k, some x) := by
  unfold decodeWide decodeVa decodeVm decodeSf at e
  split at e
  case h_4 => cases e
  all_goals split at e <;> cases e <;> rfl

theorem trigUnit_none {dst : BitVec 10} : trigUnit dst = none ↔ dst.toNat < 0x100 := by
  simp [trigUnit]

theorem trigUnit_some {dst : BitVec 10} {u : Nat} : trigUnit dst = some u ↔ 0x100 ≤ dst.toNat ∧ (dst.toNat - 0x100) / 64 = u := by
  unfold trigUnit
  split
  · simp; omega
  · simp; omega

/-- A trigger code is that of its unit and opcode. -/
theorem trig_parts {dst : BitVec 10} {u : Nat} (e : trigUnit dst = some u) : trig u (dst.toNat % 64) = dst := by
  obtain ⟨big, rfl⟩ := trigUnit_some.mp e
  have : 0x100 + 64 * ((dst.toNat - 0x100) / 64) + dst.toNat % 64 = dst.toNat := by omega
  rw [trig, this, BitVec.ofNat_toNat, BitVec.setWidth_eq]

theorem slotParts_decodeDest {h : Head} {dst : BitVec 10} {i : Instr} (small : dst.toNat < 0x100)
    (e : decodeDest h dst.toNat = .ok i) : slotParts i = some (h, dst, none) := by
  have code {d : BitVec 10} (c : d = dst) : some (h, d, none) = some (h, dst, (none : Option Ext)) := by rw [c]
  unfold decodeDest at e
  repeat' split at e
  all_goals cases e
  all_goals refine code ?_
  case isFalse.isFalse.isFalse.isFalse.isFalse.isFalse.isFalse.isFalse.isTrue.refl =>
    have : (dst.toNat - 0x050) % 168 = dst.toNat - 0x050 := Nat.mod_eq_of_lt (by omega)
    simp only [encodeDest, Fin.ofNat, this]
    bv_omega
  case isFalse.isFalse.isFalse.isFalse.isFalse.isFalse.isTrue.refl |
      isFalse.isFalse.isFalse.isFalse.isFalse.isFalse.isFalse.isFalse.isFalse.refl =>
    bv_omega
  all_goals
    simp only [encodeDest]
    bv_omega

theorem toNat_encodeDest_x (n : BitVec 6) : (encodeDest (.x n)).toNat = n.toNat := by
  simp [encodeDest]; omega

theorem toNat_encodeDest_p (n : BitVec 3) : (encodeDest (.p n)).toNat = 0x040 + n.toNat := by
  simp [encodeDest]; omega

theorem toNat_encodeDest_inp (n : Fin 168) : (encodeDest (.inp n)).toNat = 0x050 + n.val := by
  simp [encodeDest]; omega

theorem toNat_queueDest (q : BitVec 3) : (0x0F8 + q.setWidth 10 : BitVec 10).toNat = 0x0F8 + q.toNat := by
  simp; omega

theorem toNat_encodeDest_lt (d : Dest) : (encodeDest d).toNat < 0x100 := by
  cases d with
  | x n => rw [toNat_encodeDest_x]; omega
  | p n => rw [toNat_encodeDest_p]; omega
  | inp n => rw [toNat_encodeDest_inp]; omega
  | lcount | rotb | sbbase | sblen => decide

theorem wideDst_small {dst : BitVec 10} (h : dst.toNat < 0x100) : wideDst dst = false := by
  simp [wideDst, trigUnit_none.mpr h]

set_option maxRecDepth 8000 in
/-- The slots that an instruction's words hold are those that its destination code asks for (02 R43). -/
theorem wideDst_slotParts {i : Instr} {h : Head} {dst : BitVec 10} {e : Option Ext} (p : slotParts i = some (h, dst, e)) :
    e.isSome = wideDst dst := by
  cases i
  case move g d => cases p; exact (wideDst_small (toNat_encodeDest_lt d)).symm
  case queuePush g q => cases p; exact (wideDst_small (by rw [toNat_queueDest]; omega)).symm
  all_goals cases p <;> rfl

theorem decodeDest_encodeDest (h : Head) (d : Dest) : decodeDest h (encodeDest d).toNat = .ok (.move h d) := by
  cases d with
  | x n => rw [toNat_encodeDest_x, decodeDest, if_pos n.isLt, BitVec.ofNat_toNat, BitVec.setWidth_eq]
  | p n =>
    have field : BitVec.ofNat 3 (0x040 + n.toNat) = n := by bv_omega
    rw [toNat_encodeDest_p, decodeDest, if_neg (by omega), if_pos (by omega), field]
  | inp n =>
    rw [toNat_encodeDest_inp, decodeDest]
    iterate 8 rw [if_neg (by omega)]
    rw [if_pos (by omega)]
    simp
  | lcount | rotb | sbbase | sblen => rfl

theorem decodeDest_queue (h : Head) (q : BitVec 3) : decodeDest h (0x0F8 + q.setWidth 10 : BitVec 10).toNat = .ok (.queuePush h q) := by
  have field : BitVec.ofNat 3 (0x0F8 + q.toNat) = q := by bv_omega
  rw [toNat_queueDest, decodeDest, field]
  iterate 9 rw [if_neg (by omega)]

theorem decodeBody_small {h : Head} {dst : BitVec 10} {e : Option Ext} (small : dst.toNat < 0x100) :
    decodeBody h dst e = decodeDest h dst.toNat := by
  rw [decodeBody, trigUnit_none.mpr small]

/-- What an instruction puts into a slot stands for that instruction. -/
theorem decodeBody_slotParts {i : Instr} {h : Head} {dst : BitVec 10} {e : Option Ext} (p : slotParts i = some (h, dst, e))
    (n : i ≠ .nop) : decodeBody h dst e = .ok i := by
  cases i
  case nop => exact absurd rfl n
  case move g d => cases p; rw [decodeBody_small (toNat_encodeDest_lt d), decodeDest_encodeDest]
  case queuePush g q => cases p; rw [decodeBody_small (by rw [toNat_queueDest]; omega), decodeDest_queue]
  all_goals cases p <;> rfl

/-- What decodes to an instruction is what that instruction puts into a slot. -/
theorem slotParts_decodeBody {i : Instr} {h : Head} {dst : BitVec 10} {e : Option Ext} (w : e.isSome = wideDst dst)
    (d : decodeBody h dst e = .ok i) : slotParts i = some (h, dst, e) := by
  unfold decodeBody at d
  split at d
  · next u =>
    have small := trigUnit_none.mp u
    rw [wideDst_small small, Option.isSome_eq_false_iff, Option.isNone_iff_eq_none] at w
    exact w ▸ slotParts_decodeDest small d
  · next u =>
    split at d <;> cases d
    next found =>
    rw [← trig_parts u]
    split at found
    · exact slotParts_decodeWide found
    · exact slotParts_decodeTrigger found

/-! Words (02 R39, R40, R43). -/

theorem decode_nop (rest : List Slot) : decode (0x800000 :: rest) = .ok (.nop, rest) := by
  rw [decode, if_pos rfl]

/-- A word other than the no-op's decodes by its fields. -/
theorem decode_fields {w : Slot} {rest rest1 rest2 : List Slot} {e : Option Ext} {src : Src} (n : w ≠ 0x800000)
    (t : takeExt (w.extractLsb' 0 10) rest = .ok (e, rest1)) (s : decodeSrc (w.extractLsb' 10 10) rest1 = .ok (src, rest2)) :
    decode (w :: rest) = (decodeBody (Head.mk (w.getLsbD 23) (w.extractLsb' 20 3) src) (w.extractLsb' 0 10) e).map (·, rest2) := by
  simp only [decode, if_neg n, t, s]
  cases decodeBody (Head.mk (w.getLsbD 23) (w.extractLsb' 20 3) src) (w.extractLsb' 0 10) e <;> rfl

/-- Only the words of the no-op have its fields. -/
theorem encodeWord_eq_nop {h : Head} {dst : BitVec 10} (e : encodeWord h dst = 0x800000) : h = Head.mk true 0 (.x 0) ∧ dst = 0 := by
  have code : encodeSrc h.src = 0 := by rw [← encodeWord_src h dst, e]; rfl
  have src : h.src = .x 0 := by
    have d := decodeSrc_encodeSrc h.src []
    rw [code] at d
    exact (congrArg Prod.fst (Except.ok.inj d)).symm
  have inv : h.inv = true := by rw [← encodeWord_inv h dst, e]; rfl
  have pred : h.pred = 0 := by rw [← encodeWord_pred h dst, e]; rfl
  refine ⟨?_, by rw [← encodeWord_dst h dst, e]; rfl⟩
  cases h
  simp_all

theorem ne_nop_of_moveOk {i : Instr} {h : Head} {dst : BitVec 10} {e : Option Ext} (p : slotParts i = some (h, dst, e))
    (wf : WellFormed i = true) (n : i ≠ .nop) : encodeWord h dst ≠ 0x800000 := by
  intro w
  obtain ⟨rfl, rfl⟩ := encodeWord_eq_nop w
  have d := decodeBody_slotParts p n
  rw [decodeBody_small (by decide)] at d
  cases d
  cases wf

theorem decode_encode {i : Instr} {ws rest : List Slot} (wf : WellFormed i = true) (e : encode i = some ws) :
    decode (ws ++ rest) = .ok (i, rest) := by
  by_cases n : i = .nop
  · subst n
    cases e
    exact decode_nop rest
  unfold encode at e
  split at e <;> cases e
  next h dst x p =>
  have t := takeExt_append (wideDst_slotParts p) (encodeImm h.src ++ rest)
  have s := decodeSrc_encodeSrc h.src rest
  rw [← encodeWord_dst h dst] at t
  rw [← encodeWord_src h dst] at s
  rw [List.cons_append, List.append_assoc, decode_fields (ne_nop_of_moveOk p wf n) t s, encodeWord_dst, encodeWord_inv,
    encodeWord_pred, decodeBody_slotParts p n]
  rfl



/-- The extension words and the source of a word that decodes. -/
theorem decode_ok {w : Slot} {rest rest2 : List Slot} {i : Instr} (n : w ≠ 0x800000) (d : decode (w :: rest) = .ok (i, rest2)) :
    ∃ e rest1 src, takeExt (w.extractLsb' 0 10) rest = .ok (e, rest1) ∧ decodeSrc (w.extractLsb' 10 10) rest1 = .ok (src, rest2) ∧
      decodeBody (Head.mk (w.getLsbD 23) (w.extractLsb' 20 3) src) (w.extractLsb' 0 10) e = .ok i := by
  rw [decode, if_neg n] at d
  split at d
  · cases d
  · next e rest1 t =>
    split at d
    · cases d
    · next src rest2 s =>
      split at d <;> cases d
      next b => exact ⟨e, rest1, src, t, s, b⟩

theorem encode_decode {ws rest : List Slot} {i : Instr} (d : decode ws = .ok (i, rest)) :
    ∃ us, encode i = some us ∧ ws = us ++ rest := by
  cases ws with
  | nil => cases d
  | cons w slots =>
    by_cases n : w = 0x800000
    · subst n
      rw [decode_nop] at d
      cases d
      exact ⟨[0x800000], rfl, rfl⟩
    · obtain ⟨e, rest1, src, t, s, b⟩ := decode_ok n d
      obtain ⟨wide, rfl⟩ := takeExt_ok t
      obtain ⟨code, rfl⟩ := encodeSrc_of_decodeSrc s
      refine ⟨_, by rw [encode, slotParts_decodeBody wide b], ?_⟩
      rw [encodeWord_fields code, List.cons_append, List.append_assoc]

/-! Reserved codes (02 R41, R42, R56). -/

/-- A source code that names a source: all but the reserved codes of 02 R41. -/
def definedSrc (n : Nat) : Prop := n < 0x05E ∨ (0x060 ≤ n ∧ n < 0x098) ∨ (0x0A0 ≤ n ∧ n < 0x0A2) ∨ 0x200 ≤ n

theorem takeExt_enough (dst : BitVec 10) {rest : List Slot} (l : 1 ≤ rest.length) :
    ∃ e rest1, takeExt dst rest = .ok (e, rest1) ∧ e.isSome = wideDst dst ∧ rest.length ≤ rest1.length + 1 := by
  cases rest with
  | nil => cases l
  | cons w ws =>
    cases wide : wideDst dst
    · exact ⟨none, w :: ws, takeExt_append (e := none) wide.symm (w :: ws), rfl, Nat.le_succ _⟩
    · refine ⟨some (decodeExt w), ws, ?_, rfl, Nat.le_refl _⟩
      simpa using takeExt_append (e := some (decodeExt w)) wide.symm ws

theorem decodeSrc_defined {code : BitVec 10} {imm : List Slot} (d : definedSrc code.toNat) (l : 2 ≤ imm.length) :
    ∃ src rest, decodeSrc code imm = .ok (src, rest) := by
  unfold definedSrc at d
  by_cases x : code.toNat < 0x040
  · exact ⟨_, _, decodeSrc_x x⟩
  by_cases p : code.toNat < 0x048
  · exact ⟨_, _, decodeSrc_p (by omega)⟩
  by_cases special : code.toNat < 0x060
  · obtain ⟨k, e⟩ := Option.isSome_iff_exists.mp (decodeSpecial_isSome.mpr (show 0x048 ≤ code.toNat ∧ code.toNat < 0x05E by omega))
    exact ⟨_, _, decodeSrc_special (by omega) e⟩
  by_cases out : code.toNat < 0x090
  · exact ⟨_, _, decodeSrc_out (by omega)⟩
  by_cases queue : code.toNat < 0x098
  · exact ⟨_, _, decodeSrc_queue (by omega)⟩
  by_cases short : 0x200 ≤ code.toNat
  · exact ⟨_, _, decodeSrc_short short⟩
  match imm, l with
  | a :: b :: imm, _ =>
    obtain rfl | rfl : code = 0x0A0 ∨ code = 0x0A1 := by bv_omega
    · exact ⟨.imm24 a, b :: imm, rfl⟩
    · exact ⟨.imm48 (b ++ a), imm, rfl⟩

/-- How many opcodes a unit has (02 R56). -/
def opcodes : Nat → Nat
  | 0 => 36
  | 1 => 43
  | 2 => 10
  | 3 => 24
  | 4 => 27
  | 5 => 23
  | 6 => 10
  | 7 => 7
  | 8 => 11
  | 9 => 5
  | 10 => 10
  | 11 => 14
  | _ => 0

theorem decodeTrigger_unused (h : Head) {u k : Nat} (unused : opcodes u ≤ k) : decodeTrigger h u k = none := by
  unfold decodeTrigger decodeSa decodeSb decodeCt decodeLs decodePr decodeRk decodeFb decodeFg decodeSy
  split
  case h_10 => rfl
  all_goals
    simp only [opcodes] at unused
    split <;> simp at unused ⊢

theorem decodeWide_unused (h : Head) (e : Ext) {u k : Nat} (unused : opcodes u ≤ k) : decodeWide h e u k = none := by
  unfold decodeWide decodeVa decodeVm decodeSf
  split
  case h_4 => rfl
  all_goals
    simp only [opcodes] at unused
    split <;> simp at unused ⊢

/-- A trigger code with an opcode that its unit does not use. -/
def unusedDst (dst : BitVec 10) : Prop := 0x100 ≤ dst.toNat ∧ opcodes ((dst.toNat - 0x100) / 64) ≤ dst.toNat % 64

theorem decodeBody_unused (h : Head) {dst : BitVec 10} (e : Option Ext) (d : unusedDst dst) :
    decodeBody h dst e = .error .operation := by
  obtain ⟨big, unused⟩ := d
  rw [decodeBody, trigUnit_some.mpr ⟨big, rfl⟩]
  cases e <;> simp [decodeTrigger_unused, decodeWide_unused, unused]

theorem decodeBody_reserved (h : Head) {dst : BitVec 10} (e : Option Ext) (r : 0x04D ≤ dst.toNat ∧ dst.toNat < 0x050) :
    decodeBody h dst e = .error .destination := by
  rw [decodeBody_small (by omega), decodeDest]
  iterate 7 rw [if_neg (by omega)]
  rw [if_pos r.2]

theorem unusedDst_of_ranges {dst : BitVec 10}
    (r : (0x124 ≤ dst.toNat ∧ dst.toNat < 0x140) ∨ (0x16B ≤ dst.toNat ∧ dst.toNat < 0x180) ∨ (0x18A ≤ dst.toNat ∧ dst.toNat < 0x1C0) ∨
      (0x1D8 ≤ dst.toNat ∧ dst.toNat < 0x200) ∨ (0x21B ≤ dst.toNat ∧ dst.toNat < 0x240) ∨ (0x257 ≤ dst.toNat ∧ dst.toNat < 0x280) ∨
      (0x28A ≤ dst.toNat ∧ dst.toNat < 0x2C0) ∨ (0x2C7 ≤ dst.toNat ∧ dst.toNat < 0x300) ∨ (0x30B ≤ dst.toNat ∧ dst.toNat < 0x340) ∨
      (0x345 ≤ dst.toNat ∧ dst.toNat < 0x380) ∨ (0x38A ≤ dst.toNat ∧ dst.toNat < 0x3C0) ∨ 0x3CE ≤ dst.toNat) : unusedDst dst := by
  refine ⟨by omega, ?_⟩
  obtain ⟨u, hu⟩ : ∃ u, (dst.toNat - 0x100) / 64 = u := ⟨_, rfl⟩
  have : u < 12 := by omega
  rw [hu]
  interval_cases u <;> simp only [opcodes] <;> omega

/-- A word with enough slots after it whose source is defined decodes as its destination does. -/
theorem decode_error {w : Slot} {rest : List Slot} {er : DecodeError} (l : 4 ≤ rest.length)
    (n : w ≠ 0x800000)
    (d : definedSrc (w.extractLsb' 10 10).toNat) (b : ∀ h e, decodeBody h (w.extractLsb' 0 10) e = .error er) :
    decode (w :: rest) = .error er := by
  obtain ⟨e, rest1, t, -, l1⟩ := takeExt_enough (w.extractLsb' 0 10) (show 1 ≤ rest.length by omega)
  obtain ⟨src, rest2, s⟩ := decodeSrc_defined (imm := rest1) d (by omega)
  rw [decode_fields n t s, b]
  rfl

theorem decode_reserved_source {w : Slot} {rest : List Slot} (l : 4 ≤ rest.length) (n : w ≠ 0x800000)
    (r : ∀ imm, decodeSrc (w.extractLsb' 10 10) imm = .error .source) : decode (w :: rest) = .error .source := by
  obtain ⟨e, rest1, t, -, -⟩ := takeExt_enough (w.extractLsb' 0 10) (show 1 ≤ rest.length by omega)
  simp only [decode, if_neg n, t, r]

/-- Settles O1: the fields of an encoded word are those it was made of, the slots after it are those its codes ask for, and every
constructor's opcode stands for it. -/
theorem decodeOfEncode : Obligations.DecodeOfEncode := by
  unfold Obligations.DecodeOfEncode
  exact fun _ _ _ wf e => decode_encode wf e

/-- Settles O2: each field of the words that decode is that of the instruction they decode to. -/
theorem encodeOfDecode : Obligations.EncodeOfDecode := by
  unfold Obligations.EncodeOfDecode
  exact fun _ _ _ d => encode_decode d

/-- Settles O3: the extension word is there, so that a reserved source is met first, then a reserved destination or an unused opcode. -/
theorem reservedCodesRefused : Obligations.ReservedCodesRefused := by
  unfold Obligations.ReservedCodesRefused
  intro w rest l src dst defined
  have nop_src (n : w = 0x800000) : src = 0 := by subst n; rfl
  have nop_dst (n : w = 0x800000) : dst = 0 := by subst n; rfl
  refine ⟨fun r => ?_, fun ⟨d, r⟩ => ?_, fun ⟨d, r⟩ => ?_⟩
  · exact decode_reserved_source l (fun n => by have := nop_src n; omega) fun _ => decodeSrc_reserved r
  · exact decode_error l (fun n => by have := nop_dst n; omega) d fun h e => decodeBody_reserved h e r
  · exact decode_error l (fun n => by have := nop_dst n; omega) d fun h e => decodeBody_unused h e (unusedDst_of_ranges r)

/-- Settles O4: the decoder run on each word. -/
theorem specWordsDecode : Obligations.SpecWordsDecode := by
  unfold Obligations.SpecWordsDecode
  and_intros <;> rfl

end Sys2Proof
end

section
/-! O5, O6, O7. What a step runs, and that it answers (02 R51, R59): every meaning gives a next state, and so does every event that a
boundary finds. -/

namespace Sys2Proof.Machine

/-- An answer that is a next state. -/
def Ans.answers (a : Ans State) : Prop := ∃ t, a = .next t

theorem Ans.answers_next (s : State) : Ans.answers (.next s) := ⟨s, rfl⟩

/-! Every instruction. -/

theorem exec_slot_answers {i : Instr} {h : Head} {dst : BitVec 10} {e : Option Ext} (p : slotParts i = some (h, dst, e)) (s : State) :
    Ans.answers (exec i s) := by
  by_cases n : i = .nop
  · subst n
    exact Ans.answers_next s
  · obtain ⟨eff, run⟩ := exec_slot i h dst e p n
    rw [run]
    exact slotOp_answers ..

set_option maxRecDepth 8000 in
theorem exec_event_answers {i : Instr} (p : slotParts i = none) (s : State) : Ans.answers (exec i s) := by
  cases i
  all_goals cases p
  all_goals dsimp only [exec]
  all_goals exact ⟨_, rfl⟩

theorem exec_answers (i : Instr) (s : State) : Ans.answers (exec i s) := by
  cases p : slotParts i with
  | none => exact exec_event_answers p s
  | some x => exact exec_slot_answers p s

/-! Every event of a boundary. -/

/-- A candidate for the next event, where there is one, gives a next state. -/
def Answered (f : State → Option (Ans State)) : Prop := ∀ s a, f s = some a → Ans.answers a

theorem answers_of_map {α : Type} {o : Option α} {f : α → Ans State} {a : Ans State} (h : ∀ x, Ans.answers (f x))
    (e : o.map f = some a) : Ans.answers a := by
  obtain ⟨x, -, rfl⟩ := Option.map_eq_some_iff.mp e
  exact h x

theorem answered_map {α : Type} {o : State → Option α} {g : State → α → Ans State} (h : ∀ s x, Ans.answers (g s x)) :
    Answered fun s => (o s).map (g s) := fun s _ e => answers_of_map (h s) e

theorem takeAgenda_answered (ok : Instr → Bool) : Answered fun s => takeAgenda s ok := by
  intro s a e
  refine answers_of_map (fun x => ?_) e
  dsimp only
  split
  · exact Ans.answers_next _
  · exact exec_answers _ _

theorem nextResult_answered : Answered nextResult := by
  intro s a e
  unfold nextResult at e
  split at e
  · cases e
    exact ⟨_, rfl⟩
  · exact answers_of_map (fun _ => ⟨_, rfl⟩) e

theorem nextWait_answered : Answered nextWait := by
  intro s a e
  unfold nextWait at e
  split at e
  · cases e
    exact ⟨_, rfl⟩
  · exact answers_of_map (fun _ => ⟨_, rfl⟩) e

theorem nextLock_answered : Answered nextLock := by
  intro s a e
  unfold nextLock at e
  split at e <;> cases e <;> exact ⟨_, rfl⟩

theorem nextKeeper_answered : Answered nextKeeper := by
  intro s a e
  unfold nextKeeper at e
  split at e <;> cases e <;> exact ⟨_, rfl⟩

theorem nextPeriod_answered : Answered nextPeriod := by
  intro s a e
  unfold nextPeriod at e
  split at e
  · cases e
    exact ⟨_, rfl⟩
  · split at e <;> cases e
    exact ⟨_, rfl⟩

theorem nextUpkeep_answered : Answered nextUpkeep := by
  intro s a e
  unfold nextUpkeep at e
  split at e
  · cases e
    exact ⟨_, rfl⟩
  · split at e
    · cases e
      exact ⟨_, rfl⟩
    · exact answers_of_map (fun _ => ⟨_, rfl⟩) e

theorem nextReceipt_answered : Answered nextReceipt := by
  intro s a e
  unfold nextReceipt at e
  split at e <;> cases e
  exact Ans.answers_next _

theorem nextIssue_answered : Answered nextIssue := by
  intro s a e
  unfold nextIssue at e
  split at e <;> cases e
  · exact ⟨_, rfl⟩
  · split
    · exact ⟨_, rfl⟩
    · split <;> exact ⟨_, rfl⟩

theorem firstOf_answered {fs : List (State → Option (Ans State))} (h : ∀ f ∈ fs, Answered f) : Answered (firstOf fs) := by
  intro s a e
  induction fs with
  | nil => cases e
  | cons f fs ih =>
    unfold firstOf at e
    split at e
    · next found => cases e; exact h f List.mem_cons_self s a found
    · exact ih (fun g m => h g (List.mem_cons_of_mem f m)) e

theorem heldEvents_answered : ∀ f ∈ heldEvents, Answered f := by
  simp only [heldEvents, List.forall_mem_singleton]
  exact takeAgenda_answered boardEvent

theorem boundaryEvents_answered : ∀ f ∈ boundaryEvents, Answered f := by
  have agenda : Answered nextAgenda := takeAgenda_answered _
  have write : Answered nextWrite := answered_map fun _ _ => ⟨_, rfl⟩
  have loop : Answered nextLoop := answered_map fun _ _ => ⟨_, rfl⟩
  have backlog : Answered nextBacklog := answered_map fun _ _ => ⟨_, rfl⟩
  have read : Answered nextRead := answered_map fun _ _ => ⟨_, rfl⟩
  have garrive : Answered nextGarrive := answered_map fun _ _ => ⟨_, rfl⟩
  have fence : Answered nextFence := answered_map fun _ _ => ⟨_, rfl⟩
  have bottle : Answered nextBottle := answered_map fun _ _ => ⟨_, rfl⟩
  have takeover : Answered nextTakeover := answered_map fun _ _ => ⟨_, rfl⟩
  have owed : Answered nextOwed := answered_map fun _ _ => ⟨_, rfl⟩
  have eligible : Answered nextEligible := answered_map fun _ _ => ⟨_, rfl⟩
  have retire : Answered nextRetire := answered_map fun _ _ => ⟨_, rfl⟩
  have pending : Answered nextPending := answered_map fun _ _ => ⟨_, rfl⟩
  have relay : Answered nextRelay := answered_map fun _ _ => ⟨_, rfl⟩
  have send : Answered nextSend := answered_map fun _ _ => ⟨_, rfl⟩
  simp [boundaryEvents, agenda, write, loop, backlog, read, garrive, fence, bottle, takeover, owed, eligible, retire, pending, relay,
    send, nextResult_answered, nextPeriod_answered, nextWait_answered, nextLock_answered, nextKeeper_answered, nextUpkeep_answered,
    nextReceipt_answered, nextIssue_answered]

theorem nextEvent_answers (s : State) : Ans.answers (nextEvent s) := by
  have answered : Answered (firstOf (if s.inReset then heldEvents else boundaryEvents)) := by
    split
    · exact firstOf_answered heldEvents_answered
    · exact firstOf_answered boundaryEvents_answered
  unfold nextEvent
  cases e : firstOf (if s.inReset then heldEvents else boundaryEvents) s with
  | none => exact Ans.answers_next _
  | some a => exact answered s a e

/-! The bundle in flight (02 R51). -/

theorem runLatch_nil {s : State} (w : (s.core s.cur).latch.words = []) : runLatch s = .next (finishBundle s s.cur) := by
  simp only [runLatch, w]

theorem runLatch_ok {s : State} {w : Slot} {ws rest : List Slot} {i : Instr} (e : (s.core s.cur).latch.words = w :: ws)
    (d : decode (w :: ws) = .ok (i, rest)) :
    runLatch s = exec i (s.modCore s.cur (fun k => { k with latch := k.latch.taken rest })) := by
  simp only [runLatch, e, d]
  rfl

theorem runLatch_error {s : State} {w : Slot} {ws : List Slot} {er : DecodeError} (e : (s.core s.cur).latch.words = w :: ws)
    (d : decode (w :: ws) = .error er) : runLatch s = .fault .undecodable := by
  simp only [runLatch, e, d]

theorem step_live {s : State} (l : (s.core s.cur).latch.live = true) (r : s.inReset = false) : step s = runLatch s := by
  simp [step, l, r]

theorem step_idle {s : State} (h : (s.core s.cur).latch.live = false ∨ s.inReset = true) : step s = nextEvent s := by
  rcases h with h | h <;> simp [step, h]

/-- Settles O5: what a step is, case by case. -/
theorem stepRunsDecoded : Obligations.StepRunsDecoded := by
  unfold Obligations.StepRunsDecoded
  intro s live
  refine ⟨fun r => step_idle (.inr r), fun r => ?_⟩
  rw [step_live live r]
  exact ⟨fun _ _ _ _ => runLatch_ok, runLatch_nil, fun _ _ _ => runLatch_error⟩

/-- Settles O6: a slot operation settles its checks in a next state, and the meaning of each event is one. -/
theorem execAnswers : Obligations.ExecAnswers := by
  unfold Obligations.ExecAnswers
  exact exec_answers

/-- Settles O7: what is left of a step are the words of the bundle in flight, whose instruction answers. -/
theorem stepStopsOnlyOnUndecodable : Obligations.StepStopsOnlyOnUndecodable := by
  unfold Obligations.StepStopsOnlyOnUndecodable
  intro s decodes
  unfold Steps
  by_cases runs : (s.core s.cur).latch.live = true ∧ s.inReset = false
  · obtain ⟨live, free⟩ := runs
    rw [step_live live free]
    cases words : (s.core s.cur).latch.words with
    | nil => exact ⟨_, runLatch_nil words⟩
    | cons w ws =>
      obtain ⟨i, rest, d⟩ := decodes live w ws words
      rw [runLatch_ok words d]
      exact exec_answers i _
  · rw [step_idle (by cases l : (s.core s.cur).latch.live <;> simp_all)]
    exact nextEvent_answers s

end Sys2Proof.Machine
end

section
/-! O16, O17. What the checks of a slot operation decide (02 R39, R59). -/

namespace Sys2Proof.Machine

/-- A slot operation whose decode check fails does what the check says, with no detail. -/
theorem slotOp_decode {h : Head} {dst : Nat} {e : Option Ext} {eff : Eff} {s : State} {x : Check}
    (d : s.decodeCheck s.cur s.motorNow h dst e = x) (bad : x ≠ .ok) :
    slotOp h dst e eff s = .next (settle s s.cur s.motorNow x 0 s) := by
  subst d
  unfold slotOp State.motorNow at *
  dsimp only
  cases check : s.decodeCheck s.cur (s.core s.cur).latch.motor h dst e with
  | ok => exact absurd check bad
  | stall => rfl
  | fault code reason => rfl

/-- Settles O16: the no-op has no effect at all, and every other slot operation looks at its guard before it acts. -/
theorem guardFalse : Obligations.GuardFalse := by
  unfold Obligations.GuardFalse
  intro s i h dst e p d g
  by_cases n : i = .nop
  · subst n
    rfl
  · obtain ⟨eff, run⟩ := exec_slot i h dst e p n
    rw [run]
    exact slotOp_guard h dst.toNat e eff s d g

/-- Settles O17: what settle makes of a fault or a wait, whichever check reports it. -/
theorem checksDecide : Obligations.ChecksDecide := by
  unfold Obligations.ChecksDecide
  intro s i h dst e p n
  obtain ⟨eff, run⟩ := exec_slot i h dst e p n
  simp only [run]
  refine ⟨fun code reason bad => ?_, fun bad => ?_⟩
  · rcases bad with d | ⟨passes, u⟩
    · exact ⟨0, by rw [slotOp_decode d nofun, settle_fault]⟩
    · exact ⟨(s.operand h).toNat, by rw [slotOp_turned h dst.toNat e eff s passes, u, settle_fault]⟩
  · rcases bad with d | ⟨passes, u⟩
    · rw [slotOp_decode d nofun, settle_stall]
    · rw [slotOp_turned h dst.toNat e eff s passes, u, settle_stall]

end Sys2Proof.Machine
end

section
/-! O15. Moves (02 R42, R51, R54): a move that passes has the effect of its destination. -/

namespace Sys2Proof.Machine

/-- A move has no unit check. -/
theorem Passes.accepts {s : State} {h : Head} {dst : Nat} (p : Passes s h dst none) (small : dst < 0x100) : Accepts s h dst none :=
  ⟨p, trigCheck_none _ _ _ _ _ _ small⟩

theorem exec_move {s : State} {h : Head} {d : Dest} {dst : Nat} (code : (encodeDest d).toNat = dst) (p : Passes s h dst none) :
    exec (.move h d) s = .next (moveEff d s s.cur s.motorNow (s.operand h)) := by
  subst code
  exact slotOp_accepts _ _ _ _ _ (p.accepts (toNat_encodeDest_lt d))

/-- The low bits of a value. -/
theorem bits_low (v : Word) (hi : Nat) : bits v hi 0 = v.toNat % 2 ^ (hi + 1) := by
  simp [bits, bitsOf]

/-- A port written at once: the port, and nothing else of any core. -/
theorem modCore_setInp_frame (s : State) (c n : Nat) (v : Word) :
    SameOutsideCores s (s.modCore c (fun k => k.setInp n v)) ∧ SameCoresBut c s (s.modCore c (fun k => k.setInp n v)) :=
  ⟨rfl, fun _ other => State.core_modCore_other _ _ _ other⟩

/-- Settles O15: each destination's effect, where the slot passes. -/
theorem moveResults : Obligations.MoveResults := by
  unfold Obligations.MoveResults
  intro s h v
  refine ⟨fun n p => exec_move (toNat_encodeDest_x n) p, fun n p => exec_move (toNat_encodeDest_p n) p, exec_move rfl, fun p => ?_,
    fun p => ?_, fun p => ?_, fun p => ?_, fun q p => ?_, fun n p => ?_, rfl⟩
  · rw [exec_move rfl p, moveEff, bits_low]
    rfl
  · rw [exec_move rfl p, moveEff, bits_low]
    rfl
  · rw [exec_move rfl p, moveEff, bits_low]
    rfl
  · exact slotOp_accepts _ _ _ (fun s c _ _ => s.schedule c 1 .sbreset) _ (p.accepts (by decide))
  · exact slotOp_accepts _ _ _ (fun s c _ v => s.schedule c 1 (.push q.toNat v)) _ (p.accepts (by omega))
  · obtain ⟨outside, others⟩ := modCore_setInp_frame s s.cur n.val v
    refine ⟨_, exec_move (toNat_encodeDest_inp n) p, outside, others, ?_⟩
    have port : (moveEff (.inp n) s s.cur s.motorNow v).core s.cur = (s.core s.cur).setInp n.val v := State.core_modCore_same _ _ _
    rw [port]
    exact ⟨rfl, sget_sput_same _ _ _ _, fun m other => sget_sput_other _ _ _ _ other, by simp [SameHeld, Core.setInp]⟩

end Sys2Proof.Machine
end

section
/-! O36, O37. Frames (02 R49, R51, R52, 07 R133): what the effects of slot operations leave alone. -/

namespace Sys2Proof.Machine

/-! What only schedules. -/

@[simp] theorem SameHeld.refl (k : Core) : SameHeld k k := by
  simp [SameHeld]

theorem SameHeld.trans {k l m : Core} (a : SameHeld k l) (b : SameHeld l m) : SameHeld k m := by
  unfold SameHeld at *
  grind

@[simp] theorem OnlySchedules.refl (s : State) : OnlySchedules s s := ⟨rfl, fun _ => SameHeld.refl _⟩

theorem OnlySchedules.trans {s t u : State} (a : OnlySchedules s t) (b : OnlySchedules t u) : OnlySchedules s u := by
  obtain ⟨outside, held⟩ := a
  obtain ⟨outside', held'⟩ := b
  refine ⟨?_, fun d => (held d).trans (held' d)⟩
  unfold SameOutsideCores at *
  rw [← outside'] at outside
  exact outside

theorem OnlySchedules.modCore {s t : State} (a : OnlySchedules s t) (c : Nat) {f : Core → Core} (h : ∀ k, SameHeld k (f k)) :
    OnlySchedules s (t.modCore c f) := by
  refine a.trans ⟨rfl, fun d => ?_⟩
  rw [State.core_modCore]
  split
  · next same => subst same; exact h _
  · exact SameHeld.refl _

theorem OnlySchedules.scheduleAt {s t : State} (h : OnlySchedules s t) (holder due : Nat) (a : Act) :
    OnlySchedules s (t.scheduleAt holder due a) := h.modCore holder fun _ => by simp [SameHeld]

theorem OnlySchedules.schedule {s t : State} (h : OnlySchedules s t) (c n : Nat) (a : Act) : OnlySchedules s (t.schedule c n a) :=
  h.scheduleAt c _ a

theorem OnlySchedules.modLatch {s t : State} (h : OnlySchedules s t) (c : Nat) (f : Latch → Latch) :
    OnlySchedules s (t.modLatch c f) := h.modCore c fun _ => by simp [SameHeld]

theorem OnlySchedules.busyFor {s t : State} (h : OnlySchedules s t) (c r n : Nat) : OnlySchedules s (t.busyFor c r n) :=
  h.modCore c fun _ => by simp [SameHeld]

/-- An effect that only schedules, wherever it acts. -/
def Eff.schedules (eff : Eff) : Prop := ∀ s c motor v, OnlySchedules s (eff s c motor v)

/-! Scalar units, moves and loads and stores. -/

theorem moveEff_schedules {d : Dest} (h : ∀ n, d ≠ .inp n) : (moveEff d).schedules := by
  intro s c motor v
  cases d with
  | inp n => exact absurd rfl (h n)
  | x | p | lcount | rotb | sbbase | sblen => exact (OnlySchedules.refl s).schedule ..

@[simp] theorem scalarEff_schedules (u port n : Nat) (f : Word → Word → Word → Word) : (scalarEff u port n f).schedules :=
  fun s _ _ _ => (OnlySchedules.refl s).schedule ..

@[simp] theorem compareEff_schedules (u : Nat) (f : Word → Word → Bool) : (compareEff u f).schedules :=
  fun s _ _ _ => (OnlySchedules.refl s).schedule ..

@[simp] theorem loadEff_schedules (l : Core → LsLoad) : (loadEff l).schedules := by
  intro s c motor v
  unfold loadEff
  dsimp only
  split <;> exact (OnlySchedules.refl s).schedule ..

@[simp] theorem storeEff_schedules (size : Nat) : (storeEff size).schedules := fun s _ _ _ => (OnlySchedules.refl s).scheduleAt ..

@[simp] theorem stlabEff_schedules : stlabEff.schedules := fun s _ _ _ => (OnlySchedules.refl s).scheduleAt ..

@[simp] theorem stcapEff_schedules : stcapEff.schedules := fun s _ _ _ => (OnlySchedules.refl s).scheduleAt ..

@[simp] theorem capEff_schedules (f : State → Nat → Cap → Word → Cap) : (capEff f).schedules :=
  fun s _ _ _ => (OnlySchedules.refl s).schedule ..

@[simp] theorem inspectEff_schedules (f : Cap → Word) : (inspectEff f).schedules := fun s _ _ _ => (OnlySchedules.refl s).schedule ..

@[simp] theorem cmoveEff_schedules : cmoveEff.schedules := by
  intro s c motor v
  unfold cmoveEff
  dsimp only
  split
  · exact (OnlySchedules.refl s).schedule ..
  · exact ((OnlySchedules.refl s).schedule ..).schedule ..

/-! The ct and sy units. -/

theorem setCtl_schedules (s : State) (c : Nat) (x : Ctl) : OnlySchedules s (s.setCtl c x) := (OnlySchedules.refl s).modLatch ..

theorem setSys_schedules (s : State) (c : Nat) (x : Ctl) : OnlySchedules s (s.setSys c x) := (OnlySchedules.refl s).modLatch ..

@[simp] theorem brEff_schedules : brEff.schedules := fun _ _ _ _ => setCtl_schedules ..

@[simp] theorem jumpEff_schedules (kind : Xfer) : (jumpEff kind).schedules := fun _ _ _ _ => setCtl_schedules ..

@[simp] theorem retEff_schedules : retEff.schedules := fun _ _ _ _ => setCtl_schedules ..

@[simp] theorem loopEff_schedules : loopEff.schedules := fun _ _ _ _ => setCtl_schedules ..

@[simp] theorem rotEff_schedules : rotEff.schedules := fun s _ _ _ => (OnlySchedules.refl s).modLatch ..

@[simp] theorem lockEff_schedules : lockEff.schedules := fun _ _ _ _ => setCtl_schedules ..

@[simp] theorem endtaskEff_schedules : endtaskEff.schedules := fun _ _ _ _ => setCtl_schedules ..

@[simp] theorem trapEff_schedules : trapEff.schedules := fun _ _ _ _ => setCtl_schedules ..

@[simp] theorem csrrEff_schedules : csrrEff.schedules := fun s _ _ _ => (OnlySchedules.refl s).schedule ..

@[simp] theorem csrEff_schedules (kind : CsrKind) : (csrEff kind).schedules := fun s _ _ _ => (OnlySchedules.refl s).schedule ..

@[simp] theorem ecallEff_schedules : ecallEff.schedules := fun _ _ _ _ => setSys_schedules ..

@[simp] theorem tretEff_schedules : tretEff.schedules := fun _ _ _ _ => setSys_schedules ..

@[simp] theorem haltEff_schedules : haltEff.schedules := fun _ _ _ _ => setSys_schedules ..

@[simp] theorem sysEff_schedules (op : Nat) : (sysEff op).schedules := by
  intro s c motor v
  unfold sysEff syOut
  dsimp only
  split
  · exact (OnlySchedules.refl s).schedule ..
  · exact (((OnlySchedules.refl s).modLatch ..).schedule ..).schedule ..

/-! The press. -/

theorem caskReads_schedules (s : State) (c : Nat) (v : Word) (n left : Nat) : OnlySchedules s (caskReads s c v n left) := by
  induction left generalizing s n with
  | zero => exact OnlySchedules.refl s
  | succ left ih => exact ((OnlySchedules.refl s).schedule ..).trans (ih _ _)

@[simp] theorem caskEff_schedules : caskEff.schedules :=
  fun s _ _ _ => ((OnlySchedules.refl s).busyFor ..).trans (caskReads_schedules ..)

theorem passReads_schedules (s : State) (c : Nat) (v : Word) (zeroFirst : Bool) (w r left : Nat) :
    OnlySchedules s (passReads s c v zeroFirst w r left) := by
  induction left generalizing s r with
  | zero => exact OnlySchedules.refl s
  | succ left ih => exact ((OnlySchedules.refl s).schedule ..).trans (ih _ _)

@[simp] theorem mmEff_schedules (zeroFirst : Bool) : (mmEff zeroFirst).schedules :=
  fun s _ _ _ => ((((OnlySchedules.refl s).busyFor ..).busyFor ..).busyFor ..).trans (passReads_schedules ..)

@[simp] theorem zeroEff_schedules : zeroEff.schedules := fun s _ _ _ => ((OnlySchedules.refl s).busyFor ..).schedule ..

/-! The rk, fb and fg units. -/

theorem rkOut_schedules {s t : State} (h : OnlySchedules s t) (c n : Nat) : OnlySchedules s (rkOut t c n) := h.schedule ..

theorem fbOut_schedules {s t : State} (h : OnlySchedules s t) (c n : Nat) : OnlySchedules s (fbOut t c n) := h.schedule ..

@[simp] theorem rackEff_schedules (op : Nat) : (rackEff op).schedules := by
  intro s c motor v
  unfold rackEff
  split
  · exact rkOut_schedules (OnlySchedules.refl s) ..
  · exact rkOut_schedules ((OnlySchedules.refl s).schedule ..) ..

@[simp] theorem probeEff_schedules : probeEff.schedules := fun s _ _ _ => rkOut_schedules (OnlySchedules.refl s) ..

@[simp] theorem cancelEff_schedules : cancelEff.schedules := by
  intro s c motor v
  unfold cancelEff
  split
  · exact rkOut_schedules ((OnlySchedules.refl s).schedule ..) ..
  · exact rkOut_schedules (OnlySchedules.refl s) ..

@[simp] theorem waitaddrEff_schedules : waitaddrEff.schedules := by
  intro s c motor v
  unfold waitaddrEff
  dsimp only
  split
  · exact rkOut_schedules (OnlySchedules.refl s) ..
  · exact rkOut_schedules ((OnlySchedules.refl s).schedule ..) ..
  · exact rkOut_schedules (OnlySchedules.refl s) ..

@[simp] theorem rfenceEff_schedules : rfenceEff.schedules := by
  intro s c motor v
  unfold rfenceEff
  dsimp only
  split
  · exact fbOut_schedules (OnlySchedules.refl s) ..
  · exact fbOut_schedules ((OnlySchedules.refl s).schedule ..) ..

@[simp] theorem slotEff_schedules : slotEff.schedules := fun s _ _ _ => (OnlySchedules.refl s).schedule ..

@[simp] theorem wstatEff_schedules : wstatEff.schedules := by
  intro s c motor v
  unfold wstatEff
  dsimp only
  split <;> exact fbOut_schedules (OnlySchedules.refl s) ..

@[simp] theorem flagEff_schedules (op : FlagOp) : (flagEff op).schedules := fun s _ _ _ => (OnlySchedules.refl s).schedule ..

@[simp] theorem ftestEff_schedules : ftestEff.schedules := fun s _ _ _ => (OnlySchedules.refl s).schedule ..

@[simp] theorem garriveEff_schedules : garriveEff.schedules := fun s _ _ _ => (OnlySchedules.refl s).schedule ..

@[simp] theorem gcastEff_schedules : gcastEff.schedules := fun s _ _ _ => (OnlySchedules.refl s).schedule ..

@[simp] theorem ginfoEff_schedules : ginfoEff.schedules := fun s _ _ _ => (OnlySchedules.refl s).schedule ..

set_option maxRecDepth 8000 in
/-- The operations of onlyAsks are slot operations whose effect only schedules. -/
theorem exec_onlyAsks {i : Instr} {h : Head} {dst : BitVec 10} {e : Option Ext} (p : slotParts i = some (h, dst, e))
    (only : onlyAsks i = true) : ∃ eff : Eff, eff.schedules ∧ ∀ s, exec i s = slotOp h dst.toNat e eff s := by
  have one (n : Nat) (x : State → Nat → Bool → Word → Act) : Eff.schedules fun s c motor v => s.schedule c n (x s c motor v) :=
    fun s _ _ _ => (OnlySchedules.refl s).schedule ..
  cases i
  case move g d =>
    cases p
    refine ⟨_, moveEff_schedules fun n is => ?_, fun _ => rfl⟩
    subst is
    cases only
  case queuePush g q =>
    cases p
    rw [toNat_queueDest]
    exact ⟨_, one 1 fun _ _ _ v => .push q.toNat v, fun _ => rfl⟩
  case streamReset g => cases p; exact ⟨_, one 1 fun _ _ _ _ => .sbreset, fun _ => rfl⟩
  case ctBrk g => cases p; exact ⟨fun s _ _ _ => s, fun s _ _ _ => OnlySchedules.refl s, fun _ => rfl⟩
  case prMode g => cases p; exact ⟨_, one 1 fun _ _ _ v => .pmode (bits v 2 0), fun _ => rfl⟩
  case prFmt g =>
    cases p
    exact ⟨_, one 1 fun s c _ v => .pfmt (selFmt (s.core c) (bits v 3 0)) (selFmt (s.core c) (bits v 7 4)), fun _ => rfl⟩
  case prBusy g => cases p; exact ⟨_, one 1 fun s c _ _ => .busyWord (busyAsked s c), fun _ => rfl⟩
  all_goals cases only
  all_goals cases p
  all_goals exact ⟨_, by simp, fun _ => rfl⟩

/-- Settles O36: the effect of each such operation is made of scheduled actions and notes in the latch. -/
theorem schedulingFrame : Obligations.SchedulingFrame := by
  unfold Obligations.SchedulingFrame
  intro s i h dst e p only a
  obtain ⟨eff, schedules, run⟩ := exec_onlyAsks p only
  exact ⟨_, (run s).trans (slotOp_accepts h dst.toNat e eff s a), schedules ..⟩

/-! Wide operations: the last-use bits of their registers, then what is scheduled (02 R49). -/

/-- What the last-use bits of an extension word leave: the registers they name may be dead. -/
def lastUses (s : State) (c : Nat) (e : Ext) (d : Option Nat) (a b : Bool) : State := s.modCore c (fun k => k.lastUse e d a b)

@[simp] theorem lastUse_unmarked (k : Core) (e : Ext) (d : Option Nat) (a b : Bool) (ha : (a && e.aLast) = false)
    (hb : (b && e.bLast) = false) : k.lastUse e d a b = k := by
  simp [Core.lastUse, ha, hb]

/-- Marking registers dead changes nothing but the dead marks. -/
theorem lastUse_held (k : Core) (e : Ext) (d : Option Nat) (a b : Bool) :
    k.lastUse e d a b = { k with regs := { k.regs with dead := (k.lastUse e d a b).regs.dead } } := by
  unfold Core.lastUse
  dsimp only
  repeat' split
  all_goals rfl

/-- An effect that marks the registers of its last-use bits dead and schedules. -/
def Eff.marks (eff : Eff) (e : Ext) : Prop := ∀ s c motor v, ∃ d a b, OnlySchedules (lastUses s c e d a b) (eff s c motor v)

theorem lastUses_none (s : State) (c : Nat) (e : Ext) : OnlySchedules (lastUses s c e none false false) s := by
  refine ⟨rfl, fun d => ?_⟩
  rw [lastUses, State.core_modCore]
  split
  · next same => simp [same]
  · exact SameHeld.refl _

theorem OnlySchedules.marks {s t : State} (h : OnlySchedules s t) (c : Nat) (e : Ext) :
    ∃ d a b, OnlySchedules (lastUses s c e d a b) t := ⟨none, false, false, (lastUses_none s c e).trans h⟩

theorem Eff.schedules.marks {eff : Eff} (h : eff.schedules) (e : Ext) : eff.marks e := fun s c motor v => (h s c motor v).marks c e

@[simp] theorem vaEff_marks (u k : Nat) (op : VaOp) (n : Nat) (e : Ext) : (vaEff u k op n e).marks e :=
  fun _ _ _ _ => ⟨_, _, _, (OnlySchedules.refl _).schedule ..⟩

@[simp] theorem sfEff_marks (op : SfOp) (e : Ext) : (sfEff op e).marks e :=
  fun _ _ _ _ => ⟨_, _, _, ((OnlySchedules.refl _).busyFor ..).schedule ..⟩

@[simp] theorem vmLdEff_marks (e : Ext) : (vmLdEff e).marks e := by
  refine Eff.schedules.marks (e := e) fun s c motor v => ?_
  unfold vmLdEff
  dsimp only
  split <;> exact (OnlySchedules.refl s).schedule ..

@[simp] theorem vmStEff_marks (e : Ext) : (vmStEff e).marks e :=
  fun _ _ _ _ => ⟨_, _, _, (OnlySchedules.refl _).scheduleAt ..⟩

theorem gatherFrom_schedules (s : State) (c : Nat) (e : Ext) (v : Word) (k : Core) (os : List Nat) :
    OnlySchedules s (gatherFrom s c e v k os) := by
  induction os generalizing s with
  | nil => exact OnlySchedules.refl s
  | cons o os ih =>
    refine OnlySchedules.trans ?_ (ih _)
    split <;> exact (OnlySchedules.refl s).schedule ..

@[simp] theorem vmLdxEff_marks (e : Ext) : (vmLdxEff e).marks e := by
  refine fun s c motor v => ⟨some e.d.toNat, false, true, ?_⟩
  unfold vmLdxEff
  dsimp only
  split
  · exact (OnlySchedules.refl _).schedule ..
  · exact gatherFrom_schedules ..

theorem scatterTo_schedules (s : State) (c : Nat) (e : Ext) (v : Word) (k : Core) (due : Nat) (os : List Nat) :
    OnlySchedules s (scatterTo s c e v k due os) := by
  induction os generalizing s with
  | nil => exact OnlySchedules.refl s
  | cons o os ih => exact ((OnlySchedules.refl s).scheduleAt ..).trans (ih _)

@[simp] theorem vmStxEff_marks (e : Ext) : (vmStxEff e).marks e := fun _ _ _ _ => ⟨_, _, _, scatterTo_schedules ..⟩

@[simp] theorem vmMovEff_marks (e : Ext) : (vmMovEff e).marks e := by
  intro s c motor v
  unfold vmMovEff
  dsimp only
  split
  · exact ⟨_, _, _, (OnlySchedules.refl _).schedule ..⟩
  · exact ((OnlySchedules.refl s).schedule ..).marks c e
  · exact ⟨_, _, _, ((OnlySchedules.refl _).busyFor ..).schedule ..⟩

@[simp] theorem vmBcastEff_marks (e : Ext) : (vmBcastEff e).marks e :=
  Eff.schedules.marks (e := e) fun s _ _ _ => (OnlySchedules.refl s).schedule ..

@[simp] theorem vmLaneEff_marks (e : Ext) : (vmLaneEff e).marks e := by
  intro s c motor v
  unfold vmLaneEff
  dsimp only
  split
  · exact ((OnlySchedules.refl s).schedule ..).marks c e
  · exact ⟨_, _, _, (OnlySchedules.refl _).schedule ..⟩

@[simp] theorem vmPermEff_marks (e : Ext) : (vmPermEff e).marks e :=
  fun _ _ _ _ => ⟨_, _, _, (OnlySchedules.refl _).schedule ..⟩

@[simp] theorem vmShufEff_marks (e : Ext) : (vmShufEff e).marks e :=
  fun _ _ _ _ => ⟨_, _, _, (OnlySchedules.refl _).schedule ..⟩

@[simp] theorem vmConvEff_marks (op : ConvOp) (e : Ext) : (vmConvEff op e).marks e :=
  fun _ _ _ _ => ⟨_, _, _, (OnlySchedules.refl _).schedule ..⟩

@[simp] theorem vmDecodeEff_marks (e : Ext) : (vmDecodeEff e).marks e := by
  refine Eff.schedules.marks (e := e) fun s c motor v => ?_
  unfold vmDecodeEff
  dsimp only
  split <;> exact (OnlySchedules.refl s).schedule ..

@[simp] theorem vmEncodeEff_marks (e : Ext) : (vmEncodeEff e).marks e :=
  fun _ _ _ _ => ⟨_, _, _, (OnlySchedules.refl _).scheduleAt ..⟩

@[simp] theorem vmPushEff_marks (e : Ext) : (vmPushEff e).marks e := by
  refine fun s c motor v => ⟨none, true, false, ?_⟩
  unfold vmPushEff
  dsimp only
  split
  · exact (OnlySchedules.refl _).schedule ..
  · exact ((OnlySchedules.refl _).schedule ..).schedule ..

@[simp] theorem vmPopEff_marks (e : Ext) : (vmPopEff e).marks e :=
  Eff.schedules.marks (e := e) fun s _ _ _ => ((OnlySchedules.refl s).schedule ..).schedule ..

@[simp] theorem maskEff_marks (f : Mask → Mask → Mask) (e : Ext) : (maskEff f e).marks e :=
  Eff.schedules.marks (e := e) fun s _ _ _ => (OnlySchedules.refl s).schedule ..

@[simp] theorem mcountEff_marks (e : Ext) : (mcountEff e).marks e :=
  Eff.schedules.marks (e := e) fun s _ _ _ => (OnlySchedules.refl s).schedule ..

@[simp] theorem lendEff_marks (on : Bool) (e : Ext) : (lendEff on).marks e :=
  Eff.schedules.marks (e := e) fun s _ _ _ => (OnlySchedules.refl s).schedule ..

@[simp] theorem setfmtEff_marks (e : Ext) : (setfmtEff e).marks e :=
  Eff.schedules.marks (e := e) fun s _ _ _ => (OnlySchedules.refl s).schedule ..

set_option maxRecDepth 8000 in
/-- Every wide operation is a slot operation whose effect marks its last uses and schedules. -/
theorem exec_wide {i : Instr} {h : Head} {dst : BitVec 10} {e : Ext} (p : slotParts i = some (h, dst, some e)) :
    ∃ eff : Eff, eff.marks e ∧ ∀ s, exec i s = slotOp h dst.toNat (some e) eff s := by
  cases i
  all_goals cases p
  all_goals exact ⟨_, by simp, fun _ => rfl⟩

/-- What is held after the last uses and what they schedule: all but the dead marks. -/
theorem SameHeld.of_lastUse {k l : Core} {e : Ext} {d : Option Nat} {a b : Bool} (h : SameHeld (k.lastUse e d a b) l) :
    SameHeld { k with regs := { k.regs with dead := l.regs.dead } } l := by
  rw [lastUse_held] at h
  obtain ⟨regs, rest⟩ := h
  exact ⟨by rw [regs], rest⟩

/-- Settles O37: the last uses change the dead marks alone, and what is scheduled changes nothing that is held. -/
theorem wideFrame : Obligations.WideFrame := by
  unfold Obligations.WideFrame
  intro s i h dst e p a
  obtain ⟨eff, marks, run⟩ := exec_wide p
  refine ⟨_, (run s).trans (slotOp_accepts h dst.toNat (some e) eff s a), ?_⟩
  obtain ⟨d, la, lb, outside, held⟩ := marks s s.cur s.motorNow (s.operand h)
  have here := held s.cur
  rw [lastUses, State.core_modCore_same] at here
  refine ⟨?_, fun c other => ?_, here.of_lastUse, fun ha hb => ?_⟩
  · unfold SameOutsideCores at *
    exact congrArg (fun u => { u with cores := s.cores }) outside
  · have there := held c
    rwa [lastUses, State.core_modCore_other _ _ _ other] at there
  · rwa [lastUse_unmarked _ _ _ _ _ (by simp [ha]) (by simp [hb])] at here

end Sys2Proof.Machine
end

section
/-! O38. Delivery (02 R38, R51, 07 R133, 08 R148): one due action is delivered by itself, and writes its own destination. -/

namespace Sys2Proof.Machine

/-! One action that is due. -/

theorem inIssueOrder_single (p : Pend) : inIssueOrder [p] = [p] := rfl

/-- One action among the due ranks is delivered once. -/
theorem deliverRanks_single (s : State) (c : Nat) (p : Pend) (lo n : Nat) :
    deliverRanks s c [p] lo n = if lo ≤ p.act.rank ∧ p.act.rank < lo + n then deliverAct s c p else s := by
  induction n generalizing s lo with
  | zero => exact (if_neg (by omega)).symm
  | succ n ih =>
    rw [deliverRanks, ih]
    by_cases here : p.act.rank = lo
    · rw [if_neg (by omega), if_pos (by omega)]
      simp [here]
    · have none : [p].filter (fun p => p.act.rank == lo) = [] := by simp [here]
      rw [none, List.foldl_nil]
      congr 1
      simp only [eq_iff_iff]
      omega

/-- What lies in its own core is taken there (02 R38, R51). -/
theorem deliverAct_take {s : State} {c : Nat} {p : Pend} (r : p.act.rank ≤ 5) (csr : ∀ num kind v, p.act ≠ .csr num kind v)
    (read : ∀ num, p.act ≠ .csrRead num) (busy : ∀ w, p.act ≠ .busyWord w) :
    deliverAct s c p = s.modCore c (fun k => k.take s.tick p.act) := by
  unfold deliverAct
  split
  case h_1 e => exact absurd e (csr _ _ _)
  case h_2 e => exact absurd e (read _)
  case h_14 e => exact absurd e (busy _)
  case h_15 => rfl
  all_goals
    next e =>
    rw [e] at r
    exact absurd (show 6 ≤ 5 from r) (by decide)

/-- What no move or result changes: the memories, the racks and the hand table. -/
def Core.aside (k : Core) : CMem × Store Rack × Store HandEnt := (k.mem, k.racks, k.hand)

theorem Core.aside_modRegs (k : Core) (f : Regs → Regs) : (k.modRegs f).aside = k.aside := rfl

@[simp] theorem Core.aside_setX (k : Core) (n : Nat) (v : Word) : (k.setX n v).aside = k.aside := by
  unfold Core.setX
  split <;> rfl

theorem Core.aside_setPred (k : Core) (n : Nat) (v : Bool) : (k.setPred n v).aside = k.aside := by
  unfold Core.setPred
  split <;> rfl

@[simp] theorem Core.aside_setE (k : Core) (n : Nat) (m : Mask) : (k.setE n m).aside = k.aside := by
  unfold Core.setE
  split <;> rfl

theorem Core.aside_setStages (k : Core) (ps : List (Nat × Bool)) : (k.setStages ps).aside = k.aside := by
  induction ps generalizing k with
  | nil => rfl
  | cons p ps ih => exact (ih _).trans (Core.aside_setPred ..)

theorem Core.aside_modStream (k : Core) (motor : Bool) (f : Stream → Stream) : (k.modStream motor f).aside = k.aside := by
  cases motor <;> rfl

@[simp] theorem Core.aside_setWide (k : Core) (tick unit d : Nat) (o : WideOut) : (k.setWide tick unit d o).aside = k.aside := by
  unfold Core.setWide
  cases o.o0 <;> cases o.mask <;> simp <;> rfl

theorem Core.aside_take (k : Core) (tick : Nat) (a : Act) : (k.take tick a).aside = k.aside := by
  cases a with
  | x => exact Core.aside_setX ..
  | pred | rpred => exact Core.aside_setPred ..
  | lcount => exact Core.aside_modStream ..
  | stage => exact Core.aside_setStages ..
  | emask => exact Core.aside_setE ..
  | va | sf | conv | decoded => exact Core.aside_setWide ..
  | _ => rfl

/-! What a written register reads as (01 R15, 07 R131, 08 R148). -/

/-- The bits of a row after a merge. -/
theorem getLsbD_mergeRow (old new m : Row) {j : Nat} (h : j < 8192) :
    (mergeRow old new m).getLsbD j = if m.getLsbD j then new.getLsbD j else old.getLsbD j := by
  simp only [mergeRow, BitVec.getLsbD_or, BitVec.getLsbD_and, BitVec.getLsbD_not, h]
  cases m.getLsbD j <;> simp

@[simp] theorem mergeRow_allRow (old new : Row) : mergeRow old new allRow = new := by
  apply BitVec.eq_of_getLsbD_eq
  intro j h
  rw [getLsbD_mergeRow _ _ _ h, allRow, BitVec.getLsbD_allOnes, if_pos (by simpa using h)]

theorem getLsbD_ofNat_two_pow {w : Nat} (n i : Nat) : (BitVec.ofNat w (2 ^ n)).getLsbD i = decide (i < w ∧ i = n) := by
  rw [BitVec.getLsbD_ofNat, Nat.testBit_two_pow]
  grind

/-- One bit of a vector set or cleared. -/
theorem getLsbD_setBit {w : Nat} (b : BitVec w) (on : Bool) (n : Nat) {i : Nat} (h : i < w) :
    (if on then b ||| BitVec.ofNat w (2 ^ n) else b &&& ~~~(BitVec.ofNat w (2 ^ n))).getLsbD i = if i = n then on else b.getLsbD i := by
  cases on <;>
    simp only [Bool.false_eq_true, if_true, if_false, BitVec.getLsbD_or, BitVec.getLsbD_and, BitVec.getLsbD_not,
      getLsbD_ofNat_two_pow, h, true_and, decide_true, Bool.true_and]
  · by_cases same : i = n <;> simp [same]
  · by_cases same : i = n <;> simp [same]

theorem x_setX_same (k : Core) (n : Nat) (v : Word) : (k.setX n v).x n = if n = 0 then 0 else v := by
  unfold Core.setX Core.x Core.modRegs
  grind [sget_sput]

theorem x_setX_other (k : Core) {n m : Nat} (v : Word) (other : m ≠ n) : (k.setX n v).x m = k.x m := by
  unfold Core.setX Core.x Core.modRegs
  grind [sget_sput]

theorem p_setPred (k : Core) (n : Nat) (v : Bool) {m : Nat} (h : m < 8) :
    (k.setPred n v).regs.p.getLsbD m = if m = n ∧ n ≠ 0 then v else k.regs.p.getLsbD m := by
  unfold Core.setPred
  by_cases zero : n = 0
  · simp [zero]
  · simp only [if_neg zero, Core.modRegs, getLsbD_setBit _ _ _ h]
    simp [zero]

theorem mask_setE_same (k : Core) (n : Nat) (m : Mask) : (k.setE n m).mask n = if n = 0 then BitVec.allOnes 2048 else m := by
  unfold Core.setE Core.mask Core.modRegs
  grind [sget_sput]

theorem mask_setE_other (k : Core) {n r : Nat} (m : Mask) (other : r ≠ n) : (k.setE n m).mask r = k.mask r := by
  unfold Core.setE Core.mask Core.modRegs
  grind [sget_sput]

theorem setPred_frame (k : Core) (n : Nat) (v : Bool) : ({ k.setPred n v with regs := k.regs } : Core) = k := by
  unfold Core.setPred
  split <;> rfl

theorem setE_frame (k : Core) (n : Nat) (m : Mask) :
    k.setE n m = { k with regs := { k.regs with e := (k.setE n m).regs.e } } := by
  unfold Core.setE
  split <;> rfl

/-! Wide results (07 R133). -/

/-- The core of a wide result before its row or mask is written: generators, status, and the o0 of the unit. -/
def Core.beforeRow (k : Core) (tick unit : Nat) (o : WideOut) : Core :=
  o.o0.elim ({ k with gens := o.gens }.setStat tick o.st)
    (fun v => ({ k with gens := o.gens }.setStat tick o.st).setOut (outPort unit 0) v)

theorem setWide_mask {k : Core} {tick unit d : Nat} {o : WideOut} {m : Mask} (e : o.mask = some m) :
    k.setWide tick unit d o = (k.beforeRow tick unit o).setE d m := by
  unfold Core.setWide Core.beforeRow
  rw [e]
  cases o.o0 <;> rfl

theorem setWide_row {k : Core} {tick unit d : Nat} {o : WideOut} (e : o.mask = none) :
    k.setWide tick unit d o = (k.beforeRow tick unit o).setV d o.row o.bits := by
  unfold Core.setWide Core.beforeRow
  rw [e]
  cases o.o0 <;> rfl

theorem beforeRow_regs (k : Core) (tick unit : Nat) (o : WideOut) :
    (k.beforeRow tick unit o).regs = { k.regs with out := o.o0.elim k.regs.out (sput 0 k.regs.out (outPort unit 0)) } := by
  unfold Core.beforeRow
  cases o.o0 <;> rfl

theorem beforeRow_gens (k : Core) (tick unit : Nat) (o : WideOut) : (k.beforeRow tick unit o).gens = o.gens := by
  unfold Core.beforeRow
  cases o.o0 <;> rfl

theorem beforeRow_csr (k : Core) (tick unit : Nat) (o : WideOut) :
    (k.beforeRow tick unit o).csr = { k.csr with astat := k.csr.astat ||| o.st } := by
  unfold Core.beforeRow
  cases o.o0 <;> rfl

/-- What a wide result leaves, whether it writes a row or a mask: generators, status, its port, and neither x registers nor the main
file. -/
theorem setWide_frame (k : Core) (tick unit d : Nat) (o : WideOut) :
    (k.setWide tick unit d o).gens = o.gens ∧ (k.setWide tick unit d o).csr = { k.csr with astat := k.csr.astat ||| o.st } ∧
    (k.setWide tick unit d o).regs.out = o.o0.elim k.regs.out (sput 0 k.regs.out (outPort unit 0)) ∧
    (k.setWide tick unit d o).regs.x = k.regs.x ∧ (k.setWide tick unit d o).regs.m = k.regs.m := by
  have before := beforeRow_regs k tick unit o
  cases e : o.mask with
  | none =>
    rw [setWide_row e]
    simp only [Core.setV, Core.modRegs, before, beforeRow_gens, beforeRow_csr, and_self]
  | some m =>
    rw [setWide_mask e, setE_frame]
    simp only [before, beforeRow_gens, beforeRow_csr, and_self]

/-- The mask that a wide result writes. -/
theorem setWide_writes_mask {k : Core} {tick unit d : Nat} {o : WideOut} {m : Mask} (e : o.mask = some m) :
    (0 < d → (k.setWide tick unit d o).mask d = m) ∧ (∀ n, n ≠ d → (k.setWide tick unit d o).mask n = k.mask n) ∧
      (k.setWide tick unit d o).regs.v = k.regs.v := by
  have before := beforeRow_regs k tick unit o
  have same (n : Nat) : (k.beforeRow tick unit o).mask n = k.mask n := by simp only [Core.mask, before]
  rw [setWide_mask e]
  refine ⟨fun pos => ?_, fun n other => ?_, ?_⟩
  · rw [mask_setE_same, if_neg (by omega)]
  · rw [mask_setE_other _ _ other, same]
  · rw [setE_frame, before]

/-- The row that a wide result writes. -/
theorem setWide_writes_row {k : Core} {tick unit d : Nat} {o : WideOut} (e : o.mask = none) :
    (k.setWide tick unit d o).regs.v = sput 0 k.regs.v d (mergeRow (sget 0 k.regs.v d) o.row o.bits) ∧
      (k.setWide tick unit d o).regs.e = k.regs.e := by
  rw [setWide_row e]
  simp only [Core.setV, Core.modRegs, beforeRow_regs, and_self]

/-! The delivery. -/

theorem exec_resultDelivery_single {s : State} {c : Nat} {p : Pend} (due : (s.core c).dueActs s.tick (fun r => r < 8) = [p])
    (r : p.act.rank ≤ 5) (csr : ∀ num kind v, p.act ≠ .csr num kind v) (read : ∀ num, p.act ≠ .csrRead num)
    (busy : ∀ w, p.act ≠ .busyWord w) :
    exec (.resultDelivery c) s = .next ((s.modCore c (fun k => k.dropActs s.tick (fun r => r < 8))).modCore c
      (fun k => k.take s.tick p.act)) := by
  have delivered : exec (.resultDelivery c) s = execResultDelivery c s := rfl
  rw [delivered, execResultDelivery]
  simp only [due, inIssueOrder_single]
  rw [deliverRanks_single, if_pos (by omega), deliverAct_take r csr read busy, State.modCore_tick]

/-- Settles O38: the one due action is taken by its core, and each action's register reads back as written, every other as before. -/
theorem moveDelivery : Obligations.MoveDelivery := by
  unfold Obligations.MoveDelivery
  refine ⟨fun s c p due r csr read busy => ?_, fun k tick => ?_⟩
  · refine ⟨_, exec_resultDelivery_single due r csr read busy, rfl, fun d other => ?_, ?_⟩
    · rw [State.core_modCore_other _ _ _ other, State.core_modCore_other _ _ _ other]
    · rw [State.core_modCore_same, State.core_modCore_same]
      obtain ⟨mem, racks, hand⟩ : _ ∧ _ ∧ _ := by
        simpa only [Core.aside, Prod.mk.injEq] using
          Core.aside_take ((s.core c).dropActs s.tick (fun r => r < 8)) s.tick p.act
      refine ⟨rfl, fun n v is => ?_, fun n v is => ?_, mem, racks, hand⟩
      · rw [is]
        exact ⟨x_setX_same .., fun m other => x_setX_other _ _ other⟩
      · rw [is]
        exact ⟨sget_sput_same .., rfl, fun m other => sget_sput_other _ _ _ _ other⟩
  · intro after wide same
    have delivered (unit d : Nat) (o : WideOut) : wide (k.setWide tick unit d o) (outPort unit 0) d o := by
      obtain ⟨gens, csr, out, x, m⟩ := setWide_frame k tick unit d o
      refine ⟨gens, csr, fun v e => ?_, fun e => ?_, fun m other => ?_, fun m e => setWide_writes_mask e, fun e => ?_, x, m,
        congrArg Prod.fst (Core.aside_setWide k tick unit d o)⟩
      · rw [out, e]
        exact sget_sput_same ..
      · rw [out, e]
        rfl
      · rw [out]
        cases o.o0 with
        | none => rfl
        | some v => exact sget_sput_other _ _ _ _ other
      · obtain ⟨v, masks⟩ := setWide_writes_row (k := k) (tick := tick) (unit := unit) (d := d) e
        rw [v]
        exact ⟨fun j h => by rw [sget_sput_same, getLsbD_mergeRow _ _ _ h], fun n other => sget_sput_other _ _ _ _ other, masks⟩
    have stream (m : Bool) (v : Word) : (after (.lcount m v)).stream m = { k.stream m with lcount := v } ∧
        (after (.lcount m v)).stream (!m) = k.stream (!m) ∧ (after (.lcount m v)).regs = k.regs := by
      cases m <;> exact ⟨rfl, rfl, rfl⟩
    refine ⟨fun n v h => ⟨rfl, setPred_frame k n v, (p_setPred k n v h).trans (by grind), fun m hm other =>
        (p_setPred k n v hm).trans (if_neg (by omega))⟩,
      stream, fun _ => rfl, fun _ => ⟨rfl, rfl⟩, rfl, fun _ _ => rfl,
      fun q v => ⟨rfl, sget_sput_same .., fun _ other => sget_sput_other _ _ _ _ other,
        rfl, sget_sput_same .., fun _ other => sget_sput_other _ _ _ _ other⟩,
      fun n row bits => ⟨rfl, rfl, rfl, fun j h => ?_, fun _ other => sget_sput_other _ _ _ _ other, rfl⟩,
      fun n row st => ⟨(sget_sput_same ..).trans (mergeRow_allRow ..), fun _ other => sget_sput_other _ _ _ _ other, rfl, rfl, rfl⟩,
      fun n m => ⟨congrArg (fun t : Core => { t with regs := k.regs }) (setE_frame k n m), mask_setE_same .., fun _ other =>
        mask_setE_other _ _ other, congrArg Core.regs (setE_frame k n m)⟩,
      fun n v => ⟨rfl, sget_sput_same .., fun _ other => sget_sput_other _ _ _ _ other, rfl⟩,
      fun n x => ⟨rfl, sget_sput_same .., fun _ other => sget_sput_other _ _ _ _ other, rfl⟩,
      fun n => ⟨sget_sput_same .., fun _ other => sget_sput_other _ _ _ _ other, rfl⟩,
      fun op ty w d => delivered 4 d _, fun op ty w d => delivered 6 d _, fun op td ts w d => delivered 5 d _,
      fun td vs mode d => delivered 5 d _,
      fun n on i h => ⟨getLsbD_setBit _ _ _ h, rfl, rfl⟩, fun m a b => ⟨rfl, rfl⟩,
      fun n => ⟨rfl, fun r h => (sget_sclear ..).trans (if_pos (by omega)), fun m out => (sget_sclear ..).trans (if_neg (by omega)), rfl⟩⟩
    exact (congrArg (fun r : Row => r.getLsbD j) (sget_sput_same ..)).trans (getLsbD_mergeRow _ _ _ h)

end Sys2Proof.Machine
end

section
/-! O42. The events of a boundary (02 R51, R59, 06 R117): what a bundle issue comes to, and the events that find nothing due. -/

namespace Sys2Proof.Machine

/-! BUNDLE_ISSUE. -/

/-- The core as a bundle that passes leaves it: the bundle stands in the latch, and a motor bundle's resources are kept (02 R55). -/
def Core.issued (k : Core) (motor : Bool) (l : Latch) (rc : Nat) (res : Resources) : Core :=
  { k.modStream motor (fun t => if t.newCall then { t with cbase := rc, newCall := false } else t) with
    latch := l
    mres := if motor then res else k.mres }

@[simp] theorem Core.issued_latch (k : Core) (motor : Bool) (l : Latch) (rc : Nat) (res : Resources) :
    (k.issued motor l rc res).latch = l := rfl

@[simp] theorem Core.issued_regs (k : Core) (motor : Bool) (l : Latch) (rc : Nat) (res : Resources) :
    (k.issued motor l rc res).regs = k.regs := by cases motor <;> rfl

@[simp] theorem Core.issued_mem (k : Core) (motor : Bool) (l : Latch) (rc : Nat) (res : Resources) :
    (k.issued motor l rc res).mem = k.mem := by cases motor <;> rfl

/-- A bundle that passes order 8, shares no resource with the motor bundle of its tick and passes its unit checks stands in the latch. -/
theorem issueChecked_passes {s : State} {c : Nat} {motor : Bool} {pc h : Nat} {ps : List Parts} (queues : order8 s c motor h ps = none)
    (units : unitFault (s.setCore c (portWrites (s.modCore c (fun k => { k with latch := latchOf motor pc h ps })) c motor ps))
      c motor ps = none)
    (alone : motor = true ∨ (s.core c).mres.tick ≠ s.tick) :
    ∃ res, issueChecked s c motor pc h ps =
      { s.modCore c (fun k => k.issued motor (latchOf motor pc h ps) (s.rcyc c) res) with cur := c } := by
  have free : ∀ b, (!motor && (s.core c).mres.tick == s.tick && b) = false := by
    rcases alone with h | h <;> simp [h]
  simp only [issueChecked, queues, units, free, Bool.false_eq_true, if_false]
  exact ⟨_, rfl⟩

theorem State.core_withCur (s : State) (n d : Nat) : State.core { s with cur := n } d = s.core d := rfl

/-- A stream that may not issue issues nothing. -/
theorem exec_bundleIssue_idle {s : State} {c : Nat} {motor : Bool} (no : s.canIssue c motor = false) :
    exec (.bundleIssue c motor) s = .next s := by
  have issue : exec (.bundleIssue c motor) s = execBundleIssue c motor s := rfl
  simp [issue, execBundleIssue, no]

section

variable {s : State} {c : Nat} {motor : Bool} {pc h : Nat} {lay : List Entry × Option Nat} (may : s.canIssue c motor = true)
  (at_ : pc = ((s.core c).stream motor).pc) (inside : pc < 16384) (header : h = (s.core c).header pc)
  (layout : lay = bundleLayout (hdExt h) ((s.core c).bundleSlots pc))
include may at_ inside header layout

/-- A bundle of bad format faults at its slot (02 R59). -/
theorem exec_bundleIssue_badFormat {slot : Nat} (form : formatSlot c motor h lay = some slot) :
    exec (.bundleIssue c motor) s = .next (raiseFault s c motor pc slot stFormat 0 0) := by
  subst at_ header layout
  have issue : exec (.bundleIssue c motor) s = execBundleIssue c motor s := rfl
  simp only [issue, execBundleIssue, may, Bool.not_true, Bool.false_eq_true, if_false, if_neg (Nat.not_le.2 inside), form]

/-- A bundle that passes the format and decode checks goes on to order 8, the resources and the unit checks (02 R59). -/
theorem exec_bundleIssue_decoded (form : formatSlot c motor h lay = none)
    (dec : decodeFault c motor (lay.1.map Entry.parts) 2 6 = none) :
    exec (.bundleIssue c motor) s = .next (issueChecked s c motor pc h (lay.1.map Entry.parts)) := by
  subst at_ header layout
  have issue : exec (.bundleIssue c motor) s = execBundleIssue c motor s := rfl
  simp only [issue, execBundleIssue, may, Bool.not_true, Bool.false_eq_true, if_false, if_neg (Nat.not_le.2 inside), form, dec]

end

/-! Events that find nothing due. -/

theorem dueActs_of_pend_nil {k : Core} (nothing : k.pend = []) (tick : Nat) (f : Nat → Bool) : k.dueActs tick f = [] := by
  simp [Core.dueActs, nothing]

theorem dropActs_of_pend_nil {k : Core} (nothing : k.pend = []) (tick : Nat) (f : Nat → Bool) : k.dropActs tick f = k := by
  cases k
  cases nothing
  rfl

theorem deliverRanks_nil (s : State) (c lo n : Nat) : deliverRanks s c [] lo n = s := by
  induction n generalizing s lo with
  | zero => rfl
  | succ n ih => exact ih s (lo + 1)

theorem writeOrder_nil (c : Nat) : writeOrder c [] = [] := by
  simp [writeOrder]

/-- Taking away the actions of a core that has none leaves every core. -/
theorem modCore_dropActs_of_pend_nil {s : State} {c : Nat} (nothing : (s.core c).pend = []) (f : Nat → Bool) :
    let u := s.modCore c (fun k => k.dropActs s.tick f)
    u.core c = s.core c ∧ SameCoresBut c s u :=
  ⟨(State.core_modCore_same ..).trans (dropActs_of_pend_nil nothing _ _), fun _ other => State.core_modCore_other _ _ _ other⟩

end Sys2Proof.Machine

namespace Sys2Proof

open Machine

/-- Settles O42: BUNDLE_ISSUE by the branches of the checks of 02 R59; a delivery or perform event folds over the actions due, of which a
core with nothing pending has none. -/
theorem boundaryEvents : Obligations.BoundaryEvents := by
  intro s
  refine ⟨?halted, ?passes, ?format, ?free, ?perform, ?deliver⟩
  case halted => exact fun _ _ => exec_bundleIssue_idle
  case passes =>
    intro c motor pc h lay may at_ inside header layout form dec queues units alone
    obtain ⟨res, issued⟩ := issueChecked_passes queues units alone
    refine ⟨{ s.modCore c (fun k => k.issued motor (latchOf motor pc h (lay.1.map Entry.parts)) (s.rcyc c) res) with cur := c },
      ?_, rfl, ?_, ?_, ?_, fun d other => ?_⟩
    · rw [exec_bundleIssue_decoded may at_ inside header layout form dec, issued]
    · rw [State.core_withCur, State.core_modCore_same, Core.issued_latch]
    · rw [State.core_withCur, State.core_modCore_same, Core.issued_regs]
    · rw [State.core_withCur, State.core_modCore_same, Core.issued_mem]
    · rw [State.core_withCur, State.core_modCore_other _ _ _ other]
  case format => exact fun _ _ _ _ _ may at_ inside header => exec_bundleIssue_badFormat may at_ inside header rfl
  case free =>
    exact fun c => ⟨s.modCore c (fun k => { k with busy := k.busy.filter (fun b => s.tick < b.2) }), rfl, rfl,
      fun _ other => State.core_modCore_other _ _ _ other, State.core_modCore_same ..⟩
  case perform =>
    intro c reads nothing
    refine ⟨_, ?_, modCore_dropActs_of_pend_nil nothing (fun r => if reads then r == 9 else r == 8)⟩
    have perform : exec (.timedAccessPerform c reads) s = execTimedAccessPerform c reads s := rfl
    rw [perform, execTimedAccessPerform]
    simp only [dueActs_of_pend_nil nothing, writeOrder_nil, List.foldl_nil, ite_self]
  case deliver =>
    intro c nothing
    refine ⟨_, ?_, modCore_dropActs_of_pend_nil nothing (fun r => r < 8)⟩
    have deliver : exec (.resultDelivery c) s = execResultDelivery c s := rfl
    rw [deliver, execResultDelivery]
    simp only [dueActs_of_pend_nil nothing]
    exact congrArg Host.Outcome.next (deliverRanks_nil ..)

end Sys2Proof
end

section
/-! O22. The rounding of float results (05 R94, R101): a stochastic rounding by more than the 16 bits that a generator draws. -/

namespace Sys2Proof.Machine

/-- A greater exponent gives no smaller power. -/
theorem pow2_mono {j k : Int} (h : j ≤ k) : pow2 j ≤ pow2 k :=
  Nat.pow_le_pow_right (by decide) (Int.toNat_le_toNat h)

/-- 255 lies in the binade of 2^7 and in no other. -/
theorem binade_of_255 {l : Int} (low : 1 * pow2 l ≤ 255 * pow2 (-l)) (high : 255 * pow2 (-(l + 1)) < 1 * pow2 (l + 1)) : l = 7 := by
  have above : ¬8 ≤ l := fun h => by
    have big : 256 ≤ pow2 l := pow2_mono h
    have one : pow2 (-l) ≤ 1 := pow2_mono (show -l ≤ 0 by omega)
    omega
  have below : ¬l ≤ 6 := fun h => by
    have small : pow2 (l + 1) ≤ 128 := pow2_mono (show l + 1 ≤ 7 by omega)
    have one : 1 ≤ pow2 (-(l + 1)) := Nat.one_le_two_pow
    omega
  omega

/-- The 17-bit draw 2^17 adds two whole quanta: 255 rounds to 257 of them, which bf16, whose significand has 8 bits, does not hold, and
the pattern packed for them stands for 258. -/
theorem fmtVal_roundFmt_longDraw :
    fmtVal bf16 (roundFmt bf16 (.sto (2 ^ 17)) (.fin false 255 1 0)).1 = .fin false 129 1 1 := by decide

/-- Refutes O22: its clause on rounding takes every r of a stochastic mode, where a draw has 16 bits (rng16 of 05 R94, R99). With r = 2^17 the value 255
counts 257 quanta of bf16, within the finite range, and the code delivered is that of 258. -/
theorem not_specialFunctionAsks : ¬ Obligations.SpecialFunctionAsks := by
  unfold Obligations.SpecialFunctionAsks
  rintro ⟨-, -, -, -, -, -, -, rounding, -⟩
  obtain ⟨l, k, low, high, -, -, drawn, -, within⟩ :=
    rounding bf16 (.sto (2 ^ 17)) false 255 1 0 (.inr (.inl rfl)) (by decide) (by decide)
  obtain rfl : l = 7 := binade_of_255 low high
  obtain rfl : k = 257 := drawn _ rfl
  obtain ⟨m, q, delivered, equal⟩ := within (by decide)
  rw [fmtVal_roundFmt_longDraw] at delivered
  obtain ⟨-, rfl, -, rfl⟩ := Val.fin.inj delivered
  exact absurd equal (by decide)

end Sys2Proof.Machine
end

section
/-! O25. What the press asks for (06 R117, R121-R126): resources, and reads in the order of their times. -/

namespace Sys2Proof.Machine

/-! What an operation that only schedules leaves of the operands of the next. -/

theorem OnlySchedules.eq_withCores {s t : State} (h : OnlySchedules s t) : t = { s with cores := t.cores } := by
  obtain ⟨outside, -⟩ := h
  unfold SameOutsideCores at outside
  rw [← outside]

theorem OnlySchedules.after {s t : State} (h : OnlySchedules s t) (c n : Nat) : t.after c n = s.after c n := by
  rw [h.eq_withCores]
  rfl

theorem OnlySchedules.lineMeta {s t : State} (h : OnlySchedules s t) (c off : Nat) : t.lineMeta c off = s.lineMeta c off := by
  obtain ⟨-, mem, csr, -⟩ := h.2 c
  have entry (i : Nat) : t.fmtEntry c i = s.fmtEntry c i := by rw [h.eq_withCores]; rfl
  have scale (d : Nat) : t.scaleFmt c d = s.scaleFmt c d := by simp only [State.scaleFmt, entry]
  simp only [State.lineMeta, mem, csr, entry, scale]

theorem OnlySchedules.prLines {s t : State} (h : OnlySchedules s t) (c off bytes : Nat) :
    Machine.prLines t c off bytes = Machine.prLines s c off bytes := by
  simp only [Machine.prLines, h.lineMeta]

theorem OnlySchedules.caskColumns {s t : State} (h : OnlySchedules s t) (c : Nat) (v : Word) (n : Nat) :
    Machine.caskColumns t c v n = Machine.caskColumns s c v n := by
  obtain ⟨regs, -, -, -, press, -⟩ := h.2 c
  simp only [Machine.caskColumns, h.prLines, press, Core.inp, prAddr, prCap, Core.capReg, regs]

theorem OnlySchedules.passJob {s t : State} (h : OnlySchedules s t) (c : Nat) (v : Word) (zeroFirst : Bool) (r : Nat) :
    Machine.passJob t c v zeroFirst r = Machine.passJob s c v zeroFirst r := by
  obtain ⟨regs, -, -, -, press, -⟩ := h.2 c
  simp only [Machine.passJob, h.prLines, h.after, press, Core.inp, prAddr, prCap, Core.capReg, passSel, Core.mask, regs]

/-! A run of actions, one after the other (06 R121, R125). -/

/-- `left` actions of core c from the r-th on, action i at T + at_ i. -/
def State.scheduleRun (s : State) (c : Nat) (at_ : Nat → Nat) (act : Nat → Act) : Nat → Nat → State
  | _, 0 => s
  | r, left + 1 => (s.schedule c (at_ r) (act r)).scheduleRun c at_ act (r + 1) left

theorem onlySchedules_schedule (s : State) (c n : Nat) (a : Act) : OnlySchedules s (s.schedule c n a) := (OnlySchedules.refl s).schedule c n a

theorem caskReads_eq_scheduleRun (s : State) (c : Nat) (v : Word) (r left : Nat) :
    caskReads s c v (4 + r) left = s.scheduleRun c (4 + ·) (fun r => .readCols (caskColumns s c v (4 + r))) r left := by
  suffices h : ∀ t, OnlySchedules s t →
      caskReads t c v (4 + r) left = t.scheduleRun c (4 + ·) (fun r => .readCols (caskColumns s c v (4 + r))) r left from
    h s (OnlySchedules.refl s)
  induction left generalizing r with
  | zero => exact fun _ _ => rfl
  | succ left ih =>
    intro t h
    rw [caskReads, State.scheduleRun, h.caskColumns]
    exact ih (r + 1) _ (h.schedule ..)

theorem passReads_eq_scheduleRun (s : State) (c : Nat) (v : Word) (zeroFirst : Bool) (w r left : Nat) :
    passReads s c v zeroFirst w r left =
      s.scheduleRun c (8 + w * ·) (fun r => .readPass (passJob s c v zeroFirst r)) r left := by
  suffices h : ∀ t, OnlySchedules s t → passReads t c v zeroFirst w r left =
      t.scheduleRun c (8 + w * ·) (fun r => .readPass (passJob s c v zeroFirst r)) r left from h s (OnlySchedules.refl s)
  induction left generalizing r with
  | zero => exact fun _ _ => rfl
  | succ left ih =>
    intro t h
    rw [passReads, State.scheduleRun, h.passJob]
    exact ih (r + 1) _ (h.schedule ..)

section
variable (s : State) (c : Nat) (at_ : Nat → Nat) (act : Nat → Act) (r left : Nat)

theorem seq_schedule (n : Nat) (a : Act) : ((s.schedule c n a).core c).seq = (s.core c).seq + 1 := by
  simp [State.schedule, State.scheduleAt, Core.schedule]

theorem latch_schedule (n : Nat) (a : Act) : ((s.schedule c n a).core c).latch = (s.core c).latch := by
  simp [State.schedule, State.scheduleAt]

theorem core_scheduleRun_other {d : Nat} (other : d ≠ c) : (s.scheduleRun c at_ act r left).core d = s.core d := by
  induction left generalizing s r with
  | zero => rfl
  | succ left ih => rw [State.scheduleRun, ih, State.core_schedule_other _ _ _ _ other]

theorem latch_scheduleRun : ((s.scheduleRun c at_ act r left).core c).latch = (s.core c).latch := by
  induction left generalizing s r with
  | zero => rfl
  | succ left ih => rw [State.scheduleRun, ih, latch_schedule]

theorem pend_scheduleRun : ((s.scheduleRun c at_ act r left).core c).pend = (s.core c).pend ++
    (List.range left).map (fun i => Pend.mk (s.after c (at_ (r + i))) s.tick ((s.core c).seq + i) (act (r + i))) := by
  induction left generalizing s r with
  | zero => simp [State.scheduleRun]
  | succ left ih =>
    have next (i : Nat) : r + 1 + i = r + (i + 1) ∧ (s.core c).seq + 1 + i = (s.core c).seq + (i + 1) := by omega
    rw [State.scheduleRun, ih, State.pend_schedule, seq_schedule, List.range_succ_eq_map]
    simp only [(onlySchedules_schedule ..).after, State.schedule_tick, next, List.map_cons, List.map_map, Function.comp_def,
      List.append_assoc, List.singleton_append, Nat.add_zero, Nat.succ_eq_add_one]
end

/-! Resources taken (06 R117). -/

theorem onlySchedules_busyFor (s : State) (c r n : Nat) : OnlySchedules s (s.busyFor c r n) := (OnlySchedules.refl s).busyFor c r n

theorem core_busyFor_same (s : State) (c r n : Nat) : (s.busyFor c r n).core c =
    { s.core c with latch := { (s.core c).latch with busy := (s.core c).latch.busy ++ [(r, s.after c n)] } } :=
  State.core_modCore_same ..

theorem core_busyFor_other (s : State) (c r n : Nat) {d : Nat} (other : d ≠ c) : (s.busyFor c r n).core d = s.core d :=
  State.core_modCore_other _ _ _ other

/-! cask, mm, mmz and zero. -/

/-- cask takes its load and schedules one read for each cycle of columns. -/
theorem caskEff_asks (s : State) (c : Nat) (motor : Bool) (v : Word) : let t := caskEff s c motor v
    let per := if (s.core c).press.fb.is16 then 1 else 2
    SameOutsideCores s t ∧ SameHeld (s.core c) (t.core c) ∧ SameCoresBut c s t ∧ TakesBusy s t c (rsLoad (caskQ v)) 136 ∧
    (t.core c).pend = (s.core c).pend ++ (List.range ((caskNc v + per - 1) / per)).map (fun i =>
      Pend.mk (s.after c (4 + i)) s.tick ((s.core c).seq + i) (.readCols (caskColumns s c v (4 + i)))) := by
  intro t per
  have busy := onlySchedules_busyFor s c (rsLoad (caskQ v)) 136
  obtain ⟨outside, held⟩ : OnlySchedules s t := caskEff_schedules s c motor v
  refine ⟨outside, held c, ?_⟩
  have run : t = _ := caskReads_eq_scheduleRun (s.busyFor c (rsLoad (caskQ v)) 136) c v 0 ((caskNc v + per - 1) / per)
  rw [run]
  refine ⟨fun d other => ?_, ?_, ?_⟩
  · rw [core_scheduleRun_other _ _ _ _ _ _ other, core_busyFor_other _ _ _ _ other]
  · rw [TakesBusy, latch_scheduleRun, core_busyFor_same]
  · simp only [pend_scheduleRun, busy.after, busy.caskColumns, core_busyFor_same, Nat.zero_add]
    rfl

/-- mm and mmz take the tile, the cask use and the A path, and schedule one read for each row. -/
theorem mmEff_asks (zeroFirst : Bool) (s : State) (c : Nat) (motor : Bool) (v : Word) : let t := mmEff zeroFirst s c motor v
    let w := (s.core c).press.fa.sig
    SameOutsideCores s t ∧ SameHeld (s.core c) (t.core c) ∧ SameCoresBut c s t ∧
    (t.core c).latch.busy = (s.core c).latch.busy ++ [(rsTile (mmT v), s.after c (18 + w * mmRows v)),
      (rsUse (mmQ v), s.after c (8 + w * mmRows v)), (rsApath, s.after c (w * mmRows v))] ∧
    (t.core c).pend = (s.core c).pend ++ (List.range (mmRows v)).map (fun r =>
      Pend.mk (s.after c (8 + w * r)) s.tick ((s.core c).seq + r) (.readPass (passJob s c v zeroFirst r))) := by
  intro t w
  have tile := onlySchedules_busyFor s c (rsTile (mmT v)) (18 + w * mmRows v)
  have use := tile.busyFor c (rsUse (mmQ v)) (8 + w * mmRows v)
  have path := use.busyFor c rsApath (w * mmRows v)
  obtain ⟨outside, held⟩ : OnlySchedules s t := mmEff_schedules zeroFirst s c motor v
  refine ⟨outside, held c, ?_⟩
  have run : t = _ := passReads_eq_scheduleRun
    (((s.busyFor c (rsTile (mmT v)) (18 + w * mmRows v)).busyFor c (rsUse (mmQ v)) (8 + w * mmRows v)).busyFor c rsApath (w * mmRows v))
    c v zeroFirst w 0 (mmRows v)
  rw [run]
  refine ⟨fun d other => ?_, ?_, ?_⟩
  · rw [core_scheduleRun_other _ _ _ _ _ _ other]
    simp only [core_busyFor_other _ _ _ _ other]
  · simp only [latch_scheduleRun, core_busyFor_same, tile.after, use.after, List.append_assoc, List.cons_append, List.nil_append]
  · simp only [pend_scheduleRun, path.after, path.passJob, core_busyFor_same, Nat.zero_add]
    rfl

/-- zero takes its tile and clears it at T+8. -/
theorem zeroEff_asks (s : State) (c : Nat) (motor : Bool) (v : Word) : let t := zeroEff s c motor v
    Asks s t c 8 (.zeroTile (bits v 2 0)) ∧ TakesBusy s t c (rsTile (bits v 2 0)) 8 := by
  have busy := onlySchedules_busyFor s c (rsTile (bits v 2 0)) 8
  refine ⟨?_, ?_⟩
  · rw [Asks, zeroEff, State.pend_schedule, busy.after, core_busyFor_same]
    rfl
  · rw [TakesBusy, zeroEff, latch_schedule, core_busyFor_same]

end Sys2Proof.Machine
end

section
/-! O25. Casks (06 R112, R121): what a column read leaves in the codes and the scale plane. -/

namespace Sys2Proof.Machine

/-! Codes. -/

/-- The first byte of the code of row i of a column in the codes of cask q. -/
def codeAt (q : Nat) (wide : Bool) (col i : Nat) : Nat := 65536 * q + 256 * i + (if wide then 2 else 1) * col

/-- One code of a column put into its cask. -/
def putCode (q : Nat) (wide : Bool) (col i v : Nat) (m : Store Byte) : Store Byte :=
  if wide then writeByte (writeByte m (codeAt q wide col i) (BitVec.ofNat 8 v)) (codeAt q wide col i + 1) (BitVec.ofNat 8 (v / 256))
  else writeByte m (codeAt q wide col i) (BitVec.ofNat 8 v)

section
variable (q : Nat) (wide : Bool) (col : Nat) (sp : Store Byte) (lines : List LineMeta) (t : ElTy)

theorem putCodes_succ (k n : Nat) (m : Store Byte) : putCodes q wide col sp lines t k (n + 1) m =
    putCodes q wide col sp lines t (k + 1) n (putCode q wide col k (runCode sp lines t k) m) := by
  cases wide <;> simp [putCodes, putCode, codeAt]

theorem readByte_putCode_other (i v : Nat) (m : Store Byte) {a : Nat} (low : a ≠ codeAt q wide col i)
    (high : wide = true → a ≠ codeAt q wide col i + 1) : readByte (putCode q wide col i v m) a = readByte m a := by
  unfold putCode
  split
  · next is => rw [readByte_writeByte, if_neg (high is), readByte_writeByte, if_neg low]
  · rw [readByte_writeByte, if_neg low]

theorem readByte_putCode_low (i v : Nat) (m : Store Byte) :
    readByte (putCode q wide col i v m) (codeAt q wide col i) = BitVec.ofNat 8 v := by
  unfold putCode
  split
  · rw [readByte_writeByte, if_neg (by omega), readByte_writeByte, if_pos rfl]
  · rw [readByte_writeByte, if_pos rfl]

theorem readByte_putCode_high (i v : Nat) (m : Store Byte) (is : wide = true) :
    readByte (putCode q wide col i v m) (codeAt q wide col i + 1) = BitVec.ofNat 8 (v / 256) := by
  rw [putCode, if_pos is, readByte_writeByte, if_pos rfl]

/-- A byte that no code of the run takes is as before. -/
theorem readByte_putCodes_other (k n : Nat) (m : Store Byte) {a : Nat}
    (apart : ∀ i, k ≤ i → i < k + n → a ≠ codeAt q wide col i ∧ (wide = true → a ≠ codeAt q wide col i + 1)) :
    readByte (putCodes q wide col sp lines t k n m) a = readByte m a := by
  induction n generalizing k m with
  | zero => rfl
  | succ n ih =>
    obtain ⟨low, high⟩ := apart k (by omega) (by omega)
    rw [putCodes_succ, ih _ _ fun i first last => apart i (by omega) (by omega), readByte_putCode_other _ _ _ _ _ _ low high]

/-- The bytes of a code in the run are those of that code. -/
theorem readByte_putCodes (k n : Nat) (m : Store Byte) (inside : col < (if wide then 128 else 256)) {i : Nat} (first : k ≤ i)
    (last : i < k + n) :
    readByte (putCodes q wide col sp lines t k n m) (codeAt q wide col i) = BitVec.ofNat 8 (runCode sp lines t i) ∧
    (wide = true → readByte (putCodes q wide col sp lines t k n m) (codeAt q wide col i + 1) =
      BitVec.ofNat 8 (runCode sp lines t i / 256)) := by
  induction n generalizing k m with
  | zero => omega
  | succ n ih =>
    rw [putCodes_succ]
    by_cases here : i = k
    · subst here
      have apart (j : Nat) (after : i + 1 ≤ j) : codeAt q wide col i + 1 < codeAt q wide col j := by
        cases wide <;> simp [codeAt] at inside ⊢ <;> omega
      refine ⟨?_, fun is => ?_⟩
      · rw [readByte_putCodes_other, readByte_putCode_low]
        exact fun j after _ => ⟨by have := apart j after; omega, fun _ => by have := apart j after; omega⟩
      · rw [readByte_putCodes_other, readByte_putCode_high _ _ _ _ _ _ is]
        exact fun j after _ => ⟨by have := apart j after; omega, fun _ => by have := apart j after; omega⟩
    · exact ih (k + 1) _ (by omega) (by omega)
end

/-! Scales. -/

/-- A scale-plane entry after one column's: the octets of the column take their values, all others are as before. -/
theorem sget_putPlane (q col : Nat) (f : Nat → Val) (j n : Nat) (m : Store Val) (x : Nat) :
    sget Val.one (putPlane q col f j n m) x =
      if 8192 * q + 32 * col + j ≤ x ∧ x < 8192 * q + 32 * col + j + n then f (x - (8192 * q + 32 * col)) else sget Val.one m x := by
  induction n generalizing j m with
  | zero => exact (if_neg (by omega)).symm
  | succ n ih =>
    rw [putPlane, ih, sget_sput]
    by_cases here : x = 8192 * q + 32 * col + j
    · subst here
      rw [if_neg (by omega), if_pos rfl, if_pos (by omega), Nat.add_sub_cancel_left]
    · grind

theorem loadColumn_frame (k : Core) (j : ColJob) : loadColumn k j = { k with press := { k.press with
    codes := (loadColumn k j).press.codes, bsc := (loadColumn k j).press.bsc, lsc := (loadColumn k j).press.lsc } } := rfl

/-- The block and line scales that a column of one byte leaves in its cask are those of its octets. -/
theorem loadColumn_scales_byte (k : Core) (j : ColJob) (narrow : j.fb.is16 = false) {o : Nat} (ho : o < j.kc / 8) :
    sget Val.one (loadColumn k j).press.bsc (8192 * j.cask + 32 * j.col + o) = (runElem k.mem.sp j.lines j.fb.ty (8 * o)).bs.norm ∧
    sget Val.one (loadColumn k j).press.lsc (8192 * j.cask + 32 * j.col + o) = (runElem k.mem.sp j.lines j.fb.ty (8 * o)).ls.norm := by
  simp only [loadColumn, narrow, Bool.false_eq_true, if_false, List.foldl_cons, List.foldl_nil, sget_putPlane]
  rw [if_pos (by omega), if_pos (by omega), Nat.add_sub_cancel_left]
  exact ⟨rfl, rfl⟩

/-- Both byte columns of a 16-bit column have scales of one. -/
theorem loadColumn_scales_wide (k : Core) (j : ColJob) (wide : j.fb.is16 = true) {b o : Nat} (hb : b < 2)
    (ho : o < j.kc / 8) :
    sget Val.one (loadColumn k j).press.bsc (8192 * j.cask + 32 * (2 * j.col + b) + o) = Val.one ∧
    sget Val.one (loadColumn k j).press.lsc (8192 * j.cask + 32 * (2 * j.col + b) + o) = Val.one := by
  have which : b = 0 ∨ b = 1 := by omega
  simp only [loadColumn, wide, if_true, List.foldl_cons, List.foldl_nil, sget_putPlane]
  rcases which with rfl | rfl
  · grind
  · rw [if_pos (by omega), if_pos (by omega)]
    exact ⟨rfl, rfl⟩

end Sys2Proof.Machine
end

section
/-! O25. Rounding to fp32 (05 R94-R96): what a rounding to nearest delivers is a code of 32 bits. -/

namespace Sys2Proof.Machine

/-! The count of quanta. -/

/-- The two halves of an exponent: 2^k is pow2 k over pow2 (-k). -/
theorem pow2_eq_mul_zpow (k : Int) : (pow2 k : ℚ) = pow2 (-k) * 2 ^ k := by
  obtain ⟨n, rfl | rfl⟩ := k.eq_nat_or_neg <;> simp [pow2]

/-- A fraction lies below the power of two above the floor of its logarithm. -/
theorem lt_of_floorLog2 (num : Nat) {den : Nat} (pos : 0 < den) : (num : ℚ) < den * 2 ^ (floorLog2 num den + 1) := by
  unfold floorLog2
  dsimp only
  split
  · have above : (num : ℚ) < 2 ^ (num.log2 + 1) := mod_cast Nat.lt_log2_self
    have below : (2 : ℚ) ^ den.log2 ≤ den := mod_cast Nat.log2_self_le (by omega)
    calc (num : ℚ) < 2 ^ (num.log2 + 1) := above
      _ = 2 ^ den.log2 * 2 ^ ((num.log2 : Int) - den.log2 + 1) := by
        rw [← zpow_natCast, ← zpow_natCast, ← zpow_add₀ (by norm_num)]
        congr 1
        push_cast
        ring
      _ ≤ den * 2 ^ ((num.log2 : Int) - den.log2 + 1) := by gcongr
  · next less =>
    have less := Nat.cast_lt (α := ℚ).2 (Nat.lt_of_not_le less)
    rw [Nat.cast_mul, Nat.cast_mul, pow2_eq_mul_zpow ((num.log2 : Int) - den.log2), mul_left_comm, mul_comm] at less
    rw [sub_add_cancel]
    exact lt_of_mul_lt_mul_left less (by positivity)

/-- Counted in quanta of 2^q, a magnitude whose logarithm has a floor of at most q + m is less than 2^(m+1). -/
theorem quantaOf_lt (num : Nat) {den m : Nat} {e q : Int} (pos : 0 < den) (h : floorLog2 num den + e - m ≤ q) :
    (quantaOf num den e q).1 < 2 ^ (m + 1) * (quantaOf num den e q).2 := by
  have half : (0 : ℚ) < pow2 (q - e) := mod_cast Nat.two_pow_pos _
  have exponent : floorLog2 num den + 1 + (e - q) ≤ (m + 1 : Nat) := by push_cast; omega
  have less : (num * pow2 (e - q) : ℚ) < 2 ^ (m + 1) * (den * pow2 (q - e)) := by
    calc (num * pow2 (e - q) : ℚ) = num * 2 ^ (e - q) * pow2 (q - e) := by rw [pow2_eq_mul_zpow, neg_sub]; ring
      _ < den * 2 ^ (floorLog2 num den + 1) * 2 ^ (e - q) * pow2 (q - e) := by
        gcongr
        exact lt_of_floorLog2 num pos
      _ = den * 2 ^ (floorLog2 num den + 1 + (e - q)) * pow2 (q - e) := by rw [zpow_add₀ (by norm_num : (2 : ℚ) ≠ 0) _ (e - q)]; ring
      _ ≤ den * 2 ^ ((m + 1 : Nat) : Int) * pow2 (q - e) := by
        gcongr
        norm_num
      _ = 2 ^ (m + 1) * (den * pow2 (q - e)) := by rw [zpow_natCast]; ring
  exact_mod_cast less

/-- A rounding to nearest stays within a bound of the count that is a whole number. -/
theorem roundQuanta_rne_le {n d bound : Nat} (pos : 0 < bound) (h : 0 < d → n < bound * d) : roundQuanta .rne n d ≤ bound := by
  have floor : n / d < bound := by
    rcases Nat.eq_zero_or_pos d with rfl | hd
    · simpa using pos
    · exact (Nat.div_lt_iff_lt_mul hd).2 (h hd)
  simp only [roundQuanta]
  split_ifs <;> omega

/-! The code. -/

/-- The pattern of a magnitude within the range of fp32 has no sign bit. -/
theorem fmtPack_fp32_lt {k : Nat} {q : Int} (count : k ≤ 2 ^ 24)
    (within : Val.lt (fmtVal fp32 (fmtMaxMag fp32)) (.fin false k 1 q) = false) : fmtPack fp32 k q < 2 ^ 31 := by
  have greatest : fmtVal fp32 (fmtMaxMag fp32) = .fin false (2 ^ 24 - 1) 1 104 := by decide
  rw [greatest] at within
  have order : ((k * pow2 q : Nat) : Int) ≤ ((2 ^ 24 - 1) * 2 ^ 104 * pow2 (-q) : Nat) := by
    simpa [Val.lt, Val.frac, pow2] using within
  have range : 104 ≤ q → k * 2 ^ 104 ≤ k * pow2 q ∧ k * pow2 q ≤ (2 ^ 24 - 1) * 2 ^ 104 := fun h => by
    have one : pow2 (-q) = 1 := by rw [pow2, Int.toNat_of_nonpos (by omega), pow_zero]
    rw [one, mul_one] at order
    exact ⟨Nat.mul_le_mul_left k (pow2_mono h), Int.ofNat_le.1 order⟩
  have above (h : 105 ≤ q) : k * 2 ^ 105 ≤ k * pow2 q := Nat.mul_le_mul_left k (pow2_mono h)
  have normal : 2 ^ 23 ≤ k → q ≤ 104 := by omega
  have carried : k = 2 ^ 24 → q < 104 := by omega
  unfold fmtPack
  rw [if_neg (show fp32.e ≠ 0 by decide)]
  simp only [show fp32.m = 23 from rfl, show fp32.bias = 127 from rfl]
  split_ifs <;> omega

theorem fmtFit_fp32_rne_lt (neg same : Bool) {k : Nat} (q : Int) (count : k ≤ 2 ^ 24) :
    (fmtFit fp32 neg k q .rne same).1 < 2 ^ 32 := by
  have sign : fmtSign fp32 neg ≤ 2 ^ 31 := by cases neg <;> decide
  have zero : fmtZeroCode fp32 neg < 2 ^ 32 := by cases neg <;> decide
  have infinite : 2 ^ (fp32.e + fp32.m) - 2 ^ fp32.m < 2 ^ 31 := by decide
  unfold fmtFit
  rw [show fp32.sign = true from rfl, show fp32.sub = true from rfl, show fp32.policy = .ieee from rfl]
  simp only [Bool.not_true, Bool.and_false, Bool.false_and, Bool.false_eq_true, if_false]
  split
  · exact zero
  · split
    · simp only [if_true, reduceCtorEq, if_false]
      omega
    · next within =>
      have pack := fmtPack_fp32_lt count (Bool.eq_false_iff.2 within)
      simp only [reduceCtorEq, decide_false, Bool.false_and, Bool.false_eq_true, if_false]
      omega

/-- A rounding to nearest in fp32 delivers a code of 32 bits. -/
theorem roundFmt_fp32_rne_lt (x : Val) : (roundFmt fp32 .rne x).1 < 2 ^ 32 := by
  cases x with
  | nan => decide
  | inf s => cases s <;> decide
  | fin s num den e =>
    simp only [roundFmt]
    split
    · cases s <;> decide
    · refine fmtFit_fp32_rne_lt _ _ _ (roundQuanta_rne_le (by decide) fun pos => quantaOf_lt (m := 23) num ?_ ?_)
      · exact Nat.pos_of_mul_pos_right pos
      · rw [if_neg (show fp32.e ≠ 0 by decide)]
        exact Int.sub_le_sub_right (le_max_left _ _) _

end Sys2Proof.Machine
end

section
/-! O25. Passes (05 R104, R105, 06 R124): lanes, K-group sums and accumulator modes, and the row delivered. -/

namespace Sys2Proof.Machine

/-! Lanes of a row (04 R73). -/

/-- The containers of a number, one by one. -/
theorem splitCodes_eq_map (c n v : Nat) : splitCodes c n v = (List.range n).map (fun i => v / 2 ^ (c * i) % 2 ^ c) := by
  induction n generalizing v with
  | zero => rfl
  | succ n ih =>
    rw [splitCodes, ih, List.range_succ_eq_map, List.map_cons, List.map_map, Nat.mul_zero, pow_zero, Nat.div_one]
    congr 1
    refine List.map_congr_left fun i _ => ?_
    rw [Function.comp_apply, Nat.div_div_eq_div_mul, ← pow_add, Nat.mul_succ, Nat.add_comm c]

/-- A container of the number that joins a list. -/
theorem joinCodes_lane (c : Nat) (vs : List Nat) (i : Nat) : joinCodes c vs / 2 ^ (c * i) % 2 ^ c = vs.getD i 0 % 2 ^ c := by
  induction vs generalizing i with
  | nil => simp [joinCodes]
  | cons v vs ih =>
    cases i with
    | zero => simp [joinCodes]
    | succ i =>
      rw [joinCodes, Nat.mul_succ, Nat.add_comm _ c, pow_add, ← Nat.div_div_eq_div_mul,
        Nat.add_mul_div_left _ _ (Nat.two_pow_pos c), Nat.div_eq_of_lt (Nat.mod_lt _ (Nat.two_pow_pos c)), Nat.zero_add, ih]
      rfl

/-- A lane of a row of given codes. -/
theorem laneOf_rowOf {c i : Nat} (vs : List Nat) (inside : c * i + c ≤ 8192) : laneOf (rowOf c vs) c i = vs.getD i 0 % 2 ^ c := by
  rw [← joinCodes_lane]
  apply Nat.eq_of_testBit_eq
  intro b
  simp only [laneOf, rowOf, BitVec.toNat_ofNat, Nat.testBit_mod_two_pow, Nat.testBit_div_two_pow]
  grind

/-- A code of a row is the lane. -/
theorem getD_rowCodes {c i : Nat} (r : Row) (inside : i < 8192 / c) : (rowCodes c r).getD i 0 = laneOf r c i := by
  simp [rowCodes, splitCodes_eq_map, laneOf, inside]

theorem length_rowCodes (c : Nat) (r : Row) : (rowCodes c r).length = 8192 / c := by
  simp [rowCodes, splitCodes_eq_map]

theorem length_maskLanes (e : Mask) (n : Nat) : (maskLanes e n).length = n := by
  simp [maskLanes, splitCodes_eq_map]

/-! Sums and accumulator modes (05 R104, R105). -/

@[simp] theorem Val.mul_one_left (x : Val) : (Val.mul Val.one x).1 = x := by
  cases x <;> simp [Val.mul, Val.one]

/-- A term of a K-group: the product of the two elements and their four scales, NaN where a zero meets an infinity. -/
theorem pressTerm_fst (a b : Scaled) : (pressTerm a b).1 =
    (let l := [a.v, b.v, a.bs, a.ls, b.bs, b.ls]
    if l.any Val.isZero && l.any Val.isInf then .nan
      else (Val.mul (Val.mul (Val.mul (Val.mul (Val.mul a.v b.v).1 a.bs).1 a.ls).1 b.bs).1 b.ls).1) := by
  simp only [pressTerm, List.foldl_cons, List.foldl_nil, Val.mul_one_left]

theorem groupSum_fst (as bs : List Scaled) : (groupSum as bs).1 = (Val.sum ((as.zip bs).map (fun p => (pressTerm p.1 p.2).1))).1 := by
  simp only [groupSum, List.map_map, Function.comp_def]

/-- The clamp of an infinity to the greatest finite magnitude of its sign. -/
theorem pressSat_fst {f : Fmt} (signed : f.sign = true) (c : Nat) : (pressSat f c).1 =
    if fmtIsInf f c then (if bitOf c (f.w - 1) then 2 ^ (f.w - 1) else 0) + fmtMaxMag f else c := by
  have width : f.w - 1 = f.e + f.m := by simp [Fmt.w, signed, b2n]; omega
  unfold pressSat fmtSign
  rw [signed, width]
  split <;> simp

theorem accFloat_fp32_fst (acc : Nat) (x : Val) : (accFloat fp32 acc x).1 =
    (roundFmt fp32 .rne (Val.sum [fmtVal fp32 acc, fmtVal fp32 (roundFmt fp32 .rne x).1]).1).1 := by
  simp only [accFloat, if_true]

theorem accFloat_narrow_fst {f : Fmt} (narrow : f ≠ fp32) (acc : Nat) (x : Val) : (accFloat f acc x).1 =
    (roundFmt fp32 .rne (fmtVal f (pressSat f (roundFmt f .rne
      (Val.sum [fmtVal fp32 acc, fmtVal f (pressSat f (roundFmt f .rne x).1).1]).1).1).1)).1 := by
  simp only [accFloat, if_neg narrow]

theorem wrapN_lt (v : Int) (w : Nat) : wrapN v w < 2 ^ w := by
  unfold wrapN
  have := Int.emod_lt_of_pos v (show (0 : Int) < (2 ^ w : Nat) by positivity)
  omega

theorem clampInt_fst (signed : Bool) (w : Nat) (v : Int) (order : intMin signed w ≤ intMax signed w) :
    (clampInt signed w v).1 = wrapN (max (intMin signed w) (min (intMax signed w) v)) w := by
  unfold clampInt
  split_ifs with low high
  · rw [max_eq_left (by omega)]
  · rw [min_eq_left (by omega), max_eq_right order]
  · rw [min_eq_right (by omega), max_eq_right (by omega)]

/-- An integer mode adds the whole number that the sum is, wrapping or clamping. -/
theorem accInt_fst (wrapping : Bool) (acc : Nat) {x : Val} {z : Int} (whole : x.frac.1 = z * x.frac.2) (pos : 0 < x.frac.2) :
    (accInt wrapping acc x).1 = if wrapping then wrapN (sextOf acc 32 + z) 32 else (clampInt true 32 (sextOf acc 32 + z)).1 := by
  have quotient : x.frac.1 / (x.frac.2 : Int) = z := by rw [whole, Int.mul_ediv_cancel z (by omega)]
  unfold accInt
  rw [quotient]
  cases wrapping <;> rfl

/-- Every accumulator mode delivers a code of 32 bits. -/
theorem accumulate_lt (mode acc : Nat) (x : Val) : (accumulate mode acc x).1 < 2 ^ 32 := by
  have float (f : Fmt) : (accFloat f acc x).1 < 2 ^ 32 := by
    by_cases wide : f = fp32
    · rw [wide, accFloat_fp32_fst]
      exact roundFmt_fp32_rne_lt _
    · rw [accFloat_narrow_fst wide]
      exact roundFmt_fp32_rne_lt _
  have int (wrapping : Bool) : (accInt wrapping acc x).1 < 2 ^ 32 := by
    cases wrapping with
    | true => exact wrapN_lt _ _
    | false => exact (clampInt_fst true 32 _ (by decide)).trans_lt (wrapN_lt _ _)
  unfold accumulate
  split
  · exact float _
  · exact float _
  · exact float _
  · exact int _
  · exact int _

/-! The row of a pass (06 R124). -/

/-- The K-groups of an output element are accumulated in ascending order. -/
theorem accGroups_fst {α : Type} (mode : Nat) (f g : α → List Scaled) (acc : Nat) (l : List α) :
    (accGroups mode acc (l.map f) (l.map g)).1 = l.foldl (fun acc i => (accumulate mode acc (groupSum (f i) (g i)).1).1) acc := by
  induction l generalizing acc with
  | nil => rfl
  | cons i l ih => exact ih _

theorem foldl_accumulate_lt {α : Type} (mode : Nat) (f : α → Val) {acc : Nat} (h : acc < 2 ^ 32) (l : List α) :
    l.foldl (fun acc i => (accumulate mode acc (f i)).1) acc < 2 ^ 32 := by
  induction l generalizing acc with
  | nil => exact h
  | cons i l ih => exact ih (accumulate_lt ..)

/-- A column of a row: accumulated where it is selected, else as before. -/
theorem getD_pressRow (mode : Nat) (sel : List Bool) (as : List (List Scaled)) (col : Nat → List (List Scaled)) (first : Nat)
    (accs : List Nat) (n : Nat) (inside : n < accs.length) : (pressRow mode sel as col first accs).1.getD n 0 =
      if sel.getD (first + n) false then (accGroups mode (accs.getD n 0) as (col (first + n))).1 else accs.getD n 0 := by
  induction accs generalizing first n with
  | nil => exact absurd inside (Nat.not_lt_zero n)
  | cons acc accs ih =>
    rw [pressRow]
    cases n with
    | zero => simp only [List.getD_cons_zero, Nat.add_zero]; split <;> rfl
    | succ n =>
      simp only [List.getD_cons_succ, ih (first + 1) n (by simpa using inside), Nat.add_right_comm first 1 n, Nat.add_assoc]

theorem laneOf_lt (r : Row) (c i : Nat) : laneOf r c i < 2 ^ c := Nat.mod_lt _ (Nat.two_pow_pos c)

/-- The code that a column of a pass starts from: mmz zeroes those it selects. -/
theorem getD_zeroed (sel : List Bool) (old : List Nat) (zeroFirst : Bool) (n : Nat) :
    (if zeroFirst then old.zipIdx.map (fun p => if sel.getD p.2 false then 0 else p.1) else old).getD n 0 =
      if zeroFirst && sel.getD n false then 0 else old.getD n 0 := by
  cases zeroFirst with
  | false => rfl
  | true =>
    simp only [if_true, Bool.true_and, List.getD_eq_getElem?_getD, List.getElem?_map, List.getElem?_zipIdx, Nat.zero_add]
    cases old[n]? <;> simp

/-- A lane of the row that a pass delivers. -/
theorem laneOf_passRow (k : Core) (j : PassJob) {n : Nat} (inside : n < 256) (old : Nat)
    (before : old = laneOf (sget 0 k.regs.m (32 * j.tile + j.row)) 32 n) :
    laneOf (passRow k j).1 32 n = if j.sel.getD n false then
      (List.range ((j.kc + 31) / 32)).foldl (fun acc g => (accumulate j.mode acc (groupSum
        ((List.range (min 32 (j.kc - 32 * g))).map (fun i => runElem k.mem.sp j.lines j.fa.ty (32 * g + i)))
        ((List.range (min 32 (j.kc - 32 * g))).map (fun i => caskElem k.press j.cask j.fb (32 * g + i) n))).1).1)
        (if j.zeroFirst then 0 else old) else old := by
  have small : old < 2 ^ 32 := before ▸ laneOf_lt ..
  rw [← getD_rowCodes _ inside] at before
  rw [passRow, laneOf_rowOf _ (by omega), getD_pressRow _ _ _ _ _ _ _ ?_, getD_zeroed, ← before, Nat.zero_add]
  · cases j.sel.getD n false with
    | false => simpa using small
    | true =>
      simp only [if_true, Bool.and_true, kGroups, accGroups_fst]
      refine Nat.mod_eq_of_lt (foldl_accumulate_lt _ _ ?_ _)
      split
      · decide
      · exact small
  · split <;> simpa [length_rowCodes] using inside

end Sys2Proof.Machine
end

section
/-! O25. The word of busy (06 R127), and the press operations put together. -/

namespace Sys2Proof.Machine

/-! busy. -/

/-- Bit n of the word of busy for the cycle of a tick: the tiles, then the load and use sides of the casks and the A path. -/
def Core.busyBit (k : Core) (tick n : Nat) : Bool :=
  if n < 8 then k.isBusy n tick else if 16 ≤ n ∧ n ≤ 24 then k.isBusy (n - 8) tick else false

/-- The word sums one power of two for each resource that is busy. -/
theorem busyBits_eq_ofBits (k : Core) (tick : Nat) :
    busyBits k tick = BitVec.ofNat 64 (Nat.ofBits fun n : Fin 25 => k.busyBit tick n) := by
  have weight (b : Bool) (x : Nat) : (if b then x else 0) = x * b.toNat := by cases b <;> simp
  unfold busyBits
  simp only [weight]
  refine congrArg (BitVec.ofNat 64) ?_
  simp [List.range_succ, rsTile, rsLoad, rsUse, rsApath, Nat.ofBits_succ, Core.busyBit]
  ring

theorem getLsbD_busyBits (k : Core) (tick : Nat) {n : Nat} (h : n < 64) : (busyBits k tick).getLsbD n = k.busyBit tick n := by
  rw [busyBits_eq_ofBits, BitVec.getLsbD_ofNat, decide_eq_true h, Bool.true_and, Nat.testBit_ofBits]
  split
  · rfl
  · unfold Core.busyBit
    rw [if_neg (by omega), if_neg (by omega)]

/-- The tiles lent take bits 15:8. -/
theorem getLsbD_busyAsked (s : State) (c : Nat) {n : Nat} (h : n < 64) : (busyAsked s c).getLsbD n =
    ((busyBits (s.core c) s.tick).getLsbD n || (decide (8 ≤ n ∧ n < 16) && (s.core c).press.lent.getLsbD (n - 8))) := by
  have lent : (BitVec.ofNat 64 ((s.core c).press.lent.toNat * 2 ^ 8)).getLsbD n =
      (decide (8 ≤ n ∧ n < 16) && (s.core c).press.lent.getLsbD (n - 8)) := by
    rw [BitVec.getLsbD_ofNat, Nat.testBit_mul_two_pow, ← BitVec.getLsbD]
    by_cases high : n < 16
    · simp [h, high]
    · rw [BitVec.getLsbD_of_ge _ (n - 8) (by omega)]
      simp
  rw [busyAsked, BitVec.getLsbD_or]
  exact congrArg _ lent

/-- A word of busy that is due alone goes to o0, with what the bundles of its cycle have taken. -/
theorem exec_resultDelivery_busyWord {s : State} {c : Nat} {p : Pend} {w : Word}
    (due : (s.core c).dueActs s.tick (fun r => r < 8) = [p]) (is : p.act = .busyWord w) :
    exec (.resultDelivery c) s = .next ((s.modCore c (fun k => k.dropActs s.tick (fun r => r < 8))).modCore c
      (fun k => k.setOut (outPort 7 0) (w ||| busyBits k p.issue))) := by
  have delivered : exec (.resultDelivery c) s = execResultDelivery c s := rfl
  have rank : p.act.rank = 1 := by rw [is]; rfl
  rw [delivered, execResultDelivery]
  simp only [due, inIssueOrder_single]
  rw [deliverRanks_single, if_pos (by omega), deliverAct, is]

/-! Every operation. -/

theorem sameOutsideCores_modCore (s : State) (c : Nat) (f : Core → Core) : SameOutsideCores s (s.modCore c f) := rfl

theorem SameOutsideCores.trans {s t u : State} (a : SameOutsideCores s t) (b : SameOutsideCores t u) : SameOutsideCores s u := by
  unfold SameOutsideCores at *
  rw [← b] at a
  exact a

/-- A pass looks at the lanes that the width of B leaves it (06 R128). -/
theorem passSel_eq (k : Core) (v : Word) :
    passSel k v = (maskLanes (k.mask (mmMask v)) 256).take (if k.press.fb.is16 then 128 else 256) := by
  unfold passSel
  split
  · rfl
  · exact (List.take_of_length_le (length_maskLanes _ _).le).symm

/-- The column reads of the n-th cycle of a cask load, in order. -/
theorem caskColumns_add (s : State) (c : Nat) (v : Word) (n : Nat) :
    caskColumns s c v (4 + n) =
      let k := s.core c
      let per := if k.press.fb.is16 then 1 else 2
      (((List.range per).map (fun j => per * n + j)).filter (fun j => j < caskNc v)).map (fun j =>
        ColJob.mk (caskQ v) j (caskKc v) k.press.fb
          (prLines s c ((prCap k).base + ((k.inp 7 1).toNat + j * (k.inp 7 2).toNat)) (lineBytes (caskKc v) k.press.fb.ty.cont))) := by
  unfold caskColumns
  rw [Nat.add_sub_cancel_left]
  rfl

/-- A run of lines holds each element in the line it falls in. -/
theorem runElem_of_line {sp : Store Byte} {lines : List LineMeta} {t : ElTy} {i : Nat} {m : LineMeta}
    (h : lines[i / (512 / t.cont)]? = some m) : runElem sp lines t i = lineElem sp m t (i % (512 / t.cont)) := by
  simp only [runElem, h]

theorem exec_prMode {s : State} {h : Head} (ok : Accepts s h 0x2C4 none) :
    exec (.prMode h) s = .next (s.willDo 1 (.pmode (bits (s.operand h) 2 0))) :=
  slotOp_accepts h 0x2C4 none (fun s c _ v => s.schedule c 1 (.pmode (bits v 2 0))) s ok

theorem exec_prFmt {s : State} {h : Head} (ok : Accepts s h 0x2C5 none) : exec (.prFmt h) s = .next (s.willDo 1
    (.pfmt (selFmt (s.core s.cur) (bits (s.operand h) 3 0)) (selFmt (s.core s.cur) (bits (s.operand h) 7 4)))) :=
  slotOp_accepts h 0x2C5 none
    (fun s c _ v => s.schedule c 1 (.pfmt (selFmt (s.core c) (bits v 3 0)) (selFmt (s.core c) (bits v 7 4)))) s ok

theorem exec_prBusy {s : State} {h : Head} (ok : Accepts s h 0x2C6 none) :
    exec (.prBusy h) s = .next (s.willDo 1 (.busyWord (busyAsked s s.cur))) :=
  slotOp_accepts h 0x2C6 none (fun s c _ _ => s.schedule c 1 (.busyWord (busyAsked s c))) s ok

/-- A read of a pass delivers the row that it makes of what stands in the core now. -/
theorem performRead_readPass (s : State) (c : Nat) {p : Pend} {j : PassJob} (is : p.act = .readPass j) :
    performRead s c p = s.modCore c (fun k => { k with
      pend := k.pend ++ [Pend.mk j.due p.issue p.seq (.accRow (32 * j.tile + j.row) (passRow (s.core c) j).1 (passRow (s.core c) j).2)] }) := by
  simp only [performRead, is]

/-- Settles O25: each operation asks for what its statement lists; a column, a pass row and the word of busy are read and delivered as the
lemmas above say of them. -/
theorem pressAsks : Obligations.PressAsks := by
  unfold Obligations.PressAsks
  refine ⟨fun s h => ?asks, fun k tick n small => ?busy, fun s c n small => ?asked, fun s c p w due is => ?delivery,
    fun sp lines t i m line => ?line, fun k j kc col => ?column, fun s c p j is => ?read, fun k j n inside => ?lane,
    fun p q f i n => ?element, fun as bs => ?group, fun acc x => ?modes⟩
  case asks =>
    refine ⟨fun ok => ?_, fun ok => ?_, fun ok => ?_, fun ok => ?_, fun ok => ?_, fun ok => ?_, fun ok => ?_⟩
    · refine ⟨_, slotOp_accepts _ _ _ _ _ ok, ?_⟩
      simpa only [caskColumns_add, prLines] using caskEff_asks s s.cur s.motorNow (s.operand h)
    · refine ⟨_, slotOp_accepts _ _ _ _ _ ok, ?_⟩
      simpa only [passJob, passSel_eq, prLines, prAddr] using mmEff_asks false s s.cur s.motorNow (s.operand h)
    · refine ⟨_, slotOp_accepts _ _ _ _ _ ok, ?_⟩
      simpa only [passJob, passSel_eq, prLines, prAddr] using mmEff_asks true s s.cur s.motorNow (s.operand h)
    · exact ⟨_, slotOp_accepts _ _ _ _ _ ok, zeroEff_asks s s.cur s.motorNow (s.operand h)⟩
    · rw [exec_prMode ok, bits_low]
      rfl
    · rw [exec_prFmt ok, bits_low]
      rfl
    · exact exec_prBusy ok
  case busy => exact getLsbD_busyBits k tick small
  case asked => exact getLsbD_busyAsked s c small
  case delivery =>
    refine ⟨_, exec_resultDelivery_busyWord due is, (sameOutsideCores_modCore ..).trans (sameOutsideCores_modCore ..),
      fun d other => ?_, ?_⟩
    · rw [State.core_modCore_other _ _ _ other, State.core_modCore_other _ _ _ other]
    · rw [State.core_modCore_same, State.core_modCore_same]
      exact sget_sput_same ..
  case line => exact runElem_of_line line
  case column =>
    have codes (i : Nat) (h : i < j.kc) := readByte_putCodes j.cask j.fb.is16 j.col k.mem.sp j.lines j.fb.ty 0 j.kc k.press.codes col
      (Nat.zero_le i) (by omega)
    refine ⟨loadColumn_frame k j, codes, fun a apart => ?_, fun o ho => ⟨fun narrow => loadColumn_scales_byte k j narrow ho,
      fun wide b hb => loadColumn_scales_wide k j wide hb ho⟩⟩
    exact readByte_putCodes_other _ _ _ _ _ _ _ _ _ fun i _ last => apart i (by omega)
  case read =>
    intro k u
    have performed : u = _ := performRead_readPass s c is
    rw [performed]
    exact ⟨sameOutsideCores_modCore .., fun d other => State.core_modCore_other _ _ _ other, State.core_modCore_same ..⟩
  case lane => exact laneOf_passRow k j inside _ rfl
  case element => rfl
  case group =>
    rw [groupSum_fst]
    simp only [pressTerm_fst]
  case modes =>
    intro plus sat
    have clamp {f : Fmt} (signed : f.sign = true) (c : Nat) : sat f c = (pressSat f c).1 := (pressSat_fst signed c).symm
    refine ⟨accFloat_fp32_fst acc x, fun f narrow => ?_, fun z whole pos => ⟨accInt_fst true acc whole pos, ?_⟩⟩
    · rcases narrow with rfl | rfl
      · rw [clamp rfl, clamp rfl]
        exact accFloat_narrow_fst (by decide) acc x
      · rw [clamp rfl, clamp rfl]
        exact accFloat_narrow_fst (by decide) acc x
    · exact (accInt_fst false acc whole pos).trans (clampInt_fst true 32 _ (by decide))

end Sys2Proof.Machine
end

section
/-! O21. Rows of the operand file (07 R133, R149). -/

namespace Sys2Proof.Machine

/-- Settles O21: the row is merged under its bits, and the register's last-use mark is cleared. -/
theorem wideLanesMerge : Obligations.WideLanesMerge := by
  intro k phys row bits j inside
  refine ⟨?_, fun m other => sget_sput_other _ _ _ _ other, fun small => ⟨?_, fun m low other => ?_⟩, rfl⟩
  · rw [Core.setV, Core.modRegs, sget_sput_same, getLsbD_mergeRow _ _ _ inside]
  · simp only [Core.setV, Core.modRegs, BitVec.getLsbD_and, BitVec.getLsbD_not, getLsbD_ofNat_two_pow, small]
    simp
  · simp only [Core.setV, Core.modRegs, BitVec.getLsbD_and, BitVec.getLsbD_not, getLsbD_ofNat_two_pow, low, other]
    simp

end Sys2Proof.Machine
end

section
/-! O19. Stochastic rounding in the lanes of the vector unit (05 R99, R101): a generator whose state is wider than its 32 bits. -/

namespace Sys2Proof.Machine

/-- Generator 0 in the state 2^48, wider than the 32 bits of a generator (05 R99). -/
def wideGens : Gens := Gens.mk 0 [(0, 2 ^ 48)]

/-- Operands of a stochastic operation: the least fp16 magnitude in lane 0 of a, zeros elsewhere, and lane 0 selected. -/
def leastIn : WideIn := { a := 1, b := 0, d := 0, e := 1, sc := 0, mode := 2 }

/-- The draw of that generator, 2^32 + 2^15, adds 2^16 quanta to the one of the least magnitude. The sum is below the greatest finite
magnitude of fp16, which is some 2^40 quanta, and its count, packed as that of a subnormal, is a pattern of 17 bits. -/
theorem roundFmt_wideDraw :
    (roundFmt fp16 (drawRnd wideGens leastIn.mode 0).1
      (Val.sum [fmtVal fp16 (laneOf leastIn.a fp16.cont 0), fmtVal fp16 (laneOf leastIn.b fp16.cont 0)]).1).1 = 2 ^ 16 + 1 := by
  decide +kernel

/-- Refutes O19: its clauses on float results take every state of the generators, where a generator has 32 bits and a draw 16 (05 R99). From the
state 2^48 the rounded sum of va.add is a pattern of 17 bits, which no fp16 lane delivers. -/
theorem not_vectorArithmeticAsks : ¬ Obligations.VectorArithmeticAsks := by
  unfold Obligations.VectorArithmeticAsks
  rintro ⟨-, results, -⟩
  obtain ⟨lanes, -⟩ := results fp16 leastIn wideGens (.inr (.inr rfl))
  obtain ⟨added, -⟩ := lanes 0 (by decide) (by decide +kernel)
  have narrow := laneOf_lt (vaResult .add (.flt fp16) leastIn wideGens).row fp16.cont 0
  have wide : 2 ^ 16 + 1 < 2 ^ fp16.cont := (added.trans roundFmt_wideDraw).symm.trans_lt narrow
  exact absurd wide (by decide)

end Sys2Proof.Machine
end

section
/-! O20. Lanes and lane masks (04 R73, 07 R130, R131): the lists of the vector unit, lane by lane. -/

namespace Sys2Proof.Machine

/-! Lists of lanes. -/

theorem rowCodes_eq_map (c : Nat) (r : Row) : rowCodes c r = (List.range (8192 / c)).map (laneOf r c) := splitCodes_eq_map ..

theorem maskLanes_eq_map (e : Mask) {n : Nat} (group : 0 < 2048 / n) : maskLanes e n = (List.range n).map (selLane e n) := by
  rw [maskLanes, splitCodes_eq_map, List.map_map]
  refine List.map_congr_left fun i _ => ?_
  rw [Function.comp_apply, Nat.mod_mod_of_dvd _ (dvd_pow_self 2 group.ne'), selLane]

/-- The mask bit and the three codes of lane i. -/
def laneIn (c : Nat) (w : WideIn) (i : Nat) : Bool × Nat × Nat × Nat :=
  (selLane w.e (8192 / c) i, laneOf w.a c i, laneOf w.b c i, laneOf w.d c i)

theorem lanes4_eq_map {c : Nat} (w : WideIn) (group : 0 < 2048 / (8192 / c)) :
    lanes4 c w = (List.range (8192 / c)).map (laneIn c w) := by
  simp only [lanes4, maskLanes_eq_map _ group, rowCodes_eq_map, List.zip_map']
  rfl

theorem selected_eq_map {c : Nat} (w : WideIn) (group : 0 < 2048 / (8192 / c)) :
    selected c w = ((List.range (8192 / c)).filter (fun j => selLane w.e (8192 / c) j)).map (laneOf w.a c) := by
  rw [selected, lanes4_eq_map w group, List.filter_map, List.map_map]
  rfl

theorem getD_map_range {α : Type} (f : Nat → α) {n i : Nat} (d : α) (inside : i < n) : ((List.range n).map f).getD i d = f i := by
  simp [inside]

/-- Four values after one another. -/
theorem fours_map_range {α : Type} (f : Nat → α) (n : Nat) :
    fours ((List.range (4 * n)).map f) = (List.range n).map (fun j => (List.range 4).map (fun q => f (4 * j + q))) := by
  induction n generalizing f with
  | zero => rfl
  | succ n ih =>
    have first : (List.range (4 * (n + 1))).map f = f 0 :: f 1 :: f 2 :: f 3 :: (List.range (4 * n)).map (fun i => f (4 + i)) := by
      rw [Nat.mul_succ, Nat.add_comm, List.range_add, List.map_append, List.map_map]
      rfl
    rw [first, fours, ih, List.range_succ_eq_map (n := n), List.map_cons, List.map_map]
    refine congrArg (List.cons _) (List.map_congr_left fun j _ => List.map_congr_left fun q _ => congrArg f ?_)
    omega

/-! Bits of rows and of masks. -/

/-- All bits of a container alike. -/
theorem testBit_joinCodes_ones {c : Nat} (pos : 0 < c) (bs : List Bool) (k : Nat) :
    (joinCodes c (bs.map (fun b => if b then 2 ^ c - 1 else 0))).testBit k = bs.getD (k / c) false := by
  have bit : k % c < c := Nat.mod_lt k pos
  have code : (bs.map (fun b => if b then 2 ^ c - 1 else 0)).getD (k / c) 0 = if bs.getD (k / c) false then 2 ^ c - 1 else 0 := by
    rw [List.getD_eq_getElem?_getD, List.getElem?_map, List.getD_eq_getElem?_getD]
    cases bs[k / c]? <;> rfl
  have lane := congrArg (Nat.testBit · (k % c)) (joinCodes_lane c (bs.map (fun b => if b then 2 ^ c - 1 else 0)) (k / c))
  simp only [code, Nat.testBit_mod_two_pow, Nat.testBit_div_two_pow, bit, decide_true, Bool.true_and, Nat.mod_add_div] at lane
  rw [lane]
  split
  case isTrue selected => simpa [bit] using selected.symm
  case isFalse excluded => simpa using excluded

theorem getLsbD_laneBits {c : Nat} (pos : 0 < c) (sel : List Bool) {k : Nat} (inside : k < 8192) :
    (laneBits c sel).getLsbD k = sel.getD (k / c) false := by
  rw [laneBits, rowOf, BitVec.getLsbD_ofNat, testBit_joinCodes_ones pos]
  simp [inside]

theorem getLsbD_maskOf {n : Nat} (group : 0 < 2048 / n) (bs : List Bool) {j : Nat} (inside : j < 2048) :
    (maskOf n bs).getLsbD j = bs.getD (j / (2048 / n)) false := by
  rw [maskOf, BitVec.getLsbD_ofNat, testBit_joinCodes_ones group]
  simp [inside]

/-! What a lane of each form of result is. -/

theorem lane_inside {c i : Nat} (inside : i < 8192 / c) : c * i + c ≤ 8192 :=
  (Nat.mul_le_mul_left c inside).trans (Nat.mul_div_le 8192 c)

theorem laneOf_rowOf_map_range (f : Nat → Nat) {c i : Nat} (inside : i < 8192 / c) :
    laneOf (rowOf c ((List.range (8192 / c)).map f)) c i = f i % 2 ^ c := by
  rw [laneOf_rowOf _ (lane_inside inside), getD_map_range f 0 inside]

section
variable {c : Nat} (group : 0 < 2048 / (8192 / c)) (f : Nat → Nat → Nat → Nat × Stat) (w : WideIn) (g : Gens)
include group

theorem laneOf_codeOp {i : Nat} (inside : i < 8192 / c) :
    laneOf (codeOp c f w g).row c i = (f (laneOf w.a c i) (laneOf w.b c i) (laneOf w.d c i)).1 % 2 ^ c := by
  simp only [codeOp, laneOut, lanes4_eq_map w group, List.map_map]
  exact laneOf_rowOf_map_range _ inside

theorem getLsbD_codeOp_bits {k : Nat} (inside : k < 8192) (lane : k / c < 8192 / c) :
    (codeOp c f w g).bits.getLsbD k = selLane w.e (8192 / c) (k / c) := by
  have pos : 0 < c := Nat.pos_of_ne_zero fun zero => by simp [zero] at lane
  simp only [codeOp, laneOut, getLsbD_laneBits pos _ inside, maskLanes_eq_map _ group, getD_map_range _ _ lane]

theorem laneOf_codeOp_of_lt {i : Nat} (inside : i < 8192 / c)
    (small : (f (laneOf w.a c i) (laneOf w.b c i) (laneOf w.d c i)).1 < 2 ^ c) :
    laneOf (codeOp c f w g).row c i = (f (laneOf w.a c i) (laneOf w.b c i) (laneOf w.d c i)).1 := by
  rw [laneOf_codeOp group f w g inside, Nat.mod_eq_of_lt small]

end

end Sys2Proof.Machine
end

section
/-! O20. Integer values (07 R134-R143): compares, extremes and sums of exact integers. -/

namespace Sys2Proof.Machine

/-! Exact integers (04 R74, 07 R138). -/

theorem elVal_int (sg : Bool) (n c : Nat) : elVal (.int sg n) c = Val.ofInt (intVal sg n c) := by cases sg <;> rfl

@[simp] theorem Val.isNan_ofInt (x : Int) : (Val.ofInt x).isNan = false := rfl

theorem Val.frac_ofInt (x : Int) : (Val.ofInt x).frac = (x, 1) := by
  simp only [Val.ofInt, Val.frac, pow2, Prod.mk.injEq]
  grind

@[simp] theorem Val.lt_ofInt (x y : Int) : (Val.ofInt x).lt (Val.ofInt y) = decide (x < y) := by
  show decide ((Val.ofInt x).frac.1 * (Val.ofInt y).frac.2 < (Val.ofInt y).frac.1 * (Val.ofInt x).frac.2) = decide (x < y)
  simp only [Val.frac_ofInt, Nat.cast_one, mul_one]

@[simp] theorem Val.ltz_ofInt (x y : Int) : (Val.ofInt x).ltz (Val.ofInt y) = decide (x < y) := by
  have zero : ((Val.ofInt x).isZero && (Val.ofInt x).isNeg) = false := by
    simp only [Val.ofInt, Val.isZero, Val.isNeg]
    grind
  rw [Val.ltz, Val.lt_ofInt]
  grind

@[simp] theorem Val.eqv_ofInt (x y : Int) : (Val.ofInt x).eqv (Val.ofInt y) = decide (x = y) := by
  simp only [Val.eqv, Val.isNan_ofInt, Val.lt_ofInt]
  grind

/-- A compare of integers is that of their values. -/
theorem cmpCond_ofInt (cond : Nat) (x y : Int) : cmpCond cond (.ofInt x) (.ofInt y) = (match cond with
    | 0 => decide (x = y)
    | 1 => decide (x ≠ y)
    | 2 => decide (x < y)
    | 3 => decide (x ≤ y)
    | 4 => decide (y < x)
    | 5 => decide (y ≤ x)
    | _ => false) := by
  unfold cmpCond
  split <;> simp only [Val.eqv_ofInt, Val.lt_ofInt] <;> grind

theorem minmaxCode_int (sg : Bool) (n : Nat) (big : Bool) (a b : Nat) : minmaxCode (.int sg n) big a b =
    if big then (if intVal sg n a < intVal sg n b then b else a) else (if intVal sg n b < intVal sg n a then b else a) := by
  simp [minmaxCode, elVal_int]

theorem sumInt_eq_sum (vs : List Int) : sumInt vs = vs.sum := by
  induction vs with
  | nil => rfl
  | cons v vs ih => rw [sumInt, ih, List.sum_cons]

/-! The range of a type (04 R74). -/

theorem intVal_bounds (sg : Bool) {n : Nat} (pos : 0 < n) (c : Nat) :
    intMin sg n ≤ intVal sg n c ∧ intVal sg n c ≤ intMax sg n := by
  have half : 2 ^ n = 2 * 2 ^ (n - 1) := (mul_pow_sub_one pos.ne' 2).symm
  have code : c % 2 ^ n < 2 ^ n := Nat.mod_lt _ (Nat.two_pow_pos n)
  cases sg with
  | false => simp only [intVal, intMin, intMax, Bool.false_eq_true, if_false]; omega
  | true =>
    simp only [intVal, intMin, intMax, sextOf, if_true]
    split <;> omega

theorem intMin_le_intMax (sg : Bool) {n : Nat} (pos : 0 < n) : intMin sg n ≤ intMax sg n :=
  (intVal_bounds sg pos 0).1.trans (intVal_bounds sg pos 0).2

/-! Shifts (07 R137). -/

/-- A shift past the width leaves the sign in every bit. -/
theorem sextOf_div_half {n : Nat} (pos : 0 < n) (a : Nat) : sextOf a n / (2 ^ (n - 1) : Nat) = if sextOf a n < 0 then -1 else 0 := by
  obtain ⟨low, high⟩ := intVal_bounds true pos a
  simp only [intVal, intMin, intMax, if_true] at low high
  split
  case isTrue negative => exact Int.ediv_eq_neg_one_of_neg_of_le negative (by omega)
  case isFalse positive => exact Int.ediv_eq_zero_of_lt (by omega) (by omega)

theorem shiftLane_sar {n : Nat} (pos : 0 < n) (a b : Nat) : shiftLane .sar n a b =
    if b < n then wrapN (sextOf a n / (2 ^ b : Nat)) n else if sextOf a n < 0 then 2 ^ n - 1 else 0 := by
  show wrapN (sextOf a n / (2 ^ (min b (n - 1)) : Nat)) n = _
  split
  case isTrue small => rw [min_eq_left (by omega)]
  case isFalse past =>
    rw [min_eq_right (by omega), sextOf_div_half pos]
    have one : 1 < 2 ^ n := Nat.one_lt_two_pow pos.ne'
    split
    · rw [wrapN, ← Int.add_emod_right, Int.emod_eq_of_lt] <;> omega
    · simp [wrapN]

/-! Reductions (07 R140). -/

theorem foldl_max_cons {α : Type} [LinearOrder α] (x : α) (xs : List α) :
    xs.foldl max x ∈ x :: xs ∧ ∀ y ∈ x :: xs, y ≤ xs.foldl max x := by
  induction xs generalizing x with
  | nil => simp
  | cons y ys ih =>
    obtain ⟨mem, above⟩ := ih (max x y)
    simp only [List.mem_cons, forall_eq_or_imp, max_le_iff] at above
    obtain ⟨⟨hx, hy⟩, rest⟩ := above
    refine ⟨?_, by simpa using ⟨hx, hy, rest⟩⟩
    rcases max_choice x y with same | same <;> rw [same] at mem <;> simp only [List.foldl_cons, same] <;> grind

/-- From a start below them all, the greatest of some values is one of them. -/
theorem foldl_max_mem {α : Type} [LinearOrder α] {start : α} {vs : List α} (nonempty : vs ≠ []) (below : ∀ x ∈ vs, start ≤ x) :
    vs.foldl max start ∈ vs ∧ ∀ y ∈ vs, y ≤ vs.foldl max start := by
  cases vs with
  | nil => exact absurd rfl nonempty
  | cons x xs =>
    rw [List.foldl_cons, max_eq_right (below x List.mem_cons_self)]
    exact foldl_max_cons x xs

/-- The extreme of the values by the order that `big` names. -/
theorem foldl_extreme_mem (big : Bool) {start : Int} {vs : List Int} (nonempty : vs ≠ [])
    (bound : ∀ x ∈ vs, if big then start ≤ x else x ≤ start) :
    let m := vs.foldl (fun acc x => if big then max acc x else min acc x) start
    m ∈ vs ∧ ∀ y ∈ vs, if big then y ≤ m else m ≤ y := by
  cases big with
  | true => exact foldl_max_mem nonempty bound
  | false => exact foldl_max_mem (α := Intᵒᵈ) nonempty bound

theorem row_reduceOut (v : Nat) (o : Word) (st : Stat) (g : Gens) : (reduceOut v o st g).row = rowOf 32 [v] := rfl

theorem reduceOut_lanes (x : Int) (st : Stat) (g : Gens) : let o := reduceOut (wrapN x 32) (wrap64 x) st g
    o.o0 = some (BitVec.ofInt 64 x) ∧ laneOf o.row 32 0 = (x % (2 ^ 32 : Nat)).toNat ∧ (∀ j, 0 < j → j < 256 → laneOf o.row 32 j = 0) ∧
    o.bits = BitVec.allOnes 8192 := by
  refine ⟨rfl, ?_, fun j pos inside => ?_, rfl⟩
  · rw [row_reduceOut, laneOf_rowOf _ (by decide)]
    exact Nat.mod_eq_of_lt (wrapN_lt x 32)
  · obtain ⟨i, rfl⟩ := Nat.exists_eq_add_of_lt pos
    rw [row_reduceOut, laneOf_rowOf _ (by omega)]
    simp

/-! The operations (07 R135-R143). -/

theorem minmaxCode_int_lt (sg : Bool) {n a b : Nat} (big : Bool) (ha : a < 2 ^ n) (hb : b < 2 ^ n) : minmaxCode (.int sg n) big a b < 2 ^ n := by
  rw [minmaxCode_int]
  split_ifs <;> assumption

theorem absCode_int (sg : Bool) {n a : Nat} : absCode (.int sg n) a = if sg then (intVal sg n a).natAbs % 2 ^ n else a := by
  cases sg with
  | false => rfl
  | true =>
    show wrapN (sextOf a n).natAbs n = (sextOf a n).natAbs % 2 ^ n
    rw [wrapN, ← Int.natCast_mod, Int.toNat_natCast]

theorem satCode_fst (sub sg : Bool) {n : Nat} (pos : 0 < n) (a b : Nat) : (satCode sub sg n a b).1 =
    wrapN (max (intMin sg n) (min (intMax sg n) (if sub then intVal sg n a - intVal sg n b else intVal sg n a + intVal sg n b))) n :=
  clampInt_fst sg n _ (intMin_le_intMax sg pos)

/-- Every operation but these seven delivers one code in each selected lane. -/
theorem vaResult_int_eq_codeOp {op : VaOp} (other : op ∉ [VaOp.cmp, .sel, .sum, .rmax, .rmin, .dot4, .scale]) (sg : Bool) (n : Nat)
    (w : WideIn) (g : Gens) : ∃ f, vaResult op (.int sg n) w g = codeOp n f w g := by
  cases op
  case cmp | sel | sum | rmax | rmin | dot4 | scale => exact absurd (by decide) other
  all_goals
    simp only [vaResult, vaArith]
    exact ⟨_, rfl⟩

theorem laneOf_vaSel_int {n : Nat} (group : 0 < 2048 / (8192 / n)) (sg : Bool) (w : WideIn) (g : Gens) {i : Nat} (inside : i < 8192 / n) :
    laneOf (vaSel (.int sg n) w g).row n i = if selLane w.e (8192 / n) i then laneOf w.a n i else laneOf w.b n i := by
  show laneOf (rowOf n ((lanes4 n w).map _)) n i = _
  rw [lanes4_eq_map w group, List.map_map, laneOf_rowOf_map_range _ inside]
  refine Nat.mod_eq_of_lt ?_
  show (if selLane w.e (8192 / n) i then laneOf w.a n i else laneOf w.b n i) < 2 ^ n
  split
  · exact laneOf_lt ..
  · exact laneOf_lt ..

theorem mask_vaCmp_int {n : Nat} (group : 0 < 2048 / (8192 / n)) (sg : Bool) (w : WideIn) (g : Gens) :
    ∃ m, (vaCmp (.int sg n) w g).mask = some m ∧ ∀ j, j < 2048 → j / (2048 / (8192 / n)) < 8192 / n →
      let i := j / (2048 / (8192 / n))
      m.getLsbD j = (selLane w.e (8192 / n) i &&
        cmpCond (bits w.sc 2 0) (.ofInt (intVal sg n (laneOf w.a n i))) (.ofInt (intVal sg n (laneOf w.b n i)))) := by
  refine ⟨_, rfl, fun j inside lane => ?_⟩
  rw [ElTy.cont, lanes4_eq_map w group, List.map_map, getLsbD_maskOf group _ inside, getD_map_range _ _ lane]
  simp only [Function.comp_apply, laneIn, elVal_int]

/-- The values of the selected lanes. -/
theorem map_selected {n : Nat} (group : 0 < 2048 / (8192 / n)) (sg : Bool) (w : WideIn) : (selected n w).map (intVal sg n) =
    ((List.range (8192 / n)).filter (fun j => selLane w.e (8192 / n) j)).map (fun j => intVal sg n (laneOf w.a n j)) := by
  rw [selected_eq_map w group, List.map_map]
  rfl

/-- rmax and rmin of the selected lanes: the far bound of the type where there is none, else the extreme value of one of them. -/
theorem vaReduce_int {n : Nat} (group : 0 < 2048 / (8192 / n)) (pos : 0 < n) (big sg : Bool) (w : WideIn) (g : Gens) :
    let picked := (List.range (8192 / n)).filter (fun j => selLane w.e (8192 / n) j)
    let val := fun j => intVal sg n (laneOf w.a n j)
    let out := fun (m : Int) => reduceOut (wrapN m 32) (wrap64 m) 0 g
    (picked = [] → vaReduce big (.int sg n) w g = out (if big then intMin sg n else intMax sg n)) ∧
    (picked ≠ [] → ∃ j, j ∈ picked ∧ vaReduce big (.int sg n) w g = out (val j) ∧
      ∀ i, i ∈ picked → if big then val i ≤ val j else val j ≤ val i) := by
  intro picked val out
  have values : (selected n w).map (intVal sg n) = picked.map val := map_selected group sg w
  refine ⟨fun empty => ?_, fun nonempty => ?_⟩
  · simp only [vaReduce, values, empty, List.map_nil, List.foldl_nil, out]
  · have bound : ∀ x ∈ picked.map val, if big then (if big then intMin sg n else intMax sg n) ≤ x
        else x ≤ (if big then intMin sg n else intMax sg n) := by
      intro x mem
      obtain ⟨j, -, rfl⟩ := List.mem_map.1 mem
      obtain ⟨low, high⟩ := intVal_bounds sg pos (laneOf w.a n j)
      cases big with
      | true => exact low
      | false => exact high
    obtain ⟨mem, extreme⟩ := foldl_extreme_mem big (mt List.map_eq_nil_iff.1 nonempty) bound
    obtain ⟨j, chosen, is⟩ := List.mem_map.1 mem
    refine ⟨j, chosen, ?_, fun i other => ?_⟩
    · simp only [vaReduce, values, is, out]
    · rw [is]
      exact extreme _ (List.mem_map_of_mem other)

/-- dot4 of an 8-bit type: four products on each 32-bit lane. -/
theorem laneOf_vaDot4_int (sg : Bool) (w : WideIn) (g : Gens) {j : Nat} (inside : j < 256) :
    laneOf (vaDot4 (.int sg 8) w g).row 32 j = wrapN (intVal sg 32 (laneOf w.d 32 j) + ((List.range 4).map
      (fun q => intVal sg 8 (laneOf w.a 8 (4 * j + q)) * intVal sg 8 (laneOf w.b 8 (4 * j + q)))).sum) 32 := by
  have products : fours (((rowCodes 8 w.a).zip (rowCodes 8 w.b)).map (fun p => intVal sg 8 p.1 * intVal sg 8 p.2)) =
      (List.range (8192 / 32)).map (fun j => (List.range 4).map
        (fun q => intVal sg 8 (laneOf w.a 8 (4 * j + q)) * intVal sg 8 (laneOf w.b 8 (4 * j + q)))) := by
    simp only [rowCodes_eq_map, List.zip_map', List.map_map]
    exact fours_map_range _ 256
  simp only [vaDot4, products, rowCodes_eq_map 32, List.zip_map', List.map_map, sumInt_eq_sum]
  rw [laneOf_rowOf_map_range _ inside]
  exact Nat.mod_eq_of_lt (wrapN_lt _ _)

theorem getLsbD_vaDot4_bits (sg : Bool) (w : WideIn) (g : Gens) {j k : Nat} (inside : j < 256) (bit : k < 32) :
    (vaDot4 (.int sg 8) w g).bits.getLsbD (32 * j + k) = selLane w.e 256 j := by
  have lane : (32 * j + k) / 32 = j := by omega
  rw [vaDot4, getLsbD_laneBits (by decide) _ (by omega), maskLanes_eq_map _ (by decide), lane, getD_map_range _ _ inside]

/-- Settles O20: the lists of the vector unit are taken lane by lane, and what a lane of each form of result holds is an exact integer
of the operand lanes, wrapped or within the type. -/
theorem vectorIntegerResults : Obligations.VectorIntegerResults := by
  intro sg n w g width lanes v out picked val single
  have pos : 0 < n := by omega
  have group : 0 < 2048 / (8192 / n) := by rcases width with rfl | rfl | rfl | rfl <;> decide
  have row {k : Nat} (h : k < 8192) : k / n < lanes := by rcases width with rfl | rfl | rfl | rfl <;> simp only [lanes] <;> omega
  have mask {j : Nat} (h : j < 2048) : j / (2048 / lanes) < lanes := by
    rcases width with rfl | rfl | rfl | rfl <;> simp only [lanes] <;> omega
  have reduced (op : VaOp) {x : Int} (is : out op = reduceOut (wrapN x 32) (wrap64 x) 0 g) : single op x := by
    simp only [single, is]
    exact reduceOut_lanes ..
  refine ⟨?lanes, ?written, ?sel, rfl, ?cmp, ?sum, ?empty, ?nonempty, ?dot4⟩
  case lanes =>
    intro i inside _ a b d r
    have ha : a < 2 ^ n := laneOf_lt ..
    have hb : b < 2 ^ n := laneOf_lt ..
    have hd : d < 2 ^ n := laneOf_lt ..
    have lane (f : Nat → Nat → Nat → Nat × Stat) (small : (f a b d).1 < 2 ^ n) : laneOf (codeOp n f w g).row n i = (f a b d).1 :=
      laneOf_codeOp_of_lt group f w g inside small
    have wraps (x : Nat → Nat → Nat → Int) : laneOf (codeOp n (fun a b d => (wrapN (x a b d) n, 0)) w g).row n i = wrapN (x a b d) n :=
      lane _ (wrapN_lt _ _)
    have sat_lt (sub : Bool) : (satCode sub sg n a b).1 < 2 ^ n := by
      rw [satCode_fst sub sg pos]
      exact wrapN_lt _ _
    refine ⟨wraps _, wraps _, wraps _, wraps _, wraps _, wraps _, lane _ (Nat.and_lt_two_pow _ hb), lane _ (Nat.or_lt_two_pow ha hb),
      lane _ (Nat.xor_lt_two_pow ha hb), ?not, ?shl, ?shr, ?sar, ?min, ?max, ?clamp, ?abs, wraps _, ?addsat, ?subsat⟩
    case not => exact lane (fun a _ _ => (2 ^ n - 1 - a, 0)) (by dsimp only; omega)
    case shl =>
      refine lane (fun a b _ => (shiftLane .shl n a b, 0)) ?_
      dsimp only [shiftLane]
      split
      · exact Nat.mod_lt _ (Nat.two_pow_pos n)
      · exact Nat.two_pow_pos n
    case shr =>
      refine lane (fun a b _ => (shiftLane .shr n a b, 0)) ?_
      dsimp only [shiftLane]
      split
      · exact (Nat.div_le_self _ _).trans_lt ha
      · exact Nat.two_pow_pos n
    case sar => exact (lane (fun a b _ => (shiftLane .sar n a b, 0)) (wrapN_lt _ _)).trans (shiftLane_sar pos a b)
    case min =>
      exact (lane (fun a b _ => (minmaxCode (.int sg n) false a b, 0)) (minmaxCode_int_lt sg _ ha hb)).trans (minmaxCode_int ..)
    case max =>
      exact (lane (fun a b _ => (minmaxCode (.int sg n) true a b, 0)) (minmaxCode_int_lt sg _ ha hb)).trans (minmaxCode_int ..)
    case clamp =>
      refine (lane (fun a b d => (minmaxCode (.int sg n) false (minmaxCode (.int sg n) true d a) b, 0))
        (minmaxCode_int_lt sg _ (minmaxCode_int_lt sg _ hd ha) hb)).trans ?_
      simp only [minmaxCode_int]
      rfl
    case abs =>
      refine (lane (fun a _ _ => (absCode (.int sg n) a, 0)) ?_).trans (absCode_int sg)
      dsimp only
      rw [absCode_int]
      split
      · exact Nat.mod_lt _ (Nat.two_pow_pos n)
      · exact ha
    case addsat => exact (lane (fun a b _ => satCode false sg n a b) (sat_lt false)).trans (satCode_fst false sg pos a b)
    case subsat => exact (lane (fun a b _ => satCode true sg n a b) (sat_lt true)).trans (satCode_fst true sg pos a b)
  case written =>
    intro op other
    obtain ⟨f, is⟩ := vaResult_int_eq_codeOp other sg n w g
    simp only [out, is]
    exact ⟨rfl, rfl, fun k inside => getLsbD_codeOp_bits group f w g inside (row inside)⟩
  case sel => exact fun i inside => laneOf_vaSel_int group sg w g inside
  case cmp =>
    obtain ⟨m, is, bit⟩ := mask_vaCmp_int group sg w g
    exact ⟨m, is, fun j inside => (bit j inside (mask inside)).trans (congrArg _ (cmpCond_ofInt ..))⟩
  case sum =>
    refine reduced .sum ?_
    simp only [out, vaResult, vaSum, map_selected group, sumInt_eq_sum]
    rfl
  case empty =>
    exact fun empty => ⟨reduced .rmax ((vaReduce_int group pos true sg w g).1 empty),
      reduced .rmin ((vaReduce_int group pos false sg w g).1 empty)⟩
  case nonempty =>
    intro nonempty
    obtain ⟨i, inMax, isMax, above⟩ := (vaReduce_int group pos true sg w g).2 nonempty
    obtain ⟨j, inMin, isMin, below⟩ := (vaReduce_int group pos false sg w g).2 nonempty
    exact ⟨⟨i, inMax, reduced .rmax isMax, above⟩, j, inMin, reduced .rmin isMin, below⟩
  case dot4 =>
    rintro rfl j inside
    exact ⟨laneOf_vaDot4_int sg w g inside, fun k bit => getLsbD_vaDot4_bits sg w g inside bit⟩

end Sys2Proof.Machine
end

section
/-! O39. Stores performing (10 R183, R187, 11 R203, 17 R327): the cells and labels of a store go in one by one, the first writer's stand. -/

namespace Sys2Proof.Machine

/-! Cells (10 R187). -/

/-- The cells of a store, put one after the other. -/
def putCells (k : Core) (cells : List (Nat × Byte × Byte)) : Core := cells.foldl (fun k c => putCell k c.1 c.2.1 c.2.2) k

/-- A cell written whole where nothing of the boundary stands: its byte, the clear tag of its granule, and its mark. -/
theorem putCell_free (k : Core) (a : Nat) (v : Byte) (free : sget 0 k.fresh.bits a = 0) : putCell k a v (BitVec.allOnes 8) =
    { k with
      mem := { k.mem with sp := writeByte k.mem.sp a v, tags := sput false k.mem.tags (a / 16) false }
      fresh := { k.fresh with bits := sput 0 k.fresh.bits a (BitVec.allOnes 8) } } := by
  have whole : (readByte k.mem.sp a &&& ~~~(BitVec.allOnes 8)) ||| (v &&& BitVec.allOnes 8) = v := by
    rw [BitVec.not_allOnes, BitVec.and_zero, BitVec.and_allOnes, BitVec.zero_or]
  rw [putCell, if_neg (fun none => none.elim (by decide) (absurd free)), whole]

theorem putCell_taken (k : Core) (a : Nat) (v m : Byte) (taken : sget 0 k.fresh.bits a ≠ 0) : putCell k a v m = k := by
  rw [putCell, if_pos (.inr taken)]

/-- Every byte written at this boundary has cleared the tag of its granule, and every label those of its line. -/
def Core.freshUntagged (k : Core) : Prop :=
  (∀ a, sget 0 k.fresh.bits a ≠ 0 → sget false k.mem.tags (a / 16) = false) ∧
    ∀ g, sget false k.fresh.labels (g / 4) = true → sget false k.mem.tags g = false

theorem putCells_frame (k : Core) (cells : List (Nat × Byte × Byte)) : putCells k cells =
    { k with
      mem := { k.mem with sp := (putCells k cells).mem.sp, tags := (putCells k cells).mem.tags }
      fresh := { k.fresh with bits := (putCells k cells).fresh.bits } } := by
  induction cells generalizing k with
  | nil => rfl
  | cons x cells ih =>
    have next : putCells k (x :: cells) = putCells (putCell k x.1 x.2.1 x.2.2) cells := rfl
    rw [next, ih]
    unfold putCell
    split <;> rfl

section
variable {cells : List (Nat × Byte × Byte)} (full : ∀ x ∈ cells, x.2.2 = BitVec.allOnes 8)
include full

/-- A byte after the cells of a store: one already written at this boundary stands, else the first cell of its address is written. -/
theorem readByte_putCells (k : Core) (a : Nat) : readByte (putCells k cells).mem.sp a =
    if sget 0 k.fresh.bits a ≠ 0 then readByte k.mem.sp a
    else match cells.find? (fun p => p.1 == a) with
      | some x => x.2.1
      | none => readByte k.mem.sp a := by
  induction cells generalizing k with
  | nil => simp [putCells]
  | cons x cells ih =>
    obtain ⟨b, v, m⟩ := x
    obtain ⟨rfl, rest⟩ := List.forall_mem_cons.1 full
    have next : putCells k ((b, v, BitVec.allOnes 8) :: cells) = putCells (putCell k b v (BitVec.allOnes 8)) cells := rfl
    rw [next, ih rest]
    by_cases taken : sget 0 k.fresh.bits b ≠ 0
    · rw [putCell_taken _ _ _ _ taken]
      grind
    · rw [putCell_free _ _ _ (not_not.1 taken)]
      simp only [sget_sput, readByte_writeByte]
      by_cases same : a = b
      · subst same; simp at taken; simp [taken]
      · have other : (b == a) = false := by simpa using Ne.symm same
        simp [same, other]

theorem fresh_putCells (k : Core) (a : Nat) : sget 0 (putCells k cells).fresh.bits a ≠ 0 ↔
    sget 0 k.fresh.bits a ≠ 0 ∨ (cells.find? (fun p => p.1 == a)).isSome := by
  induction cells generalizing k with
  | nil => simp [putCells]
  | cons x cells ih =>
    obtain ⟨b, v, m⟩ := x
    obtain ⟨rfl, rest⟩ := List.forall_mem_cons.1 full
    have next : putCells k ((b, v, BitVec.allOnes 8) :: cells) = putCells (putCell k b v (BitVec.allOnes 8)) cells := rfl
    rw [next, ih rest]
    by_cases taken : sget 0 k.fresh.bits b ≠ 0
    · rw [putCell_taken _ _ _ _ taken]
      grind
    · rw [putCell_free _ _ _ (not_not.1 taken)]
      simp only [sget_sput]
      by_cases same : a = b
      · simp [same]
      · have other : (b == a) = false := by simpa using Ne.symm same
        simp [same, other]

theorem tags_putCells (k : Core) (untagged : k.freshUntagged) : (putCells k cells).freshUntagged ∧ ∀ g,
    sget false (putCells k cells).mem.tags g = (sget false k.mem.tags g && !cells.any (fun p => p.1 / 16 == g)) := by
  induction cells generalizing k with
  | nil => exact ⟨untagged, by simp [putCells]⟩
  | cons x cells ih =>
    obtain ⟨b, v, m⟩ := x
    obtain ⟨rfl, rest⟩ := List.forall_mem_cons.1 full
    have next : putCells k ((b, v, BitVec.allOnes 8) :: cells) = putCells (putCell k b v (BitVec.allOnes 8)) cells := rfl
    rw [next]
    obtain ⟨bytes, labels⟩ := untagged
    by_cases taken : sget 0 k.fresh.bits b ≠ 0
    · rw [putCell_taken _ _ _ _ taken]
      refine ⟨(ih rest k ⟨bytes, labels⟩).1, fun g => ?_⟩
      rw [(ih rest k ⟨bytes, labels⟩).2, List.any_cons]
      have clear := bytes b taken
      grind
    · rw [putCell_free _ _ _ (not_not.1 taken)]
      have kept := ih rest { k with
        mem := { k.mem with sp := writeByte k.mem.sp b v, tags := sput false k.mem.tags (b / 16) false }
        fresh := { k.fresh with bits := sput 0 k.fresh.bits b (BitVec.allOnes 8) } } ?_
      · refine ⟨kept.1, fun g => ?_⟩
        rw [kept.2, List.any_cons, sget_sput]
        grind
      · refine ⟨fun a written => ?_, fun g written => ?_⟩ <;> simp only [sget_sput] at written ⊢ <;> grind

end

/-! Labels (11 R204, 17 R327). -/

/-- The labels of a store, put one after the other. -/
def putLabels (k : Core) (labels : List (Nat × BitVec 16)) : Core := labels.foldl (fun k l => putLabel k l.1 l.2) k

/-- The tags of the granules of a line cleared. -/
def clearLine (tags : Store Bool) (line : Nat) : Store Bool := [0, 1, 2, 3].foldl (fun t i => sput false t (4 * line + i) false) tags

theorem sget_clearLine (tags : Store Bool) (line g : Nat) :
    sget false (clearLine tags line) g = (sget false tags g && !(line == g / 4)) := by
  simp only [clearLine, List.foldl_cons, List.foldl_nil, sget_sput]
  grind

theorem putLabel_free (k : Core) (line : Nat) (v : BitVec 16) (free : sget false k.fresh.labels line = false) : putLabel k line v =
    { k with
      mem := { k.mem with labels := sput 0 k.mem.labels line v, tags := clearLine k.mem.tags line }
      fresh := { k.fresh with labels := sput false k.fresh.labels line true } } := by
  rw [putLabel, if_neg (by simp [free])]
  rfl

theorem putLabel_taken (k : Core) (line : Nat) (v : BitVec 16) (taken : sget false k.fresh.labels line = true) :
    putLabel k line v = k := by
  rw [putLabel, if_pos taken]

theorem putLabels_cons (k : Core) (x : Nat × BitVec 16) (labels : List (Nat × BitVec 16)) :
    putLabels k (x :: labels) = putLabels (putLabel k x.1 x.2) labels := rfl

theorem putLabels_frame (k : Core) (labels : List (Nat × BitVec 16)) : putLabels k labels =
    { k with
      mem := { k.mem with labels := (putLabels k labels).mem.labels, tags := (putLabels k labels).mem.tags }
      fresh := { k.fresh with labels := (putLabels k labels).fresh.labels } } := by
  induction labels generalizing k with
  | nil => rfl
  | cons x labels ih =>
    rw [putLabels_cons, ih]
    unfold putLabel
    split <;> rfl

/-- A label after those of a store: one already written at this boundary stands, else the first for its line is written. -/
theorem label_putLabels (k : Core) (labels : List (Nat × BitVec 16)) (l : Nat) : sget 0 (putLabels k labels).mem.labels l =
    if sget false k.fresh.labels l then sget 0 k.mem.labels l
    else match labels.find? (fun p => p.1 == l) with
      | some x => x.2
      | none => sget 0 k.mem.labels l := by
  induction labels generalizing k with
  | nil => simp [putLabels]
  | cons x labels ih =>
    obtain ⟨line, v⟩ := x
    rw [putLabels_cons, ih]
    cases taken : sget false k.fresh.labels line with
    | true =>
      rw [putLabel_taken _ _ _ taken]
      grind
    | false =>
      rw [putLabel_free _ _ _ taken]
      simp only [sget_sput]
      by_cases same : l = line
      · subst same
        simp [taken]
      · have other : (line == l) = false := by simpa using Ne.symm same
        simp [same, other]

theorem tags_putLabels (k : Core) (labels : List (Nat × BitVec 16)) (untagged : k.freshUntagged) (g : Nat) :
    sget false (putLabels k labels).mem.tags g = (sget false k.mem.tags g && !labels.any (fun p => p.1 == g / 4)) := by
  induction labels generalizing k with
  | nil => simp [putLabels]
  | cons x labels ih =>
    obtain ⟨line, v⟩ := x
    obtain ⟨bytes, lines⟩ := untagged
    rw [putLabels_cons, List.any_cons]
    cases taken : sget false k.fresh.labels line with
    | true =>
      rw [putLabel_taken _ _ _ taken, ih k ⟨bytes, lines⟩]
      grind
    | false =>
      rw [putLabel_free _ _ _ taken, ih _ ⟨fun a written => ?_, fun g written => ?_⟩]
      · simp only [sget_clearLine]
        grind
      · simp only [sget_clearLine] at written ⊢
        grind
      · simp only [sget_clearLine, sget_sput] at written ⊢
        grind

/-! Stores. -/

/-- A store at its boundary: its cells, then its labels, then the tags of the granules that keep all of its bytes. -/
theorem putStore_eq (k : Core) (tick : Nat) (w : StoreW) : putStore k tick w =
    (let f := k.freshNow tick
    let u := putLabels (putCells { k with fresh := f } w.cells) w.labels
    { u with mem := { u.mem with tags := (w.tagSet.filter (fun g => (List.range 16).all (fun i => sget 0 f.bits (16 * g + i) == 0) &&
      !sget false f.labels (g / 4))).foldl (fun t g => sput false t g true) u.mem.tags } }) := rfl

theorem putStore_frame (k : Core) (tick : Nat) (w : StoreW) : putStore k tick w =
    { k with
      mem := { k.mem with sp := (putStore k tick w).mem.sp, labels := (putStore k tick w).mem.labels, tags := (putStore k tick w).mem.tags }
      fresh := (putStore k tick w).fresh } := by
  rw [putStore_eq]
  dsimp only
  rw [putLabels_frame, putCells_frame]

theorem sget_setTags (tags : Store Bool) (gs : List Nat) (g : Nat) :
    sget false (gs.foldl (fun t g => sput false t g true) tags) g = (gs.contains g || sget false tags g) := by
  induction gs generalizing tags with
  | nil => rfl
  | cons x gs ih =>
    rw [List.foldl_cons, ih, sget_sput]
    grind

/-- A byte after a store: what this boundary has written stands, else the byte of the store is written. -/
theorem readByte_putStore {w : StoreW} (full : ∀ x ∈ w.cells, x.2.2 = BitVec.allOnes 8) (k : Core) (tick a : Nat) :
    readByte (putStore k tick w).mem.sp a =
      if sget 0 (k.freshNow tick).bits a ≠ 0 then readByte k.mem.sp a else ((w.byteAt a).map Prod.fst).getD (readByte k.mem.sp a) := by
  rw [putStore_eq]
  dsimp only
  rw [putLabels_frame]
  dsimp only
  rw [readByte_putCells full, StoreW.byteAt]
  dsimp only
  cases w.cells.find? (fun p => p.1 == a) <;> rfl

/-- A label after a store: what this boundary has written stands, else the label of the store is written. -/
theorem label_putStore (k : Core) (tick : Nat) (w : StoreW) (l : Nat) : sget 0 (putStore k tick w).mem.labels l =
    if sget false (k.freshNow tick).labels l then sget 0 k.mem.labels l
    else ((w.labels.find? (fun x => x.1 == l)).map Prod.snd).getD (sget 0 k.mem.labels l) := by
  rw [putStore_eq]
  dsimp only
  rw [label_putLabels, putCells_frame]
  dsimp only
  cases w.labels.find? (fun p => p.1 == l) <;> rfl

theorem label_fresh_putLabels (k : Core) (labels : List (Nat × BitVec 16)) (l : Nat) :
    sget false (putLabels k labels).fresh.labels l = (sget false k.fresh.labels l || (labels.find? (fun p => p.1 == l)).isSome) := by
  induction labels generalizing k with
  | nil => simp [putLabels]
  | cons x labels ih =>
    obtain ⟨line, v⟩ := x
    rw [putLabels_cons, ih]
    cases taken : sget false k.fresh.labels line with
    | true =>
      rw [putLabel_taken _ _ _ taken]
      grind
    | false =>
      rw [putLabel_free _ _ _ taken]
      simp only [sget_sput]
      grind

/-- What the boundary has written after a store: what it had before, and the bytes and labels of the store. -/
theorem freshNow_putStore {w : StoreW} (full : ∀ x ∈ w.cells, x.2.2 = BitVec.allOnes 8) (k : Core) (tick : Nat) :
    (∀ a, sget 0 ((putStore k tick w).freshNow tick).bits a ≠ 0 ↔ sget 0 (k.freshNow tick).bits a ≠ 0 ∨ (w.byteAt a).isSome) ∧
    ∀ l, sget false ((putStore k tick w).freshNow tick).labels l =
      (sget false (k.freshNow tick).labels l || (w.labels.find? (fun x => x.1 == l)).isSome) := by
  have at_ : (k.freshNow tick).tick = tick := by
    unfold Core.freshNow
    split
    · assumption
    · rfl
  have now : (putStore k tick w).freshNow tick = (putLabels (putCells { k with fresh := k.freshNow tick } w.cells) w.labels).fresh := by
    have same : (putStore k tick w).fresh = (putLabels (putCells { k with fresh := k.freshNow tick } w.cells) w.labels).fresh := rfl
    rw [Core.freshNow, same, if_pos]
    rw [putLabels_frame, putCells_frame]
    exact at_
  rw [now]
  refine ⟨fun a => ?_, fun l => ?_⟩
  · rw [putLabels_frame]
    dsimp only
    rw [fresh_putCells full, StoreW.byteAt, Option.isSome_map]
  · rw [label_fresh_putLabels, putCells_frame]

theorem freshNow_old {k : Core} {tick : Nat} (old : k.fresh.tick ≠ tick) : k.freshNow tick = Fresh.mk tick [] [] [] [] := if_neg old

/-- The tags after the first store of a boundary: set where it sets them, clear in every other granule it touches. -/
theorem tags_putStore {w : StoreW} (full : ∀ x ∈ w.cells, x.2.2 = BitVec.allOnes 8) {k : Core} {tick : Nat} (old : k.fresh.tick ≠ tick)
    (g : Nat) : sget false (putStore k tick w).mem.tags g = (w.tagSet.contains g || (sget false k.mem.tags g && !w.touches g)) := by
  have clean : ({ k with fresh := k.freshNow tick } : Core).freshUntagged := by simp [Core.freshUntagged, freshNow_old old]
  obtain ⟨kept, cleared⟩ := tags_putCells full { k with fresh := k.freshNow tick } clean
  rw [putStore_eq]
  dsimp only
  rw [sget_setTags, tags_putLabels _ _ kept, cleared, StoreW.touches]
  simp [freshNow_old old, Bool.and_assoc]

/-! The order of writers (10 R187). -/

/-- The writers of one issuer, the later issued first. -/
def writersOf (c : Nat) (due : List Pend) (i : Nat) : List Pend := (due.filter (fun p => p.act.issuer c == i)).reverse

theorem writeOrder_eq (c : Nat) (due : List Pend) : writeOrder c due = writersOf c due c ++
    (List.range 8).flatMap (fun r => if c - c % 8 + r = c then [] else writersOf c due (c - c % 8 + r)) :=
  congrArg (writersOf c due c ++ ·) (List.flatMap_map ..)

theorem flatMap_range_none {α : Type} {f : Nat → List α} {n : Nat} (none : ∀ i, i < n → f i = []) : (List.range n).flatMap f = [] :=
  List.flatMap_eq_nil_iff.2 fun i inside => none i (List.mem_range.1 inside)

theorem flatMap_range_one {α : Type} {f : Nat → List α} {n x : Nat} (hx : x < n) (none : ∀ i, i < n → i ≠ x → f i = []) :
    (List.range n).flatMap f = f x := by
  induction n with
  | zero => omega
  | succ n ih =>
    rw [List.range_succ, List.flatMap_append, List.flatMap_singleton]
    by_cases last : x = n
    · rw [flatMap_range_none fun i inside => none i (by omega) (by omega), last, List.nil_append]
    · rw [ih (by omega) fun i inside other => none i (by omega) other, none n (by omega) (by omega), List.append_nil]

theorem flatMap_range_two {α : Type} {f : Nat → List α} {n x y : Nat} (hx : x < y) (hy : y < n)
    (none : ∀ i, i < n → i ≠ x → i ≠ y → f i = []) : (List.range n).flatMap f = f x ++ f y := by
  induction n with
  | zero => omega
  | succ n ih =>
    rw [List.range_succ, List.flatMap_append, List.flatMap_singleton]
    by_cases last : y = n
    · rw [flatMap_range_one (by omega) fun i inside other => none i (by omega) other (by omega), last]
    · rw [ih (by omega) fun i inside hx hy => none i (by omega) hx hy, none n (by omega) (by omega) (by omega), List.append_nil]

section
variable {c : Nat} {due : List Pend}

/-- The writers of a boundary that one core of the cluster issued. -/
theorem writeOrder_one {i : Nat} (cluster : i / 8 = c / 8) (none : ∀ j, j ≠ i → writersOf c due j = []) :
    writeOrder c due = writersOf c due i := by
  rw [writeOrder_eq]
  by_cases own : i = c
  · subst own
    rw [flatMap_range_none fun r _ => ?_, List.append_nil]
    split
    · rfl
    · next other => exact none _ other
  · have place : c - c % 8 + i % 8 = i := by omega
    rw [none c (Ne.symm own), List.nil_append, flatMap_range_one (Nat.mod_lt i (by decide)) fun r _ other => ?_, place, if_neg own]
    split
    · rfl
    · exact none _ (by omega)

/-- The owner writes before a peer. -/
theorem writeOrder_own {i : Nat} (cluster : i / 8 = c / 8) (peer : i ≠ c) (none : ∀ j, j ≠ i → j ≠ c → writersOf c due j = []) :
    writeOrder c due = writersOf c due c ++ writersOf c due i := by
  have place : c - c % 8 + i % 8 = i := by omega
  rw [writeOrder_eq, flatMap_range_one (Nat.mod_lt i (by decide)) fun r _ other => ?_, place, if_neg peer]
  split
  · rfl
  · next apart => exact none _ (by omega) apart

/-- Of two peers the lower core id writes first. -/
theorem writeOrder_peers {i j : Nat} (order : i < j) (hi : i / 8 = c / 8) (hj : j / 8 = c / 8) (pi : i ≠ c) (pj : j ≠ c)
    (none : ∀ l, l ≠ i → l ≠ j → writersOf c due l = []) : writeOrder c due = writersOf c due i ++ writersOf c due j := by
  have places : c - c % 8 + i % 8 = i ∧ c - c % 8 + j % 8 = j := by omega
  rw [writeOrder_eq, none c (Ne.symm pi) (Ne.symm pj), List.nil_append,
    flatMap_range_two (x := i % 8) (y := j % 8) (by omega) (by omega) fun r _ hi hj => ?_, places.1, places.2, if_neg pi, if_neg pj]
  split
  · rfl
  · exact none _ (by omega) (by omega)
end

/-- Of two stores due together, the first being the earlier in the list, the one that writes first, and the other. -/
def firstWriter (c : Nat) (w z : StoreW) : StoreW × StoreW :=
  if z.issuer = w.issuer then (z, w) else if w.issuer = c then (w, z) else if z.issuer = c then (z, w)
  else if w.issuer < z.issuer then (w, z) else (z, w)

theorem issuer_store {p : Pend} {w : StoreW} (h : p.act = .store w) (c : Nat) : p.act.issuer c = w.issuer := by rw [h]; rfl

theorem writeOrder_store {c : Nat} {p : Pend} {w : StoreW} (h : p.act = .store w) (cluster : w.issuer / 8 = c / 8) :
    writeOrder c [p] = [p] := by
  rw [writeOrder_one cluster fun j other => ?_]
  · simp [writersOf, issuer_store h]
  · simp [writersOf, issuer_store h, Ne.symm other]

theorem writeOrder_stores {c : Nat} {p q : Pend} {w z : StoreW} (hp : p.act = .store w) (hq : q.act = .store z)
    (cw : w.issuer / 8 = c / 8) (cz : z.issuer / 8 = c / 8) : ∃ a b, writeOrder c [p, q] = [a, b] ∧
      a.act = .store (firstWriter c w z).1 ∧ b.act = .store (firstWriter c w z).2 := by
  have writers (i : Nat) : writersOf c [p, q] i =
      (if z.issuer = i then [q] else []) ++ (if w.issuer = i then [p] else []) := by
    simp only [writersOf, List.filter_cons, List.filter_nil, issuer_store hp, issuer_store hq, beq_iff_eq]
    split_ifs <;> rfl
  unfold firstWriter
  split_ifs with same own own' lower
  · refine ⟨q, p, ?_, hq, hp⟩
    rw [writeOrder_one cw fun j other => ?_, writers, if_pos same, if_pos rfl]
    · rfl
    · rw [writers, if_neg (by omega), if_neg (by omega)]; rfl
  · refine ⟨p, q, ?_, hp, hq⟩
    rw [writeOrder_own cz (by omega) fun j hz hc => ?_, writers, writers, if_neg (by omega), if_pos own, if_pos rfl, if_neg (by omega)]
    · rfl
    · rw [writers, if_neg (by omega), if_neg (by omega)]; rfl
  · refine ⟨q, p, ?_, hq, hp⟩
    rw [writeOrder_own cw (by omega) fun j hw hc => ?_, writers, writers, if_pos own', if_neg own, if_neg (by omega), if_pos rfl]
    · rfl
    · rw [writers, if_neg (by omega), if_neg (by omega)]; rfl
  · refine ⟨p, q, ?_, hp, hq⟩
    rw [writeOrder_peers lower cw cz own own' fun j hw hz => ?_, writers, writers, if_neg same, if_pos rfl, if_pos rfl, if_neg (by omega)]
    · rfl
    · rw [writers, if_neg (by omega), if_neg (by omega)]; rfl
  · refine ⟨q, p, ?_, hq, hp⟩
    rw [writeOrder_peers (by omega) cz cw own' own fun j hz hw => ?_, writers, writers, if_pos rfl, if_neg (by omega), if_neg (by omega),
      if_pos rfl]
    · rfl
    · rw [writers, if_neg (by omega), if_neg (by omega)]; rfl

/-! The event (10 R182). -/

theorem performWrite_store {p : Pend} {w : StoreW} (h : p.act = .store w) (s : State) (c : Nat) :
    performWrite s c p = s.modCore c (fun k => putStore k s.tick w) := by
  rw [performWrite, h]

/-- The timed writes of a boundary, in their order. -/
theorem exec_timedWrites {s : State} {c : Nat} {due order : List Pend} (h : (s.core c).dueActs s.tick (fun r => r == 8) = due)
    (o : writeOrder c due = order) : exec (.timedAccessPerform c false) s =
      .next (order.foldl (fun s p => performWrite s c p) (s.modCore c (fun k => k.dropActs s.tick (fun r => r == 8)))) := by
  have run : exec (.timedAccessPerform c false) s = execTimedAccessPerform c false s := rfl
  rw [run, execTimedAccessPerform]
  simp only [Bool.false_eq_true, if_false, h, o]

/-! Bytes of a value (11 R201). -/

theorem toBytes_eq_map (n v : Nat) : toBytes n v = (List.range n).map (fun i => BitVec.ofNat 8 (v / 256 ^ i)) := by
  induction n generalizing v with
  | zero => rfl
  | succ n ih =>
    rw [toBytes, ih, List.range_succ_eq_map, List.map_cons, List.map_map, pow_zero, Nat.div_one]
    congr 1
    refine List.map_congr_left fun i _ => ?_
    rw [Function.comp_apply, Nat.div_div_eq_div_mul, Nat.succ_eq_add_one, Nat.pow_succ']

/-- The places of a list of bytes. -/
theorem zipIdx_map_range {α : Type} (f : Nat → α) (n : Nat) : ((List.range n).map f).zipIdx = (List.range n).map (fun i => (f i, i)) := by
  refine List.ext_getElem (by simp) fun i _ _ => by simp

theorem bytesCells_eq_map (a n v : Nat) :
    bytesCells a n v = (List.range n).map (fun i => (a + i, BitVec.ofNat 8 (v / 256 ^ i), BitVec.allOnes 8)) := by
  rw [bytesCells, toBytes_eq_map, zipIdx_map_range, List.map_map]
  rfl

theorem find?_run {α : Type} (a n b : Nat) (f : Nat → α) :
    ((List.range n).map (fun i => (a + i, f i))).find? (fun p => p.1 == b) = if a ≤ b ∧ b < a + n then some (b, f (b - a)) else none := by
  induction n with
  | zero => exact (if_neg (by omega)).symm
  | succ n ih =>
    rw [List.range_succ, List.map_append, List.find?_append, ih]
    by_cases last : a + n = b
    · subst last
      simp
    · grind

/-- What a store leaves in a core where nothing has been written at its boundary yet. -/
theorem putStore_alone {k : Core} {tick : Nat} {w : StoreW} (old : k.fresh.tick ≠ tick) (full : ∀ x ∈ w.cells, x.2.2 = BitVec.allOnes 8) :
    let t := putStore k tick w
    (∀ a, w.byteAt a = none → readByte t.mem.sp a = readByte k.mem.sp a) ∧
    (∀ a x, w.byteAt a = some x → readByte t.mem.sp a = x.1) ∧
    (∀ l, sget 0 t.mem.labels l = (match w.labels.find? (fun x => x.1 == l) with
      | some x => x.2
      | none => sget 0 k.mem.labels l)) ∧
    (∀ g, sget false t.mem.tags g = (w.tagSet.contains g || (sget false k.mem.tags g && !w.touches g))) := by
  refine ⟨fun a out => ?_, fun a x is => ?_, fun l => ?_, tags_putStore full old⟩
  · simp [readByte_putStore full, freshNow_old old, out]
  · simp [readByte_putStore full, freshNow_old old, is]
  · rw [label_putStore, freshNow_old old, sget_nil, if_neg (by decide)]
    cases w.labels.find? (fun x => x.1 == l) <;> rfl

/-- What two stores leave in a core where nothing has been written at their boundary yet: what the first writes stands. -/
theorem putStore_twice {k : Core} {tick : Nat} {w z : StoreW} (old : k.fresh.tick ≠ tick)
    (fullW : ∀ x ∈ w.cells, x.2.2 = BitVec.allOnes 8) (fullZ : ∀ x ∈ z.cells, x.2.2 = BitVec.allOnes 8) :
    let t := putStore (putStore k tick w) tick z
    (∀ a x, w.byteAt a = some x → readByte t.mem.sp a = x.1) ∧
    (∀ a x, w.byteAt a = none → z.byteAt a = some x → readByte t.mem.sp a = x.1) ∧
    (∀ a, w.byteAt a = none → z.byteAt a = none → readByte t.mem.sp a = readByte k.mem.sp a) ∧
    (∀ l x, w.labels.find? (fun y => y.1 == l) = some x → sget 0 t.mem.labels l = x.2) ∧
    (∀ l x, w.labels.find? (fun y => y.1 == l) = none → z.labels.find? (fun y => y.1 == l) = some x →
      sget 0 t.mem.labels l = x.2) := by
  intro t
  obtain ⟨none, one, label, -⟩ := putStore_alone old fullW
  obtain ⟨bytes, labels⟩ := freshNow_putStore fullW k tick
  simp only [freshNow_old old, sget_nil, ne_eq, not_true_eq_false, false_or, Bool.false_or] at bytes labels
  have byte (a : Nat) := readByte_putStore fullZ (putStore k tick w) tick a
  have line (l : Nat) := label_putStore (putStore k tick w) tick z l
  simp only [bytes, labels] at byte line
  refine ⟨fun a x is => ?_, fun a x out is => ?_, fun a out out' => ?_, fun l x is => ?_, fun l x out is => ?_⟩
  · rw [byte, if_pos (by simp [is]), one a x is]
  · rw [byte, if_neg (by simp [out]), is]
    rfl
  · rw [byte, if_neg (by simp [out]), out']
    exact none a out
  · rw [line, if_pos (by simp [is]), label, is]
  · rw [line, if_neg (by simp [out]), is]
    rfl

theorem performWrite_encode {p : Pend} {j : EncJob} (h : p.act = .encode j) (s : State) (c : Nat) :
    performWrite s c p = (let o := encodeOut j (s.core j.issuer).gens
      (s.modCore j.issuer (fun k => { k with gens := o.gens }.setStat s.tick o.st)).modCore c
        (fun k => putStore k s.tick (encodeStore j o))) := by
  rw [performWrite, h]

/-- Settles O39: alone at its boundary a store finds no byte written; of two the second keeps off what the first wrote. -/
theorem storePerform : Obligations.StorePerform := by
  unfold Obligations.StorePerform
  refine ⟨fun s c p w due is old cluster full => ?alone, fun a n v i w cells => ?bytes, fun s c p q w z due hw hz old cw cz full => ?two,
    fun s c p j is peer => ?encode⟩
  case alone =>
    rw [exec_timedWrites due (writeOrder_store is cluster)]
    refine ⟨_, rfl, ?_⟩
    simp only [List.foldl_cons, List.foldl_nil, performWrite_store is, State.modCore_tick]
    refine ⟨rfl, fun d other => ?_, ?_⟩
    · rw [State.core_modCore_other _ _ _ other, State.core_modCore_other _ _ _ other]
    · rw [State.core_modCore_same, State.core_modCore_same]
      have frame := putStore_frame ((s.core c).dropActs s.tick (fun r => r == 8)) s.tick w
      exact ⟨by rw [frame]; rfl, by rw [frame]; rfl, by rw [frame]; rfl, by rw [frame]; rfl, putStore_alone old full⟩
  case bytes =>
    have byte (b : Nat) : w.byteAt b = if a ≤ b ∧ b < a + n then some (BitVec.ofNat 8 (v / 256 ^ (b - a)), BitVec.allOnes 8) else none := by
      rw [StoreW.byteAt, cells, bytesCells_eq_map, find?_run a n b fun i => (BitVec.ofNat 8 (v / 256 ^ i), BitVec.allOnes 8)]
      split <;> rfl
    refine ⟨fun inside => ?_, fun b outside => ?_, fun x mem => ?_⟩
    · rw [byte, if_pos (by omega), Nat.add_sub_cancel_left]
    · rw [byte, if_neg (by omega)]
    · rw [cells, bytesCells_eq_map] at mem
      obtain ⟨i, -, rfl⟩ := List.mem_map.1 mem
      rfl
  case two =>
    intro first
    obtain ⟨a, b, order, ha, hb⟩ := writeOrder_stores hw hz cw cz
    obtain ⟨fullW, fullZ⟩ := List.forall_mem_append.1 full
    have both : (∀ x ∈ first.1.cells, x.2.2 = BitVec.allOnes 8) ∧ ∀ x ∈ first.2.cells, x.2.2 = BitVec.allOnes 8 := by
      simp only [first]
      split_ifs <;> exact ⟨by assumption, by assumption⟩
    rw [exec_timedWrites due order]
    refine ⟨_, rfl, ?_⟩
    simp only [List.foldl_cons, List.foldl_nil, performWrite_store ha, performWrite_store hb, State.modCore_tick, State.core_modCore_same]
    exact putStore_twice (k := (s.core c).dropActs s.tick (fun r => r == 8)) old both.1 both.2
  case encode =>
    intro o u
    have run : u = _ := performWrite_encode is s c
    rw [run]
    refine ⟨rfl, ?_, ?_, ?_, fun d hc hj => ?_⟩
    · rw [State.core_modCore_other _ _ _ peer, State.core_modCore_same]
      rfl
    · rw [State.core_modCore_other _ _ _ peer, State.core_modCore_same]
      rfl
    · rw [State.core_modCore_same, State.core_modCore_other _ _ _ (Ne.symm peer)]
    · rw [State.core_modCore_other _ _ _ hc, State.core_modCore_other _ _ _ hj]

end Sys2Proof.Machine
end

section
/-! O23. Rounding in lanes (05 R99-R101, 08 R161): what each lane delivers, with the draw of its own generator. -/

namespace Sys2Proof.Machine

/-! Draws. -/

/-- The draw of a lane depends on the state of its own generator alone. -/
theorem drawRnd_congr {g u : Gens} {i : Nat} (same : g.cur i = u.cur i) (mode : Nat) : (drawRnd g mode i).1 = (drawRnd u mode i).1 := by
  unfold drawRnd
  split
  · rfl
  · rfl
  · rw [same]

/-- A draw advances no other generator. -/
theorem cur_drawRnd_other (g : Gens) (mode : Nat) {i j : Nat} (other : j ≠ i) : (drawRnd g mode i).2.cur j = g.cur j := by
  unfold drawRnd
  split
  · rfl
  · rfl
  · simp only [Gens.cur, sget_sput_other _ _ _ _ other]

section
variable (t : ElTy) (mode : Nat) (g : Gens) (i : Nat) (vs : List (Option (Val × Stat)))

theorem length_roundLanes : (roundLanes t mode g i vs).1.length = vs.length := by
  induction vs generalizing g i with
  | nil => rfl
  | cons v vs ih => cases v <;> simp [roundLanes, ih]

/-- The lanes draw no generator but their own. -/
theorem cur_roundLanes_other {j : Nat} (other : j < i ∨ i + vs.length ≤ j) : (roundLanes t mode g i vs).2.2.cur j = g.cur j := by
  induction vs generalizing g i with
  | nil => rfl
  | cons v vs ih =>
    rw [List.length_cons] at other
    cases v with
    | none => exact ih g (i + 1) (by omega)
    | some v => exact (ih _ (i + 1) (by omega)).trans (cur_drawRnd_other g mode (by omega))

/-- A lane with a value delivers it rounded with the draw of its own generator. -/
theorem getD_roundLanes {n : Nat} {x : Val × Stat} (here : vs[n]? = some (some x)) :
    (roundLanes t mode g i vs).1.getD n 0 = (roundTo t (drawRnd g mode (i + n)).1 x.1).1 := by
  induction vs generalizing g i n with
  | nil => cases here
  | cons v vs ih =>
    cases n with
    | zero =>
      obtain rfl : v = some x := Option.some.inj here
      rfl
    | succ n =>
      rw [← Nat.add_assoc, Nat.add_right_comm]
      cases v with
      | none => exact ih g (i + 1) here
      | some v => exact (ih _ (i + 1) here).trans (by rw [drawRnd_congr (cur_drawRnd_other g mode (by omega))])
end

/-! Conversions (08 R161). -/

/-- A lane with a value is written with it, rounded. -/
theorem laneOf_convOut (td : ElTy) (vs : List (Option (Val × Stat))) (mode : Nat) (g : Gens) {i : Nat} {x : Val × Stat}
    (inside : i < 8192 / td.cont) (here : vs[i]? = some (some x)) :
    laneOf (convOut td vs mode g).row td.cont i = (roundTo td (drawRnd g mode i).1 x.1).1 % 2 ^ td.cont := by
  simp only [convOut, laneOf_rowOf _ (lane_inside inside), getD_roundLanes _ _ _ _ _ here, Nat.zero_add]

/-- The bits of a lane. -/
theorem laneBits_lane {c : Nat} (sel : List Bool) {i b : Nat} (inside : i < 8192 / c) (bit : b < c) :
    (laneBits c sel).getLsbD (c * i + b) = sel.getD i false := by
  have row := lane_inside inside
  rw [getLsbD_laneBits (by omega) _ (by omega), Nat.mul_add_div (by omega), Nat.div_eq_of_lt bit, Nat.add_zero]

/-- A lane is written where it has a value. -/
theorem bits_convOut (td : ElTy) (vs : List (Option (Val × Stat))) (mode : Nat) (g : Gens) {i b : Nat}
    (inside : i < 8192 / td.cont) (bit : b < td.cont) :
    (convOut td vs mode g).bits.getLsbD (td.cont * i + b) = (vs.getD i none).isSome := by
  rw [convOut, laneBits_lane _ inside bit, List.getD_eq_getElem?_getD, List.getElem?_map, List.getD_eq_getElem?_getD]
  cases vs[i]? <;> rfl

end Sys2Proof.Machine
end

section
/-! O23. Permutations and conversions (08 R159-R162), lane by lane. -/

namespace Sys2Proof.Machine

/-! Permutations. -/

section
variable {t : ElTy} (w : WideIn) (g : Gens) {i : Nat} (inside : i < 8192 / t.cont)
include inside

theorem laneOf_vmPermOut :
    laneOf (vmPermOut t w g).row t.cont i = laneOf w.a t.cont (laneOf w.b t.cont i % (8192 / t.cont)) := by
  rw [vmPermOut, laneOut, rowCodes_eq_map, List.map_map, laneOf_rowOf_map_range _ inside]
  exact Nat.mod_eq_of_lt (laneOf_lt ..)

theorem laneOf_vmShufOut : laneOf (vmShufOut t w g).row t.cont i =
    (let p := shufSrc (bits w.sc 3 0) (bits w.sc 15 4) (8192 / t.cont) i; laneOf (if p.1 then w.b else w.a) t.cont p.2) := by
  rw [vmShufOut, laneOut]
  dsimp only [ElTy.lanes]
  rw [laneOf_rowOf_map_range _ inside]
  exact Nat.mod_eq_of_lt (laneOf_lt ..)

/-- A lane is written where the mask selects it. -/
theorem bits_laneOut (group : 0 < 2048 / (8192 / t.cont)) (codes : List Nat) (st : Stat) {b : Nat} (bit : b < t.cont) :
    (laneOut t.cont w codes st g).bits.getLsbD (t.cont * i + b) = selLane w.e (8192 / t.cont) i := by
  rw [laneOut, laneBits_lane _ inside bit, maskLanes_eq_map _ group, getD_map_range _ _ inside]

end

/-- The second half of a row under patterns 2 and 3. -/
theorem half_index {n i : Nat} (low : n / 2 ≤ i) (even : n % 2 = 0) (inside : i < n) : i % (n / 2) = i - n / 2 := by
  rw [Nat.mod_eq_sub_mod low, Nat.mod_eq_of_lt (by omega)]

/-- The lane that a pattern names (08 R160). -/
theorem shuf_lane {t : ElTy} (w : WideIn) (g : Gens) {i : Nat} (inside : i < 8192 / t.cont) (even : 8192 / t.cont % 2 = 0) :
    let n := 8192 / t.cont
    let a := laneOf w.a t.cont
    let b := laneOf w.b t.cont
    let k := bits w.sc 15 4
    laneOf (vmShufOut t w g).row t.cont i = (match bits w.sc 3 0 with
      | 0 => if i % 2 = 0 then a (i / 2) else b (i / 2)
      | 1 => if i % 2 = 0 then a (n / 2 + i / 2) else b (n / 2 + i / 2)
      | 2 => if i < n / 2 then a (2 * i) else b (2 * (i - n / 2))
      | 3 => if i < n / 2 then a (2 * i + 1) else b (2 * (i - n / 2) + 1)
      | 4 => a (n - 1 - i)
      | 5 => a ((i + k) % n)
      | _ => a k) := by
  intro n a b k
  have odd : (i % 2 == 1) = !decide (i % 2 = 0) := by grind
  have half : (if decide (n / 2 ≤ i) then w.b else w.a) = if i < n / 2 then w.a else w.b := by grind
  have index : i % (n / 2) = if i < n / 2 then i else i - n / 2 := by
    split
    · next low => exact Nat.mod_eq_of_lt low
    · next high => exact half_index (by omega) even inside
  rw [laneOf_vmShufOut w g inside]
  generalize bits w.sc 3 0 = pat
  rcases pat with _ | _ | _ | _ | _ | _ | pat
  case zero | succ.zero =>
    simp only [shufSrc, odd]
    by_cases first : i % 2 = 0 <;> simp [first] <;> rfl
  case succ.succ.zero | succ.succ.succ.zero =>
    simp only [shufSrc]
    rw [half, index]
    split <;> rfl
  all_goals rfl

/-! Conversions. -/

section
variable {td : ElTy} (f : Nat → Option (Val × Stat)) (mode : Nat) (g : Gens) {j : Nat} (inside : j < 8192 / td.cont)
include inside

theorem convOut_some {v : Val} {st : Stat} (here : f j = some (v, st)) :
    laneOf (convOut td ((List.range td.lanes).map f) mode g).row td.cont j = (roundTo td (drawRnd g mode j).1 v).1 % 2 ^ td.cont ∧
      ∀ b, b < td.cont → (convOut td ((List.range td.lanes).map f) mode g).bits.getLsbD (td.cont * j + b) = true := by
  refine ⟨laneOf_convOut td _ mode g (x := (v, st)) inside ?_, fun b bit => ?_⟩
  · simp [ElTy.lanes, inside, here]
  · rw [bits_convOut _ _ _ _ inside bit, ElTy.lanes, getD_map_range _ _ inside, here, Option.isSome_some]

theorem convOut_none (here : f j = none) :
    ∀ b, b < td.cont → (convOut td ((List.range td.lanes).map f) mode g).bits.getLsbD (td.cont * j + b) = false := by
  intro b bit
  rw [bits_convOut _ _ _ _ inside bit, ElTy.lanes, getD_map_range _ _ inside, here, Option.isSome_none]

end

theorem convLane_selected {ts : ElTy} {e : Mask} {n i : Nat} (r : Row) (j : Nat) (picked : selLane e n i = true) :
    convLane ts e n i r j = some (elVal ts (laneOf r ts.cont j), 0) := if_pos picked

theorem convLane_excluded {ts : ElTy} {e : Mask} {n i : Nat} (r : Row) (j : Nat) (not : selLane e n i = false) :
    convLane ts e n i r j = none := if_neg (by simp [not])

/-! Rounding to an integer type (05 R94-R96). -/

/-- The count of quanta that a mode takes: the nearest, ties to even; the floor; or the floor after the draw is added. -/
theorem roundQuanta_spec (mode : Rnd) (x : Nat) {d : Nat} (pos : 0 < d) : let k := roundQuanta mode x d
    (mode = .rne → 2 * x ≤ (2 * k + 1) * d ∧ 2 * k * d ≤ 2 * x + d ∧
      ((2 * x = (2 * k + 1) * d ∨ 2 * k * d = 2 * x + d) → k % 2 = 0)) ∧
    (mode = .rtz → k * d ≤ x ∧ x < (k + 1) * d) ∧ (∀ r, mode = .sto r → k = (x * 2 ^ 16 / d + r) / 2 ^ 16) := by
  have split := Nat.div_add_mod x d
  have rest := Nat.mod_lt x pos
  refine ⟨?_, ?_, ?_⟩
  · rintro rfl
    have twice (k : Nat) : (2 * k + 1) * d = 2 * (d * k) + d ∧ 2 * k * d = 2 * (d * k) := by constructor <;> ring
    have up : d * (x / d + 1) = d * (x / d) + d := Nat.mul_succ _ _
    simp only [roundQuanta, twice]
    split_ifs <;> omega
  · rintro rfl
    exact ⟨Nat.div_mul_le_self x d, Nat.lt_mul_of_div_lt (Nat.lt_succ_self _) pos⟩
  · rintro r rfl
    rfl

theorem intMin_le_intMax_all (sg : Bool) (n : Nat) : intMin sg n ≤ intMax sg n := by
  have whole := Nat.two_pow_pos n
  have half := Nat.two_pow_pos (n - 1)
  cases sg with
  | false => simp only [intMin, intMax, Bool.false_eq_true, if_false]; omega
  | true => simp only [intMin, intMax, if_true]; omega

/-- A finite value rounded to an integer type: its count of units, clamped. -/
theorem roundTo_int_fin (sg : Bool) (n : Nat) (mode : Rnd) (s : Bool) {num : Nat} (den : Nat) (e : Int) (pos : 0 < num) :
    (roundTo (.int sg n) mode (.fin s num den e)).1 = (max (intMin sg n) (min (intMax sg n)
      (if s then -((roundQuanta mode (num * pow2 e) (den * pow2 (-e)) : Nat) : Int)
        else (roundQuanta mode (num * pow2 e) (den * pow2 (-e)) : Nat))) % (2 ^ n : Nat)).toNat := by
  show (roundInt sg n mode (.fin s num den e)).1 = _
  rw [roundInt, if_neg (by omega)]
  simp only [quantaOf, Int.sub_zero, Int.zero_sub, clampInt_fst _ _ _ (intMin_le_intMax_all sg n), wrapN]

end Sys2Proof.Machine
end

section
/-! O23. What the moves of the vm unit ask for (08 R156-R162, R169-R171): one action, after the last uses of their registers. -/

namespace Sys2Proof.Machine

/-! What leaves every list of actions alone. -/

/-- From s to t no core has anything more to come, and nothing outside the cores differs. -/
def Quiet (s t : State) : Prop :=
  t = { s with cores := t.cores } ∧ ∀ d, (t.core d).pend = (s.core d).pend ∧ (t.core d).seq = (s.core d).seq

theorem Quiet.refl (s : State) : Quiet s s := ⟨rfl, fun _ => ⟨rfl, rfl⟩⟩

theorem Quiet.after {s t : State} (q : Quiet s t) (c n : Nat) : t.after c n = s.after c n := by
  rw [q.1]
  rfl

theorem Quiet.tick {s t : State} (q : Quiet s t) : t.tick = s.tick := by
  rw [q.1]

theorem Quiet.modCore {s t : State} (q : Quiet s t) (c : Nat) {f : Core → Core} (h : ∀ k, (f k).pend = k.pend ∧ (f k).seq = k.seq) :
    Quiet s (t.modCore c f) := by
  obtain ⟨outside, lists⟩ := q
  refine ⟨?_, fun d => ?_⟩
  · rw [outside]
    rfl
  · rw [State.core_modCore]
    split
    · next same =>
      obtain ⟨pend, seq⟩ := h (t.core c)
      rw [pend, seq, same]
      exact lists c
    · exact lists d

theorem lastUse_pend (k : Core) (e : Ext) (d : Option Nat) (a b : Bool) :
    (k.lastUse e d a b).pend = k.pend ∧ (k.lastUse e d a b).seq = k.seq := by
  rw [lastUse_held]
  exact ⟨rfl, rfl⟩

theorem quiet_vmLast (s : State) (c : Nat) (e : Ext) (d a b : Bool) : Quiet s (vmLast s c e d a b) :=
  (Quiet.refl s).modCore c fun k => lastUse_pend k ..

theorem Quiet.busyFor {s t : State} (q : Quiet s t) (c r n : Nat) : Quiet s (t.busyFor c r n) := q.modCore c fun _ => ⟨rfl, rfl⟩

/-- One action at a place, after what schedules nothing. -/
theorem Quiet.asksAt {s t : State} (q : Quiet s t) (owner due : Nat) (a : Act) : AsksAt s (t.scheduleAt owner due a) owner due a := by
  obtain ⟨pend, seq⟩ := q.2 owner
  rw [AsksAt, State.scheduleAt, State.core_modCore_same, Core.schedule, pend, seq, q.tick]

theorem Quiet.asks {s t : State} (q : Quiet s t) (c n : Nat) (a : Act) : Asks s (t.schedule c n a) c n a := by
  rw [Asks, ← q.after c n]
  exact q.asksAt c (t.after c n) a

theorem asks_schedule (s : State) (c n : Nat) (a : Act) : Asks s (s.schedule c n a) c n a := (Quiet.refl s).asks c n a

/-! The operations. -/

theorem vmMovEff_asks (e : Ext) (s : State) (c : Nat) (motor : Bool) (v : Word) : let k := s.core c
    Asks s (vmMovEff e s c motor v) c 2
      (if movDir v = 0 then .vrow (dPhys k e) (k.vreg e.a.toNat) (k.laneSel e)
       else if movDir v = 1 then .vrow (dPhys k e) (sget 0 k.regs.m (movRow v)) (k.laneSel e)
       else .mrow (movRow v) (k.vreg e.a.toNat) (k.laneSel e)) := by
  dsimp only
  unfold vmMovEff
  dsimp only
  split
  · next dir => rw [if_pos dir]; exact (quiet_vmLast ..).asks ..
  · next dir => rw [dir]; exact asks_schedule ..
  · next toV toM => rw [if_neg toV, if_neg toM]; exact ((quiet_vmLast ..).busyFor ..).asks ..

theorem vmLaneEff_asks (e : Ext) (s : State) (c : Nat) (motor : Bool) (v : Word) : let k := s.core c
    (v.getLsbD 11 = false → Asks s (vmLaneEff e s c motor v) c 2
      (.out (outPort 5 0) (laneWord (k.extTy e) (laneOf (k.vreg e.a.toNat) (k.extTy e).cont (bits v 10 0))))) ∧
    (v.getLsbD 11 = true → Asks s (vmLaneEff e s c motor v) c 2 (.vrow (dPhys k e)
      (BitVec.ofNat 8192 ((k.inp 5 1).toNat % 2 ^ (k.extTy e).cont * 2 ^ ((k.extTy e).cont * bits v 10 0)))
      (BitVec.ofNat 8192 ((2 ^ (k.extTy e).cont - 1) * 2 ^ ((k.extTy e).cont * bits v 10 0))))) := by
  unfold vmLaneEff
  refine ⟨fun read => ?_, fun write => ?_⟩
  · simp only [read, Bool.false_eq_true, if_false]
    exact (quiet_vmLast ..).asks ..
  · simp only [write, if_true]
    exact asks_schedule ..

/-- Settles O23: each operation schedules its one action; the lanes of its result are taken one by one, and a lane that is rounded draws
from no generator but its own. -/
theorem vectorMoveAsks : Obligations.VectorMoveAsks := by
  unfold Obligations.VectorMoveAsks
  refine ⟨fun s h e => ?asks, fun t w g i width inside => ?permutes, fun td ts w g j wd ws inside => ?converts,
    fun sg n mode => ?rounds⟩
  case asks =>
    intro k v d
    exact ⟨fun a => ⟨_, slotOp_accepts h 0x244 (some e) (vmMovEff e) s a, vmMovEff_asks ..⟩,
      fun a => ⟨_, slotOp_accepts h 0x245 (some e) (vmBcastEff e) s a, asks_schedule ..⟩,
      fun a => ⟨_, slotOp_accepts h 0x246 (some e) (vmLaneEff e) s a, vmLaneEff_asks ..⟩,
      fun a => ⟨_, slotOp_accepts h 0x247 (some e) (vmPermEff e) s a, (quiet_vmLast ..).asks ..⟩,
      fun a => ⟨_, slotOp_accepts h 0x248 (some e) (vmShufEff e) s a, (quiet_vmLast ..).asks ..⟩,
      fun a => ⟨_, slotOp_accepts h 0x249 (some e) (vmConvEff .cvt e) s a, (quiet_vmLast ..).asks ..⟩,
      fun a => ⟨_, slotOp_accepts h 0x24A (some e) (vmConvEff .pack e) s a, (quiet_vmLast ..).asks ..⟩,
      fun a => ⟨_, slotOp_accepts h 0x24B (some e) (vmConvEff .unpack e) s a, (quiet_vmLast ..).asks ..⟩,
      fun a => ⟨_, slotOp_accepts h 0x250 (some e) (maskEff (fun a b => a &&& b) e) s a, asks_schedule ..⟩,
      fun a => ⟨_, slotOp_accepts h 0x251 (some e) (maskEff (fun a b => a ||| b) e) s a, asks_schedule ..⟩,
      fun a => ⟨_, slotOp_accepts h 0x252 (some e) (maskEff (fun a _ => ~~~a) e) s a, asks_schedule ..⟩,
      fun a => ⟨_, slotOp_accepts h 0x253 (some e) (mcountEff e) s a, asks_schedule ..⟩,
      fun a => ⟨_, slotOp_accepts h 0x254 (some e) (lendEff true) s a, asks_schedule ..⟩,
      fun a => ⟨_, slotOp_accepts h 0x255 (some e) (lendEff false) s a, asks_schedule ..⟩,
      fun a => ⟨_, slotOp_accepts h 0x256 (some e) (setfmtEff e) s a, bits_low v 31 ▸ asks_schedule ..⟩⟩
  case permutes =>
    intro n a b k
    have group : 0 < 2048 / (8192 / t.cont) := by rcases width with w | w | w | w <;> rw [w] <;> decide
    have even : 8192 / t.cont % 2 = 0 := by rcases width with w | w | w | w <;> rw [w]
    exact ⟨laneOf_vmPermOut w g inside, shuf_lane w g inside even, fun j bit =>
      ⟨bits_laneOut w g inside group _ _ bit, bits_laneOut w g inside group _ _ bit⟩⟩
  case converts =>
    intro nd ns p conv gets keeps
    refine ⟨fun _ => ⟨fun picked => ?_, fun not => ?_⟩, fun _ => ⟨fun first picked => ?_, fun second picked => ?_, fun none => ?_⟩,
      fun _ => ⟨fun picked => ?_, fun not => ?_⟩⟩
    · exact convOut_some _ w.mode g inside (convLane_selected _ _ picked)
    · exact convOut_none _ w.mode g inside (convLane_excluded _ _ not)
    · exact convOut_some _ w.mode g inside ((if_pos first).trans (convLane_selected _ _ picked))
    · exact convOut_some _ w.mode g inside ((if_neg fun first => absurd (first.symm.trans second) (by omega)).trans
        ((if_pos second).trans (convLane_selected _ _ picked)))
    · refine convOut_none _ w.mode g inside ?_
      have excluded (h : j / ns = 2 * p ∨ j / ns = 2 * p + 1) : selLane w.e ns (j % ns) = false := by grind
      split
      · next first => exact convLane_excluded _ _ (excluded (.inl first))
      · split
        · next second => exact convLane_excluded _ _ (excluded (.inr second))
        · rfl
    · exact convOut_some _ w.mode g inside (convLane_selected _ _ picked)
    · exact convOut_none _ w.mode g inside (convLane_excluded _ _ not)
  case rounds =>
    refine ⟨elVal_int sg n, rfl, fun s => rfl, fun s d e => rfl, fun s num den e hn hd => ?_⟩
    intro x d
    obtain ⟨rne, rtz, sto⟩ := roundQuanta_spec mode x (d := d) (Nat.mul_pos hd (Nat.two_pow_pos _))
    exact ⟨_, rne, rtz, sto, roundTo_int_fin sg n mode s den e hn⟩

end Sys2Proof.Machine
end

section
/-! O24. Lanes in memory (08 R154, R155, R168): which lanes a mask selects, their places, and the bytes of a lane. -/

namespace Sys2Proof.Machine

/-! Widths (04 R73). -/

theorem Fmt.cont_width (f : Fmt) : f.cont = 4 ∨ f.cont = 8 ∨ f.cont = 16 ∨ f.cont = 32 := by
  unfold Fmt.cont
  split_ifs <;> simp

theorem cont_extTy (k : Core) (e : Ext) :
    (k.extTy e).cont = 4 ∨ (k.extTy e).cont = 8 ∨ (k.extTy e).cont = 16 ∨ (k.extTy e).cont = 32 := by
  unfold Core.extTy Core.ty typeOf
  split_ifs
  · unfold fixedTy
    split <;> simp [ElTy.cont, Fmt.cont_width]
  · exact Fmt.cont_width _
  · simp [ElTy.cont]
  · simp [ElTy.cont]

theorem group_of_width {c : Nat} (width : c = 4 ∨ c = 8 ∨ c = 16 ∨ c = 32) : 0 < 2048 / (8192 / c) := by
  rcases width with rfl | rfl | rfl | rfl <;> decide

/-! Selected lanes (07 R131). -/

/-- The lanes that the mask of an operation selects, in ascending order. -/
def pickedLanes (k : Core) (e : Ext) : List Nat :=
  (List.range (8192 / (k.extTy e).cont)).filter (fun j => selLane (k.mask e.mask.toNat) (8192 / (k.extTy e).cont) j)

theorem maskLanes_lanes (k : Core) (e : Ext) : maskLanes (k.mask e.mask.toNat) (k.extTy e).lanes =
    (List.range (8192 / (k.extTy e).cont)).map (selLane (k.mask e.mask.toNat) (8192 / (k.extTy e).cont)) :=
  maskLanes_eq_map _ (group_of_width (cont_extTy k e))

theorem filterMap_ite {α β : Type} (p : α → Bool) (f : α → β) (l : List α) :
    l.filterMap (fun x => if p x then some (f x) else none) = (l.filter p).map f := by
  induction l with
  | nil => rfl
  | cons x l ih => cases h : p x <;> simp [h, ih]

theorem flatMap_ite {α β : Type} (p : α → Bool) (f : α → List β) (l : List α) :
    l.flatMap (fun x => if p x then f x else []) = (l.filter p).flatMap f := by
  induction l with
  | nil => rfl
  | cons x l ih => cases h : p x <;> simp [h, ih]

/-- The offset of a lane (08 R155). -/
def laneOffset (k : Core) (e : Ext) (v : Word) (j : Nat) : Nat :=
  v.toNat + laneOf (k.vreg e.b.toNat) (k.extTy e).cont j * ((k.extTy e).cont / 8)

theorem zip_map_self {α β : Type} (f : α → β) (l : List α) : l.zip (l.map f) = l.map (fun x => (x, f x)) := by
  induction l with
  | nil => rfl
  | cons x l ih => rw [List.map_cons, List.zip_cons_cons, ih, List.map_cons]

theorem laneOffsets_eq_map (k : Core) (e : Ext) (v : Word) :
    k.laneOffsets e v = (pickedLanes k e).map (fun j => (j, laneOffset k e v j)) := by
  rw [Core.laneOffsets, maskLanes_lanes, rowCodes_eq_map, List.zip_map', ElTy.lanes, zip_map_self, List.filterMap_map]
  exact filterMap_ite (selLane (k.mask e.mask.toNat) (8192 / (k.extTy e).cont)) (fun j => (j, laneOffset k e v j)) _

theorem find?_pairs {α : Type} (f : Nat → α) (l : List Nat) (i : Nat) :
    (l.map (fun j => (j, f j))).find? (fun p => p.1 == i) = if i ∈ l then some (i, f i) else none := by
  induction l with
  | nil => rfl
  | cons j l ih =>
    rw [List.map_cons, List.find?_cons]
    by_cases same : j = i
    · simp [same]
    · have other : (j == i) = false := by simpa using same
      simp [other, ih, Ne.symm same]

theorem mem_pickedLanes (k : Core) (e : Ext) (j : Nat) : j ∈ pickedLanes k e ↔
    j < 8192 / (k.extTy e).cont ∧ selLane (k.mask e.mask.toNat) (8192 / (k.extTy e).cont) j = true := by
  rw [pickedLanes, List.mem_filter, List.mem_range]

/-! Places (08 R155, 17 R325). -/

theorem laneOwners_eq (c : Nat) (k : Core) (e : Ext) (v : Word) :
    laneOwners c k e v = ((pickedLanes k e).map (fun j => (vmPlace c k (laneOffset k e v j)).1)).dedup := by
  rw [laneOwners, laneOffsets_eq_map, List.map_map]
  rfl

theorem mem_laneOwners (c : Nat) (k : Core) (e : Ext) (v : Word) (o : Nat) :
    o ∈ laneOwners c k e v ↔ ∃ j, j ∈ pickedLanes k e ∧ (vmPlace c k (laneOffset k e v j)).1 = o := by
  rw [laneOwners_eq, List.mem_dedup, List.mem_map]

theorem nodup_laneOwners (c : Nat) (k : Core) (e : Ext) (v : Word) : (laneOwners c k e v).Nodup := List.nodup_dedup _

/-- The address of a lane in one scratchpad. -/
theorem ldxAddrsOf_lane (c : Nat) (k : Core) (e : Ext) (v : Word) (o : Nat) {j : Nat} (inside : j < 8192 / (k.extTy e).cont) :
    (ldxAddrsOf c k e v o)[j]? = some (if selLane (k.mask e.mask.toNat) (8192 / (k.extTy e).cont) j = true ∧
      (vmPlace c k (laneOffset k e v j)).1 = o then some (vmPlace c k (laneOffset k e v j)).2 else none) := by
  rw [ldxAddrsOf]
  simp only [laneOffsets_eq_map, find?_pairs, mem_pickedLanes, ElTy.lanes]
  rw [List.getElem?_map, List.getElem?_range inside]
  by_cases picked : selLane (k.mask e.mask.toNat) (8192 / (k.extTy e).cont) j = true <;> simp [inside, picked]

/-- The cells of one scratchpad that a scatter writes: those of its lanes, the higher-numbered first. -/
theorem scatterCells_eq (c : Nat) (k : Core) (e : Ext) (v : Word) (o : Nat) : scatterCells c k e v o =
    ((pickedLanes k e).reverse.filter (fun j => (vmPlace c k (laneOffset k e v j)).1 == o)).flatMap (fun j =>
      (List.range ((k.extTy e).cont / 8)).map (fun q => ((vmPlace c k (laneOffset k e v j)).2 + q,
        BitVec.ofNat 8 (laneOf (k.vreg e.a.toNat) (k.extTy e).cont j / 256 ^ q), BitVec.allOnes 8))) := by
  simp only [scatterCells, laneOffsets_eq_map, ← List.map_reverse, List.filter_map, List.flatMap_map, toBytes_eq_map, zipIdx_map_range,
    List.map_map]
  rfl

/-! Bytes of a lane (00 R4). -/

theorem ofBytes_lt (bs : List Byte) : ofBytes bs < 256 ^ bs.length := by
  induction bs with
  | nil => decide
  | cons b bs ih =>
    have byte := b.isLt
    rw [ofBytes, List.length_cons, Nat.pow_succ']
    omega

theorem readNat_lt (m : Store Byte) (a n : Nat) : readNat m a n < 2 ^ (8 * n) := by
  have bound := ofBytes_lt (readBytes m a n)
  rwa [readBytes_length, show (256 : Nat) = 2 ^ 8 from rfl, ← pow_mul] at bound

/-- A lane that a gather reads, and whether it is written. -/
theorem gatherRow_lane (sp : Store Byte) {l : List (Option Nat)} {z i : Nat} (size : z = 2 ∨ z = 4) (inside : i < 1024 / z) :
    (∀ a, l[i]? = some (some a) → laneOf (gatherRow sp l z).1 (8 * z) i = readNat sp a z) ∧
    ∀ b, b < 8 * z → (gatherRow sp l z).2.getLsbD (8 * z * i + b) = (l.getD i none).isSome := by
  have lane : i < 8192 / (8 * z) := by rcases size with rfl | rfl <;> exact inside
  refine ⟨fun a here => ?_, fun b bit => ?_⟩
  · rw [gatherRow, laneOf_rowOf _ (lane_inside lane), List.getD_eq_getElem?_getD, List.getElem?_map, here]
    exact Nat.mod_eq_of_lt (readNat_lt sp a z)
  · rw [gatherRow, laneBits_lane _ lane bit, List.getD_eq_getElem?_getD, List.getElem?_map, List.getD_eq_getElem?_getD]
    cases l[i]? <;> rfl

end Sys2Proof.Machine
end

section
/-! O24. What the memory operations of the vm unit ask for (08 R154, R155, R163-R168, 10 R183). -/

namespace Sys2Proof.Machine

/-! What stands outside the cores. -/

theorem Quiet.outside {s t : State} (q : Quiet s t) : SameOutsideCores s t := by
  rw [SameOutsideCores, q.1]

theorem Quiet.asksAt_of {s t u : State} (q : Quiet s t) {owner due : Nat} {a : Act} (h : AsksAt t u owner due a) :
    AsksAt s u owner due a := by
  obtain ⟨pend, seq⟩ := q.2 owner
  rwa [AsksAt, pend, seq, q.tick] at h

theorem vmLast_mem (s : State) (c : Nat) (e : Ext) (d a b : Bool) (o : Nat) : ((vmLast s c e d a b).core o).mem = (s.core o).mem := by
  rw [vmLast, State.core_modCore]
  split
  · next same => rw [lastUse_held, same]
  · rfl

theorem vmLast_other (s : State) (c : Nat) (e : Ext) (d a b : Bool) : SameCoresBut c s (vmLast s c e d a b) :=
  fun _ other => State.core_modCore_other _ _ _ other

/-! Rows and labelled lines. -/

theorem vmLdEff_asks (e : Ext) (s : State) (c : Nat) (motor : Bool) (v : Word) :
    let k := s.core c
    let p := vmPlace c k v.toNat
    (vmPeer k = false → Asks s (vmLdEff e s c motor v) c 6
      (.vrow (dPhys k e) (bytesRow (readBytes (s.core p.1).mem.sp p.2 1024)) (k.laneSel e))) ∧
    (vmPeer k = true → Asks s (vmLdEff e s c motor v) c 12 (.readRow p.1 p.2 (k.laneSel e) (dPhys k e))) := by
  unfold vmLdEff
  refine ⟨fun own => ?_, fun peer => ?_⟩
  · simp only [own, Bool.false_eq_true, if_false]
    exact asks_schedule ..
  · simp only [peer, if_true]
    exact asks_schedule ..

theorem vmDecodeEff_asks (e : Ext) (s : State) (c : Nat) (motor : Bool) (v : Word) :
    let k := s.core c
    let p := vmPlace c k v.toNat
    let d := decodeLines s c k e v.toNat
    let sel := maskLanes (k.mask e.mask.toNat) (k.extTy e).lanes
    (vmPeer k = false → Asks s (vmDecodeEff e s c motor v) c 6
      (.decoded (k.extTy e) (decodeVals (s.core p.1).mem.sp d.1 d.2 sel) (k.rnd e) (dPhys k e))) ∧
    (vmPeer k = true → Asks s (vmDecodeEff e s c motor v) c 12
      (.readDec p.1 d.2 d.1 (k.extTy e) sel (k.rnd e) (dPhys k e))) := by
  unfold vmDecodeEff
  refine ⟨fun own => ?_, fun peer => ?_⟩
  · simp only [own, Bool.false_eq_true, if_false]
    exact asks_schedule ..
  · simp only [peer, if_true]
    exact asks_schedule ..

/-! Gathers and scatters (08 R155). -/

/-- What a gather takes from one scratchpad. -/
def gatherAct (s : State) (c : Nat) (e : Ext) (v : Word) (k : Core) (o : Nat) : Act :=
  let l := ldxAddrsOf c k e v o
  let size := (k.extTy e).cont / 8
  if vmPeer k then .readIdx o l size (dPhys k e)
  else .vrow (dPhys k e) (gatherRow (s.core o).mem.sp l size).1 (gatherRow (s.core o).mem.sp l size).2

theorem gatherFrom_cons (s : State) (c : Nat) (e : Ext) (v : Word) (k : Core) (o : Nat) (os : List Nat) :
    gatherFrom s c e v k (o :: os) =
      gatherFrom (s.schedule c (if vmPeer k then 12 else 10) (gatherAct s c e v k o)) c e v k os := by
  rw [gatherFrom, gatherAct]
  split <;> rfl

/-- A gather reads the scratchpads as they stand at T, whatever has been scheduled. -/
theorem OnlySchedules.gatherAct {s t : State} (h : OnlySchedules s t) (c : Nat) (e : Ext) (v : Word) (k : Core) (o : Nat) :
    Machine.gatherAct t c e v k o = Machine.gatherAct s c e v k o := by
  obtain ⟨-, mem, -⟩ := h.2 o
  rw [Machine.gatherAct, mem]
  rfl

theorem pend_gatherFrom (s : State) (c : Nat) (e : Ext) (v : Word) (k : Core) (os : List Nat) :
    ((gatherFrom s c e v k os).core c).pend = (s.core c).pend ++ os.mapIdx (fun i o =>
      Pend.mk (s.after c (if vmPeer k then 12 else 10)) s.tick ((s.core c).seq + i) (gatherAct s c e v k o)) := by
  induction os generalizing s with
  | nil => simp [gatherFrom]
  | cons o os ih =>
    have quiet := onlySchedules_schedule s c (if vmPeer k then 12 else 10) (gatherAct s c e v k o)
    have next (i : Nat) : (s.core c).seq + 1 + i = (s.core c).seq + (i + 1) := by omega
    rw [gatherFrom_cons, ih, List.mapIdx_cons, State.pend_schedule]
    simp only [quiet.after, quiet.gatherAct, seq_schedule, State.schedule_tick, next, List.append_assoc, List.singleton_append,
      Nat.add_zero]

theorem vmLdxEff_none {e : Ext} {s : State} {c : Nat} {motor : Bool} {v : Word} (none : laneOwners c (s.core c) e v = []) :
    vmLdxEff e s c motor v =
      (vmLast s c e true false true).schedule c (if vmPeer (s.core c) then 24 else 10) (.vrow (dPhys (s.core c) e) 0 0) := by
  rw [vmLdxEff, none]

theorem vmLdxEff_some {e : Ext} {s : State} {c : Nat} {motor : Bool} {v : Word} (some : laneOwners c (s.core c) e v ≠ []) :
    vmLdxEff e s c motor v = gatherFrom (vmLast s c e true false true) c e v (s.core c) (laneOwners c (s.core c) e v) := by
  rw [vmLdxEff]
  split
  · next none => exact absurd none some
  · rfl

theorem vmLdxEff_asks (e : Ext) (s : State) (c : Nat) (motor : Bool) (v : Word) :
    let k := s.core c
    let t := vmLdxEff e s c motor v
    SameOutsideCores s t ∧
    (laneOwners c k e v = [] → Asks s t c (if vmPeer k then 24 else 10) (.vrow (dPhys k e) 0 0)) ∧
    (laneOwners c k e v ≠ [] → (t.core c).pend = k.pend ++ (laneOwners c k e v).mapIdx (fun i o =>
      Pend.mk (s.after c (if vmPeer k then 12 else 10)) s.tick (k.seq + i) (gatherAct s c e v k o))) := by
  intro k t
  have last := quiet_vmLast s c e true false true
  obtain ⟨pend, seq⟩ := last.2 c
  by_cases none : laneOwners c k e v = []
  · have run : t = _ := vmLdxEff_none none
    rw [run]
    exact ⟨last.outside.trans (onlySchedules_schedule ..).1, fun _ => last.asks .., fun some => absurd none some⟩
  · have run : t = _ := vmLdxEff_some none
    have reads (o : Nat) : gatherAct (vmLast s c e true false true) c e v (s.core c) o = gatherAct s c e v (s.core c) o := by
      simp only [gatherAct, vmLast_mem]
    rw [run]
    refine ⟨last.outside.trans (gatherFrom_schedules ..).1, fun empty => absurd empty none, fun _ => ?_⟩
    rw [pend_gatherFrom, pend, seq, last.after, last.tick]
    simp only [reads]
    rfl

theorem core_scatterTo (s : State) (c : Nat) (e : Ext) (v : Word) (k : Core) (due : Nat) {os : List Nat} (nodup : os.Nodup) (o : Nat) :
    (o ∈ os → AsksAt s (scatterTo s c e v k due os) o due (.store (StoreW.mk c .vm (scatterCells c k e v o) [] []))) ∧
    (o ∉ os → (scatterTo s c e v k due os).core o = s.core o) := by
  induction os generalizing s with
  | nil => exact ⟨fun h => absurd h List.not_mem_nil, fun _ => rfl⟩
  | cons x os ih =>
    obtain ⟨fresh, nodup⟩ := List.nodup_cons.1 nodup
    obtain ⟨inside, outside⟩ := ih (s.scheduleAt x due (.store (StoreW.mk c .vm (scatterCells c k e v x) [] []))) nodup
    rw [scatterTo]
    by_cases here : o = x
    · subst here
      refine ⟨fun _ => ?_, fun h => absurd List.mem_cons_self h⟩
      rw [AsksAt, outside fresh]
      exact (Quiet.refl s).asksAt ..
    · have other : (s.scheduleAt x due (.store (StoreW.mk c .vm (scatterCells c k e v x) [] []))).core o = s.core o :=
        State.core_modCore_other _ _ _ here
      refine ⟨fun h => ?_, fun h => ?_⟩
      · have asks := inside ((List.mem_cons.1 h).resolve_left here)
        rwa [AsksAt, other] at asks
      · rw [outside (fun h' => h (List.mem_cons_of_mem _ h')), other]

theorem vmStxEff_asks (e : Ext) (s : State) (c : Nat) (motor : Bool) (v : Word) :
    let k := s.core c
    let t := vmStxEff e s c motor v
    SameOutsideCores s t ∧
    (∀ o, o ∈ laneOwners c k e v → AsksAt s t o (s.after c (if vmPeer k then 20 else 8))
      (.store (StoreW.mk c .vm (scatterCells c k e v o) [] []))) ∧
    (∀ o, o ∉ laneOwners c k e v → (t.core o).pend = (s.core o).pend) := by
  intro k t
  have last := quiet_vmLast s c e false true true
  have scatter := core_scatterTo (vmLast s c e false true true) c e v k (s.after c (if vmPeer k then 20 else 8)) (nodup_laneOwners c k e v)
  refine ⟨last.outside.trans (scatterTo_schedules ..).1, fun o h => last.asksAt_of ((scatter o).1 h), fun o h => ?_⟩
  exact (congrArg Core.pend ((scatter o).2 h)).trans (last.2 o).1

/-! The stream buffer (08 R168). -/

theorem pushedBytes_eq (k : Core) (e : Ext) : pushedBytes k e = (pickedLanes k e).flatMap (fun j =>
    toBytes ((k.extTy e).cont / 8) (laneOf (k.vreg e.a.toNat) (k.extTy e).cont j)) := by
  rw [pushedBytes, maskLanes_lanes, rowCodes_eq_map, List.zip_map', List.flatMap_map]
  exact flatMap_ite (selLane (k.mask e.mask.toNat) (8192 / (k.extTy e).cont)) _ _

/-- Bytes put at successive ring addresses. -/
theorem ringCells_eq (b : SBuf) (start : Nat) (bs : List Byte) :
    ((b.addrs start bs.length).zip bs).map (fun p => (p.1, p.2, (BitVec.allOnes 8 : Byte))) =
      (List.range bs.length).map (fun i => (b.base + (start + i) % b.len, bs.getD i 0, BitVec.allOnes 8)) := by
  refine List.ext_getElem (by simp [SBuf.addrs]) fun i h _ => ?_
  have inside : i < bs.length := by simpa [SBuf.addrs] using h
  simp [SBuf.addrs, inside]

theorem vmPushEff_asks (e : Ext) (s : State) (c : Nat) (motor : Bool) (v : Word) :
    let k := s.core c
    let t := vmPushEff e s c motor v
    let bs := pushedBytes k e
    SameOutsideCores s t ∧ SameCoresBut c s t ∧ (t.core c).pend = k.pend ++
      (if bs = [] then [] else [Pend.mk (s.after c 6) s.tick k.seq (.store (StoreW.mk c .push
        ((List.range bs.length).map (fun i => (k.sbuf.base + (k.sbuf.head + k.sbuf.fill + i) % k.sbuf.len, bs.getD i 0,
          BitVec.allOnes 8))) [] []))]) ++
      [Pend.mk (s.after c 1) s.tick (if bs = [] then k.seq else k.seq + 1) (.ring k.sbuf.head (k.sbuf.fill + bs.length))] := by
  intro k t bs
  have last := quiet_vmLast s c e false true false
  have others := vmLast_other s c e false true false
  obtain ⟨pend, seq⟩ := last.2 c
  have run : t = vmPushEff e s c motor v := rfl
  rw [run, vmPushEff, ringCells_eq]
  by_cases none : bs = []
  · rw [if_pos none, if_pos none, if_pos (by simpa using none)]
    refine ⟨last.outside.trans (onlySchedules_schedule ..).1, fun d other => ?_, ?_⟩
    · rw [State.core_schedule_other _ _ _ _ other]
      exact others d other
    · rw [State.pend_schedule, pend, seq, last.after, last.tick, List.append_nil]
  · rw [if_neg none, if_neg none, if_neg (by simpa using none)]
    refine ⟨last.outside.trans ((onlySchedules_schedule ..).1.trans (onlySchedules_schedule ..).1), fun d other => ?_, ?_⟩
    · rw [State.core_schedule_other _ _ _ _ other, State.core_schedule_other _ _ _ _ other]
      exact others d other
    · rw [State.pend_schedule, State.pend_schedule, seq_schedule, (onlySchedules_schedule ..).after, pend, seq, last.after, last.after]
      rfl

end Sys2Proof.Machine
end

section
/-! O24. pop (08 R168): ring bytes expanded into the selected lanes, and the bytes that earlier pushes still have to write. -/

namespace Sys2Proof.Machine

/-! Expansion. -/

/-- The codes of an expansion stand in the selected lanes, in order. -/
theorem getD_expandLanes (p : Nat → Bool) (cs : List Nat) (first n i : Nat) (inside : i < ((List.range' first n).filter p).length) :
    first ≤ ((List.range' first n).filter p).getD i 0 ∧
    (expandLanes ((List.range' first n).map p) cs).getD (((List.range' first n).filter p).getD i 0 - first) 0 = cs.getD i 0 := by
  induction n generalizing first cs i with
  | zero => simp at inside
  | succ n ih =>
    have later (cs : List Nat) (i : Nat) (inside : i < ((List.range' (first + 1) n).filter p).length) (x : Nat) :
        first ≤ ((List.range' (first + 1) n).filter p).getD i 0 ∧
        (x :: expandLanes ((List.range' (first + 1) n).map p) cs).getD (((List.range' (first + 1) n).filter p).getD i 0 - first) 0 =
          cs.getD i 0 := by
      obtain ⟨above, lane⟩ := ih cs (first + 1) i inside
      have place : ((List.range' (first + 1) n).filter p).getD i 0 - first =
        ((List.range' (first + 1) n).filter p).getD i 0 - (first + 1) + 1 := by omega
      exact ⟨by omega, by rw [place, List.getD_cons_succ, lane]⟩
    rw [List.range'_succ, List.filter_cons] at inside ⊢
    rw [List.map_cons]
    cases picked : p first with
    | false =>
      simp only [picked, Bool.false_eq_true, if_false] at inside ⊢
      exact later cs i inside 0
    | true =>
      simp only [picked, if_true] at inside ⊢
      cases i with
      | zero =>
        cases cs <;> simp [expandLanes]
      | succ i =>
        rw [List.getD_cons_succ]
        cases cs with
        | nil => simpa [expandLanes] using later [] i (by simpa using inside) 0
        | cons x cs => exact later cs i (by simpa using inside) x

/-- A code of a run of bytes. -/
theorem getD_codesOf (size : Nat) (bs : List Byte) (n i : Nat) (inside : i < n) :
    (codesOf size n bs).getD i 0 = ofBytes ((bs.drop (size * i)).take size) := by
  induction n generalizing bs i with
  | zero => omega
  | succ n ih =>
    rw [codesOf]
    cases i with
    | zero => rfl
    | succ i => rw [List.getD_cons_succ, ih _ _ (by omega), List.drop_drop, Nat.mul_succ, Nat.add_comm]

theorem codesOf_zero (size : Nat) (bs : List Byte) : codesOf size 0 bs = [] := rfl

/-- A part of a list of bytes given one by one. -/
theorem take_drop_map_range {α : Type} (f : Nat → α) {n start len : Nat} (inside : start + len ≤ n) :
    (((List.range n).map f).drop start).take len = (List.range len).map (fun q => f (start + q)) := by
  refine List.ext_getElem (by simp; omega) fun i _ _ => by simp

theorem streamBytes_eq (k : Core) (e : Ext) : k.streamBytes e = (pickedLanes k e).length * ((k.extTy e).cont / 8) := by
  rw [Core.streamBytes, maskCount, maskLanes_lanes, List.filter_map, List.length_map]
  rfl

/-- The row that a pop delivers. -/
def popRow (k : Core) (c : Nat) (e : Ext) : Row :=
  rowOf (k.extTy e).cont (expandLanes (maskLanes (k.mask e.mask.toNat) (k.extTy e).lanes)
    (codesOf ((k.extTy e).cont / 8) (k.streamBytes e / ((k.extTy e).cont / 8))
      ((k.sbuf.addrs k.sbuf.head (k.streamBytes e)).map (k.popByte c))))

/-- A selected lane of a pop takes its bytes in ring order. -/
theorem laneOf_popRow (k : Core) (c : Nat) (e : Ext) {i : Nat} (inside : i < (pickedLanes k e).length) :
    laneOf (popRow k c e) (k.extTy e).cont ((pickedLanes k e).getD i 0) =
      ofBytes ((List.range ((k.extTy e).cont / 8)).map (fun q =>
        k.popByte c (k.sbuf.base + (k.sbuf.head + (k.extTy e).cont / 8 * i + q) % k.sbuf.len))) := by
  have lane : (pickedLanes k e).getD i 0 < 8192 / (k.extTy e).cont := by
    rw [List.getD_eq_getElem _ _ inside]
    exact ((mem_pickedLanes k e _).1 (List.getElem_mem inside)).1
  have small (size : Nat) (f : Nat → Byte) (h : 8 * size ≤ (k.extTy e).cont) :
      ofBytes ((List.range size).map f) < 2 ^ (k.extTy e).cont := by
    have bound := ofBytes_lt ((List.range size).map f)
    rw [List.length_map, List.length_range, show (256 : Nat) = 2 ^ 8 from rfl, ← pow_mul] at bound
    exact bound.trans_le (Nat.pow_le_pow_right (by decide) h)
  have codes (cs : List Nat) : (expandLanes (maskLanes (k.mask e.mask.toNat) (k.extTy e).lanes) cs).getD ((pickedLanes k e).getD i 0) 0 =
      cs.getD i 0 := by
    rw [maskLanes_lanes]
    simp only [pickedLanes, List.range_eq_range'] at inside ⊢
    exact (getD_expandLanes _ cs 0 _ i inside).2
  rw [popRow, laneOf_rowOf _ (lane_inside lane), codes, streamBytes_eq, ← Nat.mod_eq_of_lt (small ((k.extTy e).cont / 8) (fun q =>
    k.popByte c (k.sbuf.base + (k.sbuf.head + (k.extTy e).cont / 8 * i + q) % k.sbuf.len)) (Nat.mul_div_le _ _))]
  congr 1
  rcases Nat.eq_zero_or_pos ((k.extTy e).cont / 8) with none | pos
  · rw [none]
    simp [codesOf_zero, ofBytes]
  · have range : (k.extTy e).cont / 8 * i + (k.extTy e).cont / 8 ≤ (pickedLanes k e).length * ((k.extTy e).cont / 8) := by
      rw [Nat.mul_comm, ← Nat.succ_mul]
      exact Nat.mul_le_mul_right _ inside
    rw [Nat.mul_div_cancel _ pos, getD_codesOf _ _ _ _ inside, SBuf.addrs, List.map_map, take_drop_map_range _ range]
    simp only [Function.comp_apply, Nat.add_assoc]

theorem vmPopEff_asks (e : Ext) (s : State) (c : Nat) (motor : Bool) (v : Word) :
    let k := s.core c
    let t := vmPopEff e s c motor v
    let n := (pickedLanes k e).length * ((k.extTy e).cont / 8)
    SameOutsideCores s t ∧ SameCoresBut c s t ∧ (t.core c).pend = k.pend ++
      [Pend.mk (s.after c 6) s.tick k.seq (.vrow (dPhys k e) (popRow k c e) (k.laneSel e)),
        Pend.mk (s.after c 1) s.tick (k.seq + 1) (.ring (if k.sbuf.len = 0 then k.sbuf.head else (k.sbuf.head + n) % k.sbuf.len)
          (k.sbuf.fill - n))] := by
  intro k t n
  have run : t = vmPopEff e s c motor v := rfl
  have bytes : n = k.streamBytes e := (streamBytes_eq k e).symm
  rw [run, vmPopEff, bytes]
  refine ⟨(onlySchedules_schedule ..).1.trans (onlySchedules_schedule ..).1, fun d other => ?_, ?_⟩
  · rw [State.core_schedule_other _ _ _ _ other, State.core_schedule_other _ _ _ _ other]
  · rw [State.pend_schedule, State.pend_schedule, seq_schedule, (onlySchedules_schedule ..).after, List.append_assoc]
    rfl

/-! Bytes that earlier pushes still have to write (08 R168). -/

/-- What a pending action has to write to a ring address, where it is a push of core c. -/
def pushedAt (c a : Nat) (p : Pend) : Option (Byte × Byte) :=
  match p.act with
  | .store w => if w.kind == .push && w.issuer == c then w.byteAt a else none
  | _ => none

theorem popByte_eq (k : Core) (c a : Nat) :
    k.popByte c a = (k.pend.filterMap (pushedAt c a)).foldl (fun _ x => x.1) (readByte k.mem.sp a) := rfl

/-- Where no push is pending a pop reads the scratchpad. -/
theorem popByte_none {k : Core} {c a : Nat} (none : ∀ p ∈ k.pend, pushedAt c a p = none) : k.popByte c a = readByte k.mem.sp a := by
  rw [popByte_eq, List.filterMap_eq_nil_iff.2 none]
  rfl

/-- Of the pushes pending at an address a pop sees the latest. -/
theorem popByte_latest {k : Core} {c a : Nat} {l r : List Pend} {p : Pend} {x : Byte × Byte} (list : k.pend = l ++ p :: r)
    (here : pushedAt c a p = some x) (none : ∀ q ∈ r, pushedAt c a q = none) : k.popByte c a = x.1 := by
  rw [popByte_eq, list, List.filterMap_append, List.filterMap_cons_some here, List.filterMap_eq_nil_iff.2 none, List.foldl_append]
  rfl

end Sys2Proof.Machine
end

section
/-! O24. Labelled lines (04 R88-R91, 08 R163-R166): their labels, scale slots and elements, and what decode and encode take of them. -/

namespace Sys2Proof.Machine

/-! Entries, slots and labels. -/

theorem entryGrain_eq (desc : Nat) : entryGrain desc = [0, 8, 16, 32].getD (desc / 2 ^ 19 % 4) 0 := by
  have field : bitsOf desc 20 19 = desc / 2 ^ 19 % 4 := rfl
  have four : desc / 2 ^ 19 % 4 < 4 := Nat.mod_lt _ (by decide)
  rw [entryGrain, field]
  generalize desc / 2 ^ 19 % 4 = x at four
  interval_cases x <;> rfl

/-- A scale slot lies where SCALEMAP covers the line, and the covered lines and the slots fit and are apart (04 R91). -/
theorem scaleSlot_eq (v : Word) (off : Nat) : scaleSlot v off =
    (let a := 64 * bits v 14 0; let c := bits v 30 16; let l := bits v 47 32
    if 64 * c ≤ off ∧ off < 64 * (c + l) ∧ 64 * (c + l) ≤ 2 ^ 21 ∧ a + 16 * l ≤ 2 ^ 21 ∧ (a + 16 * l ≤ 64 * c ∨ 64 * (c + l) ≤ a)
    then some (a + 16 * (off / 64 - c)) else none) := by
  refine if_congr ?_ (congrArg some (congrArg (_ + ·) (Nat.mul_comm ..))) rfl
  simp only [Bool.and_eq_true, Bool.or_eq_true, decide_eq_true_eq, and_assoc]
  rfl

theorem lineMeta_raw {s : State} {o off : Nat} (raw : (sget 0 (s.core o).mem.labels (off / 64)).toNat % 256 = 0) :
    s.lineMeta o off = LineMeta.mk off 0 Val.one none e8m0 0 := if_pos raw

theorem lineMeta_labelled {s : State} {o off : Nat} (labelled : (sget 0 (s.core o).mem.labels (off / 64)).toNat % 256 ≠ 0) :
    let label := (sget 0 (s.core o).mem.labels (off / 64)).toNat
    let entry := s.fmtEntry o (label % 256)
    s.lineMeta o off = LineMeta.mk off entry (fmtVal e8m0 (label / 256)).norm
      (if entryGrain entry = 0 then none else scaleSlot (s.core o).csr.scalemap off) (s.scaleFmt o entry) (entryGrain entry) :=
  if_neg labelled

/-! Elements. -/

/-- An element of 4 or 8 bits, read from its byte. -/
theorem lineElem_code (sp : Store Byte) (off j : Nat) {c : Nat} (width : c = 4 ∨ c = 8) :
    readNat sp (off + c * j / 8) ((c + 7) / 8) / 2 ^ (c * j % 8) % 2 ^ c =
      if c = 8 then (readByte sp (off + j)).toNat else (readByte sp (off + j / 2)).toNat / 16 ^ (j % 2) % 16 := by
  have one (a : Nat) : readNat sp a 1 = (readByte sp a).toNat := by simp [readNat, readBytes, ofBytes]
  rcases width with rfl | rfl
  · have place : 4 * j / 8 = j / 2 := by omega
    have shift : 4 * j % 8 = 4 * (j % 2) := by omega
    rw [if_neg (by decide), place, shift, pow_mul, one]
    rfl
  · have place : 8 * j / 8 = j := by omega
    have shift : 8 * j % 8 = 0 := by omega
    rw [if_pos rfl, place, shift, pow_zero, Nat.div_one, one]
    exact Nat.mod_eq_of_lt (readByte sp (off + j)).isLt

theorem lineElem_v (sp : Store Byte) (m : LineMeta) (t : ElTy) (j : Nat) :
    (lineElem sp m t j).v = elVal t (readNat sp (m.off + t.cont * j / 8) ((t.cont + 7) / 8) / 2 ^ (t.cont * j % 8) % 2 ^ t.cont) := by
  rw [lineElem]
  split <;> rfl

theorem lineElem_raw {sp : Store Byte} {m : LineMeta} {t : ElTy} {j : Nat} (raw : m.desc = 0) :
    (lineElem sp m t j).bs = Val.one ∧ (lineElem sp m t j).ls = Val.one := by
  rw [lineElem, if_pos raw]
  exact ⟨rfl, rfl⟩

theorem lineElem_scaled {sp : Store Byte} {m : LineMeta} {t : ElTy} {j : Nat} (labelled : m.desc ≠ 0) :
    (lineElem sp m t j).ls = m.ls ∧ (m.slot = none → (lineElem sp m t j).bs = Val.one) ∧
    ∀ a, m.slot = some a → (lineElem sp m t j).bs = (fmtVal m.sfmt (readByte sp (a + j / m.grain)).toNat).norm := by
  rw [lineElem, if_neg labelled]
  exact ⟨rfl, fun none => by rw [none], fun a slot => by rw [slot]⟩

/-! decode (08 R164). -/

theorem decodeVals_lane {sp : Store Byte} {f : Fmt} {lines : List LineMeta} {sel : List Bool} {i : Nat} {m : LineMeta}
    (picked : sel[i]? = some true) (line : lines[i / (512 / f.cont)]? = some m) :
    let x := lineElem sp m (.flt f) (i % (512 / f.cont))
    (decodeVals sp f lines sel)[i]? = some (some (scaledVal x.v x.bs x.ls)) := by
  dsimp only
  rw [decodeVals, List.getElem?_map, List.getElem?_zipIdx, picked]
  simp [line]

theorem decodeVals_excluded {sp : Store Byte} {f : Fmt} {lines : List LineMeta} {sel : List Bool} {i : Nat}
    (excluded : sel[i]? = some false) : (decodeVals sp f lines sel)[i]? = some none := by
  rw [decodeVals, List.getElem?_map, List.getElem?_zipIdx, excluded]
  rfl

/-- The lines of a decode. -/
theorem decodeLines_eq (s : State) (c : Nat) (k : Core) (e : Ext) (off : Nat) :
    let p := vmPlace c k off
    let fsel := bits (k.inp 5 1) 23 20
    let label := (sget 0 (s.core p.1).mem.labels (p.2 / 64)).toNat
    let dl := decodeLines s c k e off
    dl.1 = fmtOf (if fsel = 0 then s.fmtEntry c (label % 256) else (k.freg (fsel - 8)).toNat) ∧
    dl.2.length = (k.extTy e).lanes * dl.1.cont / 512 ∧
    ∀ i, i < dl.2.length → dl.2[i]? = some (if fsel = 0 then s.lineMeta p.1 (p.2 + 64 * i)
      else LineMeta.mk (p.2 + 64 * i) 0 Val.one none e8m0 0) := by
  intro p fsel label dl
  have count : dl.2.length = (k.extTy e).lanes * dl.1.cont / 512 := (List.length_map _).trans List.length_range
  refine ⟨rfl, count, fun i inside => ?_⟩
  rw [count] at inside
  exact (List.getElem?_map ..).trans (congrArg (Option.map _) (List.getElem?_range inside))

/-! encode (08 R163, R165). -/

theorem encodeJob_raw {s : State} {c : Nat} {k : Core} {e : Ext} {v : Word} (same : s.core c = k) (raw : bits (k.inp 5 1) 23 20 ≠ 0) :
    let j := encodeJob s c k e v
    j.fmt = fmtOf (k.freg (bits (k.inp 5 1) 23 20 - 8)).toNat ∧ j.fidx = 0 ∧ j.grain = 0 ∧ j.slots = none := by
  subst same
  have sel : ctlFsel ((s.core c).inp 5 1) ≠ 0 := raw
  have grain : encGrain s c ((s.core c).inp 5 1) = 0 := if_neg sel
  exact ⟨congrArg fmtOf (if_neg sel), if_neg sel, grain, if_pos grain⟩

theorem encodeJob_entry {s : State} {c : Nat} {k : Core} {e : Ext} {v : Word} (entry : bits (k.inp 5 1) 23 20 = 0) :
    let j := encodeJob s c k e v
    let desc := s.fmtEntry c (bits (k.inp 5 1) 7 0)
    j.fmt = fmtOf desc ∧ j.fidx = bits (k.inp 5 1) 7 0 ∧ j.grain = entryGrain desc ∧ (j.grain = 0 → j.slots = none) ∧
    (j.grain ≠ 0 → 0 < (k.extTy e).lanes * j.fmt.cont / 512 →
      j.slots = scaleSlot (s.core (vmPlace c k v.toNat).1).csr.scalemap (vmPlace c k v.toNat).2) := by
  have sel : ctlFsel (k.inp 5 1) = 0 := entry
  simp only [encodeJob, encGrain, encDesc, if_pos sel]
  refine ⟨rfl, rfl, rfl, fun none => if_pos none, fun some lines => ?_⟩
  rw [if_neg some, encSlots, elemLines, descCont]
  obtain ⟨n, more⟩ := Nat.exists_eq_succ_of_ne_zero lines.ne'
  rw [more, List.range_succ_eq_map]
  rfl

/-! Reads through space 1 (10 R183). -/

/-- A result that a read adds to its core's list. -/
theorem addResult_frame (s : State) (c : Nat) (p : Pend) (n : Nat) (a : Act) : let u := addResult s c p n a
    SameOutsideCores s u ∧ SameCoresBut c s u ∧
      u.core c = { s.core c with pend := (s.core c).pend ++ [Pend.mk (p.due + n * s.pace c) p.issue p.seq a] } :=
  ⟨rfl, fun _ other => State.core_modCore_other _ _ _ other, State.core_modCore_same ..⟩

end Sys2Proof.Machine
end

section
/-! O24. encode (08 R165, R166): blocks, the scale code and the codes of each, and the store that writes them. -/

namespace Sys2Proof.Machine

/-! Blocks. -/

/-- A block under a scale that is zero, NaN or infinite, or a line scale that is NaN (08 R165). -/
def badScale (bs ls : Val) : Bool := bs.isNan || bs.isInf || bs.isZero || ls.isNan

section
variable (f : Fmt) (bs ls : Val) (mode i : Nat) (g : Gens) (xs : List Val)

theorem length_encodeBlock : (encodeBlock f bs ls mode i g xs).1.length = xs.length := by
  unfold encodeBlock
  split
  · exact List.length_map _
  · exact (length_roundLanes ..).trans (List.length_map _)

/-- A block draws no generator but those of its elements. -/
theorem cur_encodeBlock_other {j : Nat} (other : j < i ∨ i + xs.length ≤ j) :
    (encodeBlock f bs ls mode i g xs).2.2.cur j = g.cur j := by
  unfold encodeBlock
  split
  · rfl
  · exact cur_roundLanes_other _ _ _ _ _ (by rwa [List.length_map])

/-- A code of a block: NaN under a bad scale, else the element over its scales, rounded. -/
theorem getD_encodeBlock {n : Nat} {x : Val} (here : xs[n]? = some x) : (encodeBlock f bs ls mode i g xs).1.getD n 0 =
    if badScale bs ls then fmtNanCode f
    else (roundTo (.flt f) (drawRnd g mode (i + n)).1 (x.divFin (Val.mul bs ls).1)).1 := by
  unfold encodeBlock badScale
  split
  · rw [List.getD_eq_getElem?_getD, List.getElem?_map, here]
    rfl
  · exact getD_roundLanes _ _ _ _ _ (x := (x.divFin (Val.mul bs ls).1, 0)) (by rw [List.getElem?_map, here]; rfl)
end

section
variable (f sf : Fmt) (smode : Nat) (ls : Val) (mode per : Nat) (given : Nat → Nat)

/-- The scale code of block j (08 R166). -/
def blockCode (j : Nat) (xs : List Val) : Nat :=
  match smode with
  | 0 => given j
  | 1 => maxScale f ls xs
  | _ => (oneCode sf).getD 0

theorem encodeBlocks_cons (j : Nat) (g : Gens) (xs : List Val) (rest : List (List Val)) :
    encodeBlocks f sf smode ls mode per given j g (xs :: rest) =
      (let code := blockCode f sf smode ls given j xs
      let r := encodeBlock f (fmtVal sf code) ls mode (per * j) g xs
      let o := encodeBlocks f sf smode ls mode per given (j + 1) r.2.2 rest
      EncOut.mk (r.1 ++ o.codes) (code :: o.scales) (r.2.1 ||| o.st) o.gens) := rfl

theorem length_encodeBlocks (j : Nat) (g : Gens) (blocks : List (List Val)) (full : ∀ xs ∈ blocks, xs.length = per) :
    (encodeBlocks f sf smode ls mode per given j g blocks).codes.length = per * blocks.length := by
  induction blocks generalizing j g with
  | nil => rfl
  | cons xs blocks ih =>
    obtain ⟨first, rest⟩ := List.forall_mem_cons.1 full
    rw [encodeBlocks_cons]
    dsimp only
    rw [List.length_append, length_encodeBlock, ih _ _ rest, first, List.length_cons]
    ring

/-- The scale code of a block. -/
theorem scales_encodeBlocks (j : Nat) (g : Gens) (blocks : List (List Val)) {b : Nat} {xs : List Val} (block : blocks[b]? = some xs) :
    (encodeBlocks f sf smode ls mode per given j g blocks).scales.getD b 0 = blockCode f sf smode ls given (j + b) xs := by
  induction blocks generalizing j g b with
  | nil => cases block
  | cons ys blocks ih =>
    rw [encodeBlocks_cons]
    cases b with
    | zero =>
      obtain rfl : ys = xs := Option.some.inj block
      rfl
    | succ b =>
      dsimp only
      rw [List.getD_cons_succ, ih _ _ block]
      congr 1
      omega

/-- The code of an element of a block, with the draw of its own generator. -/
theorem codes_encodeBlocks (j : Nat) (g : Gens) (blocks : List (List Val)) (full : ∀ xs ∈ blocks, xs.length = per) {b r : Nat}
    {xs : List Val} {x : Val} (block : blocks[b]? = some xs) (elem : xs[r]? = some x) :
    let bs := fmtVal sf (blockCode f sf smode ls given (j + b) xs)
    (encodeBlocks f sf smode ls mode per given j g blocks).codes.getD (per * b + r) 0 = if badScale bs ls then fmtNanCode f
      else (roundTo (.flt f) (drawRnd g mode (per * (j + b) + r)).1 (x.divFin (Val.mul bs ls).1)).1 := by
  induction blocks generalizing j g b with
  | nil => cases block
  | cons ys blocks ih =>
    obtain ⟨first, rest⟩ := List.forall_mem_cons.1 full
    rw [encodeBlocks_cons]
    dsimp only
    cases b with
    | zero =>
      obtain rfl : ys = xs := Option.some.inj block
      have inside : r < ys.length := (List.getElem?_eq_some_iff.1 elem).1
      rw [Nat.mul_zero, Nat.zero_add, Nat.add_zero, List.getD_append _ _ _ _ (by rwa [length_encodeBlock]),
        getD_encodeBlock _ _ _ _ _ _ _ elem]
      rfl
    | succ b =>
      have place : per * (b + 1) + r - (encodeBlock f (fmtVal sf (blockCode f sf smode ls given j ys)) ls mode (per * j) g ys).1.length =
          per * b + r := by rw [length_encodeBlock, first, Nat.mul_succ]; omega
      have index : j + 1 + b = j + (b + 1) := by omega
      have after : per * j + ys.length ≤ per * (j + (b + 1)) + r := by
        rw [first, ← Nat.mul_succ]
        exact (Nat.mul_le_mul_left _ (by omega)).trans (Nat.le_add_right ..)
      rw [List.getD_append_right _ _ _ _ (by rw [length_encodeBlock, first, Nat.mul_succ]; omega), place, ih _ _ rest block, index,
        drawRnd_congr (cur_encodeBlock_other _ _ _ _ _ _ _ (.inr after))]
end

/-- A list in parts of one length. -/
theorem chunks_map_range {α : Type} (f : Nat → α) (per m : Nat) :
    chunks per m ((List.range (per * m)).map f) = (List.range m).map (fun b => (List.range per).map (fun r => f (per * b + r))) := by
  induction m generalizing f with
  | zero => rfl
  | succ m ih =>
    have parts : (List.range (per * (m + 1))).map f = (List.range per).map f ++ (List.range (per * m)).map (fun i => f (per + i)) := by
      rw [Nat.mul_succ, Nat.add_comm, List.range_add, List.map_append, List.map_map]
      rfl
    rw [chunks, parts, List.take_left' (by simp), List.drop_left' (by simp), ih, List.range_succ_eq_map (n := m), List.map_cons,
      List.map_map]
    refine congrArg₂ List.cons (by simp) (List.map_congr_left fun b _ => List.map_congr_left fun r _ => congrArg f ?_)
    rw [Nat.mul_succ]
    omega

/-! What an encode delivers. -/

/-- The elements of a block. -/
def encodeBlockOf (j : EncJob) (per b : Nat) : List Val :=
  (List.range per).map (fun r => elVal j.ty (laneOf j.a j.ty.cont (per * b + r)))

theorem encodeOut_eq (j : EncJob) (g : Gens) {per m : Nat} (grain : per = if j.grain = 0 then 512 / j.fmt.cont else j.grain)
    (whole : 8192 / j.ty.cont = per * m) (pos : 0 < per) : encodeOut j g =
      encodeBlocks j.fmt (if j.grain = 0 then e8m0 else j.sfmt) (if j.grain = 0 then 2 else j.smode)
        (if j.fidx = 0 then Val.one else fmtVal e8m0 j.lscale) j.mode per
        (fun b => laneOf j.b 8 (16 * (b * per / (512 / j.fmt.cont)) + b * per % (512 / j.fmt.cont) / per)) 0 g
        ((List.range m).map (encodeBlockOf j per)) := by
  rw [encodeOut, ← grain, List.length_map, length_rowCodes, whole, Nat.mul_div_cancel_left m pos, rowCodes_eq_map, List.map_map, whole,
    chunks_map_range]
  rfl

/-- The blocks of an encode fill its lanes. -/
theorem encode_whole {t c grain : Nat} (element : t = 4 ∨ t = 8 ∨ t = 16 ∨ t = 32) (code : c = 4 ∨ c = 8)
    (block : grain = 0 ∨ grain = 8 ∨ grain = 16 ∨ grain = 32) : let per := if grain = 0 then 512 / c else grain
    0 < per ∧ 8192 / t = per * (8192 / t / per) := by
  rcases element with rfl | rfl | rfl | rfl <;> rcases code with rfl | rfl <;> rcases block with rfl | rfl | rfl | rfl <;> decide

/-- The scale of raw lines is one. -/
theorem fmtVal_oneCode_e8m0 : fmtVal e8m0 ((oneCode e8m0).getD 0) = Val.one := by decide

/-- What an encode delivers, element by element and block by block. -/
theorem encodeOut_spec (j : EncJob) (g : Gens) {i : Nat} (element : j.ty.cont = 4 ∨ j.ty.cont = 8 ∨ j.ty.cont = 16 ∨ j.ty.cont = 32)
    (code : j.fmt.cont = 4 ∨ j.fmt.cont = 8) (block : j.grain = 0 ∨ j.grain = 8 ∨ j.grain = 16 ∨ j.grain = 32)
    (inside : i < 8192 / j.ty.cont) :
    let o := encodeOut j g
    let line := 512 / j.fmt.cont
    let per := if j.grain = 0 then line else j.grain
    let q := i / per
    let ls := if j.fidx = 0 then Val.one else fmtVal e8m0 j.lscale
    let bs := if j.grain = 0 then Val.one else fmtVal j.sfmt (o.scales.getD q 0)
    o.codes.length = 8192 / j.ty.cont ∧
    o.codes.getD i 0 = (if badScale bs ls then fmtNanCode j.fmt
      else (roundTo (.flt j.fmt) (drawRnd g j.mode i).1 ((elVal j.ty (laneOf j.a j.ty.cont i)).divFin (Val.mul bs ls).1)).1) ∧
    (j.grain ≠ 0 → o.scales.getD q 0 = blockCode j.fmt j.sfmt j.smode ls
      (fun b => laneOf j.b 8 (16 * (per * b / line) + per * b % line / per)) q (encodeBlockOf j per q)) := by
  intro o line per q ls bs
  obtain ⟨pos, whole⟩ : 0 < per ∧ 8192 / j.ty.cont = per * (8192 / j.ty.cont / per) := encode_whole element code block
  have run : o = _ := encodeOut_eq j g rfl whole pos
  have full : ∀ xs ∈ (List.range (8192 / j.ty.cont / per)).map (encodeBlockOf j per), xs.length = per := by
    intro xs mem
    obtain ⟨b, -, rfl⟩ := List.mem_map.1 mem
    simp [encodeBlockOf]
  have place : per * q + i % per = i := Nat.div_add_mod i per
  have here : q < 8192 / j.ty.cont / per := (Nat.div_lt_iff_lt_mul pos).2 (by rwa [Nat.mul_comm, ← whole])
  have blockAt : ((List.range (8192 / j.ty.cont / per)).map (encodeBlockOf j per))[q]? = some (encodeBlockOf j per q) := by
    simp [here]
  have elem : (encodeBlockOf j per q)[i % per]? = some (elVal j.ty (laneOf j.a j.ty.cont i)) := by
    rw [encodeBlockOf, List.getElem?_map, List.getElem?_range (Nat.mod_lt i pos), Option.map_some, place]
  have scale := scales_encodeBlocks j.fmt (if j.grain = 0 then e8m0 else j.sfmt) (if j.grain = 0 then 2 else j.smode) ls j.mode per
    (fun b => laneOf j.b 8 (16 * (b * per / line) + b * per % line / per)) 0 g _ blockAt
  have codes := codes_encodeBlocks j.fmt (if j.grain = 0 then e8m0 else j.sfmt) (if j.grain = 0 then 2 else j.smode) ls j.mode per
    (fun b => laneOf j.b 8 (16 * (b * per / line) + b * per % line / per)) 0 g _ full blockAt elem
  dsimp only at codes
  rw [← run, Nat.zero_add] at scale codes
  rw [place] at codes
  refine ⟨?_, ?_, fun some => ?_⟩
  · rw [run, length_encodeBlocks _ _ _ _ _ _ _ _ _ _ full, List.length_map, List.length_range, ← whole]
  · rw [codes, ← scale]
    have factor : fmtVal (if j.grain = 0 then e8m0 else j.sfmt) (o.scales.getD q 0) = bs := by
      simp only [bs]
      split
      · next raw => rw [scale, if_pos raw, if_pos raw]; exact fmtVal_oneCode_e8m0
      · rfl
    rw [factor]
  · rw [scale, if_neg some, if_neg some]
    simp only [Nat.mul_comm _ per]

/-! The store of an encode (08 R165). -/

/-- A byte of the codes that join a row of lines: one code of 8 bits, or two of 4. -/
theorem joinCodes_byte {c : Nat} (width : c = 4 ∨ c = 8) {codes : List Nat} (small : ∀ x ∈ codes, x < 2 ^ c) (b : Nat) :
    BitVec.ofNat 8 (joinCodes c codes / 256 ^ b) =
      BitVec.ofNat 8 (if c = 8 then codes.getD b 0 else codes.getD (2 * b) 0 + 16 * codes.getD (2 * b + 1) 0) := by
  have code (n : Nat) : codes.getD n 0 < 2 ^ c := by
    rw [List.getD_eq_getElem?_getD]
    cases h : codes[n]? with
    | none => exact Nat.two_pow_pos c
    | some x => exact small x (List.mem_of_getElem? h)
  have lane (n : Nat) : joinCodes c codes / 2 ^ (c * n) % 2 ^ c = codes.getD n 0 := by rw [joinCodes_lane, Nat.mod_eq_of_lt (code n)]
  apply BitVec.eq_of_toNat_eq
  rw [BitVec.toNat_ofNat, BitVec.toNat_ofNat]
  rcases width with rfl | rfl
  · have low := lane (2 * b)
    have high := lane (2 * b + 1)
    have split : 256 ^ b = 2 ^ (4 * (2 * b)) := by rw [← mul_assoc, pow_mul]; rfl
    rw [Nat.mul_succ, pow_add, ← Nat.div_div_eq_div_mul] at high
    rw [if_neg (by decide), split, ← low, ← high]
    omega
  · have same := lane b
    have split : 256 ^ b = 2 ^ (8 * b) := by rw [pow_mul]; rfl
    rw [if_pos rfl, split, ← same, Nat.mod_mod]

theorem length_toBytes (n v : Nat) : (toBytes n v).length = n := by rw [toBytes_eq_map, List.length_map, List.length_range]

/-- The cells of the scale slots of an encode. -/
def scaleCells (j : EncJob) (o : EncOut) (lines : Nat) : List (Nat × Byte × Byte) :=
  let m := if j.grain = 0 then 1 else 512 / j.fmt.cont / j.grain
  match j.slots with
  | none => []
  | some a => (List.range (16 * lines)).map (fun i =>
      (a + i, (if i % 16 < m then BitVec.ofNat 8 (o.scales.getD (i / 16 * m + i % 16) 0) else 0), BitVec.allOnes 8))

/-- The store of an encode: its bytes, its labels, and its scale slots. -/
theorem encodeStore_spec (j : EncJob) (o : EncOut) (width : j.fmt.cont = 4 ∨ j.fmt.cont = 8) (small : ∀ x ∈ o.codes, x < 2 ^ j.fmt.cont) :
    let w := encodeStore j o
    let len := o.codes.length * j.fmt.cont / 8
    w.issuer = j.issuer ∧ w.tagSet = [] ∧
    w.labels = (List.range (len / 64)).map (fun i => (j.off / 64 + i, BitVec.ofNat 16 (256 * j.lscale + j.fidx))) ∧
    (∀ b, b < len → w.cells[b]? = some (j.off + b, BitVec.ofNat 8 (if j.fmt.cont = 8 then o.codes.getD b 0
      else o.codes.getD (2 * b) 0 + 16 * o.codes.getD (2 * b + 1) 0), BitVec.allOnes 8)) ∧
    (j.slots = none → w.cells.length = len) ∧
    (∀ a, j.slots = some a → 0 < j.grain → let m := 512 / j.fmt.cont / j.grain
      w.cells.length = len + 16 * (len / 64) ∧
      ∀ l r, l < len / 64 → r < 16 → w.cells[len + 16 * l + r]? = some (a + 16 * l + r,
        (if r < m then BitVec.ofNat 8 (o.scales.getD (l * m + r) 0) else 0), BitVec.allOnes 8)) := by
  intro w len
  have count : (toBytes len (joinCodes j.fmt.cont o.codes)).length = len := length_toBytes ..
  have cells : w.cells = (List.range len).map (fun b => (j.off + b, BitVec.ofNat 8 (joinCodes j.fmt.cont o.codes / 256 ^ b),
      (BitVec.allOnes 8 : Byte))) ++ scaleCells j o (len / 64) := by
    have parts : w.cells = ((toBytes len (joinCodes j.fmt.cont o.codes)).zipIdx).map (fun p => (j.off + p.2, p.1, BitVec.allOnes 8)) ++
      scaleCells j o ((toBytes len (joinCodes j.fmt.cont o.codes)).length / 64) := rfl
    rw [parts, count, toBytes_eq_map, zipIdx_map_range, List.map_map]
    rfl
  refine ⟨rfl, rfl, ?_, fun b inside => ?_, fun none => ?_, fun a slot pos => ⟨?_, fun l r hl hr => ?_⟩⟩
  · have labels : w.labels = (List.range ((toBytes len (joinCodes j.fmt.cont o.codes)).length / 64)).map
      (fun i => (j.off / 64 + i, BitVec.ofNat 16 (j.lscale * 256 + j.fidx))) := rfl
    rw [labels, count, Nat.mul_comm j.lscale]
  · rw [cells, List.getElem?_append_left (by simpa using inside), List.getElem?_map, List.getElem?_range inside, Option.map_some,
      joinCodes_byte width small]
  · simp [cells, scaleCells, none]
  · simp [cells, scaleCells, slot]
  · have place : len + 16 * l + r - len = 16 * l + r := by omega
    have line : (16 * l + r) / 16 = l ∧ (16 * l + r) % 16 = r := by omega
    rw [cells, List.getElem?_append_right (by simp; omega), List.length_map, List.length_range, place, scaleCells]
    simp only [slot, if_neg pos.ne']
    rw [List.getElem?_map, List.getElem?_range (by omega), Option.map_some, line.1, line.2, Nat.add_assoc]

end Sys2Proof.Machine
end

section
/-! O24. The scale code of a block (08 R166): the least power of two that brings its greatest magnitude within the format. -/

namespace Sys2Proof.Machine

/-! Logarithms. -/

/-- A comparison of fractions scaled by the two halves of an exponent. -/
theorem mul_pow2_le_iff (a b : Nat) (k : Int) : a * pow2 (-k) ≤ b * pow2 k ↔ (a : ℚ) ≤ b * 2 ^ k := by
  have pos : (0 : ℚ) < pow2 (-k) := mod_cast Nat.two_pow_pos _
  rw [← Nat.cast_le (α := ℚ), Nat.cast_mul, Nat.cast_mul, pow2_eq_mul_zpow k, mul_left_comm, mul_comm]
  exact mul_le_mul_iff_right₀ pos

theorem mul_pow2_lt_iff (a b : Nat) (k : Int) : b * pow2 k < a * pow2 (-k) ↔ (b * 2 ^ k : ℚ) < a := by
  rw [← not_le, mul_pow2_le_iff, not_le]

theorem mul_pow2_ge_iff (a b : Nat) (k : Int) : b * pow2 k ≤ a * pow2 (-k) ↔ (b * 2 ^ k : ℚ) ≤ a := by
  have pos : (0 : ℚ) < pow2 (-k) := mod_cast Nat.two_pow_pos _
  rw [← Nat.cast_le (α := ℚ), Nat.cast_mul, Nat.cast_mul, pow2_eq_mul_zpow k, mul_left_comm, mul_comm]
  exact mul_le_mul_iff_left₀ pos

/-- A fraction is at least the power of two of the floor of its logarithm. -/
theorem floorLog2_le {num : Nat} (pos : 0 < num) (den : Nat) : (den * 2 ^ floorLog2 num den : ℚ) ≤ num := by
  unfold floorLog2
  dsimp only
  split
  · next below => exact (mul_pow2_ge_iff _ _ _).1 below
  · have above : (den : ℚ) ≤ 2 ^ (den.log2 + 1) := mod_cast Nat.lt_log2_self.le
    have below : (2 : ℚ) ^ num.log2 ≤ num := mod_cast Nat.log2_self_le pos.ne'
    calc (den * 2 ^ ((num.log2 : Int) - den.log2 - 1) : ℚ) ≤ 2 ^ (den.log2 + 1) * 2 ^ ((num.log2 : Int) - den.log2 - 1) := by gcongr
      _ = 2 ^ num.log2 := by
        rw [← zpow_natCast, ← zpow_natCast, ← zpow_add₀ (by norm_num)]
        congr 1
        push_cast
        ring
      _ ≤ num := below

/-- The ceiling of a logarithm: the least power of two that is not below the fraction. -/
theorem ceilLog2_spec {num den : Nat} (hn : 0 < num) (hd : 0 < den) : let l := ceilLog2 num den
    num * pow2 (-l) ≤ den * pow2 l ∧ den * pow2 (l - 1) < num * pow2 (-(l - 1)) := by
  have low := floorLog2_le hn den
  have high := lt_of_floorLog2 num hd
  have half : (den * 2 ^ (floorLog2 num den - 1) : ℚ) < den * 2 ^ floorLog2 num den := by
    gcongr
    · norm_num
    · omega
  dsimp only
  rw [mul_pow2_le_iff, mul_pow2_lt_iff, ceilLog2]
  split
  · next exact_ =>
    have same : (num : ℚ) ≤ den * 2 ^ floorLog2 num den := (mul_pow2_le_iff _ _ _).1 exact_.ge
    exact ⟨same, half.trans_le low⟩
  · next inexact =>
    rw [Int.add_sub_cancel]
    refine ⟨high.le, lt_of_le_of_ne low fun same => inexact ?_⟩
    exact le_antisymm ((mul_pow2_ge_iff _ _ _).2 same.le) ((mul_pow2_le_iff _ _ _).2 same.ge)

/-! The greatest magnitude. -/

/-- The magnitude of a finite value. -/
def magnitude (n d : Nat) (e : Int) : ℚ := n / d * 2 ^ e

/-- Magnitudes are ordered as they are compared. -/
theorem lt_fin_iff (n m : Nat) {d c : Nat} (e f : Int) (hd : 0 < d) (hc : 0 < c) :
    (Val.fin false n d e).lt (.fin false m c f) = true ↔ magnitude n d e < magnitude m c f := by
  have pe : (0 : ℚ) < pow2 (-e) := mod_cast Nat.two_pow_pos _
  have pf : (0 : ℚ) < pow2 (-f) := mod_cast Nat.two_pow_pos _
  have hd : (0 : ℚ) < d := mod_cast hd
  have hc : (0 : ℚ) < c := mod_cast hc
  have order : (Val.fin false n d e).lt (.fin false m c f) = true ↔
      n * pow2 e * (c * pow2 (-f)) < m * pow2 f * (d * pow2 (-e)) := by
    simp only [Val.lt, Val.frac, Bool.false_eq_true, if_false, decide_eq_true_eq]
    norm_cast
  have left : (n * pow2 e * (c * pow2 (-f)) : ℚ) = magnitude n d e * (d * c * pow2 (-e) * pow2 (-f)) := by
    rw [magnitude, pow2_eq_mul_zpow e]
    field_simp
  have right : (m * pow2 f * (d * pow2 (-e)) : ℚ) = magnitude m c f * (d * c * pow2 (-e) * pow2 (-f)) := by
    rw [magnitude, pow2_eq_mul_zpow f]
    field_simp
  rw [order, ← Nat.cast_lt (α := ℚ)]
  push_cast
  rw [left, right]
  exact mul_lt_mul_iff_left₀ (by positivity)

theorem maxAbs_fin (s : Bool) (n d : Nat) (e : Int) (vs : List Val) : maxAbs (.fin s n d e :: vs) =
    if (maxAbs vs).lt (.fin false n d e) then .fin false n d e else maxAbs vs := rfl

theorem maxAbs_other {v : Val} (h : v.isNan = true ∨ v.isInf = true) (vs : List Val) : maxAbs (v :: vs) = maxAbs vs := by
  cases v with
  | fin => simp [Val.isNan, Val.isInf] at h
  | nan | inf => rfl

theorem maxAbs_none {xs : List Val} (none : ∀ x ∈ xs, x.isNan = true ∨ x.isInf = true) : maxAbs xs = Val.zero := by
  induction xs with
  | nil => rfl
  | cons x xs ih =>
    obtain ⟨first, rest⟩ := List.forall_mem_cons.1 none
    rw [maxAbs_other first, ih rest]

/-- The greatest magnitude of the finite values of a block is finite, and none of theirs is greater. -/
theorem maxAbs_spec {xs : List Val} (pos : ∀ s n d (e : Int), Val.fin s n d e ∈ xs → 0 < d) : ∃ n d e,
    maxAbs xs = .fin false n d e ∧ 0 < d ∧
      ∀ s m c (f : Int), Val.fin s m c f ∈ xs → magnitude m c f ≤ magnitude n d e := by
  induction xs with
  | nil => exact ⟨0, 1, 0, rfl, Nat.one_pos, fun _ _ _ _ h => absurd h List.not_mem_nil⟩
  | cons x xs ih =>
    obtain ⟨n, d, e, is, hd, above⟩ := ih fun s n d e h => pos s n d e (List.mem_cons_of_mem _ h)
    cases x with
    | nan | inf =>
      refine ⟨n, d, e, is, hd, fun s m c f h => above s m c f ?_⟩
      simpa using h
    | fin s m c f =>
      have hc : 0 < c := pos s m c f List.mem_cons_self
      rw [maxAbs_fin, is]
      split
      · next less =>
        have less := (lt_fin_iff n m e f hd hc).1 less
        refine ⟨m, c, f, rfl, hc, fun s' m' c' f' h => ?_⟩
        rcases List.mem_cons.1 h with same | later
        · cases same
          exact le_refl _
        · exact (above s' m' c' f' later).trans less.le
      · next notLess =>
        have notLess := not_lt.1 (mt (lt_fin_iff n m e f hd hc).2 notLess)
        refine ⟨n, d, e, rfl, hd, fun s' m' c' f' h => ?_⟩
        rcases List.mem_cons.1 h with same | later
        · cases same
          exact notLess
        · exact above s' m' c' f' later

/-- No finite value of a block is greater in magnitude. -/
theorem maxAbs_not_lt {xs : List Val} {s : Bool} {n d : Nat} {e : Int} (mem : Val.fin s n d e ∈ xs)
    (pos : ∀ s n d (e : Int), Val.fin s n d e ∈ xs → 0 < d) : (maxAbs xs).lt (.fin false n d e) = false := by
  obtain ⟨m, c, f, is, hc, above⟩ := maxAbs_spec pos
  rw [is, ← Bool.not_eq_true, lt_fin_iff _ _ _ _ hc (pos s n d e mem), not_lt]
  exact above s n d e mem

/-! The scale code. -/

/-- A line scale that is NaN leaves the scale at one. -/
theorem maxScale_nan {f : Fmt} {ls : Val} {xs : List Val} (nan : ls.isNan = true) : maxScale f ls xs = 0x7F := by
  rw [maxScale, if_pos nan]

/-- So does a block of zeros. -/
theorem maxScale_zero {f : Fmt} {ls : Val} {xs : List Val} {sa : Bool} {ad : Nat} {ae : Int} (zero : maxAbs xs = .fin sa 0 ad ae)
    {sm : Bool} {mn md : Nat} {me : Int} (top : (Val.mul (fmtVal f (fmtMaxMag f)) ls).1 = .fin sm mn md me) :
    maxScale f ls xs = 0x7F := by
  rw [maxScale, zero, top]
  simp

/-- Else the scale is the least power of two that brings the greatest magnitude within the greatest of the format, held to E8M0. -/
theorem maxScale_spec {f : Fmt} {ls : Val} {xs : List Val} {sa sm : Bool} {an ad mn md : Nat} {ae me : Int} (num : ls.isNan = false)
    (greatest : maxAbs xs = .fin sa an ad ae) (top : (Val.mul (fmtVal f (fmtMaxMag f)) ls).1 = .fin sm mn md me)
    (ha : 0 < an) (hd : 0 < ad) (hm : 0 < mn) (hc : 0 < md) :
    ∃ z : Int, maxScale f ls xs = (127 + max (-127) (min 127 z)).toNat ∧
      an * md * pow2 (ae - me - z) ≤ ad * mn * pow2 (z - (ae - me)) ∧
      ad * mn * pow2 (z - 1 - (ae - me)) < an * md * pow2 (ae - me - (z - 1)) := by
  obtain ⟨low, high⟩ := ceilLog2_spec (Nat.mul_pos ha hc) (Nat.mul_pos hd hm)
  refine ⟨ceilLog2 (an * md) (ad * mn) + (ae - me), ?_, ?_, ?_⟩
  · rw [maxScale, greatest, top]
    simp only [num, Bool.false_eq_true, if_false, if_neg ha.ne', if_neg hm.ne']
  · rwa [show ae - me - (ceilLog2 (an * md) (ad * mn) + (ae - me)) = -ceilLog2 (an * md) (ad * mn) by omega, Int.add_sub_cancel]
  · rwa [show ceilLog2 (an * md) (ad * mn) + (ae - me) - 1 - (ae - me) = ceilLog2 (an * md) (ad * mn) - 1 by omega,
      show ae - me - (ceilLog2 (an * md) (ad * mn) + (ae - me) - 1) = -(ceilLog2 (an * md) (ad * mn) - 1) by omega]

end Sys2Proof.Machine
end

section
/-! O24. The memory operations of the vm unit put together. -/

namespace Sys2Proof.Machine

/-- The lanes of a decode (08 R164): an excluded lane is not written, a selected one takes its scaled element, rounded once. -/
theorem decode_lane (sp : Store Byte) (f : Fmt) (lines : List LineMeta) (sel : List Bool) (td : ElTy) (mode : Nat) (g : Gens) {i : Nat}
    (inside : i < 8192 / td.cont) :
    let o := convOut td (decodeVals sp f lines sel) mode g
    (sel[i]? = some false → ∀ b, b < td.cont → o.bits.getLsbD (td.cont * i + b) = false) ∧
    (∀ m, sel[i]? = some true → lines[i / (512 / f.cont)]? = some m → let x := lineElem sp m (.flt f) (i % (512 / f.cont))
      laneOf o.row td.cont i = (roundTo td (drawRnd g mode i).1 (scaledVal x.v x.bs x.ls).1).1 % 2 ^ td.cont ∧
      ∀ b, b < td.cont → o.bits.getLsbD (td.cont * i + b) = true) := by
  refine ⟨fun excluded b bit => ?_, fun m picked line => ⟨?_, fun b bit => ?_⟩⟩
  · rw [bits_convOut _ _ _ _ inside bit, List.getD_eq_getElem?_getD, decodeVals_excluded excluded]
    rfl
  · exact laneOf_convOut _ _ _ _ inside (decodeVals_lane picked line)
  · rw [bits_convOut _ _ _ _ inside bit, List.getD_eq_getElem?_getD, decodeVals_lane picked line]
    rfl

/-- The reads through space 1 that a vm operation asked for: their results come 8 or 12 core cycles later. -/
theorem performRead_vm (s : State) (c : Nat) (p : Pend) :
    let u := performRead s c p
    let later := fun (n : Nat) (a : Act) => SameOutsideCores s u ∧ SameCoresBut c s u ∧
      u.core c = { s.core c with pend := (s.core c).pend ++ [Pend.mk (p.due + n * s.pace c) p.issue p.seq a] }
    (∀ o a sel d, p.act = .readRow o a sel d → later 8 (.vrow d (bytesRow (readBytes (s.core o).mem.sp a 1024)) sel)) ∧
    (∀ o l z d, p.act = .readIdx o l z d →
      later 12 (.vrow d (gatherRow (s.core o).mem.sp l z).1 (gatherRow (s.core o).mem.sp l z).2)) ∧
    (∀ o lines f td sel mode d, p.act = .readDec o lines f td sel mode d →
      later 8 (.decoded td (decodeVals (s.core o).mem.sp f lines sel) mode d)) := by
  refine ⟨fun o a sel d is => ?_, fun o l z d is => ?_, fun o lines f td sel mode d is => ?_⟩ <;> simp only [performRead, is] <;>
    exact addResult_frame ..

/-- Settles O24: what each operation schedules, and, part by part, the lanes, lines, blocks and bytes that it names. -/
theorem vectorMemoryAsks : Obligations.VectorMemoryAsks := by
  unfold Obligations.VectorMemoryAsks
  refine ⟨fun s h e => ?asks, fun s o off => ?line, scaleSlot_eq, fun sp m f j width => ?element,
    fun sp f lines sel td mode i g width count inside => ?decoded, fun j g i element code block inside => ?encoded,
    fun f ls xs => ?scale, fun j o => ?stored, performRead_vm⟩
  case asks =>
    intro k v d p m c n size picked place pushed
    have bytes : pushedBytes k e = pushed := pushedBytes_eq k e
    refine ⟨fun a => ⟨_, slotOp_accepts h 0x240 (some e) (vmLdEff e) s a, vmLdEff_asks ..⟩,
      fun a => ⟨_, slotOp_accepts h 0x241 (some e) (vmStEff e) s a, (quiet_vmLast ..).asksAt ..⟩,
      fun a => ⟨_, slotOp_accepts h 0x242 (some e) (vmLdxEff e) s a, vmLdxEff_asks ..⟩,
      fun a => ⟨_, slotOp_accepts h 0x243 (some e) (vmStxEff e) s a, ?stx⟩,
      ⟨nodup_laneOwners .., mem_laneOwners s.cur k e v, fun o j inside => ldxAddrsOf_lane s.cur k e v o inside⟩,
      fun sp l z i width _ inside => gatherRow_lane sp width inside,
      fun a => ⟨_, slotOp_accepts h 0x24C (some e) (vmDecodeEff e) s a, vmDecodeEff_asks ..⟩,
      decodeLines_eq s s.cur k e v.toNat,
      fun a => ⟨_, slotOp_accepts h 0x24D (some e) (vmEncodeEff e) s a, (quiet_vmLast ..).asksAt ..⟩,
      ⟨rfl, rfl, rfl, rfl, rfl, rfl, rfl, rfl, encodeJob_raw rfl, fun entry => ?encode⟩,
      fun a => ⟨_, slotOp_accepts h 0x24E (some e) (vmPushEff e) s a, ?push⟩,
      fun a => ⟨_, popRow k s.cur e, slotOp_accepts h 0x24F (some e) (vmPopEff e) s a, ?pop⟩,
      fun a => ⟨popByte_none, fun l q r x => popByte_latest⟩⟩
    case stx =>
      obtain ⟨outside, asks, others⟩ := vmStxEff_asks e s s.cur s.motorNow v
      exact ⟨outside, fun o mem => scatterCells_eq s.cur k e v o ▸ asks o mem, others⟩
    case encode =>
      obtain ⟨fmt, fidx, grain, none, some⟩ := encodeJob_entry (s := s) (c := s.cur) (k := k) (e := e) (v := v) (not_not.1 entry)
      exact ⟨fmt, fidx, grain.trans (entryGrain_eq _), none, some⟩
    case push => exact bytes ▸ vmPushEff_asks e s s.cur s.motorNow v
    case pop =>
      obtain ⟨outside, others, pend⟩ := vmPopEff_asks e s s.cur s.motorNow v
      exact ⟨outside, others, pend, fun i inside => laneOf_popRow k s.cur e inside⟩
  case line =>
    intro label entry m
    refine ⟨lineMeta_raw, fun labelled => ?_⟩
    have is : m = _ := lineMeta_labelled labelled
    rw [is]
    exact ⟨rfl, rfl, rfl, entryGrain_eq _, rfl⟩
  case element =>
    intro x byte
    refine ⟨?_, lineElem_raw, lineElem_scaled⟩
    exact (lineElem_v ..).trans (congrArg _ (lineElem_code sp m.off j width))
  case decoded => exact decode_lane sp f lines sel td mode g (count ▸ inside)
  case encoded => exact encodeOut_spec j g element code block inside
  case scale =>
    exact ⟨maxScale_nan, fun sa sm ad mn md ae me zero top => maxScale_zero zero top,
      fun sa sm an ad mn md ae me num greatest top ha hd hm hc => maxScale_spec num greatest top ha hd hm hc,
      maxAbs_none, fun s n d e mem pos => maxAbs_not_lt mem pos⟩
  case stored =>
    intro w len code width small even
    exact encodeStore_spec j o width small

end Sys2Proof.Machine
end

section
/-! Scalar operations (09 R172-R179): what an operation of sa or sb schedules, where its slot passes. -/

namespace Sys2Proof.Machine

/-- The scalar units have no check of their own (09 R179). -/
theorem trigCheck_scalar (s : State) (c : Nat) (motor : Bool) {dst : Nat} (v : Word) (h : dst < 0x180) :
    trigCheck s c motor dst none v = .ok := by
  by_cases move : dst < 0x100
  · exact trigCheck_none _ _ _ _ _ _ move
  · have unit : (dst - 0x100) / 64 = 0 ∨ (dst - 0x100) / 64 = 1 := by omega
    rcases unit with sa | sb
    · simp [trigCheck, trigOf, move, sa, unitCheck]
    · simp [trigCheck, trigOf, move, sb, unitCheck]

/-- A scalar operation that passes has its effect. -/
theorem slotOp_scalar {s : State} {h : Head} {dst : Nat} {eff : Eff} (unit : dst < 0x180) (p : Passes s h dst none) :
    slotOp h dst none eff s = .next (eff s s.cur s.motorNow (s.operand h)) :=
  slotOp_accepts h dst none eff s ⟨p, trigCheck_scalar _ _ _ _ unit⟩

/-- An operation whose function of i0, the operand and i1 has value v delivers v (09 R173). -/
theorem scalar_delivers {i : Instr} {s : State} {h : Head} {dst u k n : Nat} {f : Word → Word → Word → Word} {v : Word}
    (meaning : exec i s = slotOp h dst none (scalarEff u k n f) s) (value : f (s.inPort u 0) (s.operand h) (s.inPort u 1) = v)
    (unit : dst < 0x180 := by decide) (p : Passes s h dst none) : exec i s = .next (s.willOut u k n v) := by
  rw [meaning, slotOp_scalar unit p, ← value]
  rfl

/-- A compare whose test of i0 and the operand has truth value t sends t to the predicate that i1 names (09 R176). -/
theorem compare_sends {i : Instr} {s : State} {h : Head} {dst u : Nat} {f : Word → Word → Bool} {t : Bool}
    (meaning : exec i s = slotOp h dst none (compareEff u f) s) (truth : f (s.inPort u 0) (s.operand h) = t)
    (unit : dst < 0x180 := by decide) (p : Passes s h dst none) : exec i s = .next (s.willPred u t) := by
  rw [meaning, slotOp_scalar unit p, ← truth]
  rfl

end Sys2Proof.Machine
end

section
/-! O12. Compares (09 R176). -/

namespace Sys2Proof.Machine

theorem bne_eq_decide_ne (a b : Word) : (a != b) = decide (a ≠ b) := by
  rw [bne, beq_eq_decide, decide_not]

/-- Settles O12: each compare sends the truth value of its test. -/
theorem scalarCompareResults : Obligations.ScalarCompareResults := by
  unfold Obligations.ScalarCompareResults
  intro s h b
  exact ⟨compare_sends rfl (beq_eq_decide _ _), compare_sends rfl (beq_eq_decide _ _),
    compare_sends rfl (bne_eq_decide_ne _ _), compare_sends rfl (bne_eq_decide_ne _ _),
    compare_sends rfl rfl, compare_sends rfl rfl,
    compare_sends rfl rfl, compare_sends rfl rfl,
    compare_sends rfl rfl, compare_sends rfl rfl,
    compare_sends rfl rfl, compare_sends rfl rfl⟩

end Sys2Proof.Machine
end

section
/-! O8. Arithmetic, logic and set-on-compare (09 R173). -/

namespace Sys2Proof.Machine

theorem sub_eq_ofInt (a b : Word) : a - b = BitVec.ofInt 64 (a.toInt - b.toInt) :=
  BitVec.eq_of_toInt_eq (by rw [BitVec.toInt_sub, BitVec.toInt_ofInt])

theorem ofInt_min (a b : Word) : (if a.toInt ≤ b.toInt then a else b) = BitVec.ofInt 64 (min a.toInt b.toInt) := by
  rw [min_def, apply_ite (BitVec.ofInt 64), BitVec.ofInt_toInt, BitVec.ofInt_toInt]

theorem ofInt_max (a b : Word) : (if b.toInt ≤ a.toInt then a else b) = BitVec.ofInt 64 (max a.toInt b.toInt) := by
  rw [max_def', apply_ite (BitVec.ofInt 64), BitVec.ofInt_toInt, BitVec.ofInt_toInt]

theorem ofNat_min (a b : Word) : (if a.toNat ≤ b.toNat then a else b) = BitVec.ofNat 64 (min a.toNat b.toNat) := by
  rw [min_def, apply_ite (BitVec.ofNat 64), BitVec.ofNat_toNat, BitVec.ofNat_toNat, BitVec.setWidth_eq, BitVec.setWidth_eq]

theorem ofNat_max (a b : Word) : (if b.toNat ≤ a.toNat then a else b) = BitVec.ofNat 64 (max a.toNat b.toNat) := by
  rw [max_def', apply_ite (BitVec.ofNat 64), BitVec.ofNat_toNat, BitVec.ofNat_toNat, BitVec.setWidth_eq, BitVec.setWidth_eq]

theorem b2w_decide (p : Prop) [Decidable p] : b2w (decide p) = if p then 1 else 0 := by
  simp [b2w]

theorem b2w_beq (a b : Word) : b2w (a == b) = if a = b then 1 else 0 := by
  rw [beq_eq_decide, b2w_decide]

theorem b2w_bne (a b : Word) : b2w (a != b) = if a = b then 0 else 1 := by
  rw [bne_eq_decide_ne, b2w_decide, ite_not]

/-- Sign extension looks at the low bits alone. -/
theorem sextOf_mod (v n : Nat) : sextOf (v % 2 ^ n) n = sextOf v n := by
  simp [sextOf]

/-- The signed value of a bit vector is the sign extension of its number. -/
theorem toInt_eq_sextOf {n : Nat} (x : BitVec n) : x.toInt = sextOf x.toNat n := by
  simp [sextOf, BitVec.toInt, Nat.mod_eq_of_lt x.isLt]

theorem addw64_eq (a b : Word) : addw64 a b = BitVec.ofInt 64 (sextOf ((a.toNat + b.toNat) % 2 ^ 32) 32) := by
  have low : ((a + b).setWidth 32).toNat = (a.toNat + b.toNat) % 2 ^ 32 := by
    rw [BitVec.toNat_setWidth, BitVec.toNat_add, Nat.mod_mod_of_dvd _ (by decide)]
  rw [addw64, BitVec.signExtend, toInt_eq_sextOf, low]

/-- Settles O8: each operation delivers its function's value, for sa and for sb. -/
theorem scalarArithmeticResults : Obligations.ScalarArithmeticResults := by
  unfold Obligations.ScalarArithmeticResults
  intro s h b
  exact ⟨scalar_delivers rfl rfl, scalar_delivers rfl rfl,
    scalar_delivers rfl (BitVec.add_def _ _), scalar_delivers rfl (BitVec.add_def _ _),
    scalar_delivers rfl (sub_eq_ofInt _ _), scalar_delivers rfl (sub_eq_ofInt _ _),
    scalar_delivers rfl rfl, scalar_delivers rfl rfl,
    scalar_delivers rfl rfl, scalar_delivers rfl rfl,
    scalar_delivers rfl rfl, scalar_delivers rfl rfl,
    scalar_delivers rfl rfl, scalar_delivers rfl rfl,
    scalar_delivers rfl rfl, scalar_delivers rfl rfl,
    scalar_delivers rfl (ofInt_min _ _), scalar_delivers rfl (ofInt_min _ _),
    scalar_delivers rfl (ofInt_max _ _), scalar_delivers rfl (ofInt_max _ _),
    scalar_delivers rfl (ofNat_min _ _), scalar_delivers rfl (ofNat_min _ _),
    scalar_delivers rfl (ofNat_max _ _), scalar_delivers rfl (ofNat_max _ _),
    scalar_delivers rfl (b2w_beq _ _), scalar_delivers rfl (b2w_beq _ _),
    scalar_delivers rfl (b2w_bne _ _), scalar_delivers rfl (b2w_bne _ _),
    scalar_delivers rfl (b2w_decide _), scalar_delivers rfl (b2w_decide _),
    scalar_delivers rfl (b2w_decide _), scalar_delivers rfl (b2w_decide _),
    scalar_delivers rfl (b2w_decide _), scalar_delivers rfl (b2w_decide _),
    scalar_delivers rfl (b2w_decide _), scalar_delivers rfl (b2w_decide _),
    scalar_delivers rfl (addw64_eq _ _), scalar_delivers rfl (addw64_eq _ _)⟩

end Sys2Proof.Machine
end

section
/-! O9. Shifts (09 R174). -/

namespace Sys2Proof.Machine

theorem shiftLeft_eq_ofNat (a : Word) (n : Nat) : a <<< n = BitVec.ofNat 64 (a.toNat * 2 ^ n) :=
  BitVec.eq_of_toNat_eq (by rw [BitVec.toNat_shiftLeft, Nat.shiftLeft_eq, BitVec.toNat_ofNat])

theorem ushiftRight_eq_ofNat (a : Word) (n : Nat) : a >>> n = BitVec.ofNat 64 (a.toNat / 2 ^ n) := by
  rw [← Nat.shiftRight_eq_div_pow, ← BitVec.toNat_ushiftRight, BitVec.ofNat_toNat, BitVec.setWidth_eq]

theorem shl64_eq (a b : Word) : shl64 a b = if b.toNat < 64 then BitVec.ofNat 64 (a.toNat * 2 ^ b.toNat) else 0 := by
  rw [shl64, shiftLeft_eq_ofNat]

theorem shr64_eq (a b : Word) : shr64 a b = if b.toNat < 64 then BitVec.ofNat 64 (a.toNat / 2 ^ b.toNat) else 0 := by
  rw [shr64, ushiftRight_eq_ofNat]

/-- A shift by 63 leaves the sign in every bit. -/
theorem toInt_div_half (a : Word) : a.toInt / (2 ^ 63 : Nat) = if a.toInt < 0 then -1 else 0 := by
  rw [toInt_eq_sextOf]
  exact sextOf_div_half (n := 64) (by decide) _

theorem sar64_eq (a b : Word) : sar64 a b = if b.toNat < 64 then BitVec.ofInt 64 (a.toInt / (2 ^ b.toNat : Nat))
    else if a.toInt < 0 then BitVec.allOnes 64 else 0 := by
  rw [sar64, BitVec.sshiftRight, Int.shiftRight_eq_div_pow]
  split
  case isTrue small => rw [min_eq_left (by omega)]
  case isFalse past =>
    rw [min_eq_right (by omega), toInt_div_half]
    split <;> rfl

/-- In a rotation by less than the width, the bits shifted out take the places left free. -/
theorem rotated_parts {v r : Nat} (v_lt : v < 2 ^ 64) (r_lt : r < 64) :
    v <<< r % 2 ^ 64 ||| v >>> (64 - r) = v * 2 ^ r % 2 ^ 64 + v / 2 ^ (64 - r) := by
  have width : 2 ^ 64 = 2 ^ (64 - r) * 2 ^ r := by rw [← pow_add]; congr 1; omega
  have kept : v * 2 ^ r % 2 ^ 64 = (v % 2 ^ (64 - r)) <<< r := by
    rw [width, Nat.mul_mod_mul_right, Nat.shiftLeft_eq]
  have out : v / 2 ^ (64 - r) < 2 ^ r := Nat.div_lt_of_lt_mul (width ▸ v_lt)
  rw [Nat.shiftLeft_eq, Nat.shiftRight_eq_div_pow, kept, Nat.shiftLeft_add_eq_or_of_lt out]

theorem rol64_eq (a b : Word) :
    rol64 a b = BitVec.ofNat 64 (a.toNat * 2 ^ (b.toNat % 64) % 2 ^ 64 + a.toNat / 2 ^ (64 - b.toNat % 64)) := by
  have number := BitVec.toNat_rotateLeft (x := a) (r := b.toNat % 64)
  rw [Nat.mod_mod, rotated_parts a.isLt (Nat.mod_lt _ (by decide))] at number
  rw [rol64, ← number, BitVec.ofNat_toNat, BitVec.setWidth_eq]

/-- Settles O9: each shift delivers its column of the table, for sa and for sb. -/
theorem scalarShiftResults : Obligations.ScalarShiftResults := by
  unfold Obligations.ScalarShiftResults
  intro s h b
  exact ⟨scalar_delivers rfl (shl64_eq _ _), scalar_delivers rfl (shl64_eq _ _),
    scalar_delivers rfl (shr64_eq _ _), scalar_delivers rfl (shr64_eq _ _),
    scalar_delivers rfl (sar64_eq _ _), scalar_delivers rfl (sar64_eq _ _),
    scalar_delivers rfl (rol64_eq _ _), scalar_delivers rfl (rol64_eq _ _)⟩

end Sys2Proof.Machine
end

section
/-! O10. Bit fields (09 R175). -/

namespace Sys2Proof.Machine

theorem toNat_eq_zero_iff (b : Word) : b.toNat = 0 ↔ b = 0 := by
  rw [← BitVec.toNat_inj]
  rfl

theorem sext64_eq (a b : Word) : sext64 a b = if b = 0 then 0 else if 64 ≤ b.toNat then a
    else BitVec.ofInt 64 (sextOf (a.toNat % 2 ^ b.toNat) b.toNat) := by
  simp only [sext64, toNat_eq_zero_iff, sextOf_mod, wrap64]

theorem zext64_eq (a b : Word) : zext64 a b = if b = 0 then 0 else if 64 ≤ b.toNat then a
    else BitVec.ofNat 64 (a.toNat % 2 ^ b.toNat) := by
  simp only [zext64, toNat_eq_zero_iff]

/-- The n bits of v from bit lo on. -/
theorem bitsOf_width (v lo : Nat) {n : Nat} (pos : 0 < n) : bitsOf v (lo + n - 1) lo = v / 2 ^ lo % 2 ^ n := by
  rw [bitsOf, show lo + n - 1 + 1 - lo = n by omega]

theorem bfx64_eq (a b : Word) : bfx64 a b = if fieldLen b = 0 then 0
    else if b.getLsbD 15 then BitVec.ofInt 64 (sextOf (a.toNat / 2 ^ fieldLo b % 2 ^ fieldLen b) (fieldLen b))
    else BitVec.ofNat 64 (a.toNat / 2 ^ fieldLo b % 2 ^ fieldLen b) := by
  by_cases empty : fieldLen b = 0
  · simp only [bfx64, empty, if_true]
  · simp only [bfx64, empty, if_false, bitsOf_width _ _ (Nat.pos_of_ne_zero empty), wrap64]

theorem bfi64_eq (a b c : Word) : bfi64 a b c = if fieldLen b = 0 then a else
    (a &&& ~~~(BitVec.ofNat 64 ((2 ^ fieldLen b - 1) * 2 ^ fieldLo b))) |||
      (BitVec.ofNat 64 (c.toNat * 2 ^ fieldLo b) &&& BitVec.ofNat 64 ((2 ^ fieldLen b - 1) * 2 ^ fieldLo b)) := by
  simp only [bfi64, shiftLeft_eq_ofNat]

/-- Settles O10: each field operation delivers its function's value, for sa and for sb. -/
theorem scalarFieldResults : Obligations.ScalarFieldResults := by
  unfold Obligations.ScalarFieldResults
  intro s h b lo len
  exact ⟨scalar_delivers rfl (sext64_eq _ _), scalar_delivers rfl (sext64_eq _ _),
    scalar_delivers rfl (zext64_eq _ _), scalar_delivers rfl (zext64_eq _ _),
    scalar_delivers rfl (bfx64_eq _ _), scalar_delivers rfl (bfx64_eq _ _),
    scalar_delivers rfl (bfi64_eq _ _ _), scalar_delivers rfl (bfi64_eq _ _ _)⟩

end Sys2Proof.Machine
end

section
/-! O11. Bit counts (09 R173). -/

namespace Sys2Proof.Machine

/-- The zeros that clzFrom counts are those above the highest one of the low n bits. -/
theorem clzFrom_spec (v : Word) (n : Nat) : clzFrom v n ≤ n ∧
    (∀ i, n - clzFrom v n ≤ i → i < n → v.getLsbD i = false) ∧ (clzFrom v n < n → v.getLsbD (n - 1 - clzFrom v n) = true) := by
  induction n with
  | zero => simp [clzFrom]
  | succ n ih =>
    obtain ⟨le, zeros, one⟩ := ih
    cases top : v.getLsbD n with
    | true => simpa [clzFrom, top] using fun i lo hi => absurd hi (by omega)
    | false =>
      simp only [clzFrom, top, Bool.false_eq_true, if_false]
      refine ⟨by omega, fun i lo hi => ?_, fun lt => ?_⟩
      · rcases Nat.lt_succ_iff_lt_or_eq.mp hi with below | rfl
        · exact zeros i (by omega) below
        · exact top
      · rw [← one (by omega)]
        congr 1
        omega

/-- With n bits still to look at, the zeros that ctzFrom counts are those from bit 64 - n up to the next one. -/
theorem ctzFrom_spec (v : Word) (n : Nat) (inside : n ≤ 64) : ctzFrom v n ≤ n ∧
    (∀ i, 64 - n ≤ i → i < 64 - n + ctzFrom v n → v.getLsbD i = false) ∧
    (ctzFrom v n < n → v.getLsbD (64 - n + ctzFrom v n) = true) := by
  induction n with
  | zero => simp [ctzFrom]; omega
  | succ n ih =>
    obtain ⟨le, zeros, one⟩ := ih (by omega)
    have here : 64 - (n + 1) = 63 - n := by omega
    have next : 64 - n = 63 - n + 1 := by omega
    rw [next] at zeros one
    rw [here]
    cases low : v.getLsbD (63 - n) with
    | true => simpa [ctzFrom, low] using fun i lo hi => absurd hi (by omega)
    | false =>
      simp only [ctzFrom, low, Bool.false_eq_true, if_false, ← Nat.add_assoc]
      refine ⟨by omega, fun i lo hi => ?_, fun lt => one (by omega)⟩
      rcases Nat.eq_or_lt_of_le lo with rfl | above
      · exact low
      · exact zeros i above hi

theorem popFrom_eq (v : Word) (n : Nat) : popFrom v n = ((List.range n).filter (fun i => v.getLsbD i)).length := by
  induction n with
  | zero => rfl
  | succ n ih =>
    rw [popFrom, ih, List.range_succ, List.filter_append, List.length_append, Nat.add_comm]
    cases low : v.getLsbD n <;> simp [b2n, low]

/-- Settles O11: the counts of clz and ctz by the bits they count, that of popc as the length of the list of one bits. -/
theorem scalarCountResults : Obligations.ScalarCountResults := by
  unfold Obligations.ScalarCountResults
  intro s h b
  obtain ⟨leadLe, leadZeros, leadOne⟩ := clzFrom_spec b 64
  obtain ⟨trailLe, trailZeros, trailOne⟩ := ctzFrom_spec b 64 le_rfl
  simp only [Nat.sub_self, Nat.zero_le, Nat.zero_add, forall_const] at trailZeros trailOne
  have ones : popc64 b = _ := congrArg (BitVec.ofNat 64) (popFrom_eq b 64)
  exact ⟨⟨clzFrom b 64, leadLe, leadZeros, leadOne, scalar_delivers rfl rfl, scalar_delivers rfl rfl⟩,
    ⟨ctzFrom b 64, trailLe, trailZeros, trailOne, scalar_delivers rfl rfl, scalar_delivers rfl rfl⟩,
    scalar_delivers rfl ones, scalar_delivers rfl ones⟩

end Sys2Proof.Machine
end

section
/-! O13 and O14. Multiplies and divides (09 R177, R178). -/

namespace Sys2Proof.Machine

theorem mul_eq_ofNat (a b : Word) : a * b = BitVec.ofNat 64 (a.toNat * b.toNat) := rfl

/-- Settles O13: the low half is the product of words, the high halves are those of the exact products. -/
theorem scalarMultiplyResults : Obligations.ScalarMultiplyResults := by
  unfold Obligations.ScalarMultiplyResults
  intro s h a b
  exact ⟨scalar_delivers rfl (mul_eq_ofNat _ _), scalar_delivers rfl rfl, scalar_delivers rfl rfl⟩

/-- What the rounded quotient leaves is the remainder of the division toward zero. -/
theorem rem64_eq (a b : Word) : rem64 a b = if b = 0 then a else BitVec.ofInt 64 (Int.tmod a.toInt b.toInt) := by
  rw [rem64, Int.tmod_def, wrap64]

/-- Settles O14: each divide delivers its function's value. -/
theorem scalarDivideResults : Obligations.ScalarDivideResults := by
  unfold Obligations.ScalarDivideResults
  intro s h a b
  exact ⟨scalar_delivers rfl rfl, scalar_delivers rfl rfl, scalar_delivers rfl (rem64_eq _ _), scalar_delivers rfl rfl⟩

end Sys2Proof.Machine
end

section
/-! O58. The canonical form of the memories (log entry 16): what every operation on a store, every function of the model, every
instruction and every event makes of it. -/

namespace Sys2Proof.Machine

/-! Stores (Machine/Store.lean). -/

/-- Keys at or above an offset, all moved down by it. -/
theorem swfFrom_moveDown {α : Type} [DecidableEq α] {d : α} (off : Nat) {lo : Nat} {m : Store α} (w : swfFrom d lo m = true)
    (le : off ≤ lo) : swfFrom d (lo - off) (m.map fun p => (p.1 - off, p.2)) = true := by
  induction m generalizing lo with
  | nil => rfl
  | cons x m ih =>
    simp only [swfFrom, List.map_cons, Bool.and_eq_true, decide_eq_true_eq] at w ⊢
    obtain ⟨⟨first, nonzero⟩, rest⟩ := w
    have e : x.1 + 1 - off = x.1 - off + 1 := by omega
    exact ⟨⟨by omega, nonzero⟩, e ▸ ih rest (by omega)⟩

theorem swfFrom_of_le {α : Type} [DecidableEq α] {d : α} {lo hi : Nat} {m : Store α} (w : swfFrom d lo m = true)
    (above : ∀ q ∈ m, hi ≤ q.1) : swfFrom d hi m = true := by
  cases m with
  | nil => rfl
  | cons x m =>
    simp only [swfFrom, Bool.and_eq_true, decide_eq_true_eq] at w ⊢
    exact ⟨⟨above x List.mem_cons_self, w.1.2⟩, w.2⟩

/-- A slice of a frame, moved down to 0 (16 R315). -/
theorem wf_sliceDown {m : Store Byte} (w : Memory.wf m = true) (off n : Nat) : Memory.wf (sliceDown m off n) = true := by
  have above : ∀ q ∈ m.filter (fun p => off ≤ p.1 && p.1 < off + n), off ≤ q.1 := by
    intro q hq
    simp only [List.mem_filter, Bool.and_eq_true, decide_eq_true_eq] at hq
    exact hq.2.1
  have moved := swfFrom_moveDown off (swfFrom_of_le (swfFrom_filter 0 m _ 0 w) above) le_rfl
  rwa [Nat.sub_self] at moved

theorem swf_foldl {α β : Type} [DecidableEq α] {d : α} {f : Store α → β → Store α}
    (h : ∀ m x, swf d m = true → swf d (f m x) = true) (l : List β) {m : Store α} (w : swf d m = true) :
    swf d (l.foldl f m) = true := by
  induction l generalizing m with
  | nil => exact w
  | cons x l ih => exact ih (h m x w)

theorem swf_ofList {α : Type} [DecidableEq α] (d : α) (l : List α) : swf d (ofList d l) = true :=
  swf_foldl (fun m x w => swf_sput d m x.2 x.1 w) l.zipIdx rfl

/-- What all entries of a store have, and the value put, all entries have after it is put. -/
theorem forall_sput {α : Type} [DecidableEq α] {P : α → Prop} {d v : α} {m : Store α} (hm : ∀ q ∈ m, P q.2) (hv : P v) (n : Nat) :
    ∀ q ∈ sput d m n v, P q.2 := by
  have ins : ∀ q ∈ sins m n v, P q.2 := by
    induction m with
    | nil => simpa [sins] using hv
    | cons x m ih =>
      obtain ⟨head, tail⟩ := List.forall_mem_cons.mp hm
      unfold sins
      split
      · exact List.forall_mem_cons.mpr ⟨hv, hm⟩
      · split
        · exact List.forall_mem_cons.mpr ⟨hv, tail⟩
        · exact List.forall_mem_cons.mpr ⟨head, ih tail⟩
  unfold sput
  split
  · rw [sdel_eq_filter]
    exact fun q hq => hm q (List.mem_of_mem_filter hq)
  · exact ins

/-! The memories of a core. -/

/-- The memories of a core are in canonical form, one by one. -/
structure CMem.Canonical (m : CMem) : Prop where
  sp : Memory.wf m.sp = true
  bundles : Memory.wf m.bundles = true
  labels : swf 0 m.labels = true
  tags : swf false m.tags = true
  flags : swf 0 m.flags = true

theorem Core.memWf_iff (k : Core) : k.memWf = true ↔ k.mem.Canonical := by
  simp only [Core.memWf, Bool.and_eq_true]
  exact ⟨fun ⟨⟨⟨⟨sp, bundles⟩, labels⟩, tags⟩, flags⟩ => ⟨sp, bundles, labels, tags, flags⟩,
    fun ⟨sp, bundles, labels, tags, flags⟩ => ⟨⟨⟨⟨sp, bundles⟩, labels⟩, tags⟩, flags⟩⟩

@[simp] theorem Core.init_mem_canonical : Core.init.mem.Canonical := ⟨rfl, rfl, rfl, rfl, rfl⟩

theorem CMem.Canonical.setFlag {k : Core} (h : k.mem.Canonical) (n : Nat) (v : BitVec 32) : (k.setFlag n v).mem.Canonical :=
  { h with flags := swf_sput _ _ _ _ h.flags }

theorem mems_sput {m : Store Core} (hm : ∀ q ∈ m, q.2.mem.Canonical) {k : Core} (hk : k.mem.Canonical) (c : Nat) :
    ∀ q ∈ sput Core.init m c k, q.2.mem.Canonical := forall_sput (P := fun k : Core => k.mem.Canonical) hm hk c

/-! The memories of the package. -/

/-- Cores in canonical form, each with its memories; the cellar, the window table and host memory. -/
structure MemsCanonical (ks : Store Core) (bytes wins : Store Byte) (parts : Store (Store Byte)) : Prop where
  cores : swf Core.init ks = true
  mems : ∀ q ∈ ks, q.2.mem.Canonical
  cellar : Memory.wf bytes = true
  windows : Memory.wf wins = true
  host : ∀ q ∈ parts, Memory.wf q.2 = true

/-- State.memWf by its parts. A change of any other field of the state leaves it as it is, by definition. -/
def State.Canonical (s : State) : Prop := MemsCanonical s.cores s.cellar.bytes s.windows s.host

theorem State.memWf_iff (s : State) : s.memWf = true ↔ s.Canonical := by
  simp only [State.memWf, Bool.and_eq_true, List.all_eq_true, Core.memWf_iff]
  exact ⟨fun ⟨⟨⟨⟨cores, mems⟩, cellar⟩, windows⟩, host⟩ => ⟨cores, mems, cellar, windows, host⟩,
    fun ⟨cores, mems, cellar, windows, host⟩ => ⟨⟨⟨⟨cores, mems⟩, cellar⟩, windows⟩, host⟩⟩

/-- The canonical form of a state that is written out, or that differs from another in some of its fields. -/
@[simp] theorem State.canonical_mk
    (tick position absent laybyCap unavail tripped limited nextRec budgetAt cur freeCtr : Nat) (cores : Store Core) (parts : Store
    (Option Partition)) (host : Store (Store Byte)) (cellar : Cellar) (ports : Store Port) (forigin svc : Word) (bookings : List
    Booking) (windows : Store Byte) (wstat : Store WStat) (layby : List LayItem) (receipts : List Receipt) (latePaths : List LatePath)
    (backlog : List Transfer) (logs : Store Log) (ctlb : Store (List (Nat × Nat × Nat × Nat))) (towpath : Towpath) (hthresh : Hthresh)
    (health : Health) (islands : Store Nat) (coh : List (Nat × Nat)) (cellReads : Nat × List Nat) (hostReads : Nat × List (Nat × Nat))
    (inReset : Bool) (escrow : Store (List Byte)) (agenda : List (Nat × Instr)) :
    (State.mk tick cores parts position absent host cellar ports forigin bookings windows wstat layby receipts latePaths backlog
      laybyCap logs ctlb towpath hthresh health svc unavail tripped limited islands coh cellReads hostReads inReset nextRec budgetAt
      escrow cur agenda freeCtr).Canonical ↔ MemsCanonical cores cellar.bytes windows host := Iff.rfl

@[simp] theorem State.canonical_fold (s : State) : MemsCanonical s.cores s.cellar.bytes s.windows s.host ↔ s.Canonical := Iff.rfl

/-! The same for cores that have been changed, where simp has taken the rest of the state apart. -/

@[simp] theorem State.canonical_fold_modCore (s : State) (c : Nat) (f : Core → Core) :
    MemsCanonical (s.modCore c f).cores s.cellar.bytes s.windows s.host ↔ (s.modCore c f).Canonical := Iff.rfl

@[simp] theorem State.canonical_fold_mapCores (s : State) (f : Nat → Core → Core) :
    MemsCanonical (s.mapCores f).cores s.cellar.bytes s.windows s.host ↔ (s.mapCores f).Canonical := Iff.rfl

/-- An answer that goes on does so in a canonical state. -/
def Ans.Canonical (a : Ans State) : Prop :=
  match a with
  | .next t => t.Canonical
  | _ => True

@[simp] theorem Ans.canonical_next (t : State) : Ans.Canonical (.next t) ↔ t.Canonical := Iff.rfl

namespace State.Canonical

theorem core {s : State} (h : s.Canonical) (c : Nat) : (s.core c).mem.Canonical :=
  sget_of_forall (P := fun k : Core => k.mem.Canonical) Core.init_mem_canonical h.mems c

theorem hostMem {s : State} (h : s.Canonical) (part : Nat) : Memory.wf (s.hostMem part) = true :=
  sget_of_forall (P := fun m => Memory.wf m = true) rfl h.host part

theorem foldl {α : Type} {s : State} (h : s.Canonical) {f : State → α → State} (keeps : ∀ s x, s.Canonical → (f s x).Canonical)
    (l : List α) : (l.foldl f s).Canonical := by
  induction l generalizing s with
  | nil => exact h
  | cons x l ih => exact ih (keeps s x h)

protected theorem ite {p : Prop} [Decidable p] {s t : State} (hs : s.Canonical) (ht : t.Canonical) :
    (if p then s else t).Canonical := by
  split <;> assumption

/-- The state of a pair that an operation answered. -/
theorem of_pair {α : Type} {x : State × α} {t : State} {a : α} (h : x.1.Canonical) (e : x = (t, a)) : t.Canonical := by
  subst e
  exact h

theorem setCore {s : State} (h : s.Canonical) (c : Nat) {k : Core} (hk : k.mem.Canonical) : (s.setCore c k).Canonical :=
  { h with cores := swf_sput _ _ _ _ h.cores, mems := mems_sput h.mems hk c }

/-- A core may change where its memories stay canonical; `by exact` waits, where it is written, until f is known from the goal. -/
@[simp] theorem modCore {s : State} (h : s.Canonical) (c : Nat) {f : Core → Core}
    (hf : ∀ k, k.mem.Canonical → (f k).mem.Canonical) : (s.modCore c f).Canonical := h.setCore c (hf _ (h.core c))

@[simp] theorem mapCores {s : State} (h : s.Canonical) {f : Nat → Core → Core}
    (hf : ∀ c k, k.mem.Canonical → (f c k).mem.Canonical) : (s.mapCores f).Canonical := by
  refine { h with cores := State.swf_mapCores s f h.cores, mems := ?_ }
  have fold : ∀ (l : Store Core) {m : Store Core}, (∀ q ∈ m, q.2.mem.Canonical) →
      ∀ q ∈ l.foldl (fun m q => sput Core.init m q.1 (f q.1 (s.core q.1))) m, q.2.mem.Canonical := by
    intro l
    induction l with
    | nil => exact fun hm => hm
    | cons x l ih => exact fun hm => ih (mems_sput hm (hf x.1 _ (h.core x.1)) x.1)
  exact fold s.cores h.mems

theorem setCellar {s : State} (h : s.Canonical) {k : Cellar} (w : Memory.wf k.bytes = true) : { s with cellar := k }.Canonical :=
  { h with cellar := w }

theorem setWindows {s : State} (h : s.Canonical) {m : Store Byte} (w : Memory.wf m = true) : { s with windows := m }.Canonical :=
  { h with windows := w }

theorem setHost {s : State} (h : s.Canonical) {m : Store Byte} (w : Memory.wf m = true) (part : Nat) :
    { s with host := sput [] s.host part m }.Canonical :=
  { h with host := forall_sput (P := fun m => Memory.wf m = true) h.host w part }

theorem withCores {s : State} (h : s.Canonical) (keep : Nat × Core → Bool) : { s with cores := s.cores.filter keep }.Canonical :=
  { h with
    cores := swfFrom_filter _ _ _ 0 h.cores
    mems := fun q hq => h.mems q (List.mem_of_mem_filter hq) }

end State.Canonical

end Sys2Proof.Machine
end

section
/-! O58. Cores: the functions of the model that leave the memories of a core alone, and those that write them. -/

namespace Sys2Proof.Machine

/-! What leaves the memories of a core alone. -/

@[simp] theorem Core.mem_ite (p : Prop) [Decidable p] (k l : Core) : (if p then k else l).mem = if p then k.mem else l.mem :=
  apply_ite Core.mem p k l

theorem foldl_mem {α : Type} {f : Core → α → Core} (h : ∀ k x, (f k x).mem = k.mem) (l : List α) (k : Core) :
    (l.foldl f k).mem = k.mem := by
  induction l generalizing k with
  | nil => rfl
  | cons x l ih => exact (ih (f k x)).trans (h k x)

@[simp] theorem Core.modStream_mem (k : Core) (motor : Bool) (f : Stream → Stream) : (k.modStream motor f).mem = k.mem := by
  unfold Core.modStream
  split <;> rfl

@[simp] theorem Core.markDead_mem (k : Core) (phys : Nat) : (k.markDead phys).mem = k.mem := rfl

@[simp] theorem Core.lastUse_mem (k : Core) (e : Ext) (d : Option Nat) (a b : Bool) : (k.lastUse e d a b).mem = k.mem := by
  simp [Core.lastUse]

@[simp] theorem Core.setInp_mem (k : Core) (n : Nat) (v : Word) : (k.setInp n v).mem = k.mem := rfl

@[simp] theorem loadColumn_mem (k : Core) (j : ColJob) : (loadColumn k j).mem = k.mem := rfl

@[simp] theorem Core.setX_mem (k : Core) (n : Nat) (v : Word) : (k.setX n v).mem = k.mem := by
  unfold Core.setX
  split <;> rfl

@[simp] theorem Core.setPred_mem (k : Core) (phys : Nat) (v : Bool) : (k.setPred phys v).mem = k.mem := by
  unfold Core.setPred
  split <;> rfl

@[simp] theorem Core.setV_mem (k : Core) (phys : Nat) (row bits : Row) : (k.setV phys row bits).mem = k.mem := rfl

@[simp] theorem Core.setM_mem (k : Core) (n : Nat) (row bits : Row) : (k.setM n row bits).mem = k.mem := rfl

@[simp] theorem Core.setE_mem (k : Core) (n : Nat) (m : Mask) : (k.setE n m).mem = k.mem := by
  unfold Core.setE
  split <;> rfl

@[simp] theorem Core.setStat_mem (k : Core) (tick : Nat) (st : Stat) : (k.setStat tick st).mem = k.mem := rfl

@[simp] theorem Core.rotate_mem (k : Core) : k.rotate.mem = k.mem := rfl

@[simp] theorem Core.setWide_mem (k : Core) (tick unit d : Nat) (o : WideOut) : (k.setWide tick unit d o).mem = k.mem := by
  simp only [Core.setWide]
  (repeat' split) <;> simp

@[simp] theorem Core.setStages_mem (k : Core) (ps : List (Nat × Bool)) : (k.setStages ps).mem = k.mem := by
  induction ps generalizing k with
  | nil => rfl
  | cons p ps ih => simp [Core.setStages, ih]

@[simp] theorem Core.take_mem (k : Core) (tick : Nat) (a : Act) : (k.take tick a).mem = k.mem := by
  cases a <;> dsimp only [Core.take] <;> simp

@[simp] theorem Core.freeHands_mem (k : Core) : k.freeHands.mem = k.mem := rfl

@[simp] theorem putTile_mem (k : Core) (t : Nat) (bs : List Byte) : (putTile k t bs).mem = k.mem := foldl_mem (fun _ _ => by simp) _ k

@[simp] theorem putObject_mem (k : Core) (cap : Cap) (bs : List Byte) : (putObject k cap bs).mem = k.mem := by
  simp only [putObject]
  refine (foldl_mem ?_ _ _).trans (foldl_mem ?_ _ k)
  · exact fun _ _ => rfl
  · exact fun _ _ => putTile_mem ..

@[simp] theorem scrubCore_mem (k : Core) (cap : Cap) : (scrubCore k cap).mem = k.mem := by
  simp only [scrubCore]
  refine (foldl_mem ?_ _ _).trans (foldl_mem ?_ _ k) <;> exact fun _ _ => rfl

/-! What writes them. -/

namespace CMem.Canonical

theorem foldl {α : Type} {k : Core} (h : k.mem.Canonical) {f : Core → α → Core}
    (keeps : ∀ k x, k.mem.Canonical → (f k x).mem.Canonical) (l : List α) : (l.foldl f k).mem.Canonical := by
  induction l generalizing k with
  | nil => exact h
  | cons x l ih => exact ih (keeps k x h)

protected theorem putCell {k : Core} (h : k.mem.Canonical) (a : Nat) (v m : Byte) : (putCell k a v m).mem.Canonical := by
  unfold putCell
  split
  · exact h
  · exact { h with sp := swf_sput _ _ _ _ h.sp, tags := swf_sput false k.mem.tags (a / 16) false h.tags }

protected theorem putLabel {k : Core} (h : k.mem.Canonical) (line : Nat) (v : BitVec 16) : (putLabel k line v).mem.Canonical := by
  unfold putLabel
  split
  · exact h
  · exact { h with
      labels := swf_sput _ _ _ _ h.labels
      tags := swf_foldl (fun _ _ => swf_sput _ _ _ _) _ h.tags }

protected theorem putStore {k : Core} (h : k.mem.Canonical) (tick : Nat) (w : StoreW) : (putStore k tick w).mem.Canonical := by
  unfold putStore
  extract_lets fresh whole bytes labels
  have hb : bytes.mem.Canonical := foldl (k := fresh) h (fun _ _ hk => hk.putCell ..) _
  have hl : labels.mem.Canonical := hb.foldl (fun _ _ hk => hk.putLabel ..) _
  exact { hl with tags := swf_foldl (fun _ _ => swf_sput _ _ _ _) _ hl.tags }

protected theorem portStore {k : Core} (h : k.mem.Canonical) (tick : Nat) (cells : List (Nat × Byte))
    (labels : List (Nat × BitVec 16)) : (portStore k tick cells labels).mem.Canonical := h.putStore ..

protected theorem putMem {k : Core} (h : k.mem.Canonical) (a : Nat) (bs : List Byte) : (k.putMem a bs).mem.Canonical :=
  { h with sp := wf_writeBytes _ _ _ h.sp, tags := swf_sclear _ _ _ _ h.tags }

protected theorem loadSegment {k : Core} (h : k.mem.Canonical) (m : Image) (g : Segment) : (loadSegment m k g).mem.Canonical := by
  unfold loadSegment
  dsimp only
  split
  · exact { h with bundles := wf_writeBytes _ _ _ h.bundles }
  · exact { h with sp := wf_writeBytes _ _ _ h.sp, labels := swf_foldl (fun _ _ => swf_sput _ _ _ _) _ h.labels }
  · exact h
  · exact h
  · exact h

protected theorem reloadTask {k : Core} (h : k.mem.Canonical) (m : Image) (n : Nat) : (reloadTask m n k).mem.Canonical :=
  foldl (k := { k with mem := { k.mem with bundles := [] } }) { h with bundles := rfl } (fun _ _ hk => hk.loadSegment ..) _

end CMem.Canonical

/-- A task begins with what its image loads alone. -/
theorem taskCore_canonical (p : Partition) (m : Image) (t0 n : Nat) (old : Core) : (taskCore p m t0 n old).mem.Canonical := by
  simp only [taskCore]
  refine CMem.Canonical.foldl ?_ (fun _ _ hk => hk.loadSegment ..) _
  exact Core.init_mem_canonical

theorem swf_readFields {α : Type} [DecidableEq α] (d : α) (m : Store Byte) (off size n : Nat) (f : Nat → α) :
    swf d (readFields d m off size n f) = true := swf_ofList ..

/-- The memories that a frame holds (16 R315). -/
theorem readMem_canonical {m : Store Byte} (w : Memory.wf m = true) (k : CMem) : (readMem m k).Canonical := by
  unfold readMem
  constructor <;> dsimp only
  case sp | bundles => exact wf_sliceDown w ..
  case labels | flags => exact swf_readFields ..
  case tags => exact swf_ofList ..

theorem swfFrom_indexed (bs : List Byte) (lo : Nat) :
    swfFrom 0 lo (((bs.zipIdx lo).filter fun p => p.1 != 0).map fun p => (p.2, p.1)) = true := by
  induction bs generalizing lo with
  | nil => rfl
  | cons b bs ih =>
    rw [List.zipIdx_cons, List.filter_cons]
    split
    · next nonzero =>
      simp only [List.map_cons, swfFrom, Bool.and_eq_true, decide_eq_true_eq]
      exact ⟨⟨le_rfl, by simpa using nonzero⟩, ih (lo + 1)⟩
    · exact swfFrom_mono 0 _ (Nat.le_succ lo) (ih (lo + 1))

/-- A frame as it is read has the canonical form of a memory. -/
theorem readFrame_wf {s : State} {part va : Nat} {m : Store Byte} (e : readFrame s part va = some m) : Memory.wf m = true := by
  obtain ⟨bs, -, rfl⟩ := Option.map_eq_some_iff.mp e
  exact swfFrom_indexed bs 0

theorem readFrames_wf {s : State} {part slot : Nat} {p : Partition} {cs : List Nat} {fs : List (Nat × Store Byte)}
    (e : readFrames s part p slot cs = some fs) : ∀ f ∈ fs, Memory.wf f.2 = true := by
  induction cs generalizing fs with
  | nil => cases e; simp
  | cons c cs ih =>
    unfold readFrames at e
    split at e
    · next frame frames => cases e; exact List.forall_mem_cons.mpr ⟨readFrame_wf frame, ih frames⟩
    · cases e

theorem restoreCore_canonical {m : Store Byte} (w : Memory.wf m = true) (s : State) (at_ : Nat → Nat) (saved : Core) (gmemb : Word)
    (old : Core) : (restoreCore s at_ saved m gmemb old).mem.Canonical := readMem_canonical w saved.mem

end Sys2Proof.Machine
end

section
/-! O58. The cellar (Machine/Cellar.lean): whatever is written to it, its bytes keep their canonical form. -/

namespace Sys2Proof.Machine

theorem Cellar.foldl_wf {α : Type} {f : Cellar → α → Cellar} (h : ∀ k x, Memory.wf k.bytes = true → Memory.wf (f k x).bytes = true)
    (l : List α) {k : Cellar} (w : Memory.wf k.bytes = true) : Memory.wf (l.foldl f k).bytes = true := by
  induction l generalizing k with
  | nil => exact w
  | cons x l ih => exact ih (h k x w)

theorem Cellar.store_wf {k : Cellar} (w : Memory.wf k.bytes = true) (line : Nat) (data : List Byte) (m : LineMd) :
    Memory.wf (k.store line data m).bytes = true := wf_writeBytes _ _ _ w

theorem Cellar.poisonAt_wf {k : Cellar} (w : Memory.wf k.bytes = true) (line : Nat) (minor : BitVec 7) (phase : Bool) :
    Memory.wf (k.poisonAt line minor phase).bytes = true := swf_sclear _ _ _ _ w

theorem Cellar.poison_wf {k : Cellar} (w : Memory.wf k.bytes = true) (line : Nat) (phase : Bool) :
    Memory.wf (k.poison line phase).bytes = true := poisonAt_wf w ..

theorem Cellar.resealLine_wf {k : Cellar} (w : Memory.wf k.bytes = true) (phase : Bool) (line : Nat) :
    Memory.wf (k.resealLine phase line).bytes = true := by
  unfold Cellar.resealLine
  split
  · exact w
  · exact poison_wf w ..

@[simp] theorem Cellar.bumpMajor_bytes (k : Cellar) (b : Nat) : (k.bumpMajor b).bytes = k.bytes := rfl

theorem Cellar.rewriteBlock_wf {k : Cellar} (w : Memory.wf k.bytes = true) (phase : Bool) (b : Nat) :
    Memory.wf (k.rewriteBlock phase b).bytes = true := by
  unfold Cellar.rewriteBlock
  dsimp only
  split
  · exact foldl_wf (fun _ _ w => poison_wf w ..) _ w
  · rw [bumpMajor_bytes]
    exact foldl_wf (fun _ _ w => resealLine_wf w ..) _ w

theorem Cellar.writePoison_wf {k : Cellar} (w : Memory.wf k.bytes = true) (phase : Bool) (line : Nat) :
    Memory.wf (k.writePoison phase line).bytes = true := by
  unfold Cellar.writePoison
  split
  · exact rewriteBlock_wf (poison_wf w ..) ..
  · exact poisonAt_wf w ..

theorem Cellar.write_wf {k : Cellar} (w : Memory.wf k.bytes = true) (phase : Bool) (line : Nat) (data : List Byte)
    (label : BitVec 16) :
    Memory.wf (k.write phase line data label).bytes = true := by
  unfold Cellar.write
  split
  · exact rewriteBlock_wf (store_wf w ..) ..
  · exact store_wf w ..

theorem Cellar.put_wf {k k' : Cellar} (w : Memory.wf k.bytes = true) {phase : Bool} {pa : Nat} {new : List Byte}
    {label : Option (BitVec 16)} (e : k.put phase pa new label = some k') : Memory.wf k'.bytes = true := by
  unfold Cellar.put at e
  dsimp only at e
  split at e
  · obtain rfl := Option.some.inj e
    refine write_wf ?_ ..
    exact w
  · split at e
    · obtain rfl := Option.some.inj e
      refine write_wf ?_ ..
      exact w
    · cases e

theorem Cellar.scrubBlock_wf {k : Cellar} (w : Memory.wf k.bytes = true) (phase : Bool) (b : Nat) :
    Memory.wf (k.scrubBlock phase b).bytes = true := by
  unfold Cellar.scrubBlock
  split
  · exact foldl_wf (fun _ _ w => poison_wf w ..) _ w
  · exact swf_sclear _ _ _ _ w

theorem Cellar.scrubStack_wf {k : Cellar} (w : Memory.wf k.bytes = true) (st : Nat) : Memory.wf (k.scrubStack st).bytes = true := by
  unfold Cellar.scrubStack
  dsimp only
  refine foldl_wf (fun _ _ w => ?_) _ ?_
  · exact foldl_wf (fun _ _ w => poison_wf w ..) _ w
  · exact swf_sclear _ _ _ _ w

theorem lineBack_wf (e : Evicted) (phase : Bool) {k : Cellar} (w : Memory.wf k.bytes = true) (l : Nat) :
    Memory.wf (lineBack e phase k l).bytes = true := by
  unfold lineBack
  split
  · exact Cellar.writePoison_wf w ..
  · exact Cellar.write_wf w ..

end Sys2Proof.Machine
end

section
/-! O58, the functions of the model:
the operations, the state registers, the slot operations, the racks, tokens, the fabric, flags, loads and stores. -/

namespace Sys2Proof.Machine.State.Canonical

/-! The functions of Machine/Ops.lean. -/

@[simp] protected theorem setPart {s : State} (h : s.Canonical) (n : Nat) (p : Partition) : (s.setPart n p).Canonical := h

@[simp] protected theorem modPart {s : State} (h : s.Canonical) (n : Nat) (f : Partition → Partition) : (s.modPart n f).Canonical := by
  unfold State.modPart
  split <;> simp [h]

@[simp] protected theorem scheduleAt {s : State} (h : s.Canonical) (holder due : Nat) (a : Act) :
    (s.scheduleAt holder due a).Canonical := h.modCore _ fun _ hk => hk

@[simp] protected theorem schedule {s : State} (h : s.Canonical) (c n : Nat) (a : Act) :
    (s.schedule c n a).Canonical := h.scheduleAt ..

@[simp] protected theorem scheduleAll {s : State} (h : s.Canonical) (c n : Nat) (l : List Act) : (s.scheduleAll c n l).Canonical := by
  induction l generalizing s with
  | nil => exact h
  | cons x xs ih => exact ih (h.schedule ..)

@[simp] protected theorem addFlag {s : State} (h : s.Canonical) (c f n : Nat) :
    (s.addFlag c f n).Canonical := h.modCore c fun _ hk => hk.setFlag ..

@[simp] protected theorem log {s : State} (h : s.Canonical) (source code reason flags bundle slot part detail : Nat) :
    (s.log source code reason flags bundle slot part detail).Canonical := h

@[simp] protected theorem stopTimetable {s : State} (h : s.Canonical) (part core : Nat) (motor : Bool) (status : Nat) :
    (s.stopTimetable part core motor status).Canonical := h.modPart ..

@[simp] protected theorem trapTo {s : State} (h : s.Canonical) (target : Nat) (r : TrapRec) :
    (s.trapTo target r).Canonical := by simp [State.trapTo, h]

@[simp] protected theorem keeperDown {s : State} (h : s.Canonical) (c bundle : Nat) :
    (s.keeperDown c bundle).Canonical := ((h.modCore _ fun _ hk => by exact hk).log ..).modPart ..

@[simp] protected theorem complexDown {s : State} (h : s.Canonical) (c : Nat) : (s.complexDown c).Canonical := by
  unfold State.complexDown
  split <;> simp [h]

@[simp] protected theorem haltStream {s : State} (h : s.Canonical) (c : Nat) (motor : Bool) (why : Why) (code : Nat) (r : TrapRec) :
    (haltStream s c motor why code r).Canonical := by
  unfold haltStream
  (repeat' split) <;> simp [h]

@[simp] protected theorem raiseFault {s : State} (h : s.Canonical) (c : Nat) (motor : Bool) (bundle slot code reason detail : Nat) :
    (raiseFault s c motor bundle slot code reason detail).Canonical := ((h.modCore _ fun _ hk => by exact hk).log ..).haltStream ..

@[simp] protected theorem trapEntry {s : State} (h : s.Canonical) (c : Nat) :
    (trapEntry s c).Canonical := h.modCore c fun k hk => by split <;> exact hk

/-! The functions of Machine/Csr.lean. -/

@[simp] protected theorem modView {s : State} (h : s.Canonical) (c : Nat) (f : Partition → Partition) :
    (s.modView c f).Canonical := h.modPart ..

@[simp] protected theorem modCsr {s : State} (h : s.Canonical) (c : Nat) (f : CoreCsr → CoreCsr) :
    (s.modCsr c f).Canonical := h.modCore _ fun _ hk => hk

@[simp] protected theorem arithWrite {s : State} (h : s.Canonical) (c : Nat) (kind : CsrKind) (val : Word) :
    (arithWrite s c kind val).Canonical := h.modCore _ fun _ hk => hk

@[simp] protected theorem astatWrite {s : State} (h : s.Canonical) (c : Nat) (kind : CsrKind) (val : Word) :
    (astatWrite s c kind val).Canonical := h.modCore _ fun _ hk => hk

@[simp] protected theorem cfoldWrite {s : State} (h : s.Canonical) (c : Nat) (kind : CsrKind) (val : Word) :
    (cfoldWrite s c kind val).Canonical := by
  unfold cfoldWrite
  split <;> simp [h]

@[simp] protected theorem foriginWrite {s : State} (h : s.Canonical) (c : Nat) (kind : CsrKind) (val : Word) :
    (foriginWrite s c kind val).Canonical := by
  simp only [foriginWrite]
  (repeat' split) <;> simp [h]

@[simp] protected theorem restKeeper {s : State} (h : s.Canonical) (c : Nat) : (restKeeper s c).Canonical := h.modCore _ fun _ hk => hk

@[simp] protected theorem freeBasins {s : State} (h : s.Canonical) (part : Nat) (p : Partition) : (s.freeBasins part p).Canonical := by
  unfold State.freeBasins
  exact h.foldl (fun _ _ h => by simp [h]) _

@[simp] protected theorem uncreate {s : State} (h : s.Canonical) (part : Nat) : (uncreate s part).Canonical := by
  unfold uncreate
  (repeat' split) <;> simp [h]

@[simp] protected theorem fshareWrite {s : State} (h : s.Canonical) (c port : Nat) (kind : CsrKind) (val : Word) :
    (fshareWrite s c port kind val).Canonical := by
  simp only [fshareWrite]
  (repeat' split) <;> simp [h]

@[simp] protected theorem budgetWrite {s : State} (h : s.Canonical) (c : Nat) (layby : Bool) (kind : CsrKind) (val : Word) :
    (budgetWrite s c layby kind val).Canonical := by
  simp only [budgetWrite]
  (repeat' split) <;> simp [h]

@[simp] protected theorem fwinWrite {s : State} (h : s.Canonical) (c : Nat) (kind : CsrKind) (val : Word) :
    (fwinWrite s c kind val).Canonical := by
  unfold fwinWrite
  split <;> simp [h]

@[simp] protected theorem reachlimWrite {s : State} (h : s.Canonical) (c : Nat) (kind : CsrKind) (val : Word) :
    (reachlimWrite s c kind val).Canonical := by
  simp only [reachlimWrite]
  split <;> simp [h]

@[simp] protected theorem lpatienceWrite {s : State} (h : s.Canonical) (c : Nat) (kind : CsrKind) (val : Word) :
    (lpatienceWrite s c kind val).Canonical := by
  simp only [lpatienceWrite]
  split <;> simp [h]

@[simp] protected theorem taskcapWrite {s : State} (h : s.Canonical) (c : Nat) (kind : CsrKind) (val : Word) :
    (taskcapWrite s c kind val).Canonical := by
  unfold taskcapWrite
  split <;> simp [h]

@[simp] protected theorem hthreshWrite {s : State} (h : s.Canonical) (c : Nat) (kind : CsrKind) (val : Word) :
    (hthreshWrite s c kind val).Canonical := by
  unfold hthreshWrite
  split <;> simp [h]

@[simp] protected theorem tlbinvWrite {s : State} (h : s.Canonical) (c : Nat) (kind : CsrKind) (val : Word) :
    (tlbinvWrite s c kind val).Canonical := by
  unfold tlbinvWrite
  split <;> simp [h]

@[simp] protected theorem coreRegWrite {s : State} (h : s.Canonical) (c num n clr : Nat) : (coreRegWrite s c num n clr).Canonical := by
  unfold coreRegWrite
  (repeat' split) <;> simp [h]

@[simp] protected theorem registerWrite {s : State} (h : s.Canonical) (c num : Nat) (kind : CsrKind) (val : Word) :
    (registerWrite s c num kind val).Canonical := by
  simp only [registerWrite]
  (repeat' split) <;> simp [h]

@[simp] protected theorem csrWrite {s : State} (h : s.Canonical) (c num : Nat) (kind : CsrKind) (val : Word) :
    (csrWrite s c num kind val).Canonical := by
  unfold csrWrite
  (repeat' split) <;> simp [h]

/-! The functions of Machine/SlotOp.lean. -/

@[simp] protected theorem retry {s : State} (h : s.Canonical) (c : Nat) (motor : Bool) :
    (s.retry c motor).Canonical := h.modCore c fun _ hk => by simpa using hk

protected theorem settle {s go : State} (h : s.Canonical) (hgo : go.Canonical) (c : Nat) (motor : Bool) (chk : Check) (detail : Nat) :
    (settle s c motor chk detail go).Canonical := by
  cases chk with
  | ok => exact hgo
  | stall => exact h.retry ..
  | fault code reason => exact h.raiseFault ..

/-- A slot operation keeps the memories canonical where its effect does. -/
protected theorem slotOp {s : State} (h : s.Canonical) {eff : Eff} (keeps : ∀ c motor v, (eff s c motor v).Canonical) (hd : Head)
    (dst : Nat) (e : Option Ext) :
    Ans.Canonical (slotOp hd dst e eff s) := by
  refine h.settle ?_ ..
  split
  · exact h.settle (keeps ..) ..
  · exact h

@[simp] protected theorem moveEff {s : State} (h : s.Canonical) (d : Dest) (n : Nat) (b : Bool) (v : Word) :
    (moveEff d s n b v).Canonical := by
  cases d with
  | inp => exact h.modCore _ fun _ hk => hk
  | x | p | lcount | rotb | sbbase | sblen => exact h.schedule ..

/-! The functions of Machine/Rack.lean. -/

@[simp] protected theorem addGuard {s : State} (h : s.Canonical) (owner : Nat) (g : Guard) :
    (s.addGuard owner g).Canonical := h.modCore _ fun _ hk => hk

@[simp] protected theorem dropGuards {s : State} (h : s.Canonical) (c : Nat) (isRack : Bool) (id : Nat) :
    (dropGuards s c isRack id).Canonical := h.mapCores fun _ _ hk => hk

@[simp] protected theorem addGuards {s : State} (h : s.Canonical) (c : Nat) (isRack : Bool) (id : Nat) (l : List (Nat × Nat × Nat)) :
    (addGuards s c isRack id l).Canonical := by
  induction l generalizing s with
  | nil => exact h
  | cons x xs ih => exact ih (h.addGuard ..)

@[simp] protected theorem startRack {s : State} (h : s.Canonical) (c id : Nat) (j : RackJob) : (startRack s c id j).Canonical := by
  have queued := h.modCore c (f := fun k =>
    { k.setRack id { Rack.queued j j.total k.rackSeq with cancel := s.stopHere c } with rackSeq := k.rackSeq + 1 }) fun _ hk => hk
  exact ((queued.addGuards ..).addGuards ..).addGuards ..

@[simp] protected theorem rkOut {s : State} (h : s.Canonical) (c n : Nat) : (rkOut s c n).Canonical := h.schedule ..

@[simp] protected theorem rackEff {s : State} (h : s.Canonical) (op : Nat) (n : Nat) (b : Bool) (v : Word) :
    (rackEff op s n b v).Canonical := by
  unfold rackEff
  split <;> simp [h]

@[simp] protected theorem probeEff {s : State} (h : s.Canonical) (n : Nat) (b : Bool) (v : Word) :
    (probeEff s n b v).Canonical := h.schedule ..

@[simp] protected theorem cancelEff {s : State} (h : s.Canonical) (n : Nat) (b : Bool) (v : Word) : (cancelEff s n b v).Canonical := by
  unfold cancelEff
  split <;> simp [h]

@[simp] protected theorem cancelRack {s : State} (h : s.Canonical) (c id : Nat) :
    (cancelRack s c id).Canonical := by simp [cancelRack, h]

@[simp] protected theorem waitaddrEff {s : State} (h : s.Canonical) (n : Nat) (b : Bool) (v : Word) :
    (waitaddrEff s n b v).Canonical := by
  simp only [waitaddrEff]
  split <;> simp [h]

/-! The functions of Machine/Budget.lean. -/

@[simp] protected theorem drawFrom {s : State} (h : s.Canonical) (part : Nat) (layby : Bool) (l : List Nat) (n : Nat) :
    (drawFrom s part layby l n).Canonical := by
  induction l generalizing s n with
  | nil => exact h
  | cons j l ih =>
    unfold drawFrom
    split
    · exact (ih h _).ite (ih (h.setPart ..) _)
    · exact ih h _

protected theorem payTokens {s t : State} (h : s.Canonical) {part : Nat} {layby : Bool} {d : Nat}
    (e : payTokens s part layby d = some t) :
    t.Canonical := by
  simp only [payTokens] at e
  split at e
  · cases e
  · split at e
    · cases e; exact h.setPart ..
    · split at e
      · cases e; exact (h.drawFrom ..).modPart ..
      · cases e

@[simp] protected theorem execBudgetPeriod {s : State} (h : s.Canonical) : Ans.Canonical (execBudgetPeriod s) := by
  unfold execBudgetPeriod
  split <;> simp [h]

/-! The functions of Machine/Fabric.lean. -/

@[simp] protected theorem fbOut {s : State} (h : s.Canonical) (c n : Nat) : (fbOut s c n).Canonical := h.schedule ..

protected theorem payRelay {s t : State} (h : s.Canonical) {part via flits : Nat} (e : payRelay s part via flits = some t) :
    t.Canonical := by
  unfold payRelay at e
  split at e
  · cases e
  · split at e
    · cases e
    · exact (h.setPart ..).payTokens e

@[simp] protected theorem sendEff {s : State} (h : s.Canonical) (relayed : Bool) (n : Nat) (b : Bool) (v : Word) :
    (sendEff relayed s n b v).Canonical := by
  simp only [sendEff]
  split
  · exact h.fbOut ..
  · split
    · exact h.fbOut ..
    · next t paid =>
      have funded : t.Canonical := by
        split at paid
        · exact h.payRelay paid
        · cases paid; exact h
      refine ((State.Canonical.modCore ?_ _ fun _ hk => by exact hk).schedule ..).fbOut ..
      split <;> exact funded

@[simp] protected theorem startSend {s : State} (h : s.Canonical) (c id : Nat) (x : Send) : (startSend s c id x).Canonical := by
  have started := (h.modCore c (f := fun k => k.setSend id (some x)) fun _ hk => hk).addGuard c
    (Guard.mk c false id (s.winBase x.entry + x.off) x.len)
  unfold startSend
  split
  · exact started.addGuard ..
  · exact started

@[simp] protected theorem rfenceEff {s : State} (h : s.Canonical) (n : Nat) (b : Bool) (v : Word) : (rfenceEff s n b v).Canonical := by
  simp only [rfenceEff]
  split <;> simp [h]

@[simp] protected theorem slotEff {s : State} (h : s.Canonical) (n : Nat) (b : Bool) (v : Word) :
    (slotEff s n b v).Canonical := h.schedule ..

@[simp] protected theorem wstatEff {s : State} (h : s.Canonical) (n : Nat) (b : Bool) (v : Word) : (wstatEff s n b v).Canonical := by
  simp only [wstatEff]
  split <;> simp [h]

@[simp] protected theorem modWst {s : State} (h : s.Canonical) (e : Nat) (f : WStat → WStat) : (s.modWst e f).Canonical := h

@[simp] protected theorem creditBack {s : State} (h : s.Canonical) (x : Send) : (creditBack s x).Canonical := by
  unfold creditBack
  (repeat' split) <;> simp [h]

@[simp] protected theorem endSend {s : State} (h : s.Canonical) (c id : Nat) (x : Send) (status : Nat) :
    (endSend s c id x status).Canonical := by
  have ended := ((h.dropGuards c false id).modCore c (f := fun k =>
    { k.setSend id none with fences := k.fences.map (fun f => { f with waits := f.waits.filter (fun n => n != x.seq) }) })
    fun _ hk => hk).modWst x.entry (fun w => w.receipt status x.late)
  exact ended.creditBack x

@[simp] protected theorem endLoop {s : State} (h : s.Canonical) (c id status : Nat) : (endLoop s c id status).Canonical := by
  unfold endLoop
  (repeat' split) <;> simp [h]

/-! The functions of Machine/FlagOps.lean. -/

@[simp] protected theorem flagEff {s : State} (h : s.Canonical) (op : FlagOp) (n : Nat) (b : Bool) (v : Word) :
    (flagEff op s n b v).Canonical := h.schedule ..

@[simp] protected theorem ftestEff {s : State} (h : s.Canonical) (n : Nat) (b : Bool) (v : Word) :
    (ftestEff s n b v).Canonical := h.schedule ..

@[simp] protected theorem fwaitEff {s : State} (h : s.Canonical) (n : Nat) (b : Bool) (v : Word) :
    (fwaitEff s n b v).Canonical := h.modCore _ fun _ hk => hk

@[simp] protected theorem garriveEff {s : State} (h : s.Canonical) (n : Nat) (b : Bool) (v : Word) :
    (garriveEff s n b v).Canonical := h.schedule ..

@[simp] protected theorem gcastEff {s : State} (h : s.Canonical) (n : Nat) (b : Bool) (v : Word) :
    (gcastEff s n b v).Canonical := h.schedule ..

@[simp] protected theorem modGroup {s : State} (h : s.Canonical) (part g : Nat) (f : Group → Group) :
    (s.modGroup part g f).Canonical := h.modPart ..

@[simp] protected theorem startGarrive {s : State} (h : s.Canonical) (c issue : Nat) (g : Garr) :
    (startGarrive s c issue g).Canonical := by simp [startGarrive, h]

@[simp] protected theorem startGcast {s : State} (h : s.Canonical) (c issue g idx add : Nat) :
    (startGcast s c issue g idx add).Canonical := by
  unfold startGcast
  split <;> simp [h]

@[simp] protected theorem ginfoEff {s : State} (h : s.Canonical) (n : Nat) (b : Bool) (v : Word) :
    (ginfoEff s n b v).Canonical := h.schedule ..

/-! The functions of Machine/LoadStore.lean. -/

@[simp] protected theorem loadEff {s : State} (h : s.Canonical) (l : Core → LsLoad) (n : Nat) (b : Bool) (v : Word) :
    (loadEff l s n b v).Canonical := by
  simp only [loadEff]
  split <;> simp [h]

@[simp] protected theorem storeEff {s : State} (h : s.Canonical) (size : Nat) (n : Nat) (b : Bool) (v : Word) :
    (storeEff size s n b v).Canonical := h.scheduleAt ..

@[simp] protected theorem stlabEff {s : State} (h : s.Canonical) (n : Nat) (b : Bool) (v : Word) :
    (stlabEff s n b v).Canonical := h.scheduleAt ..

@[simp] protected theorem stcapEff {s : State} (h : s.Canonical) (n : Nat) (b : Bool) (v : Word) :
    (stcapEff s n b v).Canonical := h.scheduleAt ..

@[simp] protected theorem capEff {s : State} (h : s.Canonical) (f : State → Nat → Cap → Word → Cap) (n : Nat) (b : Bool) (v : Word) :
    (capEff f s n b v).Canonical := h.schedule ..

@[simp] protected theorem inspectEff {s : State} (h : s.Canonical) (f : Cap → Word) (n : Nat) (b : Bool) (v : Word) :
    (inspectEff f s n b v).Canonical := h.schedule ..

@[simp] protected theorem cmoveEff {s : State} (h : s.Canonical) (n : Nat) (b : Bool) (v : Word) : (cmoveEff s n b v).Canonical := by
  simp only [cmoveEff]
  split <;> simp [h]

@[simp] protected theorem setHand {s : State} (h : s.Canonical) (owner i : Nat) (e : HandEnt) :
    (s.setHand owner i e).Canonical := h.modCore _ fun _ hk => hk

@[simp] protected theorem handEff {s : State} (h : s.Canonical) (n : Nat) (b : Bool) (v : Word) : (handEff s n b v).Canonical := by
  simp only [handEff]
  split <;> simp [h]

@[simp] protected theorem handDone {s : State} (h : s.Canonical) (owner i holder : Nat) : (handDone s owner i holder).Canonical := by
  simp only [handDone]
  split
  · exact h.setHand ..
  · exact h

end Sys2Proof.Machine.State.Canonical
end

section
/-! O58, the functions of the model:
the vector units, the press, control and system operations, delivery, bundles and locks. -/

namespace Sys2Proof.Machine.State.Canonical

/-! The functions of Machine/Vector.lean. -/

@[simp] protected theorem vaEff {s : State} (h : s.Canonical) (u k : Nat) (op : VaOp) (n : Nat) (e : Ext) (m : Nat) (b : Bool)
    (v : Word) :
    (vaEff u k op n e s m b v).Canonical := by simp [vaEff, h]

@[simp] protected theorem busyFor {s : State} (h : s.Canonical) (c r n : Nat) :
    (s.busyFor c r n).Canonical := h.modCore _ fun _ hk => hk

@[simp] protected theorem sfEff {s : State} (h : s.Canonical) (op : SfOp) (e : Ext) (n : Nat) (b : Bool) (v : Word) :
    (sfEff op e s n b v).Canonical := by
  simp only [sfEff]
  exact ((h.modCore _ fun _ hk => by simpa using hk).busyFor ..).schedule ..

/-! The functions of Machine/VectorMem.lean. -/

@[simp] protected theorem vmLast {s : State} (h : s.Canonical) (c : Nat) (e : Ext) (d a b : Bool) :
    (vmLast s c e d a b).Canonical := by simp [vmLast, h]

@[simp] protected theorem vmLdEff {s : State} (h : s.Canonical) (e : Ext) (n : Nat) (b : Bool) (v : Word) :
    (vmLdEff e s n b v).Canonical := by
  simp only [vmLdEff]
  split <;> simp [h]

@[simp] protected theorem vmStEff {s : State} (h : s.Canonical) (e : Ext) (n : Nat) (b : Bool) (v : Word) :
    (vmStEff e s n b v).Canonical := by simp [vmStEff, h]

@[simp] protected theorem gatherFrom {s : State} (h : s.Canonical) (c : Nat) (e : Ext) (v : Word) (k : Core) (l : List Nat) :
    (gatherFrom s c e v k l).Canonical := by
  induction l generalizing s with
  | nil => exact h
  | cons x xs ih =>
    exact ih ((h.schedule ..).ite (h.schedule ..))

@[simp] protected theorem vmLdxEff {s : State} (h : s.Canonical) (e : Ext) (n : Nat) (b : Bool) (v : Word) :
    (vmLdxEff e s n b v).Canonical := by
  simp only [vmLdxEff]
  split <;> simp [h]

@[simp] protected theorem scatterTo {s : State} (h : s.Canonical) (c : Nat) (e : Ext) (v : Word) (k : Core) (due : Nat)
    (l : List Nat) :
    (scatterTo s c e v k due l).Canonical := by
  induction l generalizing s with
  | nil => exact h
  | cons x xs ih => exact ih (h.scheduleAt ..)

@[simp] protected theorem vmStxEff {s : State} (h : s.Canonical) (e : Ext) (n : Nat) (b : Bool) (v : Word) :
    (vmStxEff e s n b v).Canonical := by simp [vmStxEff, h]

@[simp] protected theorem vmMovEff {s : State} (h : s.Canonical) (e : Ext) (n : Nat) (b : Bool) (v : Word) :
    (vmMovEff e s n b v).Canonical := by
  simp only [vmMovEff]
  split
  · exact (h.vmLast ..).schedule ..
  · exact h.schedule ..
  · exact ((h.vmLast ..).busyFor ..).schedule ..

@[simp] protected theorem vmBcastEff {s : State} (h : s.Canonical) (e : Ext) (n : Nat) (b : Bool) (v : Word) :
    (vmBcastEff e s n b v).Canonical := h.schedule ..

@[simp] protected theorem vmLaneEff {s : State} (h : s.Canonical) (e : Ext) (n : Nat) (b : Bool) (v : Word) :
    (vmLaneEff e s n b v).Canonical := by
  unfold vmLaneEff
  split <;> simp [h]

@[simp] protected theorem vmPermEff {s : State} (h : s.Canonical) (e : Ext) (n : Nat) (b : Bool) (v : Word) :
    (vmPermEff e s n b v).Canonical := by simp [vmPermEff, h]

@[simp] protected theorem vmShufEff {s : State} (h : s.Canonical) (e : Ext) (n : Nat) (b : Bool) (v : Word) :
    (vmShufEff e s n b v).Canonical := by simp [vmShufEff, h]

@[simp] protected theorem vmConvEff {s : State} (h : s.Canonical) (op : ConvOp) (e : Ext) (n : Nat) (b : Bool) (v : Word) :
    (vmConvEff op e s n b v).Canonical := by simp [vmConvEff, h]

@[simp] protected theorem vmDecodeEff {s : State} (h : s.Canonical) (e : Ext) (n : Nat) (b : Bool) (v : Word) :
    (vmDecodeEff e s n b v).Canonical := by
  simp only [vmDecodeEff]
  split <;> simp [h]

@[simp] protected theorem vmEncodeEff {s : State} (h : s.Canonical) (e : Ext) (n : Nat) (b : Bool) (v : Word) :
    (vmEncodeEff e s n b v).Canonical := by simp [vmEncodeEff, h]

@[simp] protected theorem vmPushEff {s : State} (h : s.Canonical) (e : Ext) (n : Nat) (b : Bool) (v : Word) :
    (vmPushEff e s n b v).Canonical := by
  simp only [vmPushEff]
  exact ((h.vmLast ..).ite ((h.vmLast ..).schedule ..)).schedule ..

@[simp] protected theorem vmPopEff {s : State} (h : s.Canonical) (e : Ext) (n : Nat) (b : Bool) (v : Word) :
    (vmPopEff e s n b v).Canonical := by simp [vmPopEff, h]

@[simp] protected theorem maskEff {s : State} (h : s.Canonical) (f : Mask → Mask → Mask) (e : Ext) (n : Nat) (b : Bool) (v : Word) :
    (maskEff f e s n b v).Canonical := h.schedule ..

@[simp] protected theorem mcountEff {s : State} (h : s.Canonical) (e : Ext) (n : Nat) (b : Bool) (v : Word) :
    (mcountEff e s n b v).Canonical := h.schedule ..

@[simp] protected theorem lendEff {s : State} (h : s.Canonical) (on : Bool) (n : Nat) (b : Bool) (v : Word) :
    (lendEff on s n b v).Canonical := h.schedule ..

@[simp] protected theorem setfmtEff {s : State} (h : s.Canonical) (e : Ext) (n : Nat) (b : Bool) (v : Word) :
    (setfmtEff e s n b v).Canonical := h.schedule ..

/-! The functions of Machine/PressOps.lean. -/

@[simp] protected theorem caskReads {s : State} (h : s.Canonical) (c : Nat) (v : Word) (n m : Nat) :
    (caskReads s c v n m).Canonical := by
  induction m generalizing s n with
  | zero => exact h
  | succ m ih => exact ih (h.schedule ..) (n + 1)

@[simp] protected theorem caskEff {s : State} (h : s.Canonical) (n : Nat) (b : Bool) (v : Word) :
    (caskEff s n b v).Canonical := by simp [caskEff, h]

@[simp] protected theorem passReads {s : State} (h : s.Canonical) (c : Nat) (v : Word) (zeroFirst : Bool) (w n m : Nat) :
    (passReads s c v zeroFirst w n m).Canonical := by
  induction m generalizing s n with
  | zero => exact h
  | succ m ih => exact ih (h.schedule ..) (n + 1)

@[simp] protected theorem mmEff {s : State} (h : s.Canonical) (zeroFirst : Bool) (n : Nat) (b : Bool) (v : Word) :
    (mmEff zeroFirst s n b v).Canonical := (((h.busyFor ..).busyFor ..).busyFor ..).passReads ..

@[simp] protected theorem zeroEff {s : State} (h : s.Canonical) (n : Nat) (b : Bool) (v : Word) :
    (zeroEff s n b v).Canonical := by simp [zeroEff, h]

/-! The functions of Machine/Control.lean. -/

@[simp] protected theorem modLatch {s : State} (h : s.Canonical) (c : Nat) (f : Latch → Latch) :
    (s.modLatch c f).Canonical := h.modCore _ fun _ hk => hk

@[simp] protected theorem brEff {s : State} (h : s.Canonical) (n : Nat) (b : Bool) (v : Word) :
    (brEff s n b v).Canonical := h.modCore _ fun _ hk => hk

@[simp] protected theorem jumpEff {s : State} (h : s.Canonical) (kind : Xfer) (n : Nat) (b : Bool) (v : Word) :
    (jumpEff kind s n b v).Canonical := h.modCore _ fun _ hk => hk

@[simp] protected theorem retEff {s : State} (h : s.Canonical) (n : Nat) (b : Bool) (v : Word) :
    (retEff s n b v).Canonical := h.modCore _ fun _ hk => hk

@[simp] protected theorem loopEff {s : State} (h : s.Canonical) (n : Nat) (b : Bool) (v : Word) :
    (loopEff s n b v).Canonical := h.modCore _ fun _ hk => hk

@[simp] protected theorem rotEff {s : State} (h : s.Canonical) (n : Nat) (b : Bool) (v : Word) :
    (rotEff s n b v).Canonical := h.modCore _ fun _ hk => hk

@[simp] protected theorem lockEff {s : State} (h : s.Canonical) (n : Nat) (b : Bool) (v : Word) :
    (lockEff s n b v).Canonical := h.modCore _ fun _ hk => hk

@[simp] protected theorem endtaskEff {s : State} (h : s.Canonical) (n : Nat) (b : Bool) (v : Word) :
    (endtaskEff s n b v).Canonical := h.modCore _ fun _ hk => hk

@[simp] protected theorem trapEff {s : State} (h : s.Canonical) (n : Nat) (b : Bool) (v : Word) :
    (trapEff s n b v).Canonical := h.modCore _ fun _ hk => hk

/-! The functions of Machine/System.lean. -/

@[simp] protected theorem syOut {s : State} (h : s.Canonical) (c n : Nat) : (syOut s c n).Canonical := h.schedule ..

@[simp] protected theorem csrrEff {s : State} (h : s.Canonical) (n : Nat) (b : Bool) (v : Word) :
    (csrrEff s n b v).Canonical := h.schedule ..

@[simp] protected theorem csrEff {s : State} (h : s.Canonical) (kind : CsrKind) (n : Nat) (b : Bool) (v : Word) :
    (csrEff kind s n b v).Canonical := h.schedule ..

@[simp] protected theorem ecallEff {s : State} (h : s.Canonical) (n : Nat) (b : Bool) (v : Word) :
    (ecallEff s n b v).Canonical := h.modCore _ fun _ hk => hk

@[simp] protected theorem tretEff {s : State} (h : s.Canonical) (n : Nat) (b : Bool) (v : Word) :
    (tretEff s n b v).Canonical := h.modCore _ fun _ hk => hk

@[simp] protected theorem haltEff {s : State} (h : s.Canonical) (n : Nat) (b : Bool) (v : Word) :
    (haltEff s n b v).Canonical := h.modCore _ fun _ hk => hk

@[simp] protected theorem sysEff {s : State} (h : s.Canonical) (op : Nat) (n : Nat) (b : Bool) (v : Word) :
    (sysEff op s n b v).Canonical := by
  simp only [sysEff]
  split
  · exact h.syOut ..
  · exact ((h.modLatch ..).schedule ..).syOut ..

@[simp] protected theorem startSys {s : State} (h : s.Canonical) (c : Nat) (o : SysOp) : (startSys s c o).Canonical := by
  unfold startSys
  split <;> simp [h]

/-! The functions of Machine/Delivery.lean. -/

@[simp] protected theorem startMon {s : State} (h : s.Canonical) (c id : Nat) (m : Monitor) : (startMon s c id m).Canonical := by
  unfold startMon
  split
  · exact h
  · exact h.modCore _ fun _ hk => hk

@[simp] protected theorem withdrawBooking {s : State} (h : s.Canonical) (c id : Nat) (x : Send) :
    (withdrawBooking s c id x).Canonical := h

@[simp] protected theorem startFence {s : State} (h : s.Canonical) (c : Nat) (f : Fence) :
    (startFence s c f).Canonical := h.modCore _ fun _ hk => hk

protected theorem unlessStopped {s t : State} (h : s.Canonical) (ht : t.Canonical) (c : Nat) : (unlessStopped s t c).Canonical := by
  unfold unlessStopped
  split
  · exact h
  · exact ht

@[simp] protected theorem lockArrive {s : State} (h : s.Canonical) (c g : Nat) : (lockArrive s c g).Canonical := by
  unfold lockArrive
  (repeat' split) <;> simp [h]

@[simp] protected theorem garriveTaken {s : State} (h : s.Canonical) (c issue : Nat) (g : Garr) :
    (garriveTaken s c issue g).Canonical := by
  unfold garriveTaken
  split <;> simp [h]

@[simp] protected theorem deliverAct {s : State} (h : s.Canonical) (c : Nat) (p : Pend) : (deliverAct s c p).Canonical := by
  unfold deliverAct
  split
  case h_1 => exact (h.csrWrite ..).modCore _ fun _ hk => hk
  case h_2 => exact h.modCore _ fun _ hk => hk
  case h_3 => exact h.startRack ..
  case h_4 => exact h.cancelRack ..
  case h_5 => exact h.startMon ..
  case h_6 => exact (h.withdrawBooking ..).ite (h.startSend ..)
  case h_7 => exact h.unlessStopped (h.startFence ..) c
  case h_8 => exact h.startSys ..
  case h_9 => exact h.unlessStopped (h.garriveTaken ..) c
  case h_10 => exact h.startGcast ..
  case h_11 => exact h.lockArrive ..
  case h_12 => exact h.addFlag ..
  case h_13 => exact h.endLoop ..
  case h_14 => exact h.modCore _ fun _ hk => hk
  case h_15 => exact h.modCore c fun _ hk => by simpa using hk

@[simp] protected theorem deliverRanks {s : State} (h : s.Canonical) (c : Nat) (due : List Pend) (n m : Nat) :
    (deliverRanks s c due n m).Canonical := by
  fun_induction deliverRanks with
  | case1 => exact h
  | case2 s lo n ih => exact ih (h.foldl (fun _ _ h => h.deliverAct ..) _)

@[simp] protected theorem execResultDelivery {s : State} (h : s.Canonical) (c : Nat) :
    Ans.Canonical (execResultDelivery c s) := State.Canonical.deliverRanks (h.modCore _ fun _ hk => by exact hk) ..

@[simp] protected theorem performWrite {s : State} (h : s.Canonical) (c : Nat) (p : Pend) : (performWrite s c p).Canonical := by
  unfold performWrite
  split
  · exact h.modCore _ fun _ hk => hk.putStore ..
  · exact (h.modCore _ fun _ hk => by exact hk).modCore _ fun _ hk => hk.putStore ..
  · exact h.modCore _ fun _ hk => hk.setFlag ..
  · exact h.handDone ..
  · exact h

@[simp] protected theorem addResult {s : State} (h : s.Canonical) (c : Nat) (p : Pend) (n : Nat) (a : Act) :
    (addResult s c p n a).Canonical := h.modCore _ fun _ hk => hk

@[simp] protected theorem performRead {s : State} (h : s.Canonical) (c : Nat) (p : Pend) : (performRead s c p).Canonical := by
  unfold performRead
  split
  case h_6 => exact h.modCore c fun _ hk => hk.foldl (fun k j hk => by simpa using hk) _
  case h_7 => exact h
  case h_5 => exact h.modCore _ fun _ hk => hk
  all_goals exact h.addResult ..

@[simp] protected theorem execTimedAccessPerform {s : State} (h : s.Canonical) (c : Nat) (reads : Bool) :
    Ans.Canonical (execTimedAccessPerform c reads s) := by
  have dropped : (s.modCore c fun k => k.dropActs s.tick fun r => if reads then r == 9 else r == 8).Canonical := h.modCore _ fun _ hk => hk
  cases reads with
  | true => exact dropped.foldl (fun _ _ h => h.performRead ..) _
  | false => exact dropped.foldl (fun _ _ h => h.performWrite ..) _

@[simp] protected theorem execResourceFree {s : State} (h : s.Canonical) (c : Nat) :
    Ans.Canonical (execResourceFree c s) := h.modCore _ fun _ hk => hk

/-! The functions of Machine/Bundle.lean. -/

@[simp] protected theorem issueChecked {s : State} (h : s.Canonical) (c : Nat) (motor : Bool) (pc hd : Nat) (ps : List Parts) :
    (issueChecked s c motor pc hd ps).Canonical := by
  simp only [issueChecked]
  split
  · split
    · exact h.raiseFault ..
    · exact h.retry ..
  · split
    · exact h.retry ..
    · split
      · exact h.retry ..
      · exact h.raiseFault ..
      · simp [h]

@[simp] protected theorem execBundleIssue {s : State} (h : s.Canonical) (c : Nat) (motor : Bool) :
    Ans.Canonical (execBundleIssue c motor s) := by
  simp only [execBundleIssue]
  (repeat' split) <;> simp [h]

@[simp] protected theorem makeCall {s : State} (h : s.Canonical) (c : Nat) (l : Latch) (code : Nat) (arg i3 : Word) :
    (makeCall s c l code arg i3).Canonical := by simp [makeCall, h]

@[simp] protected theorem takeTrap {s : State} (h : s.Canonical) (c : Nat) (l : Latch) (code slot : Nat) :
    (takeTrap s c l code slot).Canonical := by
  simp only [takeTrap]
  exact (((h.log ..).trapTo ..).ite (((h.log ..).trapTo ..).ite (h.log ..))).haltStream ..

@[simp] protected theorem endMotor {s : State} (h : s.Canonical) (c : Nat) : (endMotor s c).Canonical := h.modCore _ fun _ hk => hk

@[simp] protected theorem ctlEnd {s : State} (h : s.Canonical) (c : Nat) (l : Latch) (x : Ctl) : (ctlEnd s c l x).Canonical := by
  unfold ctlEnd
  (repeat' split) <;> simp [h]

@[simp] protected theorem finishBundle {s : State} (h : s.Canonical) (c : Nat) : (finishBundle s c).Canonical := by
  simp only [finishBundle]
  refine ((State.Canonical.scheduleAll ?_ ..).ctlEnd ..).ctlEnd ..
  split
  · exact (h.modCore c fun _ hk => by simpa using hk).modCore _ fun _ hk => hk
  · exact h.modCore c fun _ hk => by simpa using hk

/-! The functions of Machine/Locks.lean. -/

@[simp] protected theorem modTt {s : State} (h : s.Canonical) (part : Nat) (f : Timetable → Timetable) :
    (s.modTt part f).Canonical := h.modPart ..

protected theorem modCores {s : State} (h : s.Canonical) {f : Core → Core} (l : List Nat)
    (hf : ∀ k, k.mem.Canonical → (f k).mem.Canonical) : (s.modCores f l).Canonical := by
  induction l generalizing s with
  | nil => exact h
  | cons x xs ih => exact ih (h.modCore x hf)

@[simp] protected theorem execLockOpen {s : State} (h : s.Canonical) (part group : Nat) :
    Ans.Canonical (execLockOpen part group s) := by
  unfold execLockOpen
  (repeat' split) <;> simp [h]

@[simp] protected theorem rebaseMembers {s : State} (h : s.Canonical) (t : Timetable) (l : List Nat) :
    (rebaseMembers s t l).Canonical := by
  induction l generalizing s with
  | nil => exact h
  | cons x xs ih => exact ih (h.modCore _ fun _ hk => by exact hk)

@[simp] protected theorem settleIslands {s : State} (h : s.Canonical) (pace : Nat) (l : List Nat) :
    (s.settleIslands pace l).Canonical := by
  induction l generalizing s with
  | nil => exact h
  | cons x xs ih => exact ih h

@[simp] protected theorem settlePart {s : State} (h : s.Canonical) (part pace : Nat) : (s.settlePart part pace).Canonical := by
  unfold State.settlePart
  split <;> simp [h]

@[simp] protected theorem leaveTiles {s : State} (h : s.Canonical) (part : Nat) (p : Partition) : (s.leaveTiles part p).Canonical := h

@[simp] protected theorem freePartHands {s : State} (h : s.Canonical) (part : Nat) (p : Partition) :
    (freePartHands s part p).Canonical := h.mapCores fun _ _ hk => by simpa using hk

@[simp] protected theorem rebaseAll {s : State} (h : s.Canonical) (part : Nat) (t : Timetable) : (rebaseAll s part t).Canonical := by
  unfold rebaseAll
  split <;> simp [h]

@[simp] protected theorem execLockRebase {s : State} (h : s.Canonical) (part group : Nat) :
    Ans.Canonical (execLockRebase part group s) := by
  unfold execLockRebase
  split
  · split
    · split
      · exact h
      · split
        · exact ((((h.rebaseMembers ..).modGroup ..).modTt ..).rebaseAll ..).modTt ..
        · exact ((h.rebaseMembers ..).modGroup ..).modTt ..
    · exact h
  · exact h

@[simp] protected theorem lockStops {s : State} (h : s.Canonical) (part : Nat) (p : Partition) (g : Group) (status : Nat) :
    (lockStops s part p g status).Canonical := by simp [lockStops, h]

@[simp] protected theorem execLockTimeout {s : State} (h : s.Canonical) (part group : Nat) :
    Ans.Canonical (execLockTimeout part group s) := by
  unfold execLockTimeout
  (repeat' split) <;> simp [h]

@[simp] protected theorem execDryLock {s : State} (h : s.Canonical) (part group : Nat) : Ans.Canonical (execDryLock part group s) := by
  unfold execDryLock
  (repeat' split) <;> simp [h]

@[simp] protected theorem execGarriveRecorded {s : State} (h : s.Canonical) (part group core : Nat) :
    Ans.Canonical (execGarriveRecorded part group core s) := by
  simp only [execGarriveRecorded]
  split <;> simp [h]

@[simp] protected theorem execGroupFlagIncrement {s : State} (h : s.Canonical) (part idx : Nat) :
    Ans.Canonical (execGroupFlagIncrement part idx s) := by
  unfold execGroupFlagIncrement
  (repeat' split) <;> simp [h]

@[simp] protected theorem execGcastIncrement {s : State} (h : s.Canonical) (part idx : Nat) :
    Ans.Canonical (execGcastIncrement part idx s) := by
  simp only [execGcastIncrement]
  (repeat' split) <;> simp [h]

@[simp] protected theorem execFwaitSatisfied {s : State} (h : s.Canonical) (core : Nat) :
    Ans.Canonical (execFwaitSatisfied core s) := by
  simp only [execFwaitSatisfied]
  split
  · exact h.setCore core (h.core core)
  · exact h

@[simp] protected theorem execFwaitTimeout {s : State} (h : s.Canonical) (core : Nat) : Ans.Canonical (execFwaitTimeout core s) := by
  unfold execFwaitTimeout
  split
  · exact h.setCore core (h.core core)
  · exact h

@[simp] protected theorem execReachOverrun {s : State} (h : s.Canonical) (core : Nat) : Ans.Canonical (execReachOverrun core s) := by
  unfold execReachOverrun
  split <;> simp [h]

end Sys2Proof.Machine.State.Canonical
end

section
/-! O58, the functions of the model:
the cellar, sealing, translation, frames of contexts and the rack engine. -/

namespace Sys2Proof.Machine.State.Canonical

/-! The functions of Machine/Cellar.lean. -/

@[simp] protected theorem withCellar {s : State} (h : s.Canonical) {k : Cellar} (w : Memory.wf k.bytes = true) (part : Nat) :
    (s.withCellar k part).Canonical := (h.setCellar w).modPart ..

@[simp] protected theorem hitMonitors {s : State} (h : s.Canonical) (part by_ space line : Nat) :
    (s.hitMonitors part by_ space line).Canonical := h.mapCores fun _ _ hk => by split <;> exact hk

@[simp] protected theorem logLines {s : State} (h : s.Canonical) (part : Nat) (lines : List Nat) :
    (s.logLines part lines).Canonical := by
  unfold State.logLines
  exact h.foldl (fun _ _ h => by simp [h]) _

protected theorem putCellar {s t : State} (h : s.Canonical) {by_ pa : Nat} {new : List Byte} {label : Option (BitVec 16)}
    (e : s.putCellar by_ pa new label = some t) :
    t.Canonical := by
  obtain ⟨k, put, rfl⟩ := Option.map_eq_some_iff.mp e
  exact ((h.logLines ..).withCellar (Cellar.put_wf h.cellar put) _).hitMonitors ..

@[simp] protected theorem putOrLog {s : State} (h : s.Canonical) (by_ pa : Nat) (new : List Byte) (label : Option (BitVec 16)) :
    (s.putOrLog by_ pa new label).Canonical := by
  unfold State.putOrLog
  cases e : s.putCellar by_ pa new label with
  | none => exact h.logLines ..
  | some t => exact h.putCellar e

@[simp] protected theorem logRead {s : State} (h : s.Canonical) (part line : Nat) : (s.logRead part line).Canonical := by
  unfold State.logRead
  split <;> simp [h]

@[simp] protected theorem countGranule {s : State} (h : s.Canonical) (g : Nat) : (s.countGranule g).Canonical := h

@[simp] protected theorem countAccess {s : State} (h : s.Canonical) (first pa n : Nat) : (s.countAccess first pa n).Canonical := by
  unfold State.countAccess
  exact h.foldl (fun _ _ h => by simp [h]) _

@[simp] protected theorem cache {s : State} (h : s.Canonical) (part line : Nat) : (s.cache part line).Canonical := by
  unfold State.cache
  split <;> simp [h]

@[simp] protected theorem uncache {s : State} (h : s.Canonical) (part : Nat) (gone : Nat → Bool) : (s.uncache part gone).Canonical := h

@[simp] protected theorem giveUp {s : State} (h : s.Canonical) (part : Nat) (lines : List Nat) : (s.giveUp part lines).Canonical := h

@[simp] protected theorem putHost {s : State} (h : s.Canonical) (part by_ ga : Nat) (new : List Byte) :
    (s.putHost part by_ ga new).Canonical := by
  have hit := (h.setHost (wf_writeBytes _ ga new (h.hostMem part)) part).foldl
    (fun _ l h => h.hitMonitors part by_ 4 l) (linesOver ga new.length)
  simp only [State.putHost]
  split
  · exact hit.uncache ..
  · exact hit

@[simp] protected theorem hostWrites {s : State} (h : s.Canonical) (part : Nat) (l : List (Nat × Byte)) :
    (s.hostWrites part l).Canonical := by
  induction l generalizing s with
  | nil => exact h
  | cons x xs ih => exact ih (h.putHost ..)

@[simp] protected theorem readCellar {s : State} (h : s.Canonical) (lines : List Nat) : (s.readCellar lines).Canonical := h

@[simp] protected theorem readHost {s : State} (h : s.Canonical) (part line : Nat) : (s.readHost part line).Canonical := h

@[simp] protected theorem logIntegrity {s : State} (h : s.Canonical) (c part pa : Nat) : (s.logIntegrity c part pa).Canonical := h

@[simp] protected theorem logFence {s : State} (h : s.Canonical) (part pa : Nat) : (s.logFence part pa).Canonical := h

/-! The functions of Machine/Sealing.lean. -/

@[simp] protected theorem takeFree {s : State} (h : s.Canonical) : (s.takeFree).2.Canonical := h

@[simp] protected theorem freeIv {s : State} (h : s.Canonical) : (freeIv s).2.Canonical := h

/-! The functions of Machine/Translate.lean. -/

@[simp] protected theorem fillFirst {s : State} (h : s.Canonical) (c tag key e : Nat) :
    (s.fillFirst c tag key e).Canonical := h.modCore _ fun _ hk => hk

@[simp] protected theorem fillCluster {s : State} (h : s.Canonical) (c part space key e : Nat) :
    (s.fillCluster c part space key e).Canonical := by
  unfold State.fillCluster
  split <;> simp [h]

@[simp] protected theorem lookup {s : State} (h : s.Canonical) (c part space va : Nat) : (lookup s c part space va).1.Canonical := by
  simp only [lookup]
  (repeat' split) <;> simp [h]

protected theorem meetMigration {s t : State} (h : s.Canonical) {part va : Nat} {wr : Bool} (e : meetMigration s part va wr = some t) :
    t.Canonical := by
  unfold meetMigration at e
  split at e
  · split at e
    · cases e; exact h
    · split at e
      · cases e
      · split at e <;> cases e
        · exact h.modPart ..
        · exact h
  · cases e; exact h

@[simp] protected theorem translate {s : State} (h : s.Canonical) (c part space va : Nat) (wr : Bool) :
    (translate s c part space va wr).1.Canonical := by
  have looked := h.lookup c part space va
  simp only [translate]
  split
  · split
    · exact looked
    · split
      · exact looked
      · split
        · next e => exact looked.meetMigration e
        · exact looked
  · exact looked
  · exact looked

@[simp] protected theorem resolveFor {s : State} (h : s.Canonical) (part c : Nat) (cap : Cap) (off : Nat) (wr : Bool) :
    (resolveFor s part c cap off wr).1.Canonical := by
  unfold resolveFor
  (repeat' split) <;> simp [h]

@[simp] protected theorem resolveAllFor {s : State} (h : s.Canonical) (part c : Nat) (cap : Cap) (wr : Bool) (l : List (Nat × Nat)) :
    (resolveAllFor s part c cap wr l).1.Canonical := by
  induction l generalizing s with
  | nil => exact h
  | cons x l ih =>
    unfold resolveAllFor
    split
    · next e => split <;> next e2 => exact (ih ((h.resolveFor ..).of_pair e)).of_pair e2
    · next e => exact (h.resolveFor ..).of_pair e

@[simp] protected theorem resolveAll {s : State} (h : s.Canonical) (c : Nat) (cap : Cap) (wr : Bool) (rs : List (Nat × Nat)) :
    (resolveAll s c cap wr rs).1.Canonical := by simp [resolveAll, h]

protected theorem writePlace {s t : State} (h : s.Canonical) {c : Nat} {p : Place} {bs : List Byte} {label : Option (BitVec 16)}
    (e : writePlace s c p bs label = .ok t) :
    t.Canonical := by
  unfold writePlace at e
  split at e
  · cases e; exact h.modCore _ fun _ hk => hk.portStore ..
  · split at e
    · next put => cases e; exact h.putCellar put
    · cases e
  · cases e; exact h.putHost ..

protected theorem writePlaces {s t : State} (h : s.Canonical) {c : Nat} {l : List (Place × Nat)} {bs : List Byte}
    {label : Option (BitVec 16)} (e : writePlaces s c l bs label = .ok t) :
    t.Canonical := by
  induction l generalizing s bs with
  | nil => cases e; exact h
  | cons x l ih =>
    unfold writePlaces at e
    split at e
    · next first => exact ih (h.writePlace first) e
    · cases e

@[simp] protected theorem markPlace {s : State} (h : s.Canonical) (p : Place) : (markPlace s p).Canonical := by
  unfold markPlace
  split
  · exact h.modCore _ fun _ hk => hk
  · exact h.readCellar ..
  · exact (h.readHost ..).cache ..

@[simp] protected theorem haveRead {s : State} (h : s.Canonical) (ps : List (Place × Nat)) : (haveRead s ps).Canonical := by
  unfold haveRead
  exact h.foldl (fun _ _ h => by simp [h]) _

@[simp] protected theorem countPlaces {s : State} (h : s.Canonical) (first va : Nat) (l : List (Place × Nat)) :
    (countPlaces s first va l).Canonical := by
  induction l generalizing s va with
  | nil => exact h
  | cons x l ih =>
    refine ih ?_ _
    split
    · exact h.countAccess ..
    · exact h

@[simp] protected theorem dropTlb {s : State} (h : s.Canonical) (part : Nat) (gone : Nat → Nat → Bool) :
    (dropTlb s part gone).Canonical := by simp [dropTlb, h]

@[simp] protected theorem execTlbinvComplete {s : State} (h : s.Canonical) (part : Nat) :
    Ans.Canonical (execTlbinvComplete part s) := by
  unfold execTlbinvComplete
  (repeat' split) <;> simp [h]

/-! The functions of Machine/FrameMem.lean. -/

@[simp] protected theorem logSpace {s : State} (h : s.Canonical) (part va n : Nat) : (logSpace s part va n).Canonical := by
  unfold logSpace
  split <;> simp [h]

@[simp] protected theorem countSpace {s : State} (h : s.Canonical) (part va n : Nat) : (countSpace s part va n).Canonical := by
  refine h.foldl (fun s r h => ?_) _
  dsimp only
  split
  · exact h.countAccess ..
  · exact h

@[simp] protected theorem markLine {s : State} (h : s.Canonical) (part va : Nat) : (markLine s part va).Canonical := h.modPart ..

@[simp] protected theorem putSpace {s : State} (h : s.Canonical) (part by_ va : Nat) (bs : List Byte) (label : Option (BitVec 16)) :
    (putSpace s part by_ va bs label).Canonical := by
  unfold putSpace
  split <;> simp [h]

@[simp] protected theorem writeFrame {s : State} (h : s.Canonical) (part by_ va : Nat) (m : Store Byte) (n : Nat) :
    (writeFrame s part by_ va m n).Canonical := by
  induction n generalizing s with
  | zero => exact h
  | succ n ih => exact ih (h.putSpace ..)

@[simp] protected theorem frameBytes {s : State} (h : s.Canonical) (part by_ va off : Nat) (bs : List Byte) :
    (frameBytes s part by_ va off bs).Canonical := by simp [frameBytes, h]

@[simp] protected theorem frameFlag {s : State} (h : s.Canonical) (part by_ va f inc : Nat) :
    (frameFlag s part by_ va f inc).Canonical := by simp [frameFlag, h]

@[simp] protected theorem frameUntag {s : State} (h : s.Canonical) (part by_ va off n : Nat) :
    (frameUntag s part by_ va off n).Canonical := by
  refine h.foldl (fun s g h => ?_) _
  dsimp only
  split
  · exact h.frameBytes ..
  · exact h

@[simp] protected theorem framePad {s : State} (h : s.Canonical) (part by_ va off : Nat) (bs : List Byte)
    (label : Option (BitVec 16)) :
    (framePad s part by_ va off bs label).Canonical := by
  simp only [framePad]
  split
  · exact (((h.frameBytes ..).frameUntag ..).frameBytes ..).frameUntag ..
  · exact (h.frameBytes ..).frameUntag ..

@[simp] protected theorem framePut {s : State} (h : s.Canonical) (part by_ va off n v : Nat) :
    (framePut s part by_ va off n v).Canonical := by simp [framePut, h]

@[simp] protected theorem frameJournal {s : State} (h : s.Canonical) (part by_ va target reply addr : Nat) :
    (frameJournal s part by_ va target reply addr).Canonical := ((((h.framePut ..).framePut ..).framePut ..).framePut ..).framePut ..

@[simp] protected theorem journalReply {s : State} (h : s.Canonical) (part c target : Nat) (reply : Word) (va slot : Nat) :
    (journalReply s part c target reply va slot).Canonical := by
  simp only [journalReply]
  split
  · split
    · exact h
    · exact (h.frameJournal ..).modPart ..
  · exact h

@[simp] protected theorem poisonCtx {s : State} (h : s.Canonical) (part slot : Nat) : (poisonCtx s part slot).Canonical := by
  simp only [poisonCtx]
  split
  · split
    · exact (h.foldl (fun _ _ h => h.framePut ..) _).modPart ..
    · exact h
  · exact h

/-! The functions of Machine/RackEngine.lean. -/

@[simp] protected theorem pageFault {s : State} (h : s.Canonical) (c : Nat) (mon : Bool) (idx kind space va : Nat) (wr : Bool) :
    (pageFault s c mon idx kind space va wr).Canonical := by
  simp only [pageFault]
  split
  · exact ((h.log ..).modPart ..).trapTo ..
  · exact (h.log ..).modPart ..

@[simp] protected theorem rackStop {s : State} (h : s.Canonical) (c id : Nat) (r : Rack) (x : Stop) :
    (rackStop s c id r x).Canonical := by
  simp only [rackStop]
  split
  · exact (h.pageFault ..).modCore _ fun _ hk => hk
  · exact h.modCore _ fun _ hk => hk
  · exact (h.logIntegrity ..).modCore _ fun _ hk => hk
  · exact (h.logFence ..).modCore _ fun _ hk => hk

protected theorem payHost {s t : State} (h : s.Canonical) {c n : Nat} (e : payHost s c n = some t) : t.Canonical := by
  unfold payHost at e
  split at e
  · cases e; exact h
  · exact h.payTokens e

@[simp] protected theorem payEach {s : State} (h : s.Canonical) (c n m : Nat) : (payEach s c n m).1.Canonical := by
  induction n generalizing s m with
  | zero => exact h
  | succ n ih =>
    unfold payEach
    split
    · next e => exact ih (h.payHost e) _
    · exact h

@[simp] protected theorem payPart {s : State} (h : s.Canonical) (c id : Nat) (r : Rack) (need : Nat) :
    (payPart s c id r need).1.Canonical := by
  simp only [payPart]
  split
  · exact (h.payEach ..).modCore _ fun _ hk => hk
  · exact h.payEach ..

@[simp] protected theorem breakLine {s : State} (h : s.Canonical) (ps : List (Place × Nat)) : (breakLine s ps).Canonical := by
  unfold breakLine
  split <;> simp [h]

@[simp] protected theorem releaseRead {s : State} (h : s.Canonical) (c id : Nat) (cap : Cap) (off n : Nat) :
    (releaseRead s c id cap off n).Canonical := by
  unfold releaseRead
  split <;> simp [h]

@[simp] protected theorem copyLineOf {s : State} (h : s.Canonical) (c id : Nat) (r : Rack) (env : LineEnv) :
    (copyLineOf s c id r env).Canonical := by
  simp only [copyLineOf]
  split
  · exact h
  · split
    · next e => exact ((h.resolveAll ..).of_pair e).rackStop ..
    · next e =>
      have resolved := (h.resolveAll ..).of_pair e
      split
      · exact resolved.modCore _ fun _ hk => hk
      · split
        · next e2 => exact (resolved.payPart ..).of_pair e2
        · next e2 =>
          have paid := (resolved.payPart ..).of_pair e2
          split
          · exact ((paid.breakLine ..).ite paid).rackStop ..
          · exact (((((paid.breakLine ..).ite paid).countPlaces ..).haveRead ..).releaseRead ..).modCore _ fun _ hk => hk

@[simp] protected theorem partSlots {s : State} (h : s.Canonical) (c : Nat) (j : RackJob) (l : Nat) :
    (partSlots s c j l).1.Canonical := by
  simp only [partSlots]
  split <;> next e => exact (h.resolveAll ..).of_pair e

@[simp] protected theorem readyLine {s : State} (h : s.Canonical) (c : Nat) (j : RackJob) (l : Nat) :
    (readyLine s c j l).1.Canonical := by
  unfold readyLine
  split
  · next e => exact (h.resolveAll ..).of_pair e
  · next e =>
    have first := (h.resolveAll ..).of_pair e
    split
    · next e => exact (first.resolveAll ..).of_pair e
    · next e =>
      have second := (first.resolveAll ..).of_pair e
      split
      · next e => exact (second.partSlots ..).of_pair e
      · next e => exact (second.partSlots ..).of_pair e
      · next e =>
        have third := (second.partSlots ..).of_pair e
        split <;> exact third

@[simp] protected theorem readyLines {s : State} (h : s.Canonical) (c : Nat) (j : RackJob) (n l : Nat) :
    (readyLines s c j n l).1.Canonical := by
  induction n generalizing s l with
  | zero => exact h
  | succ n ih =>
    unfold readyLines
    split
    · next e => exact (h.readyLine ..).of_pair e
    · next e =>
      have first := (h.readyLine ..).of_pair e
      split
      · exact first
      · split <;> next e =>
          have rest := (ih first _).of_pair e
          split <;> assumption

@[simp] protected theorem resolveRuns {s : State} (h : s.Canonical) (c : Nat) (wr : Bool) (l : List Run) :
    (resolveRuns s c wr l).1.Canonical := by
  induction l generalizing s with
  | nil => exact h
  | cons x l ih =>
    unfold resolveRuns
    split
    · next e => exact (h.resolveAll ..).of_pair e
    · next e =>
      have first := (h.resolveAll ..).of_pair e
      split <;> next e => exact (ih first).of_pair e

@[simp] protected theorem readyPart {s : State} (h : s.Canonical) (c : Nat) (r : Rack) (p : Part) :
    (readyPart s c r p).1.Canonical := by
  unfold readyPart
  split
  · exact h.readyLines ..
  · split
    · next e => exact (h.resolveRuns ..).of_pair e
    · next e =>
      have first := (h.resolveRuns ..).of_pair e
      split <;> next e => exact (first.resolveAll ..).of_pair e

@[simp] protected theorem releasePart {s : State} (h : s.Canonical) (c id : Nat) (r : Rack) (p : Part) :
    (releasePart s c id r p).Canonical := by
  have released := h.foldl (fun _ (x : Cap × Nat × Nat) h => h.releaseRead c id x.1 x.2.1 x.2.2) p.reads
  simp only [releasePart]
  split
  · exact (h.ite released).modCore _ fun _ hk => hk
  · exact h.ite released

@[simp] protected theorem countPart {s : State} (h : s.Canonical) (r : Rack) (p : Part) (rd : Ready) :
    (countPart s r p rd).Canonical := by
  have counted := (h.foldl (fun _ (x : Nat × Nat × List (Place × Nat)) h => h.countPlaces x.1 x.2.1 x.2.2)
    (sourceRuns r p.src rd.src)).countPlaces (accessStart r p.dstAt) p.dstAt rd.dst
  simp only [countPart]
  exact (((counted.countPlaces ..).ite counted).countPlaces ..).countPlaces ..

@[simp] protected theorem partRead {s : State} (h : s.Canonical) (r : Rack) (rd : Ready) :
    (partRead s r rd).Canonical := by simp [partRead, h]

@[simp] protected theorem advanceRack {s : State} (h : s.Canonical) (c id : Nat) (r : Rack) (p : Part) (rd : Ready) (blk : Held)
    (st : BitVec 4) :
    (advanceRack s c id r p rd blk st).Canonical := (((h.partRead ..).countPart ..).releasePart ..).modCore _ fun _ hk => hk

protected theorem writeSlots {s t : State} (h : s.Canonical) {c : Nat} {rd : Ready} (e : writeSlots s c rd = .ok t) : t.Canonical := by
  unfold writeSlots at e
  split at e
  · exact h.writePlaces e
  · cases e

protected theorem writeLabelled {s t : State} (h : s.Canonical) {c : Nat} {l : List (Place × Nat)} {labels : List (Option (BitVec 16))}
    {bs : List Byte} (e : writeLabelled s c l labels bs = .ok t) : t.Canonical := by
  induction l generalizing s labels bs with
  | nil => cases e; exact h
  | cons x l ih =>
    unfold writeLabelled at e
    split at e
    · next first => exact ih (h.writePlace first) e
    · cases e

@[simp] protected theorem writePart {s : State} (h : s.Canonical) (c id : Nat) (r : Rack) (p : Part) (rd : Ready) (bs : List Byte)
    (labels : List (Option (BitVec 16))) (st : BitVec 4) : (writePart s c id r p rd bs labels st).Canonical := by
  unfold writePart
  split
  · exact h.rackStop ..
  · next e =>
    split
    · exact h.rackStop ..
    · next e2 => exact ((h.writeSlots e).writeLabelled e2).advanceRack ..

protected theorem movePart {s0 s : State} (h0 : s0.Canonical) (h : s.Canonical) (c id : Nat) (r : Rack) (p : Part) (rd : Ready)
    (env : LineEnv) :
    (movePart s0 s c id r p rd env).Canonical := by
  simp only [movePart]
  split
  · exact h.modCore _ fun _ hk => hk
  · split
    · exact h.modCore _ fun _ hk => hk
    · split
      · exact h0
      · split
        · next e => exact (h.payPart ..).of_pair e
        · next e =>
          have paid := (h.payPart ..).of_pair e
          split
          · exact ((paid.breakLine ..).ite paid).rackStop ..
          · split
            · exact ((paid.breakLine ..).ite paid).rackStop ..
            · exact ((paid.breakLine ..).ite paid).writePart ..

@[simp] protected theorem boundsFault {s : State} (h : s.Canonical) (c id : Nat) (r : Rack) (idx : Nat) :
    (boundsFault s c id r idx).Canonical := (h.pageFault ..).modCore _ fun _ hk => hk

@[simp] protected theorem startUpTo {s : State} (h : s.Canonical) (c seq : Nat) :
    (startUpTo s c seq).Canonical := h.modCore _ fun _ hk => hk

@[simp] protected theorem readList {s : State} (h : s.Canonical) (c id : Nat) : (readList s c id).Canonical := by
  simp only [readList]
  split
  · exact ((h.modCore _ fun _ hk => by exact hk).modCore _ fun _ hk => by exact hk).releaseRead ..
  · exact h

@[simp] protected theorem readLists {s : State} (h : s.Canonical) (c : Nat) : (readLists s c).Canonical := by
  unfold readLists
  exact h.foldl (fun _ _ h => by simp [h]) _

@[simp] protected theorem rackPart {s : State} (h : s.Canonical) (c id : Nat) (env : LineEnv) : (rackPart s c id env).Canonical := by
  simp only [rackPart]
  split
  · exact h.copyLineOf ..
  · split
    · exact h
    · split
      · exact h
      · split
        · exact h.boundsFault ..
        · split
          · next e => exact ((h.readyPart ..).of_pair e).rackStop ..
          · next e => exact h.movePart ((h.readyPart ..).of_pair e) ..

@[simp] protected theorem execRackLineTransfer {s : State} (h : s.Canonical) (core rack : Nat) (env : LineEnv) :
    Ans.Canonical (execRackLineTransfer core rack env s) := by
  simp only [execRackLineTransfer]
  split
  · exact h
  · split
    · exact ((((h.hostWrites ..).giveUp ..).startUpTo ..).readLists ..).rackPart ..
    · exact (h.hostWrites ..).giveUp ..

@[simp] protected theorem dropFaults {s : State} (h : s.Canonical) (c : Nat) (mon : Bool) (idx : Nat) :
    (dropFaults s c mon idx).Canonical := h.modPart ..

@[simp] protected theorem endRack {s : State} (h : s.Canonical) (c id : Nat) : (endRack s c id).Canonical :=
  (((((h.dropGuards ..).dropGuards ..).dropGuards ..).dropFaults ..).modCore _ fun _ hk => by exact hk).addFlag ..

@[simp] protected theorem execRackComplete {s : State} (h : s.Canonical) (core rack : Nat) :
    Ans.Canonical (execRackComplete core rack s) := by
  simp only [execRackComplete]
  split <;> simp [h]

@[simp] protected theorem endMonitor {s : State} (h : s.Canonical) (c id : Nat) (m : Monitor) :
    (endMonitor s c id m).Canonical := (h.modCore _ fun _ hk => by exact hk).addFlag ..

@[simp] protected theorem armMonitor {s : State} (h : s.Canonical) (c id : Nat) (m : Monitor) : (armMonitor s c id m).Canonical := by
  simp only [armMonitor]
  have got : (if m.direct then (s, directPlace s (s.enginePart c) m.space m.va false)
      else translate s c m.part m.space m.va false).1.Canonical := by
    split
    · exact h
    · exact h.translate ..
  split
  · next e => exact (got.of_pair e).modCore _ fun _ hk => hk
  · next e =>
    split
    · next paid => exact (((got.of_pair e).payHost paid).modCore _ fun _ hk => by exact hk).cache ..
    · exact h
  · next e => exact ((got.of_pair e).pageFault ..).modCore _ fun _ hk => hk
  · next e => exact ((got.of_pair e).logFence ..).endMonitor ..
  · next e => exact ((got.of_pair e).logIntegrity ..).endMonitor ..
  · exact h

@[simp] protected theorem execMonitorArmed {s : State} (h : s.Canonical) (core mon : Nat) :
    Ans.Canonical (execMonitorArmed core mon s) := by
  simp only [execMonitorArmed]
  (repeat' split) <;> simp [h]

@[simp] protected theorem execMonitorFire {s : State} (h : s.Canonical) (core mon : Nat) :
    Ans.Canonical (execMonitorFire core mon s) := by
  simp only [execMonitorFire]
  split
  · exact (h.modCore _ fun _ hk => by exact hk).addFlag ..
  · exact h

@[simp] protected theorem replyNow {s : State} (h : s.Canonical) (c : Nat) (mon : Bool) (idx : Nat) (abort : Bool) :
    (replyNow s c mon idx abort).Canonical := by
  simp only [replyNow]
  split
  · split
    · exact h
    · split
      · exact h.endMonitor ..
      · exact h.modCore _ fun _ hk => hk
  · split
    · exact h
    · split <;> exact h.modCore _ fun _ hk => hk

@[simp] protected theorem faultReply {s : State} (h : s.Canonical) (c : Nat) (mon : Bool) (idx : Nat) (abort : Bool) :
    (faultReply s c mon idx abort).Canonical := by
  simp only [faultReply]
  (repeat' split) <;> simp [h]

@[simp] protected theorem execFaultReplyResume {s : State} (h : s.Canonical) (core : Nat) (mon : Bool) (idx : Nat) :
    Ans.Canonical (execFaultReplyResume core mon idx s) := by simp [execFaultReplyResume, h]

@[simp] protected theorem execFaultReplyAbort {s : State} (h : s.Canonical) (core : Nat) (mon : Bool) (idx : Nat) :
    Ans.Canonical (execFaultReplyAbort core mon idx s) := by simp [execFaultReplyAbort, h]

@[simp] protected theorem dropPage {s : State} (h : s.Canonical) (part va : Nat) :
    (dropPage s part va).Canonical := by simp [dropPage, h]

@[simp] protected theorem writeEntry {s : State} (h : s.Canonical) (part a e : Nat) :
    (writeEntry s part a e).Canonical := by simp [writeEntry, h]

@[simp] protected theorem copyLine {s : State} (h : s.Canonical) (part old new i : Nat) : (copyLine s part old new i).Canonical := by
  have logged := (h.logRead part (old / 64 + i)).logLines part (s.cellar.rewriteFails (new / 64 + i))
  simp only [copyLine]
  split
  · exact logged.setCellar (Cellar.write_wf h.cellar ..)
  · exact logged.setCellar (Cellar.writePoison_wf h.cellar ..)

@[simp] protected theorem moveMonitors {s : State} (h : s.Canonical) (part va frame : Nat) :
    (moveMonitors s part va frame).Canonical := h.mapCores fun _ _ hk => hk

@[simp] protected theorem copyLines {s : State} (h : s.Canonical) (part old new marked : Nat) :
    (copyLines s part old new marked).Canonical := by
  unfold copyLines
  exact h.foldl (fun _ _ h => h.copyLine ..) _

@[simp] protected theorem migrateStep {s : State} (h : s.Canonical) (part va frame a : Nat) (m : Option Migration) (phase : MigPhase) :
    (migrateStep s part va frame a m phase).Canonical := by
  simp only [migrateStep]
  split
  · split
    · exact ((h.writeEntry ..).dropPage ..).modPart ..
    · exact h
  · split
    · exact (h.copyLines ..).modPart ..
    · exact h
  · split
    · exact (h.copyLines ..).modPart ..
    · exact h
  · split
    · exact h.modPart ..
    · exact h
  · split
    · exact ((((h.copyLines ..).writeEntry ..).dropPage ..).moveMonitors ..).modPart ..
    · exact h
  · exact h

@[simp] protected theorem execPageMigration {s : State} (h : s.Canonical) (part va frame : Nat) (phase : MigPhase) :
    Ans.Canonical (execPageMigration part va frame phase s) := by
  unfold execPageMigration
  (repeat' split) <;> simp [h]

@[simp] protected theorem putRuns {s : State} (h : s.Canonical) (pa : Nat) (l : List (Nat × Nat)) (l2 : List Byte) :
    (putRuns s pa l l2).Canonical := by
  induction l generalizing s l2 with
  | nil => exact h
  | cons r l ih => exact ih (h.putOrLog ..) _

@[simp] protected theorem execHostCxlMemWrite {s : State} (h : s.Canonical) (pa : Nat) (data : List Byte) :
    Ans.Canonical (execHostCxlMemWrite pa data s) := by
  unfold execHostCxlMemWrite
  split <;> simp [h]

end Sys2Proof.Machine.State.Canonical
end

section
/-! O58, the functions of the model:
traps, the keeper, the events of the fabric and pre-emption. -/

namespace Sys2Proof.Machine.State.Canonical

/-! The functions of Machine/Traps.lean. -/

@[simp] protected theorem execTrapHandlerEntry {s : State} (h : s.Canonical) (core : Nat) :
    Ans.Canonical (execTrapHandlerEntry core s) := by
  unfold execTrapHandlerEntry
  split <;> simp [h]

@[simp] protected theorem replyCall {s : State} (h : s.Canonical) (c : Nat) (r : TrapRec) (v : Word) :
    (replyCall s c r v).Canonical := by
  unfold replyCall
  split <;> simp [h]

@[simp] protected theorem replySuspended {s : State} (h : s.Canonical) (part slot c recId : Nat) (v : Word) (saved : Core) :
    (replySuspended s part slot c recId v saved).Canonical := by
  simp only [replySuspended]
  (repeat' split) <;> simp [h]

@[simp] protected theorem execEcallReply {s : State} (h : s.Canonical) (core recId : Nat) (v : Word) :
    Ans.Canonical (execEcallReply core recId v s) := by
  simp only [execEcallReply]
  (repeat' split) <;> simp [h]

@[simp] protected theorem resumeButty {s : State} (h : s.Canonical) (c pc : Nat) :
    (resumeButty s c pc).Canonical := h.modCore _ fun _ hk => hk

@[simp] protected theorem execButtyResumeAt {s : State} (h : s.Canonical) (core : Nat) : Ans.Canonical (execButtyResumeAt core s) := by
  unfold execButtyResumeAt
  split <;> simp [h]

@[simp] protected theorem execButtyResumeNext {s : State} (h : s.Canonical) (core : Nat) :
    Ans.Canonical (execButtyResumeNext core s) := by
  simp only [execButtyResumeNext]
  (repeat' split) <;> simp [h]

@[simp] protected theorem execButtyEnd {s : State} (h : s.Canonical) (core : Nat) : Ans.Canonical (execButtyEnd core s) := by
  unfold execButtyEnd
  split <;> simp [h]

/-! The functions of Machine/Keeper.lean. -/

@[simp] protected theorem note {s : State} (h : s.Canonical) (part op queue slot status : Nat) (cmd : Option Cmd) :
    (s.note part op queue slot status cmd).Canonical := by
  unfold State.note
  split
  · split
    · exact h
    · exact (h.modCore _ fun _ hk => hk.putMem ..).setPart ..
  · exact h

@[simp] protected theorem writeOwed {s : State} (h : s.Canonical) (part : Nat) (p : Partition) (cmd : Cmd) (cls detail : Nat) :
    (writeOwed s part p cmd cls detail).Canonical := by simp [writeOwed, h]

@[simp] protected theorem writeCompletion {s : State} (h : s.Canonical) (part : Nat) (p : Partition) (cmd : Cmd) (cls detail : Nat) :
    (writeCompletion s part p cmd cls detail).Canonical := by simp [writeCompletion, h]

@[simp] protected theorem complete {s : State} (h : s.Canonical) (part : Nat) (cmd : Cmd) (cls detail : Nat) :
    (complete s part cmd cls detail).Canonical := by
  unfold complete
  (repeat' split) <;> simp [h]

@[simp] protected theorem payGranules {s : State} (h : s.Canonical) (part n m : Nat) : (payGranules s part n m).1.Canonical := by
  induction n generalizing s m with
  | zero => exact h
  | succ n ih =>
    unfold payGranules
    split
    · next e => exact ih (h.payTokens e) _
    · exact h

@[simp] protected theorem payKeeper {s : State} (h : s.Canonical) (part n : Nat) : (payKeeper s part n).1.Canonical := by
  unfold payKeeper
  split <;> simp [h]

protected theorem whenPaid {s : State} (h : s.Canonical) (part n : Nat) {go : State → State}
    (keeps : ∀ u, u.Canonical → (go u).Canonical) :
    (whenPaid s part n go).Canonical := by
  simp only [whenPaid]
  split
  · exact keeps _ (h.payKeeper ..)
  · exact h.payKeeper ..

@[simp] protected theorem completeOwed {s : State} (h : s.Canonical) (part : Nat) (cmd : Cmd) (cls detail : Nat) :
    (completeOwed s part cmd cls detail).Canonical := by
  simp only [completeOwed]
  split <;> simp [h]

@[simp] protected theorem payOwed {s : State} (h : s.Canonical) (part : Nat) : (payOwed s part).Canonical := by
  unfold payOwed
  split
  · split
    · exact h
    · exact h.whenPaid _ _ fun _ hu => (hu.modPart ..).complete ..
  · exact h

@[simp] protected theorem execHostQueueNotify {s : State} (h : s.Canonical) (part q : Nat) (tail : BitVec 16)
    (writes : List (Nat × Byte)) :
    Ans.Canonical (execHostQueueNotify part q tail writes s) := by
  simp only [execHostQueueNotify]
  split
  · split
    · exact h.hostWrites ..
    · split
      · exact (h.hostWrites ..).log ..
      · split
        · exact (h.hostWrites ..).setPart ..
        · exact ((h.hostWrites ..).setPart ..).note ..
  · exact h.hostWrites ..

@[simp] protected theorem execQueueEnableWrite {s : State} (h : s.Canonical) (part q : Nat) (v : Byte) :
    Ans.Canonical (execQueueEnableWrite part q v s) := by
  simp only [execQueueEnableWrite]
  (repeat' split) <;> simp [h]

@[simp] protected theorem execQueueErrClear {s : State} (h : s.Canonical) (part q : Nat) :
    Ans.Canonical (execQueueErrClear part q s) := h.modPart ..

@[simp] protected theorem execQueuePageWrite {s : State} (h : s.Canonical) (part q : Nat) (field : QueueField) (v : Word) :
    Ans.Canonical (execQueuePageWrite part q field v s) := h.modPart ..

@[simp] protected theorem logImage {s : State} (h : s.Canonical) (part image : Nat) : (logImage s part image).Canonical := by
  unfold logImage
  split <;> simp [h]

@[simp] protected theorem loadWindows {s : State} (h : s.Canonical) (p : Partition) (m : Image) (n : Nat) :
    (loadWindows s p m n).Canonical := by
  induction n with
  | zero => exact h
  | succ n ih => exact ih.setWindows (wf_writeBytes _ _ _ (swf_sclear _ _ _ _ ih.windows))

@[simp] protected theorem freeReceive {s : State} (h : s.Canonical) (first n : Nat) : (freeReceive s first n).Canonical := by
  induction n with
  | zero => exact h
  | succ n ih => exact (ih.setWindows (swf_sclear _ _ _ _ ih.windows)).ite ih

@[simp] protected theorem armTasks {s : State} (h : s.Canonical) (p : Partition) (m : Image) (t0 n : Nat) :
    (armTasks s p m t0 n).Canonical := by
  induction n with
  | zero => exact h
  | succ n ih => exact ih.modCore _ fun old _ => taskCore_canonical p m t0 n old

@[simp] protected theorem armLaunch {s : State} (h : s.Canonical) (part : Nat) (p : Partition) (cmd : Cmd) (m : Image) (t0 : Nat) :
    (armLaunch s part p cmd m t0).Canonical := (((((h.loadWindows ..).freePartHands ..).armTasks ..).settlePart ..).modPart ..).note ..

@[simp] protected theorem execLaunchCommit {s : State} (h : s.Canonical) (part : Nat) (servo : Option Nat) :
    Ans.Canonical (execLaunchCommit part servo s) := by
  simp only [execLaunchCommit]
  split
  · split
    · split
      · exact h.armLaunch ..
      · exact h.whenPaid _ _ fun _ hu => (((hu.logImage ..).modPart ..).note ..).complete ..
      · exact h
    · exact h
  · exact h

@[simp] protected theorem execTaskStart {s : State} (h : s.Canonical) (core : Nat) : Ans.Canonical (execTaskStart core s) := by
  unfold execTaskStart
  split <;> simp [h]

@[simp] protected theorem scanQueues {s : State} (h : s.Canonical) (part : Nat) (l : List Nat) : (scanQueues s part l).Canonical := by
  induction l generalizing s with
  | nil => exact h
  | cons x xs ih =>
    refine ih ?_
    split
    · exact ((h.note ..).modPart ..).ite h
    · exact h

@[simp] protected theorem takeEntry {s : State} (h : s.Canonical) (part q : Nat) (p : Partition) :
    (takeEntry s part q p).Canonical := by
  simp only [takeEntry]
  split
  · exact ((h.setPart ..).note ..).complete ..
  · split
    · exact ((h.setPart ..).note ..).complete ..
    · exact (h.setPart ..).note ..

@[simp] protected theorem selectNext {s : State} (h : s.Canonical) (part : Nat) (p : Partition) : (selectNext s part p).Canonical := by
  unfold selectNext
  split
  · dsimp only
    split
    · exact ((h.setPart ..).note ..).note ..
    · refine h.whenPaid _ _ fun u hu => ?_
      split
      · exact (hu.modPart ..).takeEntry ..
      · exact h
  · exact h

@[simp] protected theorem execSelectTimetable {s : State} (h : s.Canonical) (part : Nat) :
    Ans.Canonical (execSelectTimetable part s) := by
  simp only [execSelectTimetable]
  (repeat' split) <;> simp [h]

@[simp] protected theorem placeHold {s : State} (h : s.Canonical) (part : Nat) (why : HoldReason) :
    (placeHold s part why).Canonical := by simp [placeHold, h]

@[simp] protected theorem execKeeperHold {s : State} (h : s.Canonical) (part : Nat) (why : HoldReason) :
    Ans.Canonical (execKeeperHold part why s) := by
  unfold execKeeperHold
  (repeat' split) <;> simp [h]

@[simp] protected theorem reloadTasks {s : State} (h : s.Canonical) (m : Image) (tasks : List Task) :
    (reloadTasks s m tasks).Canonical := h.foldl (fun _ _ h => h.modCore _ fun _ hk => hk.reloadTask ..) _

@[simp] protected theorem holdWork {s : State} (h : s.Canonical) (part : Nat) (t : Timetable) (why : HoldReason) :
    (holdWork s part t why).Canonical := by
  unfold holdWork
  (repeat' split) <;> simp [h]

@[simp] protected theorem releaseHold {s : State} (h : s.Canonical) (part : Nat) (hd : Hold) :
    (releaseHold s part hd).Canonical := by simp [releaseHold, h]

@[simp] protected theorem execKeeperHoldRelease {s : State} (h : s.Canonical) (part : Nat) :
    Ans.Canonical (execKeeperHoldRelease part s) := by
  unfold execKeeperHoldRelease
  (repeat' split) <;> simp [h]

@[simp] protected theorem endTimetable {s : State} (h : s.Canonical) (part : Nat) (p : Partition) (t : Timetable) (cls detail : Nat) :
    (endTimetable s part p t cls detail).Canonical := (((h.freeReceive ..).leaveTiles ..).modPart ..).complete ..

@[simp] protected theorem execTimetableComplete {s : State} (h : s.Canonical) (part : Nat) :
    Ans.Canonical (execTimetableComplete part s) := by
  unfold execTimetableComplete
  split
  · split
    · split
      · exact h.whenPaid _ _ fun _ hu => (hu.endTimetable ..).ite (hu.endTimetable ..)
      · exact h
    · exact h
  · exact h

@[simp] protected theorem stopCore {s : State} (h : s.Canonical) (c status : Nat) : (stopCore s c status).Canonical := by
  have dropped := h.foldl (fun _ i h => h.dropGuards c false i) (s.core c).withdraws
  exact dropped.modCore c (f := fun k => k.stopped status) fun _ hk => hk

@[simp] protected theorem stopCores {s : State} (h : s.Canonical) (status : Nat) (l : List Nat) :
    (stopCores s status l).Canonical := by
  induction l generalizing s with
  | nil => exact h
  | cons x xs ih => exact ih (h.stopCore ..)

@[simp] protected theorem unhold {s : State} (h : s.Canonical) (ts : List Transfer) : (s.unhold ts).Canonical := h

@[simp] protected theorem haltTimetable {s : State} (h : s.Canonical) (part : Nat) (t : Timetable) (status : Nat) :
    (haltTimetable s part t status).Canonical := (((h.stopCores ..).unhold ..).modPart ..).modTt ..

@[simp] protected theorem execTimetableStop {s : State} (h : s.Canonical) (part status : Nat) :
    Ans.Canonical (execTimetableStop part status s) := by
  unfold execTimetableStop
  split
  · split
    · split
      · split
        · exact h.stopTimetable ..
        · exact h
      · split
        · exact h
        · split
          · exact h.haltTimetable ..
          · split
            · exact h.whenPaid _ _ fun _ hu => hu.endTimetable ..
            · exact h
    · exact h
  · exact h

/-! The functions of Machine/FabricEvents.lean. -/

@[simp] protected theorem setPort {s : State} (h : s.Canonical) (p : Nat) (x : Port) : (s.setPort p x).Canonical := h

@[simp] protected theorem spill {s : State} (h : s.Canonical) (c id n : Nat) : (spill s c id n).Canonical := by
  unfold spill
  split
  · exact h
  · have spilled := h.modCore c (f := fun k => match k.send id with
      | some x => k.setSend id (some
          { x with tail := x.tail + n, late := true, first := s.tick, st := if x.st = .departed then .spilled else x.st })
      | none => k) fun _ hk => by split <;> exact hk
    exact spilled

@[simp] protected theorem spillSlot {s : State} (h : s.Canonical) (p n : Nat) (l : List Booking) : (spillSlot s p n l).Canonical := by
  induction l generalizing s with
  | nil => exact h
  | cons x xs ih => exact ih ((h.spill ..).ite h)

@[simp] protected theorem spillRest {s : State} (h : s.Canonical) (p n : Nat) (l : List Booking) : (spillRest s p n l).Canonical := by
  induction l generalizing s with
  | nil => exact h
  | cons x xs ih => exact ih ((h.spill ..).ite h)

@[simp] protected theorem spillShare {s : State} (h : s.Canonical) (p n : Nat) (done l : List Booking) :
    (spillShare s p n done l).Canonical := by
  induction l generalizing s done with
  | nil => exact h
  | cons b l ih => exact (ih (h.spill ..) _).ite (ih h _)

@[simp] protected theorem execSlotBeacon {s : State} (h : s.Canonical) (port : Nat) (named : Option Nat) :
    Ans.Canonical (execSlotBeacon port named s) := by
  unfold execSlotBeacon
  split
  · dsimp only
    split
    · exact h
    · exact ((h.setPort ..).log ..).spillSlot ..
  · exact h

@[simp] protected theorem readFor {s : State} (h : s.Canonical) (c : Nat) (x : Send) : (readFor s c x).Canonical := by
  simp only [readFor]
  split
  · exact h
  · exact h.modCore _ fun _ hk => hk

@[simp] protected theorem departFlits {s : State} (h : s.Canonical) (c id : Nat) (x : Send) (f n : Nat) :
    (departFlits s c id x f n).Canonical := ((h.freeIv).readFor ..).modCore _ fun _ hk => hk

@[simp] protected theorem departHead {s : State} (h : s.Canonical) (c id : Nat) (x : Send) : (departHead s c id x).Canonical := by
  simp only [departHead]
  split
  · exact (h.readFor ..).modCore _ fun _ hk => hk
  · split
    · exact h.departFlits ..
    · exact h.spill ..

@[simp] protected theorem departTail {s : State} (h : s.Canonical) (c id : Nat) (x : Send) : (departTail s c id x).Canonical := by
  unfold departTail
  (repeat' split) <;> simp [h]

@[simp] protected theorem execSendDeparture {s : State} (h : s.Canonical) (core send : Nat) :
    Ans.Canonical (execSendDeparture core send s) := by
  unfold execSendDeparture
  (repeat' split) <;> simp [h]

@[simp] protected theorem spillFall {s : State} (h : s.Canonical) (p n : Nat) : (spillFall s p n).Canonical := by simp [spillFall, h]

@[simp] protected theorem execPortFallback {s : State} (h : s.Canonical) (port st : Nat) :
    Ans.Canonical (execPortFallback port st s) := by
  simp only [execPortFallback]
  split
  · exact h
  · refine (State.Canonical.log ?_ ..).spillFall ..
    exact h.spillRest port (s.curSlot.getD 0) s.bookings

@[simp] protected theorem execPortRetrain {s : State} (h : s.Canonical) (port st : Nat) :
    Ans.Canonical (execPortRetrain port st s) := by
  simp only [execPortRetrain]
  split <;> simp [h]

@[simp] protected theorem execReceipt {s : State} (h : s.Canonical) (core send status : Nat) :
    Ans.Canonical (execReceipt core send status s) := by
  unfold execReceipt
  (repeat' split) <;> simp [h]

@[simp] protected theorem execFenceComplete {s : State} (h : s.Canonical) (core : Nat) : Ans.Canonical (execFenceComplete core s) := by
  unfold execFenceComplete
  (repeat' split) <;> simp [h]

@[simp] protected theorem logTarget {s : State} (h : s.Canonical) (part : Nat) (t : Target) (off n : Nat) :
    (logTarget s part t off n).Canonical := by
  unfold logTarget
  split <;> simp [h]

@[simp] protected theorem targetPut {s : State} (h : s.Canonical) (part : Nat) (t : Target) (off : Nat) (bs : List Byte)
    (label : Option (BitVec 16)) :
    (targetPut s part t off bs label).Canonical := by
  unfold targetPut
  split
  · exact h.modCore _ fun _ hk => hk.portStore ..
  · exact h.framePad ..

@[simp] protected theorem targetFlag {s : State} (h : s.Canonical) (part : Nat) (t : Target) (f inc : Nat) :
    (targetFlag s part t f inc).Canonical := by
  unfold targetFlag
  split <;> simp [h]

@[simp] protected theorem landLines {s : State} (h : s.Canonical) (part kind : Nat) (t : Target) (map : Word) (tr : Transfer)
    (l : List (Nat × Nat × Nat)) :
    (landLines s part kind t map tr l).1.Canonical := by
  induction l generalizing s with
  | nil => exact h
  | cons x l ih =>
    simp only [landLines]
    refine ih (State.Canonical.targetPut ?_ ..)
    split
    · exact (h.targetPut ..).ite h
    · exact h

@[simp] protected theorem laterFlag {s : State} (h : s.Canonical) (part : Nat) (t : Target) (f inc : Nat) :
    (laterFlag s part t f inc).Canonical := by
  unfold laterFlag
  split <;> simp [h]

@[simp] protected theorem landTransfer {s : State} (h : s.Canonical) (p : Partition) (tr : Transfer) :
    (landTransfer s p tr).Canonical := ((h.landLines ..).laterFlag ..).modWst ..

@[simp] protected theorem refuseTransfer {s : State} (h : s.Canonical) (tr : Transfer) (status : Nat) :
    (refuseTransfer s tr status).Canonical := by
  unfold refuseTransfer
  (repeat' split) <;> simp [h]

@[simp] protected theorem receive {s : State} (h : s.Canonical) (tr : Transfer) : (receive s tr).1.Canonical := by
  unfold receive
  split <;> simp [h]

@[simp] protected theorem lateAfter {s : State} (h : s.Canonical) (tr : Transfer) : (lateAfter s tr).Canonical := by
  unfold lateAfter
  split <;> simp [h]

@[simp] protected theorem promoteRecv {s : State} (h : s.Canonical) (tr : Transfer) : (promoteRecv s tr).Canonical := by
  unfold promoteRecv
  split <;> simp [h]

@[simp] protected theorem receivePeer {s : State} (h : s.Canonical) (tr : Transfer) : (receivePeer s tr).Canonical := by
  have received := ((h.receive { tr with late := lateBy s tr }).promoteRecv { tr with late := lateBy s tr }).lateAfter
    { tr with late := lateBy s tr }
  exact received

@[simp] protected theorem sendReceipts {s : State} (h : s.Canonical) : (sendReceipts s).Canonical := h

@[simp] protected theorem landLoop {s : State} (h : s.Canonical) (c id : Nat) (x : Send) : (landLoop s c id x).Canonical := by
  simp only [landLoop]
  split <;> simp [h]

@[simp] protected theorem execArrival {s : State} (h : s.Canonical) (tr : Transfer) : Ans.Canonical (execArrival tr s) := by
  unfold execArrival
  (repeat' split) <;> simp [h]

@[simp] protected theorem layDown {s : State} (h : s.Canonical) (pa : Nat) (bs : List Byte) (n : Nat) :
    (layDown s pa bs n).Canonical := by
  induction n with
  | zero => exact h
  | succ n ih => exact (ih.putOrLog ..).countAccess ..

@[simp] protected theorem execLaybyLanding {s : State} (h : s.Canonical) (tr : Transfer) : Ans.Canonical (execLaybyLanding tr s) := by
  unfold execLaybyLanding
  (repeat' split) <;> simp [h]

@[simp] protected theorem relayItem {s : State} (h : s.Canonical) (idx : Nat) : (relayItem s idx).Canonical := by
  unfold relayItem
  (repeat' split) <;> simp [h]

@[simp] protected theorem execLaybyRelay {s : State} (h : s.Canonical) (r : Relay) : Ans.Canonical (execLaybyRelay r s) := by
  unfold execLaybyRelay
  split
  · exact h.relayItem ..
  · split
    · split
      · exact (h.creditBack ..).modCore _ fun _ hk => hk
      · exact h
    · exact h

/-! The functions of Machine/Preempt.lean. -/

@[simp] protected theorem noteStep {s : State} (h : s.Canonical) (part slot step : Nat) :
    (noteStep s part slot step).Canonical := by simp [noteStep, h]

@[simp] protected theorem disarmMonitors {s : State} (h : s.Canonical) (part : Nat) : (disarmMonitors s part).Canonical := by
  unfold disarmMonitors
  split
  · exact h.modCores _ fun _ hk => hk
  · exact h

@[simp] protected theorem writeFrames {s : State} (h : s.Canonical) (part : Nat) (p : Partition) (slot : Nat) (f : FrameInfo)
    (l : List Nat) :
    (writeFrames s part p slot f l).Canonical := by
  induction l generalizing s with
  | nil => exact h
  | cons x xs ih =>
    unfold writeFrames
    exact ih (h.writeFrame ..)

@[simp] protected theorem clearCores {s : State} (h : s.Canonical) (l : List Nat) : (clearCores s l).Canonical := by
  induction l generalizing s with
  | nil => exact h
  | cons x xs ih => exact ih (h.modCore x fun _ _ => Core.init_mem_canonical)

@[simp] protected theorem saveContext {s : State} (h : s.Canonical) (part : Nat) (p : Partition) (t : Timetable) (slot : Nat) :
    (saveContext s part p t slot).Canonical := ((h.writeFrames ..).clearCores ..).modPart ..

@[simp] protected theorem landHeld {s : State} (h : s.Canonical) (part : Nat) (l : List Transfer) : (landHeld s part l).Canonical := by
  induction l generalizing s with
  | nil => exact h
  | cons x xs ih => exact ih ((h.modTt ..).receivePeer ..)

@[simp] protected theorem repoint {s : State} (h : s.Canonical) (part : Nat) : (repoint s part).Canonical := by
  unfold repoint
  split <;> simp [h]

@[simp] protected theorem releaseCores {s : State} (h : s.Canonical) (part : Nat) (p : Partition) :
    (releaseCores s part p).Canonical := by simp [releaseCores, h]

@[simp] protected theorem stepDone {s : State} (h : s.Canonical) (part slot n : Nat) :
    (stepDone s part slot n).Canonical := by simp [stepDone, h]

@[simp] protected theorem preemptStep {s : State} (h : s.Canonical) (part : Nat) (p : Partition) (t : Timetable) (n : Nat) :
    (preemptStep s part p t n).Canonical := by
  unfold preemptStep
  (repeat' split) <;> simp [h]

@[simp] protected theorem execPreempt {s : State} (h : s.Canonical) (part stepNo : Nat) :
    Ans.Canonical (execPreempt part stepNo s) := by
  unfold execPreempt
  (repeat' split) <;> simp [h]

@[simp] protected theorem execContextEligible {s : State} (h : s.Canonical) (part slot : Nat) :
    Ans.Canonical (execContextEligible part slot s) := h.modPart ..

@[simp] protected theorem applyReply {s : State} (h : s.Canonical) (c : Nat) (e : Nat × Word × Nat) :
    (applyReply s c e).Canonical := by
  unfold applyReply
  (repeat' split) <;> simp [h]

@[simp] protected theorem applyJournal {s : State} (h : s.Canonical) (at_ : Nat → Nat) (f : Nat × Store Byte) :
    (applyJournal s at_ f).Canonical := by
  unfold applyJournal
  exact h.foldl (fun _ _ h => by simp [h]) _

@[simp] protected theorem fireMonitors {s : State} (h : s.Canonical) (c : Nat) : (fireMonitors s c).Canonical := by
  refine h.foldl (fun u m hu => ?_) _
  split
  · exact hu
  · exact (hu.addFlag ..).modCore _ fun _ hk => hk

protected theorem loadFrames {s : State} (h : s.Canonical) (x : Ctx) (img : Image) (at_ : Nat → Nat) {fs : List (Nat × Store Byte)}
    (w : ∀ f ∈ fs, Memory.wf f.2 = true) :
    (loadFrames s x img at_ fs).Canonical := by
  induction fs generalizing s with
  | nil => exact h
  | cons f fs ih =>
    obtain ⟨first, rest⟩ := List.forall_mem_cons.mp w
    unfold loadFrames
    extract_lets saved task
    have loaded : (s.modCore (at_ f.1) fun old => { restoreCore s at_ saved f.2 (img.gmemb task) old with
        sysops := (x.sysops.filter fun o => o.1 == f.1).map fun o => o.2 }).Canonical :=
      h.modCore _ fun old _ => restoreCore_canonical first s at_ saved (img.gmemb task) old
    exact ih loaded rest

@[simp] protected theorem endContext {s : State} (h : s.Canonical) (part slot : Nat) (p : Partition) (x : Ctx) (status : Nat) :
    (endContext s part slot p x status).Canonical := (((h.freeReceive ..).modPart ..).note ..).complete ..

@[simp] protected theorem noteRestore {s : State} (h : s.Canonical) (part slot : Nat) (x : Ctx) (l : List Nat) :
    (noteRestore s part slot x l).Canonical := by
  induction l generalizing s with
  | nil => exact h
  | cons x xs ih => exact ih (h.note ..)

@[simp] protected theorem moveWindows {s : State} (h : s.Canonical) (at_ : Nat → Nat) (first n : Nat) :
    (moveWindows s at_ first n).Canonical := by
  induction n with
  | zero => exact h
  | succ n ih =>
    simp only [moveWindows]
    split
    · exact ih
    · exact ih.setWindows (wf_writeBytes _ _ _ ih.windows)

@[simp] protected theorem rebuildWindows {s : State} (h : s.Canonical) (p : Partition) (at_ : Nat → Nat) (m : Image) :
    (rebuildWindows s p at_ m).Canonical := by simp [rebuildWindows, h]

protected theorem restoreOn {s : State} (h : s.Canonical) (part slot home : Nat) (p : Partition) (old : List Nat) (x : Ctx)
    (img : Image) {fs : List (Nat × Store Byte)} (w : ∀ f ∈ fs, Memory.wf f.2 = true) :
    (restoreOn s part slot home p old x img fs).Canonical := by
  unfold restoreOn
  extract_lets at_ fromImage cs s0 s1 s2
  have h0 : s0.Canonical := (h.modPart ..).modPart ..
  have h1 : s1.Canonical := ((h0.loadFrames x img at_ w).rebuildWindows p fromImage img).modPart ..
  have h2 : s2.Canonical := h1.foldl (fun _ f h => h.applyJournal at_ f) fs
  exact ((h2.foldl (fun _ c h => h.fireMonitors c) cs).settlePart ..).noteRestore ..

@[simp] protected theorem logRestore {s : State} (h : s.Canonical) (part slot : Nat) (p : Partition) (x : Ctx) (status : Nat) :
    (logRestore s part slot p x status).Canonical := by
  unfold logRestore
  split
  · exact h.foldl (fun _ k h => h.logSpace ..) _
  · exact (h.logImage ..).ite h

@[simp] protected theorem restoreContext {s : State} (h : s.Canonical) (part slot : Nat) (p : Partition) (x : Ctx) :
    (restoreContext s part slot p x).Canonical := by
  have ended (st : Nat) : (whenPaid s part 1 fun u =>
      endContext ((logRestore u part slot p x st).modPart part fun p => { p with chosen := none }) part slot p x st).Canonical :=
    h.whenPaid _ _ fun _ hu => ((hu.logRestore ..).modPart ..).endContext ..
  simp only [restoreContext]
  split
  · exact ended _
  · next frames _ =>
    have w := readFrames_wf frames
    split
    · split
      · exact h.restoreOn _ _ _ _ _ _ _ w
      · exact ended _
    · split
      · exact h.restoreOn _ _ _ _ _ _ _ w
      · exact h
  · exact h

@[simp] protected theorem execRestore {s : State} (h : s.Canonical) (part slot : Nat) : Ans.Canonical (execRestore part slot s) := by
  unfold execRestore
  (repeat' split) <;> simp [h]

end Sys2Proof.Machine.State.Canonical
end

section
/-! O58, the functions of the model:
system operations and the firmware. -/

namespace Sys2Proof.Machine.State.Canonical

/-! The functions of Machine/SystemOps.lean. -/

@[simp] protected theorem sysStop {α : Type} {s : State} (h : s.Canonical) (i : Issuer) (env : SysEnv) (x : Stop) : (sysStop (α :=
  α) s i env x).1.Canonical := by
  cases x with
  | page | frozen => exact h
  | integrity => exact h.logIntegrity ..
  | fence => exact h.logFence ..

@[simp] protected theorem sysCount {s : State} (h : s.Canonical) (i : Issuer) (first va : Nat) (ps : List (Place × Nat)) :
    (sysCount s i first va ps).Canonical := by
  unfold sysCount
  split <;> simp [h]

@[simp] protected theorem sysRead {s : State} (h : s.Canonical) (i : Issuer) (env : SysEnv) (cap : Cap) (off n : Nat) :
    (sysRead s i env cap off n).1.Canonical := by
  unfold sysRead
  split
  · exact h.logTarget ..
  · split
    · next e => exact ((h.resolveAllFor ..).of_pair e).sysStop ..
    · next e =>
      have placed := (h.resolveAllFor ..).of_pair e
      split
      · exact placed.sysCount ..
      · exact placed.sysStop ..

@[simp] protected theorem sysLabels {s : State} (h : s.Canonical) (i : Issuer) (env : SysEnv) (cap : Cap) (n : Nat) :
    (sysLabels s i env cap n).1.Canonical := by
  simp only [sysLabels]
  split
  · exact h
  · split
    · next e => exact ((h.resolveAllFor ..).of_pair e).sysStop ..
    · next e => exact (h.resolveAllFor ..).of_pair e

@[simp] protected theorem sysWriteRuns {s : State} (h : s.Canonical) (i : Issuer) (env : SysEnv) (cap : Cap) (first : Nat)
    (l : List (Nat × Nat)) (bs : List Byte) (labels : List (Option (BitVec 16))) :
    (sysWriteRuns s i env cap first l bs labels).1.Canonical := by
  induction l generalizing s bs labels with
  | nil => exact h
  | cons x l ih =>
    simp only [sysWriteRuns]
    split
    · exact ih (h.targetPut ..) _ _
    · split
      · next e => exact ((h.resolveFor ..).of_pair e).sysStop ..
      · next e =>
        have placed := (h.resolveFor ..).of_pair e
        split
        · next e => exact ih ((placed.writePlace e).sysCount ..) _ _
        · exact placed.sysStop ..

@[simp] protected theorem sysWrite {s : State} (h : s.Canonical) (i : Issuer) (env : SysEnv) (cap : Cap) (off : Nat) (bs : List Byte) :
    (sysWrite s i env cap off bs).1.Canonical := by simp [sysWrite, h]

@[simp] protected theorem breakAt {s : State} (h : s.Canonical) (i : Issuer) (cap : Cap) (off : Nat) :
    (breakAt s i cap off).Canonical := by
  unfold breakAt
  split <;> simp [h]

@[simp] protected theorem meetEnv {s : State} (h : s.Canonical) (i : Issuer) (env : SysEnv) (o : SysOp) :
    (meetEnv s i env o).Canonical := by
  simp only [meetEnv]
  (repeat' split) <;> simp [h]

/-- What goes on from an access keeps the memories canonical where the access and what follows it do. -/
protected theorem andThen {α : Type} {x : State × Io α} (hx : x.1.Canonical) (abort integrity : Nat × Nat) {go : State → α → SysEnd}
    (keeps : ∀ s v, s.Canonical → (go s v).1.Canonical) : (Io.then x abort integrity go).1.Canonical := by
  unfold Io.then
  split
  · exact keeps _ _ hx
  all_goals exact hx

@[simp] protected theorem mapSysOps {s : State} (h : s.Canonical) (f : SysOp → SysOp) :
    (s.mapSysOps f).Canonical := by simp [State.mapSysOps, h]

@[simp] protected theorem promoteStream {s : State} (h : s.Canonical) (part : Nat) (p : Partition) (k : KeyStream) (x : Keys) :
    (promoteStream s part p k x).Canonical := h

@[simp] protected theorem execKeyPromotion {s : State} (h : s.Canonical) (part : Nat) (stream : KeyStream) :
    Ans.Canonical (execKeyPromotion part stream s) := by
  unfold execKeyPromotion
  (repeat' split) <;> simp [h]

@[simp] protected theorem execCellarKeyWalk {s : State} (h : s.Canonical) (part block : Nat) :
    Ans.Canonical (execCellarKeyWalk part block s) := by
  simp only [execCellarKeyWalk]
  split
  · split
    · split
      · exact h
      · split
        · exact (State.Canonical.setCellar (h.logLines ..) (Cellar.rewriteBlock_wf h.cellar ..)).setPart ..
        · exact h.setPart ..
    · exact h
  · exact h

@[simp] protected theorem execRetiringKeyDestroyed {s : State} (h : s.Canonical) (part : Nat) (stream : KeyStream) :
    Ans.Canonical (execRetiringKeyDestroyed part stream s) := by
  unfold execRetiringKeyDestroyed
  (repeat' split) <;> simp [h]

@[simp] protected theorem execPendingKeyDerive {s : State} (h : s.Canonical) (part : Nat) (stream : KeyStream) :
    Ans.Canonical (execPendingKeyDerive part stream s) := by
  unfold execPendingKeyDerive
  (repeat' split) <;> simp [h]

@[simp] protected theorem loadPending {s : State} (h : s.Canonical) (part : Nat) (key : List Byte) (k : KeyStream) :
    (s.loadPending part key k).Canonical := h.modPart ..

@[simp] protected theorem endKeyld {s : State} (h : s.Canonical) (i : Issuer) (env : SysEnv) (o : SysOp) :
    (endKeyld s i env o).1.Canonical := by
  refine (h.sysRead ..).andThen _ _ fun s blob h => ?_
  split
  · exact h
  · dsimp only
    split
    · exact h
    · split
      · exact h.foldl (fun _ _ h => h.loadPending ..) _
      · exact h

@[simp] protected theorem endKeyrot {s : State} (h : s.Canonical) (o : SysOp) : (endKeyrot s o).1.Canonical := by
  unfold endKeyrot
  (repeat' split) <;> simp [h]

@[simp] protected theorem payloadOf {s : State} (h : s.Canonical) (i : Issuer) (env : SysEnv) (cap : Cap) :
    (payloadOf s i env cap).1.Canonical := by
  unfold payloadOf
  split
  · exact h
  · split
    · next e =>
      have read := (h.sysRead ..).of_pair e
      split <;> next e => exact (read.sysLabels ..).of_pair e
    · next e => exact (h.sysRead ..).of_pair e

@[simp] protected theorem putPayload {s : State} (h : s.Canonical) (i : Issuer) (env : SysEnv) (cap : Cap) (bs : List Byte) :
    (putPayload s i env cap bs).1.Canonical := by
  simp only [putPayload]
  split
  · exact h.modCore _ fun _ hk => by simpa using hk
  · split
    · next e => exact (h.sysWriteRuns ..).of_pair e
    · exact h

@[simp] protected theorem fillEntries {s : State} (h : s.Canonical) (i : Issuer) (env : SysEnv) (area : Cap) (step : Nat)
    (l : List (List Byte)) :
    (fillEntries s i env area step l).1.Canonical := by
  induction l generalizing s with
  | nil => exact h
  | cons x l ih =>
    unfold fillEntries
    split
    · next e => exact (h.sysRead ..).of_pair e
    · next e => exact (h.sysRead ..).of_pair e
    · next e => exact (h.sysRead ..).of_pair e
    · next e =>
      have first := (h.sysRead ..).of_pair e
      split
      · exact first
      · split
        · exact first
        · split
          · next e => exact (ih first).of_pair e
          · exact ih first

@[simp] protected theorem sealShard {s : State} (h : s.Canonical) (i : Issuer) (env : SysEnv) (o : SysOp) (p : Partition) :
    (sealShard s i env o p).1.Canonical := by
  unfold sealShard
  split
  · exact h
  · refine (h.payloadOf ..).andThen _ _ fun s pl h => ?_
    exact ((h.freeIv).sysWrite ..).andThen _ _ fun s _ h => h

@[simp] protected theorem sealBottle {s : State} (h : s.Canonical) (i : Issuer) (env : SysEnv) (o : SysOp) (p : Partition) :
    (sealBottle s i env o p).1.Canonical := by
  simp only [sealBottle]
  split
  · exact h
  · refine (h.sysRead ..).andThen _ _ fun s hd h => ?_
    split
    · exact h
    · refine (h.sysRead ..).andThen _ _ fun s draft h => ?_
      split
      · exact h
      · refine (h.fillEntries ..).andThen _ _ fun s r h => ?_
        split
        · exact h
        · exact (h.sysWrite ..).andThen _ _ fun s _ h => h

@[simp] protected theorem checkShard {s : State} (h : s.Canonical) (i : Issuer) (env : SysEnv) (area : Cap) (key : List Byte)
    (step : Nat) (e : List Byte) :
    (checkShard s i env area key step e).1.Canonical := by
  simp only [checkShard]
  split <;> next e => exact (h.sysRead ..).of_pair e

@[simp] protected theorem checkShards {s : State} (h : s.Canonical) (i : Issuer) (env : SysEnv) (area : Cap) (key : List Byte)
    (step : Nat) (l : List (List Byte)) :
    (checkShards s i env area key step l).1.Canonical := by
  induction l generalizing s with
  | nil => exact h
  | cons x l ih =>
    unfold checkShards
    split
    · next first => exact ih ((h.checkShard ..).of_pair first)
    all_goals next first => exact (h.checkShard ..).of_pair first

@[simp] protected theorem logStep {s : State} (h : s.Canonical) (part : Nat) (p : Partition) (status : Nat) :
    (logStep s part p status).Canonical := by
  unfold logStep
  split <;> simp [h]

@[simp] protected theorem openBottle {s : State} (h : s.Canonical) (i : Issuer) (env : SysEnv) (o : SysOp) (p : Partition) :
    (openBottle s i env o p).1.Canonical := by
  unfold openBottle
  split
  · exact h
  · refine (h.sysRead ..).andThen _ _ fun s hd h => ?_
    split
    · exact h
    · split
      · exact h
      · refine (h.sysRead ..).andThen _ _ fun s b h => ?_
        split
        · exact h
        · split
          · exact h
          · split
            · exact h
            · split
              · exact h.logStep ..
              · refine (h.checkShards ..).andThen _ _ fun s st h => ?_
                split
                · exact h.logStep ..
                · exact h.modPart ..

@[simp] protected theorem closeBottle {s : State} (h : s.Canonical) (part : Nat) : (closeBottle s part).Canonical := h.modPart ..

@[simp] protected theorem pourShard {s : State} (h : s.Canonical) (i : Issuer) (env : SysEnv) (o : SysOp) (p : Partition)
    (b : OpenBottle) :
    (pourShard s i env o p b).1.Canonical := by
  unfold pourShard
  split
  · exact h
  · split
    · exact h
    · refine (h.sysRead ..).andThen _ _ fun s hd h => ?_
      split
      · exact h
      · refine (h.checkShard ..).andThen _ _ fun s r h => ?_
        split
        · exact h
        · exact (h.putPayload ..).andThen _ _ fun s _ h => h

@[simp] protected theorem endSeal {s : State} (h : s.Canonical) (i : Issuer) (env : SysEnv) (o : SysOp) :
    (endSeal s i env o).1.Canonical := by
  unfold endSeal
  (repeat' split) <;> simp [h]

@[simp] protected theorem endDecant {s : State} (h : s.Canonical) (i : Issuer) (env : SysEnv) (o : SysOp) :
    (endDecant s i env o).1.Canonical := by
  have close (x : SysEnd) (hx : x.1.Canonical) : (closeOn o.part x).1.Canonical := by
    unfold closeOn
    split
    · exact hx
    · exact hx.closeBottle ..
    · exact hx
  unfold endDecant
  split
  · exact h
  · split
    · exact h.openBottle ..
    · split
      · exact h
      · exact close _ (h.pourShard ..)
    · exact h.closeBottle ..

@[simp] protected theorem markBlock {s : State} (h : s.Canonical) (part va : Nat) :
    (markBlock s part va).Canonical := h.foldl (fun _ _ h => h.markLine ..) _

@[simp] protected theorem scrubBlocks {s : State} (h : s.Canonical) (i : Issuer) (env : SysEnv) (cap : Cap) (n m : Nat) :
    (scrubBlocks s i env cap n m).1.Canonical := by
  induction n generalizing s m with
  | zero => exact h
  | succ n ih =>
    unfold scrubBlocks
    split
    · next e =>
      have placed := (h.resolveFor ..).of_pair e
      split <;> next e => exact (placed.sysStop ..).of_pair e
    · next e =>
      have placed := (h.resolveFor ..).of_pair e
      refine ih ?_ _
      split
      · have marked := placed.ite (placed.markBlock i.part (cap.base + m)) (p := untranslated i.core cap = true)
        exact marked.setCellar (Cellar.scrubBlock_wf marked.cellar ..)
      · exact placed

@[simp] protected theorem markScrubbed {s : State} (h : s.Canonical) (o : SysOp) (core : Nat) : (markScrubbed s o core).Canonical := by
  unfold markScrubbed
  split <;> simp [h]

@[simp] protected theorem endScrub {s : State} (h : s.Canonical) (i : Issuer) (env : SysEnv) (o : SysOp) :
    (endScrub s i env o).1.Canonical := by
  simp only [endScrub]
  (repeat' split) <;> simp [h]

/-! The functions of Machine/SystemEnd.lean. -/

@[simp] protected theorem endAttest {s : State} (h : s.Canonical) (i : Issuer) (env : SysEnv) (o : SysOp) :
    (endAttest s i env o).1.Canonical := by
  unfold endAttest
  split
  · exact h
  · exact (h.sysWrite ..).andThen _ _ fun s _ h => h

@[simp] protected theorem freeNonce {s : State} (h : s.Canonical) : (freeNonce s).2.Canonical := h.freeIv.freeIv.freeIv

@[simp] protected theorem fbRequest {s : State} (h : s.Canonical) (b : List Byte) (o : SysOp) (nonce ephemeral : List Byte)
    (opts : Nat) :
    (fbRequest s b o nonce ephemeral opts).1.Canonical := h.freeNonce

@[simp] protected theorem fbAnnounce {s : State} (h : s.Canonical) (o : SysOp) : (fbAnnounce s o).1.Canonical := by
  unfold fbAnnounce
  split <;> simp [h]

@[simp] protected theorem fbEvidence {s : State} (h : s.Canonical) (b : List Byte) (o : SysOp) (rep : List Byte) :
    (fbEvidence s b o rep).1.Canonical := by
  simp only [fbEvidence]
  split <;> simp [h]

@[simp] protected theorem fbSendBottle {s : State} (h : s.Canonical) (b : List Byte) (o : SysOp) (key : List Byte) :
    (fbSendBottle s b o key).1.Canonical := by
  unfold fbSendBottle
  (repeat' split) <;> simp [h]

@[simp] protected theorem installBinding {s : State} (h : s.Canonical) (b : List Byte) (o : SysOp) (cipher : List Byte)
    (wbase credit : Nat) :
    (installBinding s b o cipher wbase credit).1.Canonical := by simp [installBinding, h]

@[simp] protected theorem fbBottle {s : State} (h : s.Canonical) (b : List Byte) (o : SysOp) (iv sealed : List Byte) (vintage : Nat) :
    (fbBottle s b o iv sealed vintage).1.Canonical := by
  simp only [fbBottle]
  (repeat' split) <;> simp [h]

@[simp] protected theorem fbindStep {s : State} (h : s.Canonical) (b : List Byte) (o : SysOp) (msg : FbindMsg) :
    (fbindStep s b o msg).1.Canonical := by
  simp only [fbindStep]
  (repeat' split) <;> simp [h]

@[simp] protected theorem putOp {s : State} (h : s.Canonical) (core : Nat) (slot : Option Nat) (o : SysOp) (n : Option SysOp) :
    (s.putOp core slot o n).Canonical := by
  unfold State.putOp
  split <;> simp [h]

@[simp] protected theorem sysEnd {s : State} (h : s.Canonical) (i : Issuer) (env : SysEnv) (o : SysOp) :
    (sysEnd s i env o).1.Canonical := by
  unfold sysEnd
  split
  · exact h.endKeyld ..
  · exact h.endKeyrot ..
  · exact h.endSeal ..
  · exact h.endDecant ..
  · exact h.endScrub ..
  · split
    · split <;> exact h
    · split
      · exact h
      · split
        · exact h
        · refine (h.sysRead ..).andThen _ _ fun s b h => ?_
          (repeat' split) <;> exact h
  · exact h.endAttest ..

@[simp] protected theorem markEnded {s : State} (h : s.Canonical) (core : Nat) (slot : Option Nat) (o : SysOp) :
    (markEnded s core slot o).Canonical := by
  unfold markEnded
  split
  · refine h.foldl (fun s n h => ?_) _
    dsimp only
    split
    · exact h.frameBytes ..
    · exact h
  · exact h

@[simp] protected theorem finishSys {s : State} (h : s.Canonical) (core : Nat) (slot : Option Nat) (o : SysOp) (r : Nat × Nat × Nat) :
    (finishSys s core slot o r).Canonical := by
  simp only [finishSys]
  split
  · exact (((h.markEnded ..).putOp ..).targetPut ..).laterFlag ..
  · exact (((((h.markEnded ..).putOp ..).targetPut ..).laterFlag ..).dropGuards ..).modCore _ fun _ hk => hk

@[simp] protected theorem execSystemOpComplete {s : State} (h : s.Canonical) (core idx : Nat) (env : SysEnv) :
    Ans.Canonical (execSystemOpComplete core idx env s) := by
  simp only [execSystemOpComplete]
  split
  · split
    · exact h
    · split
      · next e => exact (((h.meetEnv ..).sysEnd ..).of_pair e).finishSys ..
      · exact h
  · exact h

@[simp] protected theorem execFbindExchange {s : State} (h : s.Canonical) (core idx : Nat) (msg : FbindMsg) :
    Ans.Canonical (execFbindExchange core idx msg s) := by
  simp only [execFbindExchange]
  split
  · split
    · next e =>
      split
      · exact h
      · exact (((h.sysRead ..).of_pair e).fbindStep ..).putOp ..
    · exact h
  · exact h

@[simp] protected theorem execFbindTimeout {s : State} (h : s.Canonical) (core idx : Nat) :
    Ans.Canonical (execFbindTimeout core idx s) := by
  unfold execFbindTimeout
  (repeat' split) <;> simp [h]

/-! The functions of Machine/Firmware.lean. -/

@[simp] protected theorem loadCore {s : State} (h : s.Canonical) (c : Nat) (image : List Byte) (begin_ : Option Nat) :
    (loadCore s c image begin_).Canonical := by
  refine h.modCore c fun k hk => ?_
  exact { hk with bundles := wf_writeBytes _ _ _ rfl, flags := rfl }

@[simp] protected theorem loadKeepers {s : State} (h : s.Canonical) (b : Nat) : (loadKeepers s b).Canonical := by simp [loadKeepers, h]

@[simp] protected theorem loadComplex {s : State} (h : s.Canonical) (first : Nat) (image : List Byte) :
    (loadComplex s first image).Canonical := h.foldl (fun _ _ h => h.loadCore ..) _

@[simp] protected theorem stopFor {s : State} (h : s.Canonical) (part status : Nat) : (stopFor s part status).Canonical := by
  unfold stopFor
  split <;> simp [h]

@[simp] protected theorem deliverHeld {s : State} (h : s.Canonical) (part : Nat) (l : List (Cmd × Nat × Nat)) :
    (deliverHeld s part l).Canonical := by
  induction l generalizing s with
  | nil => exact h
  | cons x xs ih =>
    refine ih ?_
    split
    · exact h.writeCompletion ..
    · exact h

@[simp] protected theorem deliverOwed {s : State} (h : s.Canonical) (part : Nat) (l : List (Cmd × Nat × Nat)) :
    (deliverOwed s part l).Canonical := by
  induction l generalizing s with
  | nil => exact h
  | cons x xs ih =>
    refine ih ?_
    split
    · exact h.writeOwed ..
    · exact h

@[simp] protected theorem endHold {s : State} (h : s.Canonical) (part basin : Nat) (shadow : Bool)
    (owed held : List (Cmd × Nat × Nat)) :
    (endHold s part basin shadow owed held).Canonical := by
  have up := h.modPart part fun p => { p with csr := p.csr.upAgain basin shadow }
  unfold endHold
  dsimp only
  split
  · split
    · exact (((up.setPart ..).scanQueues ..).deliverOwed ..).deliverHeld ..
    · exact up
  · exact up

@[simp] protected theorem resetKeepers {s : State} (h : s.Canonical) (basin : Nat) : (resetKeepers s basin).Canonical := by
  unfold resetKeepers
  dsimp only
  split
  · exact ((h.loadKeepers ..).setPart ..).endHold ..
  · exact h.loadKeepers ..

@[simp] protected theorem execKeeperHeartbeatTimeout {s : State} (h : s.Canonical) (basin : Nat) :
    Ans.Canonical (execKeeperHeartbeatTimeout basin s) := by
  simp only [execKeeperHeartbeatTimeout]
  split <;> simp [h]

@[simp] protected theorem takeOver {s : State} (h : s.Canonical) (basin : Nat) (selfTest : Bool) :
    (takeOver s basin selfTest).Canonical := by
  simp only [takeOver]
  split
  · exact ((h.loadCore ..).modCore _ fun _ hk => by exact hk).loadCore ..
  · exact ((h.loadCore ..).modCore _ fun _ hk => by exact hk).modCore _ fun _ hk => hk

@[simp] protected theorem execKeeperTakeover {s : State} (h : s.Canonical) (basin : Nat) (selfTest : Bool) :
    Ans.Canonical (execKeeperTakeover basin selfTest s) := by
  simp only [execKeeperTakeover]
  split
  · exact h
  · split
    · split
      · exact (h.resetKeepers ..).stopFor ..
      · split
        · exact h
        · exact ((h.takeOver ..).setPart ..).endHold ..
    · exact h

@[simp] protected theorem execStateTableWrite {s : State} (h : s.Canonical) : Ans.Canonical (execStateTableWrite s) := by
  unfold execStateTableWrite
  split <;> simp [h]

@[simp] protected theorem reform {s : State} (h : s.Canonical) (x : Nat × List Nat × PartCsr) : (reform s x).Canonical := by
  unfold reform
  split
  · exact h
  · exact (h.foldl (fun _ b h => h.loadKeepers b) _).setPart ..

@[simp] protected theorem partsFromTable {s : State} (h : s.Canonical) : (partsFromTable s).Canonical := by
  refine State.Canonical.foldl ?_ (fun _ x h => h.reform x) _
  refine h.foldl (fun s q h => ?_) _
  split
  · exact h.ite (h.freeBasins ..)
  · exact h

@[simp] protected theorem recoverSeeds {s : State} (h : s.Canonical) : (recoverSeeds s).Canonical := h

@[simp] protected theorem failOver {s : State} (h : s.Canonical) (toB : Bool) : (failOver s toB).Canonical := by
  simp only [failOver]
  refine (State.Canonical.recoverSeeds (State.Canonical.partsFromTable ?_)).log ..
  exact h

@[simp] protected theorem execTowpathFailover {s : State} (h : s.Canonical) : Ans.Canonical (execTowpathFailover s) := by
  unfold execTowpathFailover
  split <;> simp [h]

@[simp] protected theorem reply {s : State} (h : s.Canonical) (bs : List Byte) : (s.reply bs).Canonical := h

@[simp] protected theorem answer {s : State} (h : s.Canonical) (status : Nat) : (s.answer status).Canonical := h

@[simp] protected theorem takeCommand {s : State} (h : s.Canonical) (c : Command) : (takeCommand s c).Canonical := h

protected theorem command {s : State} (h : s.Canonical) (c : Command) (op : Nat) {effect : State → State}
    (keeps : ∀ u, u.Canonical → (effect u).Canonical) :
    (command s c op effect).Canonical := by
  unfold command
  split
  · exact keeps _ (h.takeCommand c)
  · exact h.answer ..

@[simp] protected theorem execKeeperReset {s : State} (h : s.Canonical) (cmd : Command) :
    Ans.Canonical (execKeeperReset cmd s) := h.command _ _ fun _ hu => ((hu.resetKeepers ..).stopFor ..).answer ..

@[simp] protected theorem discardContexts {s : State} (h : s.Canonical) (part status : Nat) (host : Bool) (l : List (Nat × Ctx)) :
    (discardContexts s part status host l).Canonical := by
  induction l generalizing s with
  | nil => exact h
  | cons x xs ih =>
    have noted := (h.modPart part fun p => { p with ctxs := sput none p.ctxs x.1 none }).note part 10 x.2.tt.cmd.queue x.1 status
      (some x.2.tt.cmd)
    exact ih ((noted.completeOwed ..).ite noted)

@[simp] protected theorem scrubCores {s : State} (h : s.Canonical) (l : List Nat) : (scrubCores s l).Canonical := by
  induction l generalizing s with
  | nil => exact h
  | cons x xs ih => exact ih (h.setCore x Core.init_mem_canonical)

@[simp] protected theorem scrubStacks {s : State} (h : s.Canonical) (l : List Nat) : (scrubStacks s l).Canonical := by
  induction l generalizing s with
  | nil => exact h
  | cons x xs ih => exact ih (h.setCellar (Cellar.scrubStack_wf h.cellar x))

@[simp] protected theorem clearWindows {s : State} (h : s.Canonical) (first n : Nat) :
    (clearWindows s first n).Canonical := h.setWindows (swf_sclear _ _ _ _ h.windows)

@[simp] protected theorem scrubKeepers {s : State} (h : s.Canonical) (basins : List Nat) : (scrubKeepers s basins).Canonical := by
  have idle := h.foldl (f := fun s b => State.modCore (State.modCore s (256 + 2 * b) fun k => { k with traps := [] }) (257 + 2 * b)
    fun k => { k with traps := [] }) (fun _ _ h => (h.modCore _ fun _ hk => by exact hk).modCore _ fun _ hk => by exact hk) basins
  exact idle.modCore _ fun k hk => { hk with sp := swf_sclear _ _ _ _ hk.sp, tags := swf_sclear _ _ _ _ hk.tags }

@[simp] protected theorem endGuest {s : State} (h : s.Canonical) (p : Partition) (status : Nat) : (endGuest s p status).Canonical := by
  unfold endGuest
  split
  · split
    · split
      · exact ((((h.unhold ..).freeReceive ..).leaveTiles ..).modPart ..).completeOwed ..
      · exact h
    · exact h
  · exact h

@[simp] protected theorem scrubPartition {s : State} (h : s.Canonical) (part status : Nat) (host : Bool) (tdi : Tdi) :
    (scrubPartition s part status host tdi).Canonical := by
  unfold scrubPartition
  split
  · next p _ =>
    extract_lets u s1 s2 s3 cs s4 s5 s6
    have hu : u.Canonical := h.endGuest ..
    have h1 : s1.Canonical := by
      unfold s1
      split
      · exact ((hu.unhold ..).completeOwed ..).ite (hu.unhold ..)
      · exact hu
    have h2 : s2.Canonical := by
      unfold s2
      split
      · exact (h1.completeOwed ..).ite h1
      · exact h1
    have h4 : s4.Canonical := (((h2.discardContexts ..).scrubCores ..).scrubStacks ..).scrubKeepers ..
    have h5 : s5.Canonical := (((h4.leaveTiles ..).clearWindows ..).dropTlb ..).uncache ..
    have h6 : s6.Canonical := h5
    exact h6.modPart ..
  · exact h

@[simp] protected theorem reviveKeeper {s : State} (h : s.Canonical) (b : Nat) : (reviveKeeper s b).Canonical := by
  simp only [reviveKeeper]
  (repeat' split) <;> simp [h]

@[simp] protected theorem reviveKeepers {s : State} (h : s.Canonical) (bs : List Nat) : (reviveKeepers s bs).Canonical := by
  unfold reviveKeepers
  exact h.foldl (fun _ _ h => by simp [h]) _

@[simp] protected theorem execPartitionReset {s : State} (h : s.Canonical) (cmd : Command) :
    Ans.Canonical (execPartitionReset cmd s) := by
  refine h.command _ _ fun u hu => ?_
  split
  · dsimp only
    refine (State.Canonical.deliverHeld (State.Canonical.modPart ?_ ..) ..).answer ..
    exact (hu.scrubPartition ..).reviveKeepers ..
  · exact hu.answer ..

@[simp] protected theorem warmState {s : State} (h : s.Canonical) : (warmState s).Canonical := by
  have reset : State.reset.Canonical := (State.memWf_iff _).mp (by decide +kernel)
  exact { reset with host := h.host }

@[simp] protected theorem execPackageReset {s : State} (h : s.Canonical) (cmd : Command) :
    Ans.Canonical (execPackageReset cmd s) := h.command _ _ fun _ hu => ((hu.warmState.loadComplex ..).loadComplex ..).answer ..

@[simp] protected theorem switchTo {s : State} (h : s.Canonical) (f : Firmware) (toB : Bool) : (switchTo s f toB).Canonical := by
  simp only [switchTo]
  refine (State.Canonical.modCore (State.Canonical.loadComplex ?_ ..) _ fun _ hk => by exact hk).modCore _ fun _ hk => hk
  exact h

@[simp] protected theorem execLiveUpdate {s : State} (h : s.Canonical) (cmd : Command) (accepts : Bool) :
    Ans.Canonical (execLiveUpdate cmd accepts s) := by
  refine h.command _ _ fun u hu => ?_
  dsimp only
  split
  · split
    · exact (hu.switchTo ..).answer ..
    · exact hu.answer ..
  · exact hu.answer ..

@[simp] protected theorem forceTimeouts {s : State} (h : s.Canonical) (part : Nat) (p : Partition) (t : Timetable) (l : List Group) :
    (forceTimeouts s part p t l).Canonical := by
  induction l generalizing s with
  | nil => exact h
  | cons x xs ih => exact ih ((h.modTt ..).ite (h.lockStops ..))

@[simp] protected theorem migrateAnswer {s : State} (h : s.Canonical) (part : Nat) (setv : List Nat) :
    (migrateAnswer s part setv).Canonical := h

@[simp] protected theorem execMigrate {s : State} (h : s.Canonical) (cmd : Command) (setv : List Nat) :
    Ans.Canonical (execMigrate cmd setv s) := by
  refine h.command _ _ fun u hu => ?_
  split
  · split
    · split
      · exact hu.migrateAnswer ..
      · exact (hu.forceTimeouts ..).migrateAnswer ..
    · exact hu.migrateAnswer ..
  · exact hu.answer ..

@[simp] protected theorem execFlr {s : State} (h : s.Canonical) (part : Nat) : Ans.Canonical (execFlr part s) := by
  unfold execFlr
  split
  · exact (((h.log ..).ite h).scrubPartition ..).modPart ..
  · exact h

@[simp] protected theorem execPageEviction {s : State} (h : s.Canonical) (part : Nat) (page : EvictTo) :
    Ans.Canonical (execPageEviction part page s) := by
  unfold execPageEviction
  rw [Ans.canonical_next]
  split
  · exact h
  · refine h.whenPaid _ _ fun u hu => ?_
    split
    · exact (hu.putHost ..).modPart ..
    · exact hu

@[simp] protected theorem pageBack {s : State} (h : s.Canonical) (part pa : Nat) (p : Partition) {k : Cellar}
    (w : Memory.wf k.bytes = true) :
    (pageBack s part pa p k).Canonical := by
  refine State.Canonical.foldl (h.withCellar ?_ part) (fun _ l h => h.hitMonitors ..) _
  exact w

@[simp] protected theorem poisonOwner {s : State} (h : s.Canonical) (part : Nat) (p : Partition) (c : Cmd) :
    (poisonOwner s part p c).Canonical := (h.modTt ..).foldl (fun _ _ h => h.poisonCtx ..) _

@[simp] protected theorem execPageReturn {s : State} (h : s.Canonical) (part pa version : Nat) (macOk : Bool) :
    Ans.Canonical (execPageReturn part pa version macOk s) := by
  unfold execPageReturn
  split
  · split
    · next p _ _ e _ =>
      refine h.whenPaid _ _ fun u hu => ?_
      have cleared := hu.modPart part fun p => { p with evicted := sput none p.evicted pa none }
      dsimp only
      split
      · exact cleared.pageBack part pa p (Cellar.foldl_wf (fun _ l w => lineBack_wf e p.phase w l) _ cleared.cellar)
      · have poisoned := cleared.pageBack part pa p
          (Cellar.foldl_wf (fun _ l w => Cellar.writePoison_wf w p.phase l) (pageLines pa) cleared.cellar)
        split
        · exact poisoned.poisonOwner ..
        · exact poisoned
    · exact h
  · exact h

@[simp] protected theorem execPartitionCreate {s : State} (h : s.Canonical) (basins : List Nat) :
    Ans.Canonical (execPartitionCreate basins s) := by
  unfold execPartitionCreate
  rw [Ans.canonical_next]
  split
  · exact h.answer ..
  · split
    · exact h.answer ..
    · exact ((h.foldl (fun _ b h => h.loadKeepers b) _).setPart ..).answer ..

@[simp] protected theorem execPartitionDissolve {s : State} (h : s.Canonical) (part : Nat) :
    Ans.Canonical (execPartitionDissolve part s) := by
  unfold execPartitionDissolve
  (repeat' split) <;> simp [h]

@[simp] protected theorem execFullService {s : State} (h : s.Canonical) (portMask stackMask basinMask : Nat) :
    Ans.Canonical (execFullService portMask stackMask basinMask s) := h

@[simp] protected theorem execCellarChannelDegrade {s : State} (h : s.Canonical) (stack : Nat) (holds6 : Bool) :
    Ans.Canonical (execCellarChannelDegrade stack holds6 s) := by
  unfold execCellarChannelDegrade
  split <;> simp [h]

@[simp] protected theorem execTileCoreUnavailable {s : State} (h : s.Canonical) (core : Nat) :
    Ans.Canonical (execTileCoreUnavailable core s) := by
  unfold execTileCoreUnavailable
  split <;> simp [h]

@[simp] protected theorem execPldmFirmwareUpdate {s : State} (h : s.Canonical) (img : Firmware) :
    Ans.Canonical (execPldmFirmwareUpdate img s) := h

@[simp] protected theorem execPtpMessage {s : State} (h : s.Canonical) (state terr taiNum : Nat) :
    Ans.Canonical (execPtpMessage state terr taiNum s) := by
  unfold execPtpMessage
  split <;> simp [h]

@[simp] protected theorem execPpsPulse {s : State} (h : s.Canonical) (edge : Nat) : Ans.Canonical (execPpsPulse edge s) := by
  unfold execPpsPulse
  split <;> simp [h]

@[simp] protected theorem execHoldover {s : State} (h : s.Canonical) (terr : Nat) : Ans.Canonical (execHoldover terr s) := by
  unfold execHoldover
  split <;> simp [h]

@[simp] protected theorem execInputVoltage {s : State} (h : s.Canonical) (mV : Nat) : Ans.Canonical (execInputVoltage mV s) := by
  unfold execInputVoltage
  split <;> simp [h]

@[simp] protected theorem execPowerLimitAssert {s : State} (h : s.Canonical) (islands : List Nat) :
    Ans.Canonical (execPowerLimitAssert islands s) := h

@[simp] protected theorem execPowerLimitClear {s : State} (h : s.Canonical) : Ans.Canonical (execPowerLimitClear s) := h

@[simp] protected theorem tripBasin {s : State} (h : s.Canonical) (basin : Nat) :
    (tripBasin s basin).Canonical := by simp [tripBasin, h]

@[simp] protected theorem execThermalTrip {s : State} (h : s.Canonical) (basin : Nat) : Ans.Canonical (execThermalTrip basin s) := by
  unfold execThermalTrip
  split <;> simp [h]

@[simp] protected theorem warnAll {s : State} (h : s.Canonical) (k : HealthSrc) (idx : Nat) (l : List (Nat × Option Partition)) :
    (warnAll s k idx l).Canonical := by
  fun_induction warnAll with
  | case1 => exact h
  | case2 s n p qs ih => exact ih (((h.modPart ..).log ..).ite h)
  | case3 s n qs ih => exact ih h

@[simp] protected theorem execFailureWarning {s : State} (h : s.Canonical) (src : HealthSrc) (idx : Nat) :
    Ans.Canonical (execFailureWarning src idx s) := by
  unfold execFailureWarning
  split <;> simp [h]

@[simp] protected theorem execHealthEvent {s : State} (h : s.Canonical) (src : HealthInput) (idx : Nat) :
    Ans.Canonical (execHealthEvent src idx s) := by
  unfold execHealthEvent
  (repeat' split) <;> simp [h]

@[simp] protected theorem execHealthWindowEnd {s : State} (h : s.Canonical) : Ans.Canonical (execHealthWindowEnd s) := by
  unfold execHealthWindowEnd
  split <;> simp [h]

end Sys2Proof.Machine.State.Canonical
end

section
/-! O58, the functions of the model:
bottling, register-write events, scalar operations and TDISP. -/

namespace Sys2Proof.Machine.State.Canonical

/-! The functions of Machine/Bottling.lean. -/

@[simp] protected theorem releaseBottle {s : State} (h : s.Canonical) (part : Nat) : (releaseBottle s part).Canonical := by
  unfold releaseBottle
  (repeat' split) <;> simp [h]

@[simp] protected theorem beginBottle {s : State} (h : s.Canonical) (part : Nat) (p : Partition) :
    (beginBottle s part p).Canonical := by
  simp only [beginBottle]
  have counted := (h.logSpace part p.staging 0x2010).countSpace part p.staging 0x2010
  exact (((counted.setPart ..).log ..).releaseBottle ..).ite ((counted.setPart ..).disarmMonitors ..)

@[simp] protected theorem putLines {s : State} (h : s.Canonical) (part by_ va : Nat) (bs : List Byte) (n : Nat) :
    (putLines s part by_ va bs n).Canonical := by
  induction n generalizing s with
  | zero => exact h
  | succ n ih => exact ih (h.putSpace ..)

@[simp] protected theorem bottleShard {s : State} (h : s.Canonical) (part : Nat) (p : Partition) (b : BottleJob) (e : Nat × Nat) :
    (bottleShard s part p b e).Canonical := by
  simp only [bottleShard]
  split
  · exact h.logSpace ..
  · exact h.whenPaid _ _ fun u hu =>
      ((((hu.freeIv.countSpace ..).countSpace ..).putLines ..).putHost ..).modPart ..

@[simp] protected theorem bottleNext {s : State} (h : s.Canonical) (part : Nat) (p : Partition) (b : BottleJob) (e : Nat × Nat) :
    (bottleNext s part p b e).Canonical := by
  unfold bottleNext
  split <;> simp [h]

@[simp] protected theorem bottleDone {s : State} (h : s.Canonical) (part : Nat) (p : Partition) (b : BottleJob) :
    (bottleDone s part p b).Canonical := h.whenPaid _ _ fun _ hu => ((hu.putHost ..).modPart ..).releaseBottle ..

@[simp] protected theorem execKeeperBottling {s : State} (h : s.Canonical) (part : Nat) (phase : BottlePhase) :
    Ans.Canonical (execKeeperBottling part phase s) := by
  unfold execKeeperBottling
  (repeat' split) <;> simp [h]

/-! The functions of Machine/CsrEvents.lean. -/

@[simp] protected theorem execArithWrite {s : State} (h : s.Canonical) (core : Nat) (kind : CsrKind) (v : Word) :
    Ans.Canonical (execArithWrite core kind v s) := h.modCore _ fun _ hk => hk

@[simp] protected theorem execAstatWrite {s : State} (h : s.Canonical) (core : Nat) (kind : CsrKind) (v : Word) :
    Ans.Canonical (execAstatWrite core kind v s) := h.modCore _ fun _ hk => hk

@[simp] protected theorem execCfoldWrite {s : State} (h : s.Canonical) (core : Nat) (kind : CsrKind) (v : Word) :
    Ans.Canonical (execCfoldWrite core kind v s) := by simp [execCfoldWrite, h]

@[simp] protected theorem execForiginWrite {s : State} (h : s.Canonical) (core : Nat) (kind : CsrKind) (v : Word) :
    Ans.Canonical (execForiginWrite core kind v s) := by simp [execForiginWrite, h]

@[simp] protected theorem execFshareWrite {s : State} (h : s.Canonical) (core port : Nat) (kind : CsrKind) (v : Word) :
    Ans.Canonical (execFshareWrite core port kind v s) := by simp [execFshareWrite, h]

@[simp] protected theorem execBudgetWrite {s : State} (h : s.Canonical) (core : Nat) (layby : Bool) (kind : CsrKind) (v : Word) :
    Ans.Canonical (execBudgetWrite core layby kind v s) := by simp [execBudgetWrite, h]

@[simp] protected theorem execFwinWrite {s : State} (h : s.Canonical) (core : Nat) (kind : CsrKind) (v : Word) :
    Ans.Canonical (execFwinWrite core kind v s) := by simp [execFwinWrite, h]

@[simp] protected theorem execReachlimWrite {s : State} (h : s.Canonical) (core : Nat) (kind : CsrKind) (v : Word) :
    Ans.Canonical (execReachlimWrite core kind v s) := by simp [execReachlimWrite, h]

@[simp] protected theorem execLpatienceWrite {s : State} (h : s.Canonical) (core : Nat) (kind : CsrKind) (v : Word) :
    Ans.Canonical (execLpatienceWrite core kind v s) := by simp [execLpatienceWrite, h]

@[simp] protected theorem execTaskcapWrite {s : State} (h : s.Canonical) (core : Nat) (kind : CsrKind) (v : Word) :
    Ans.Canonical (execTaskcapWrite core kind v s) := by simp [execTaskcapWrite, h]

@[simp] protected theorem execHthreshWrite {s : State} (h : s.Canonical) (core : Nat) (kind : CsrKind) (v : Word) :
    Ans.Canonical (execHthreshWrite core kind v s) := by simp [execHthreshWrite, h]

@[simp] protected theorem execTlbinvWrite {s : State} (h : s.Canonical) (core : Nat) (kind : CsrKind) (v : Word) :
    Ans.Canonical (execTlbinvWrite core kind v s) := by simp [execTlbinvWrite, h]

@[simp] protected theorem execRegisterWrite {s : State} (h : s.Canonical) (core num : Nat) (kind : CsrKind) (v : Word) :
    Ans.Canonical (execRegisterWrite core num kind v s) := by simp [execRegisterWrite, h]

/-! The functions of Machine/Scalar.lean. -/

@[simp] protected theorem scalarEff {s : State} (h : s.Canonical) (u port n : Nat) (f : Word → Word → Word → Word) (m : Nat) (b : Bool)
    (v : Word) : (scalarEff u port n f s m b v).Canonical := h.schedule ..

@[simp] protected theorem compareEff {s : State} (h : s.Canonical) (u : Nat) (f : Word → Word → Bool) (n : Nat) (b : Bool) (v : Word) :
    (compareEff u f s n b v).Canonical := h.schedule ..

/-! The functions of Machine/Tdisp.lean. -/

@[simp] protected theorem lockInterface {s : State} (h : s.Canonical) (part : Nat) : (lockInterface s part).Canonical := h.modPart ..

@[simp] protected theorem startInterface {s : State} (h : s.Canonical) (part : Nat) : (startInterface s part).Canonical := h.modPart ..

@[simp] protected theorem stopInterface {s : State} (h : s.Canonical) (part : Nat) : (stopInterface s part).Canonical := by
  unfold stopInterface
  (repeat' split) <;> simp [h]

@[simp] protected theorem interfaceReport {s : State} (h : s.Canonical) (part : Nat) : (interfaceReport s part).Canonical := by
  unfold interfaceReport
  split <;> simp [h]

@[simp] protected theorem execLockInterfaceRequest {s : State} (h : s.Canonical) (part : Nat) :
    Ans.Canonical (execLockInterfaceRequest part s) := h.modPart ..

@[simp] protected theorem execStartInterfaceRequest {s : State} (h : s.Canonical) (part : Nat) :
    Ans.Canonical (execStartInterfaceRequest part s) := h.modPart ..

@[simp] protected theorem execStopInterfaceRequest {s : State} (h : s.Canonical) (part : Nat) :
    Ans.Canonical (execStopInterfaceRequest part s) := by simp [execStopInterfaceRequest, h]

@[simp] protected theorem execGetDeviceInterfaceReport {s : State} (h : s.Canonical) (part : Nat) :
    Ans.Canonical (execGetDeviceInterfaceReport part s) := by simp [execGetDeviceInterfaceReport, h]

@[simp] protected theorem treeFailure {s : State} (h : s.Canonical) (part stack level idx : Nat) :
    (treeFailure s part stack level idx).Canonical := by
  unfold treeFailure
  split
  · exact (h.log ..).setCellar h.cellar
  · exact h

@[simp] protected theorem enterError {s : State} (h : s.Canonical) (part : Nat) : (enterError s part).Canonical := by
  unfold enterError
  (repeat' split) <;> simp [h]

@[simp] protected theorem execTdiError {s : State} (h : s.Canonical) (f : TdiFault) : Ans.Canonical (execTdiError f s) := by
  unfold execTdiError
  split <;> simp [h]

@[simp] protected theorem modSpdm {s : State} (h : s.Canonical) (f : Spdm → Spdm) : (s.modSpdm f).Canonical := h

@[simp] protected theorem respond {s : State} (h : s.Canonical) (code : Nat) (content : List Byte) :
    (respond s code content).Canonical := h

@[simp] protected theorem respondError {s : State} (h : s.Canonical) : (respondError s).Canonical := h

protected theorem whenReady {s go : State} (h : s.Canonical) (hgo : go.Canonical) :
    (whenReady s go).Canonical := hgo.ite h.respondError

protected theorem inSession {s : State} (h : s.Canonical) {go : Session → State} (keeps : ∀ x, (go x).Canonical) (id : Nat) :
    (inSession s id go).Canonical := by
  unfold inSession
  split
  · exact (keeps _).ite h.respondError
  · exact h.respondError

@[simp] protected theorem execGetVersion {s : State} (h : s.Canonical) : Ans.Canonical (execGetVersion s) := h

@[simp] protected theorem execGetCapabilities {s : State} (h : s.Canonical) : Ans.Canonical (execGetCapabilities s) := by
  unfold execGetCapabilities
  split <;> simp [h]

@[simp] protected theorem execNegotiateAlgorithms {s : State} (h : s.Canonical) (algs : List Nat) :
    Ans.Canonical (execNegotiateAlgorithms algs s) := by
  unfold execNegotiateAlgorithms
  split <;> simp [h]

@[simp] protected theorem execGetDigests {s : State} (h : s.Canonical) : Ans.Canonical (execGetDigests s) := h.whenReady (h.respond ..)

@[simp] protected theorem execGetCertificate {s : State} (h : s.Canonical) (offset len : Nat) :
    Ans.Canonical (execGetCertificate offset len s) := h.whenReady (h.respond ..)

@[simp] protected theorem execChallenge {s : State} (h : s.Canonical) (nonce : List Byte) :
    Ans.Canonical (execChallenge nonce s) := h.whenReady (h.respond ..)

@[simp] protected theorem execGetMeasurements {s : State} (h : s.Canonical) (nonce : List Byte) (signed : Bool) :
    Ans.Canonical (execGetMeasurements nonce signed s) := h.whenReady ((h.respond ..).ite h.respondError)

@[simp] protected theorem execKeyExchange {s : State} (h : s.Canonical) (sess : Nat) (psk : Bool) (exchange : List Byte) :
    Ans.Canonical (execKeyExchange sess psk exchange s) := h.whenReady (h.respondError.ite ((h.modSpdm ..).respond ..))

@[simp] protected theorem execFinish {s : State} (h : s.Canonical) (sess : Nat) (verified : Bool) :
    Ans.Canonical (execFinish sess verified s) := by
  unfold execFinish
  (repeat' split) <;> simp [h]

@[simp] protected theorem execKeyUpdate {s : State} (h : s.Canonical) (sess : Nat) :
    Ans.Canonical (execKeyUpdate sess s) := h.inSession (fun _ => (h.modSpdm ..).respond ..) sess

@[simp] protected theorem execHeartbeat {s : State} (h : s.Canonical) (sess : Nat) :
    Ans.Canonical (execHeartbeat sess s) := h.inSession (fun _ => h.respond ..) sess

@[simp] protected theorem execEndSession {s : State} (h : s.Canonical) (sess : Nat) :
    Ans.Canonical (execEndSession sess s) := h.inSession (fun _ => (h.modSpdm ..).respond ..) sess

@[simp] protected theorem setSeed {s : State} (h : s.Canonical) (sess part : Nat) (cipher : List Byte) :
    (setSeed s sess part cipher).Canonical := by
  unfold setSeed
  (repeat' split) <;> simp [h]

@[simp] protected theorem execVendorDefinedRequest {s : State} (h : s.Canonical) (sess : Nat) (req : VendorReq) :
    Ans.Canonical (execVendorDefinedRequest sess req s) := by
  refine h.inSession (fun _ => ?_) sess
  cases req with
  | lockInterface part => exact (h.lockInterface ..).respond ..
  | startInterface part => exact (h.startInterface ..).respond ..
  | stopInterface part => exact (h.stopInterface ..).respond ..
  | interfaceReport part => exact h.interfaceReport ..
  | ideKey part key => exact (h.modPart ..).respond ..
  | tenantSecret part cipher => exact (h.setSeed ..).respond ..

end Sys2Proof.Machine.State.Canonical
end

section
/-! The canonical form of the memories, instruction by instruction and event by event. -/

namespace Sys2Proof.Machine

/-! Every instruction. -/

set_option maxRecDepth 8000 in
/-- A slot operation keeps the memories canonical: what it asks for is scheduled, and the rest of what it does writes no memory. -/
theorem exec_slot_canonical {i : Instr} {hd : Head} {dst : BitVec 10} {e : Option Ext} (p : slotParts i = some (hd, dst, e))
    {s : State} (h : s.Canonical) : Ans.Canonical (exec i s) := by
  cases i
  case nop => exact h
  case queuePush hd q => exact h.slotOp (eff := fun s c _ v => s.schedule c 1 (.push q.toNat v)) (fun _ _ _ => h.schedule ..) ..
  case streamReset hd => exact h.slotOp (eff := fun s c _ _ => s.schedule c 1 .sbreset) (fun _ _ _ => h.schedule ..) ..
  case ctBrk hd => exact h.slotOp (eff := fun s _ _ _ => s) (fun _ _ _ => h) ..
  case prMode hd => exact h.slotOp (eff := fun s c _ v => s.schedule c 1 (.pmode (bits v 2 0))) (fun _ _ _ => h.schedule ..) ..
  case prFmt hd =>
    exact h.slotOp (eff := fun s c _ v => s.schedule c 1 (.pfmt (selFmt (s.core c) (bits v 3 0)) (selFmt (s.core c) (bits v 7 4))))
      (fun _ _ _ => h.schedule ..) ..
  case prBusy hd =>
    exact h.slotOp (eff := fun s c _ _ => s.schedule c 1 (.busyWord (busyAsked s c))) (fun _ _ _ => h.schedule ..) ..
  all_goals cases p <;> exact h.slotOp (fun _ _ _ => by simp [h]) ..

theorem execColdReset_canonical (okA okB : Bool) {s : State} (h : s.Canonical) : Ans.Canonical (execColdReset okA okB s) := by
  unfold execColdReset
  extract_lets w t r r1 r2
  have warm : w.Canonical := h.warmState
  have cold : r.Canonical := warm
  have loadedA : r1.Canonical := (cold.loadComplex ..).ite (cold.withCores _)
  have loadedB : r2.Canonical := (loadedA.loadComplex ..).ite (loadedA.withCores _)
  exact loadedB.ite (loadedB.log ..)

set_option maxRecDepth 8000 in
/-- An event keeps the memories canonical. -/
theorem exec_event_canonical {i : Instr} (p : slotParts i = none) {s : State} (h : s.Canonical) : Ans.Canonical (exec i s) := by
  cases i
  case coldReset okA okB => exact execColdReset_canonical okA okB h
  all_goals cases p
  all_goals dsimp only [exec]
  all_goals simp [h]

theorem exec_canonical (i : Instr) {s : State} (h : s.Canonical) : Ans.Canonical (exec i s) := by
  cases p : slotParts i with
  | none => exact exec_event_canonical p h
  | some x => exact exec_slot_canonical p h

/-! What each boundary evaluates. -/

/-- From a canonical state a candidate for the next event, where there is one, answers a canonical state. -/
def KeepsCanonical (f : State → Option (Ans State)) : Prop := ∀ s a, s.Canonical → f s = some a → Ans.Canonical a

theorem canonical_of_map {α : Type} {o : Option α} {f : α → Ans State} {a : Ans State} (e : o.map f = some a)
    (h : ∀ x, Ans.Canonical (f x)) : Ans.Canonical a := by
  obtain ⟨x, -, rfl⟩ := Option.map_eq_some_iff.mp e
  exact h x

theorem takeAgenda_canonical (ok : Instr → Bool) : KeepsCanonical fun s => takeAgenda s ok := by
  intro s a h e
  refine canonical_of_map e fun x => ?_
  have taken : { s with agenda := s.agenda.erase x }.Canonical := h
  dsimp only
  split
  · exact taken
  · exact exec_canonical _ taken

theorem nextWrite_canonical : KeepsCanonical nextWrite := fun _ _ h e => canonical_of_map e fun _ => h.execTimedAccessPerform ..

theorem nextResult_canonical : KeepsCanonical nextResult := by
  intro s a h e
  unfold nextResult at e
  split at e
  · cases e
    exact h.execResultDelivery ..
  · exact canonical_of_map e fun _ => h.execResourceFree ..

theorem nextRead_canonical : KeepsCanonical nextRead := fun _ _ h e => canonical_of_map e fun _ => h.execTimedAccessPerform ..

theorem nextGarrive_canonical : KeepsCanonical nextGarrive := fun _ _ h e => canonical_of_map e fun _ => h.execGarriveRecorded ..

theorem nextFence_canonical : KeepsCanonical nextFence := fun _ _ h e => canonical_of_map e fun _ => h.execFenceComplete ..

theorem nextWait_canonical : KeepsCanonical nextWait := by
  intro s a h e
  unfold nextWait at e
  split at e
  · cases e
    exact h.execFwaitSatisfied ..
  · exact canonical_of_map e fun _ => h.execFwaitTimeout ..

theorem nextLock_canonical : KeepsCanonical nextLock := by
  intro s a h e
  unfold nextLock at e
  split at e <;> cases e
  · exact h.execLockOpen ..
  · exact h.execLockRebase ..
  · exact h.execDryLock ..
  · exact h.execLockTimeout ..

theorem nextBottle_canonical : KeepsCanonical nextBottle := fun _ _ h e => canonical_of_map e fun _ => h.execKeeperBottling ..

theorem nextTakeover_canonical : KeepsCanonical nextTakeover := fun _ _ h e =>
  canonical_of_map e fun _ => h.takeFree.execKeeperTakeover ..

theorem nextOwed_canonical : KeepsCanonical nextOwed := fun _ _ h e => canonical_of_map e fun _ => h.payOwed _

theorem nextKeeper_canonical : KeepsCanonical nextKeeper := by
  intro s a h e
  unfold nextKeeper at e
  split at e <;> cases e
  · exact h.execKeeperHoldRelease ..
  · exact h.execTimetableStop ..

theorem nextPeriod_canonical : KeepsCanonical nextPeriod := by
  intro s a h e
  unfold nextPeriod at e
  split at e
  · cases e
    exact h.execBudgetPeriod
  · split at e <;> cases e
    exact h.execHealthWindowEnd

theorem nextUpkeep_canonical : KeepsCanonical nextUpkeep := by
  intro s a h e
  unfold nextUpkeep at e
  split at e
  · cases e
    exact h.execTowpathFailover
  · split at e
    · cases e
      exact h.execStateTableWrite
    · exact canonical_of_map e fun _ => h.execFailureWarning ..

theorem nextEligible_canonical : KeepsCanonical nextEligible := fun _ _ h e => canonical_of_map e fun _ => h.execContextEligible ..

theorem nextRetire_canonical : KeepsCanonical nextRetire := fun _ _ h e =>
  canonical_of_map e fun _ => h.execRetiringKeyDestroyed ..

theorem nextPending_canonical : KeepsCanonical nextPending := fun _ _ h e =>
  canonical_of_map e fun _ => h.execPendingKeyDerive ..

theorem nextSend_canonical : KeepsCanonical nextSend := fun _ _ h e => canonical_of_map e fun _ => h.execSendDeparture ..

theorem nextLoop_canonical : KeepsCanonical nextLoop := fun _ _ h e => canonical_of_map e fun _ => h.execArrival _

theorem nextBacklog_canonical : KeepsCanonical nextBacklog := by
  intro s a h e
  have cut (n : Nat) : { s with backlog := s.backlog.eraseIdx n }.Canonical := h
  exact canonical_of_map e fun x => (cut x.2).execArrival x.1

theorem nextReceipt_canonical : KeepsCanonical nextReceipt := by
  intro s a h e
  unfold nextReceipt at e
  split at e <;> cases e
  exact h.sendReceipts

theorem nextRelay_canonical : KeepsCanonical nextRelay := fun _ _ h e => canonical_of_map e fun _ => h.execLaybyRelay _

theorem nextIssue_canonical : KeepsCanonical nextIssue := by
  intro s a h e
  unfold nextIssue at e
  split at e <;> cases e
  · exact h.execTaskStart _
  · split
    · exact h.execReachOverrun _
    · split
      · exact h.execTrapHandlerEntry _
      · exact h.execBundleIssue ..

theorem firstOf_canonical {fs : List (State → Option (Ans State))} (keeps : ∀ f ∈ fs, KeepsCanonical f) :
    KeepsCanonical (firstOf fs) := by
  intro s a h e
  induction fs with
  | nil => cases e
  | cons f fs ih =>
    obtain ⟨first, rest⟩ := List.forall_mem_cons.mp keeps
    unfold firstOf at e
    split at e
    · next found => cases e; exact first s a h found
    · exact ih rest e

theorem heldEvents_canonical : ∀ f ∈ heldEvents, KeepsCanonical f := by
  simp only [heldEvents, List.forall_mem_singleton]
  exact takeAgenda_canonical boardEvent

theorem boundaryEvents_canonical : ∀ f ∈ boundaryEvents, KeepsCanonical f := by
  have agenda : KeepsCanonical nextAgenda := takeAgenda_canonical _
  simp [boundaryEvents, agenda, nextWrite_canonical, nextResult_canonical, nextPeriod_canonical, nextLoop_canonical,
    nextBacklog_canonical, nextRead_canonical, nextGarrive_canonical, nextFence_canonical, nextWait_canonical, nextBottle_canonical,
    nextLock_canonical, nextKeeper_canonical, nextTakeover_canonical, nextOwed_canonical, nextUpkeep_canonical,
    nextEligible_canonical, nextRetire_canonical, nextPending_canonical, nextReceipt_canonical, nextRelay_canonical,
    nextSend_canonical, nextIssue_canonical]

/-! The step. -/

theorem runLatch_canonical {s : State} (h : s.Canonical) : Ans.Canonical (runLatch s) := by
  simp only [runLatch]
  split
  · exact h.finishBundle _
  · split
    · exact exec_canonical _ (h.modCore _ fun _ hk => by exact hk)
    · trivial

theorem advance_canonical {s : State} (h : s.Canonical) : (advance s).Canonical := h

theorem nextEvent_canonical {s : State} (h : s.Canonical) : Ans.Canonical (nextEvent s) := by
  have keeps : KeepsCanonical (firstOf (if s.inReset then heldEvents else boundaryEvents)) := by
    split
    · exact firstOf_canonical heldEvents_canonical
    · exact firstOf_canonical boundaryEvents_canonical
  unfold nextEvent
  cases e : firstOf (if s.inReset then heldEvents else boundaryEvents) s with
  | none => exact advance_canonical h
  | some a => exact keeps s a h e

theorem step_canonical {s : State} (h : s.Canonical) : Ans.Canonical (step s) := by
  unfold step
  split
  · exact runLatch_canonical h
  · exact nextEvent_canonical h

/-- Settles O58: every instruction and every event writes the memories through operations that keep a store canonical, or leaves them
as they are. -/
theorem memoriesCanonical : Obligations.MemoriesCanonical := by
  unfold Obligations.MemoriesCanonical
  intro s t w e
  have kept := step_canonical ((State.memWf_iff s).mp w)
  rw [e] at kept
  exact (State.memWf_iff t).mpr kept

end Sys2Proof.Machine
end

section
/-! What a slot operation does once it is accepted (02 R39, R59). -/

namespace Sys2Proof.Machine

/-- An accepted operation whose effect leaves state t answers t. -/
theorem exec_accepted {i : Instr} {s t : State} {h : Head} {dst : Nat} {eff : Eff} (meaning : exec i s = slotOp h dst none eff s)
    (effect : eff s s.cur s.motorNow (s.operand h) = t) (a : Accepts s h dst none) : exec i s = .next t := by
  rw [meaning, slotOp_accepts h dst none eff s a, effect]

end Sys2Proof.Machine
end

section
/-! O34. Flag operations and conditions (11 R211-R213). -/

namespace Sys2Proof.Machine

theorem toNat_sub_ofNat (f : BitVec 32) {a : Nat} (word : a < 2 ^ 32) :
    (f - BitVec.ofNat 32 a).toNat = (f.toNat + 2 ^ 32 - a) % 2 ^ 32 := by
  rw [BitVec.toNat_sub, BitVec.toNat_ofNat, Nat.mod_eq_of_lt word]
  congr 1
  omega

theorem toNat_eq_iff_eq_ofNat (f : BitVec 32) {a : Nat} (word : a < 2 ^ 32) : f.toNat = a ↔ f = BitVec.ofNat 32 a := by
  rw [← BitVec.toNat_inj, BitVec.toNat_ofNat, Nat.mod_eq_of_lt word]

theorem toNat_and_ofNat (f : BitVec 32) {a : Nat} (word : a < 2 ^ 32) : (f &&& BitVec.ofNat 32 a).toNat = f.toNat &&& a := by
  rw [BitVec.toNat_and, BitVec.toNat_ofNat, Nat.mod_eq_of_lt word]

/-- Condition 0. The code is a variable, because at the literal the kernel would run the comparison with 2^31 in unary. -/
theorem flagHolds_atLeast {cond : Nat} (code : cond = 0) (f v : Nat) :
    flagHolds cond f v = decide ((f + 2 ^ 32 - v) % 2 ^ 32 < 2 ^ 31) := by
  unfold flagHolds
  split
  case h_1 => rfl
  all_goals contradiction

/-- Condition 3, its code a variable as in flagHolds_atLeast. -/
theorem flagHolds_below {cond : Nat} (code : cond = 3) (f v : Nat) :
    flagHolds cond f v = decide (2 ^ 31 ≤ (f + 2 ^ 32 - v) % 2 ^ 32) := by
  unfold flagHolds
  split
  case h_4 => rfl
  all_goals contradiction

/-- Conditions 0 and 3 look at the sign of the 32-bit difference (11 R211). -/
theorem flagHolds_sign (f : BitVec 32) {a : Nat} (word : a < 2 ^ 32) :
    flagHolds 0 f.toNat a = decide (0 ≤ (f - BitVec.ofNat 32 a).toInt) ∧
      flagHolds 3 f.toNat a = decide ((f - BitVec.ofNat 32 a).toInt < 0) := by
  rw [flagHolds_atLeast rfl, flagHolds_below rfl, decide_eq_decide, decide_eq_decide, BitVec.toInt_pos_iff, BitVec.toInt_neg_iff,
    toNat_sub_ofNat f word]
  generalize (f.toNat + 2 ^ 32 - a) % 2 ^ 32 = difference
  omega

theorem nat_bne_eq_decide (m n : Nat) : (m != n) = decide (m ≠ n) := by
  rw [bne, beq_eq_decide, decide_not]

/-- Conditions 1 and 2 compare the flag with the value (11 R211). -/
theorem flagHolds_equality (f a : Nat) : flagHolds 1 f a = decide (f = a) ∧ flagHolds 2 f a = decide (f ≠ a) := by
  exact ⟨beq_eq_decide f a, nat_bne_eq_decide f a⟩

/-- Conditions 4 and 5 look at the bits that the value names (11 R211). -/
theorem flagHolds_bits (f : BitVec 32) {a : Nat} (word : a < 2 ^ 32) :
    flagHolds 4 f.toNat a = decide (f &&& BitVec.ofNat 32 a = BitVec.ofNat 32 a) ∧
      flagHolds 5 f.toNat a = decide (f &&& BitVec.ofNat 32 a ≠ 0) := by
  have all := toNat_eq_iff_eq_ofNat (f &&& BitVec.ofNat 32 a) word
  have none := toNat_eq_iff_eq_ofNat (f &&& BitVec.ofNat 32 a) (a := 0) (by decide)
  rw [toNat_and_ofNat f word] at all none
  exact ⟨(beq_eq_decide ..).trans (decide_eq_decide.2 all), (nat_bne_eq_decide ..).trans (decide_eq_decide.2 (not_congr none))⟩

/-- Settles O34: each operation by its own line of flagStep, each condition by its own comparison. -/
theorem flagOperationEffects : Obligations.FlagOperationEffects := by
  unfold Obligations.FlagOperationEffects
  intro f a b wa wb
  have old : f.setWidth 64 = BitVec.ofNat 64 f.toNat := (BitVec.ofNat_toNat ..).symm
  obtain ⟨nonneg, neg⟩ := flagHolds_sign f wa
  obtain ⟨eq, ne⟩ := flagHolds_equality f.toNat a
  obtain ⟨all, some⟩ := flagHolds_bits f wa
  refine ⟨rfl, ?fadd, ?fcas, ?fget, rfl, fun phys cond => ?ftest, nonneg, eq, ne, neg, all, some⟩
  case fadd => rw [BitVec.ofNat_add, BitVec.ofNat_toNat, BitVec.setWidth_eq]; rfl
  case fcas => simp only [flagStep, toNat_eq_iff_eq_ofNat f wa, old]
  case fget => rw [flagStep, old]
  case ftest => simp only [flagStep, b2w]

end Sys2Proof.Machine
end

section
/-! O33. What the fg operations ask for (11 R212-R214, R219-R221). -/

namespace Sys2Proof.Machine

/-- fwait notes the flag, condition and limit of its operands and ports, and the butty stream waits (11 R214). -/
theorem exec_fgFwait {s : State} {h : Head} (a : Accepts s h 0x385 none) : let k := s.core s.cur
    let w := FWait.mk (fgFlag s s.cur (s.operand h)) (bits (k.inp 10 1) 6 4) ((k.inp 10 2).toNat % 2 ^ 32) (s.after s.cur 2)
      (if k.inp 10 3 = 0 then none else some (s.after s.cur ((k.inp 10 3).toNat + 1)))
    exec (.fgFwait h) s =
      .next (s.modCore s.cur (fun k => { k with fwait := some w, butty := { k.butty with st := .fwait } })) := by
  refine exec_accepted (eff := fwaitEff) rfl ?_ a
  simp only [fwaitEff, bits_low, toNat_eq_zero_iff]

/-- The group word of a task that the group does not hold (11 R221). -/
theorem ginfoWord_outside {s : State} {c g : Nat}
    (out : ∀ x, (s.timetable c).bind (fun t => t.group g) = some x → bitOf x.map c = false) :
    ginfoWord s c g = BitVec.ofNat 64 g := by
  unfold ginfoWord
  split
  · next x held => rw [out x held]; rfl
  · rfl

/-- The group word of a task that the group holds (11 R221). -/
theorem ginfoWord_inside {s : State} {c g : Nat} {x : Group} (held : (s.timetable c).bind (fun t => t.group g) = some x)
    (member : bitOf x.map c = true) :
    ginfoWord s c g = BitVec.ofNat 64 (x.gen.toNat % 2 ^ 16 * 2 ^ 48 + x.mode * 2 ^ 42 + b2n (bitOf x.arrivals c) * 2 ^ 41 +
      x.arrived * 2 ^ 32 + x.members * 2 ^ 16 + 2 ^ 15 + g) := by
  simp only [ginfoWord, held, member, if_true]

theorem b2n_lt (b : Bool) : b2n b < 2 := by
  cases b <;> decide

theorem decide_b2n_odd (b : Bool) : decide (b2n b % 2 = 1) = b := by
  cases b <;> rfl

/-- The fields of a group word (11 R221). -/
theorem groupWord_fields {gen mode arrived members g : Nat} {here : Bool} (hg : g < 2 ^ 8) (hm : mode < 4) (ha : arrived < 2 ^ 9)
    (hn : members < 2 ^ 9) :
    let w := BitVec.ofNat 64 (gen % 2 ^ 16 * 2 ^ 48 + mode * 2 ^ 42 + b2n here * 2 ^ 41 + arrived * 2 ^ 32 + members * 2 ^ 16 +
      2 ^ 15 + g)
    bits w 7 0 = g ∧ bits w 14 8 = 0 ∧ w.getLsbD 15 = true ∧ bits w 24 16 = members ∧ bits w 31 25 = 0 ∧
      bits w 40 32 = arrived ∧ w.getLsbD 41 = here ∧ bits w 43 42 = mode ∧ bits w 47 44 = 0 ∧ bits w 63 48 = gen % 2 ^ 16 := by
  have bit := b2n_lt here
  have value := Nat.mod_eq_of_lt (show gen % 2 ^ 16 * 2 ^ 48 + mode * 2 ^ 42 + b2n here * 2 ^ 41 + arrived * 2 ^ 32 +
    members * 2 ^ 16 + 2 ^ 15 + g < 2 ^ 64 by omega)
  simp only [bits, bitsOf, BitVec.toNat_ofNat, value, BitVec.getLsbD, Nat.testBit_eq_decide_div_mod_eq]
  refine ⟨by omega, by omega, ?_, by omega, by omega, by omega, ?_, by omega, by omega, by omega⟩
  · rw [decide_eq_true_iff]
    omega
  · refine (decide_eq_decide.2 ?_).trans (decide_b2n_odd here)
    omega

/-- Settles O33: each operation schedules its one action at its time, fwait notes the wait, and ginfo reads the word of its group. -/
theorem flagAsks : Obligations.FlagAsks := by
  unfold Obligations.FlagAsks
  intro s h k v f a b
  have low (n : Nat) : bits (k.inp 10 n) 31 0 = (k.inp 10 n).toNat % 2 ^ 32 := bits_low _ 31
  have plain (op : FlagOp) : flagEff op s s.cur s.motorNow v = s.willDo 2 (.flagOp op f a b) := by
    simp only [flagEff, State.willDo, a, b, ← low]
    rfl
  refine ⟨exec_accepted rfl (plain .fset), exec_accepted rfl (plain .fadd), exec_accepted rfl (plain .fcas),
    exec_accepted rfl (plain .fget), exec_accepted rfl (plain .fclr), exec_accepted (eff := ftestEff) rfl ?ftest, fun acc => ?fwait,
    exec_accepted rfl rfl, exec_accepted (eff := gcastEff) rfl ?gcast, exec_accepted (eff := ginfoEff) rfl ?ginfo,
    fun g hg => ⟨ginfoWord_outside, fun x held member hm ha hn => ?word⟩⟩
  case ftest =>
    simp only [ftestEff, State.willDo, b, ← low]
    rfl
  case fwait =>
    refine ⟨_, exec_fgFwait acc, ?_⟩
    rw [State.core_modCore_same]
    exact ⟨rfl, rfl, rfl, fun _ other => State.core_modCore_other _ _ _ other, rfl, rfl⟩
  case gcast => simp only [gcastEff, State.willDo, bits_low]; rfl
  case ginfo => simp only [ginfoEff, State.willOut, State.willDo, bits_low]; rfl
  case word =>
    rw [ginfoWord_inside held member]
    exact groupWord_fields hg hm ha hn

end Sys2Proof.Machine
end

section
/-! O41. Timetables changed in place, and a change of one core after a change of another. -/

namespace Sys2Proof.Machine

/-- A running timetable that has been changed. -/
theorem State.tt_modTt {s : State} {part : Nat} {t : Timetable} (running : s.tt part = some t) (f : Timetable → Timetable) :
    (s.modTt part f).tt part = some (f t) := by
  obtain ⟨p, configured, runs⟩ := Option.bind_eq_some_iff.1 running
  rw [State.tt, State.modTt, State.part_modPart_same, configured, Option.map_some, Option.bind_some, runs, Option.map_some]

@[simp] theorem State.core_modTt (s : State) (part : Nat) (f : Timetable → Timetable) (d : Nat) : (s.modTt part f).core d = s.core d :=
  State.core_modPart ..

/-- The core of an engine increment. -/
theorem State.core_addFlag_same (s : State) (c f n : Nat) :
    (s.addFlag c f n).core c = (s.core c).setFlag f ((s.core c).flag f + BitVec.ofNat 32 n) :=
  State.core_modCore_same ..

end Sys2Proof.Machine
end

section
/-! O41. Arrivals without a wait (11 R219): what recording one leaves in its group and owes its members. -/

namespace Sys2Proof.Machine

/-- A group as one more arrival leaves it, completed where that is the last. -/
def Group.arrive (x : Group) : Group :=
  if x.arrived + 1 = x.members then { x with arrived := x.arrived + 1 }.complete else { x with arrived := x.arrived + 1 }

theorem Group.arrive_num (x : Group) : x.arrive.num = x.num := by
  unfold Group.arrive
  split <;> rfl

theorem Timetable.num_of_group {t : Timetable} {g : Nat} {x : Group} (found : t.group g = some x) : x.num = g :=
  eq_of_beq (List.find?_some (p := fun x : Group => x.num == g) found)

/-- The group found at a number, after a group of that number has taken its place. -/
theorem find?_replaced {l : List Group} {g : Nat} {x y : Group} (found : l.find? (fun z => z.num == g) = some x) (num : y.num = g) :
    (l.map (fun z => if z.num = g then y else z)).find? (fun z => z.num == g) = some y := by
  induction l with
  | nil => cases found
  | cons z l ih =>
    by_cases here : z.num = g
    · simp [here, num]
    · rw [List.map_cons, if_neg here, List.find?_cons_of_neg (by simpa using here)]
      exact ih (by simpa [here] using found)

theorem recordArrival_eq {t : Timetable} {g : Nat} {x : Group} (found : t.group g = some x) (tick : Nat) :
    recordArrival t g tick = { t with
      groups := t.groups.map (fun z => if z.num = g then x.arrive else z)
      incs := if x.arrived + 1 = x.members then t.incs ++ x.owes tick else t.incs } := by
  simp only [recordArrival, found, Group.arrive]
  split <;> rfl

theorem group_recordArrival {t : Timetable} {g : Nat} {x : Group} (found : t.group g = some x) (tick : Nat) :
    (recordArrival t g tick).group g = some x.arrive := by
  rw [recordArrival_eq found]
  exact find?_replaced found (x.arrive_num.trans (Timetable.num_of_group found))

theorem filterMap_unless {α β : Type} (p : α → Prop) [DecidablePred p] (f : α → β) (l : List α) :
    l.filterMap (fun a => if p a then none else some (f a)) = (l.filter (fun a => decide (¬p a))).map f := by
  induction l with
  | nil => rfl
  | cons a l ih => by_cases h : p a <;> simp [h, ih]

/-- Each member that has named a flag is owed 1 on it at the next boundary (11 R219). -/
theorem owes_eq (x : Group) (tick : Nat) : x.owes tick =
    (((List.range 256).filter (bitOf x.map)).filter (fun m => decide (sget 0 x.named m ≠ 0))).map
      (fun m => (tick + 1, m, sget 0 x.named m - 1, 1)) :=
  filterMap_unless (fun m => sget 0 x.named m = 0) _ _

/-- An arrival recorded is taken from its core and counted in its timetable (11 R219). -/
theorem exec_garriveRecorded {s : State} {part g c : Nat} {r : Garr}
    (due : (s.core c).garr.find? (fun y => y.group == g && y.due ≤ s.tick) = some r) :
    exec (.garriveRecorded part g c) s =
      .next ((s.modCore c (fun k => { k with garr := k.garr.erase r })).modTt part (fun t => recordArrival t g s.tick)) := by
  have run : exec (.garriveRecorded part g c) s = execGarriveRecorded part g c s := rfl
  rw [run, execGarriveRecorded]
  simp only [due]

end Sys2Proof.Machine
end

section
/-! O41. Increments (11 R219, R220) and the butty wait (11 R214). -/

namespace Sys2Proof.Machine

/-- An increment owed by a completed generation lands (11 R219). -/
theorem exec_groupFlagIncrement {s : State} {part i m f n due : Nat} {t : Timetable} (running : s.tt part = some t)
    (owed : t.incs[i]? = some (due, m, f, n)) (now : due ≤ s.tick) : exec (.groupFlagIncrement part i) s =
      .next ((s.addFlag m f n).modTt part (fun t => { t with incs := t.incs.eraseIdx i })) := by
  have run : exec (.groupFlagIncrement part i) s = execGroupFlagIncrement part i s := rfl
  rw [run, execGroupFlagIncrement]
  simp only [running, Option.bind_some, owed, now, if_true]

/-- An increment of a cast lands (11 R220). -/
theorem exec_gcastIncrement {s : State} {part i c j m f n due : Nat} {p : Partition} (configured : s.part part = some p)
    (place : castAt s (s.workCores part p) i = some (c, j)) (cast : (s.core c).casts[j]? = some (m, f, n, due)) (now : due ≤ s.tick)
    (first : castFirst (s.core c).casts j = true) : exec (.gcastIncrement part i) s =
      .next ((s.addFlag m f n).modCore c (fun k => { k with casts := k.casts.eraseIdx j })) := by
  have run : exec (.gcastIncrement part i) s = execGcastIncrement part i s := rfl
  rw [run, execGcastIncrement]
  simp only [configured, Option.bind_some, place, cast, now, first, decide_true, Bool.and_self, if_true]

theorem waitFlag_of_fwait {k : Core} {w : FWait} (waits : k.fwait = some w) : k.waitFlag = k.flag w.flag := by
  rw [Core.waitFlag, waits]

theorem exec_fwaitSatisfied {s : State} {c : Nat} {w : FWait} (waits : (s.core c).fwait = some w)
    (holds : waitHolds s (s.core c) = true) : exec (.fwaitSatisfied c) s =
      .next (s.setCore c ((s.core c).endWait s.tick (s.pace c) (((s.core c).flag w.flag).setWidth 64))) := by
  have run : exec (.fwaitSatisfied c) s = execFwaitSatisfied c s := rfl
  rw [run, execFwaitSatisfied]
  simp only [holds, if_true, waitFlag_of_fwait waits]

theorem exec_fwaitTimeout {s : State} {c : Nat} {w : FWait} (waits : (s.core c).fwait = some w) (passed : waitOver s c = true) :
    exec (.fwaitTimeout c) s =
      .next (s.setCore c ((s.core c).endWait s.tick (s.pace c)
        (((s.core c).flag w.flag).setWidth 64 ||| BitVec.ofNat 64 (2 ^ 63)))) := by
  have run : exec (.fwaitTimeout c) s = execFwaitTimeout c s := rfl
  rw [run, execFwaitTimeout]
  simp only [passed, if_true, waitFlag_of_fwait waits]

/-- The end of a wait writes o0 of fg, frees the butty stream where it waits, and leaves the memories (11 R214). -/
theorem endWait_spec (k : Core) (tick pace : Nat) (v : Word) : let l := k.endWait tick pace v
    l.fwait = none ∧ sget 0 l.regs.out (outPort 10 0) = v ∧
      (k.butty.st = .fwait → l.butty.st = .run ∧ l.butty.pc = k.butty.pc) ∧ l.mem = k.mem := by
  refine ⟨rfl, sget_sput_same .., fun waits => ?_, rfl⟩
  simp only [Core.endWait, waits, if_true, and_self]

/-- Settles O41: an arrival is counted in its group, an increment is added to its one flag, and a wait ends in its own core. -/
theorem groupAndWaitEvents : Obligations.GroupAndWaitEvents := by
  unfold Obligations.GroupAndWaitEvents
  intro s
  refine ⟨fun part g c t x r running found due => ?arrival, fun part i t m f n due running owed now => ?increment,
    fun part i p c j m f n due configured place cast now first => ?cast, fun c w waits holds => ?satisfied,
    fun c w waits passed => ?timeout⟩
  case arrival =>
    have recorded := State.tt_modTt (s := s.modCore c (fun k => { k with garr := k.garr.erase r })) running
      (fun t => recordArrival t g s.tick)
    refine ⟨_, x.arrive, exec_garriveRecorded due, ?_, fun last => ?_, fun more => if_neg more, ⟨_, recorded, ?_⟩,
      fun d other => ?_, ?_⟩
    · rw [recorded]
      exact group_recordArrival found s.tick
    · rw [Group.arrive, if_pos last]
      exact ⟨rfl, rfl, rfl, rfl⟩
    · rw [← owes_eq]
      exact congrArg Timetable.incs (recordArrival_eq found s.tick)
    · rw [State.core_modTt, State.core_modCore_other _ _ _ other]
    · rw [State.core_modTt, State.core_modCore_same]
  case increment =>
    refine ⟨_, exec_groupFlagIncrement running owed now, ?_⟩
    simp only [State.core_modTt, State.core_addFlag_same, Core.flag_setFlag, if_true]
    refine ⟨trivial, fun j other => if_neg other, fun d other => ?_, trivial, ?_⟩
    · rw [State.core_modTt, State.core_addFlag_other _ _ _ _ other]
    · exact State.tt_modTt (s := s.addFlag m f n) running _
  case cast =>
    have landed (d : Nat) : ((s.addFlag m f n).modCore c (fun k => { k with casts := k.casts.eraseIdx j })).core d =
        { (if d = m then (s.core m).setFlag f ((s.core m).flag f + BitVec.ofNat 32 n) else s.core d) with
          casts := if d = c then (s.core c).casts.eraseIdx j else (s.core d).casts } := by
      simp only [State.core_modCore, State.addFlag]
      by_cases sender : d = c <;> by_cases member : d = m <;> simp_all [Core.setFlag]
    refine ⟨_, exec_gcastIncrement configured place cast now first, ?_, fun l other => ?_, rfl, landed⟩
    · rw [landed, if_pos rfl]
      exact sget_sput_same ..
    · rw [landed, if_pos rfl]
      exact sget_sput_other _ _ _ _ other
  case satisfied =>
    refine ⟨_, exec_fwaitSatisfied waits holds, ?_⟩
    rw [State.core_setCore_same]
    obtain ⟨done, out, run, mem⟩ := endWait_spec (s.core c) s.tick (s.pace c) (((s.core c).flag w.flag).setWidth 64)
    exact ⟨done, out, run, mem, rfl, fun _ other => State.core_setCore_other _ _ _ other⟩
  case timeout =>
    refine ⟨_, exec_fwaitTimeout waits passed, ?_⟩
    rw [State.core_setCore_same]
    obtain ⟨done, out, run, mem⟩ := endWait_spec (s.core c) s.tick (s.pace c)
      (((s.core c).flag w.flag).setWidth 64 ||| BitVec.ofNat 64 (2 ^ 63))
    exact ⟨done, out, fun waiting => (run waiting).1, mem, rfl, fun _ other => State.core_setCore_other _ _ _ other⟩

end Sys2Proof.Machine
end

section
/-! O26. The forwarding table (10 R185): what a load sees of the stores of its core that have not performed. -/

namespace Sys2Proof.Machine

/-! The latest of the pending stores. -/

/-- A pending ls store of core c that issued before a tick. -/
def lsStore (c before : Nat) (p : Pend) : Option StoreW :=
  match p.act with
  | .store w => if w.issuer == c && w.kind == .ls && p.issue < before then some w else none
  | _ => none

theorem forwards_eq (k : Core) (c before : Nat) : k.forwards c before = k.pend.filterMap (lsStore c before) := rfl

/-- What is left where each store in turn overwrites what it has something for. -/
def lastOf {α : Type} (find : StoreW → Option α) (ws : List StoreW) (mem : α) : α :=
  ws.foldl (fun acc w => (find w).getD acc) mem

theorem lastOf_none {α : Type} {find : StoreW → Option α} {ws : List StoreW} (none : ∀ w ∈ ws, find w = none) (mem : α) :
    lastOf find ws mem = mem := by
  induction ws with
  | nil => rfl
  | cons w ws ih =>
    obtain ⟨here, rest⟩ := List.forall_mem_cons.1 none
    rw [lastOf, List.foldl_cons, here]
    exact ih rest

theorem lastOf_some {α : Type} {find : StoreW → Option α} {w : StoreW} {x : α} (here : find w = some x) (ws : List StoreW)
    {zs : List StoreW} (none : ∀ z ∈ zs, find z = none) (mem : α) : lastOf find (ws ++ w :: zs) mem = x := by
  rw [lastOf, List.foldl_append, List.foldl_cons, here]
  exact lastOf_none none x

/-- Memory, where no pending store has anything, and else what the latest has. -/
theorem lastOf_forwards {α : Type} (k : Core) (c before : Nat) (find : StoreW → Option α) (mem : α) :
    ((∀ p w, p ∈ k.pend → lsStore c before p = some w → find w = none) → lastOf find (k.forwards c before) mem = mem) ∧
    ∀ l p r w x, k.pend = l ++ p :: r → lsStore c before p = some w → find w = some x →
      (∀ q z, q ∈ r → lsStore c before q = some z → find z = none) → lastOf find (k.forwards c before) mem = x := by
  rw [forwards_eq]
  refine ⟨fun none => lastOf_none (fun w here => ?_) mem, fun l p r w x list store has none => ?_⟩
  · obtain ⟨p, pending, store⟩ := List.mem_filterMap.1 here
    exact none p w pending store
  · rw [list, List.filterMap_append, List.filterMap_cons_some store]
    refine lastOf_some has _ (fun z here => ?_) mem
    obtain ⟨q, pending, store⟩ := List.mem_filterMap.1 here
    exact none q z pending store

/-! Bytes, labels and tags. -/

theorem fwdByte_eq (k : Core) (fs : List StoreW) (a : Nat) :
    k.fwdByte fs a = lastOf (fun w => (w.byteAt a).map Prod.fst) fs (readByte k.mem.sp a) := by
  unfold Core.fwdByte lastOf
  congr 1
  funext acc w
  dsimp only
  cases w.byteAt a <;> rfl

theorem fwdLabel_eq (k : Core) (fs : List StoreW) (line : Nat) : k.fwdLabel fs line =
    lastOf (fun w => (w.labels.find? (fun p => p.1 == line)).map Prod.snd) fs (sget 0 k.mem.labels line) := by
  unfold Core.fwdLabel lastOf
  congr 1
  funext acc w
  dsimp only
  cases w.labels.find? (fun p => p.1 == line) <;> rfl

theorem fwdTag_eq (k : Core) (fs : List StoreW) (g : Nat) :
    k.fwdTag fs g = lastOf (fun w => if w.touches g then some (w.tagSet.contains g) else none) fs (sget false k.mem.tags g) := by
  unfold Core.fwdTag lastOf
  congr 1
  funext acc w
  dsimp only
  cases w.touches g <;> rfl

theorem touches_iff (w : StoreW) (g : Nat) :
    w.touches g = true ↔ ((∃ x, x ∈ w.cells ∧ x.1 / 16 = g) ∨ ∃ x, x ∈ w.labels ∧ x.1 = g / 4) := by
  simp only [StoreW.touches, Bool.or_eq_true, List.any_eq_true, beq_iff_eq]

/-! Numbers (00 R4, R10). -/

theorem ofBytes_range (f : Nat → Byte) (n : Nat) :
    ofBytes ((List.range n).map f) = ((List.range n).map (fun i => (f i).toNat * 256 ^ i)).sum := by
  induction n generalizing f with
  | zero => rfl
  | succ n ih =>
    rw [List.range_succ_eq_map, List.map_cons, List.map_map, ofBytes, ih, List.map_cons, List.sum_cons, List.map_map,
      ← List.sum_map_mul_left, pow_zero, mul_one]
    congr 3
    funext i
    simp only [Function.comp_apply, Nat.succ_eq_add_one, pow_succ]
    ring

theorem fwdNat_eq (k : Core) (fs : List StoreW) (a n : Nat) :
    k.fwdNat fs a n = ((List.range n).map (fun i => (k.fwdByte fs (a + i)).toNat * 256 ^ i)).sum :=
  ofBytes_range ..

theorem fwdNat_lt (k : Core) (fs : List StoreW) (a n : Nat) : k.fwdNat fs a n < 256 ^ n := by
  have bound := ofBytes_lt ((List.range n).map (fun i => k.fwdByte fs (a + i)))
  rwa [List.length_map, List.length_range] at bound

/-- The sign extension of a value of 1, 2, 4 or 8 bytes. -/
theorem sextOf_bytes {n v : Nat} (size : n = 1 ∨ n = 2 ∨ n = 4 ∨ n = 8) (fits : v < 256 ^ n) :
    sextOf v (8 * n) = if v < 256 ^ n / 2 then (v : Int) else (v : Int) - (256 ^ n : Nat) := by
  have width : 2 ^ (8 * n) = 256 ^ n := pow_mul 2 8 n
  have half : 2 * v < 256 ^ n ↔ v < 256 ^ n / 2 := by rcases size with rfl | rfl | rfl | rfl <;> omega
  simp only [sextOf, width, Nat.mod_eq_of_lt fits, half]

/-- What a data load delivers. -/
theorem loadResult_data (s : State) (c owner a before : Nat) {n : Nat} (size : n = 1 ∨ n = 2 ∨ n = 4 ∨ n = 8) :
    let o := s.core owner
    let v := o.fwdNat (o.forwards c before) a n
    loadResult s c owner a before (.data n false) = .out (outPort 3 0) (BitVec.ofNat 64 v) ∧
    loadResult s c owner a before (.data n true) = .out (outPort 3 0)
      (BitVec.ofInt 64 (if v < 256 ^ n / 2 then (v : Int) else (v : Int) - (256 ^ n : Nat))) := by
  refine ⟨rfl, ?_⟩
  rw [← sextOf_bytes size (fwdNat_lt ..)]
  rfl

/-! Reads through space 1 (10 R183). -/

/-- Taking away the timed reads of a core leaves its stores. -/
theorem forwards_dropReads (k : Core) (tick c before : Nat) :
    (k.dropActs tick (fun r => r == 9)).forwards c before = k.forwards c before := by
  rw [forwards_eq, forwards_eq, Core.dropActs, List.filterMap_filter]
  congr 1
  funext p
  split
  · rfl
  · next dropped =>
    unfold lsStore
    split
    · next is =>
      have rank : p.act.rank = 8 := by rw [is]; rfl
      simp [rank] at dropped
    · rfl

theorem loadResult_dropReads (s : State) (d c owner a before : Nat) (l : LsLoad) :
    loadResult (s.modCore d (fun k => k.dropActs s.tick (fun r => r == 9))) c owner a before l = loadResult s c owner a before l := by
  by_cases same : owner = d
  · subst same
    simp only [loadResult, State.core_modCore_same, forwards_dropReads]
    rfl
  · simp only [loadResult, State.core_modCore_other _ _ _ same]

/-- A read through space 1 that is due alone delivers what it sees 8 core cycles later. -/
theorem exec_timedRead {s : State} {c o a : Nat} {p : Pend} {l : LsLoad} (due : (s.core c).dueActs s.tick (fun r => r == 9) = [p])
    (is : p.act = .readLs o a l) : exec (.timedAccessPerform c true) s = .next
      (addResult (s.modCore c (fun k => k.dropActs s.tick (fun r => r == 9))) c p 8 (loadResult s c o a p.issue l)) := by
  have run : exec (.timedAccessPerform c true) s = execTimedAccessPerform c true s := rfl
  rw [run, execTimedAccessPerform]
  simp only [if_true, due, List.foldl_cons, List.foldl_nil, performRead, is, loadResult_dropReads]

end Sys2Proof.Machine
end

section
/-! O26. Capabilities derived from others (17 R324, R334). -/

namespace Sys2Proof.Machine

/-- A field holds no more than its bits. -/
theorem Cap.field_lt (c : Cap) (hi lo : Nat) : c.field hi lo < 2 ^ (hi + 1 - lo) := Nat.mod_lt _ (Nat.two_pow_pos _)

/-- A number made of the fields of a capability, taken apart (17 R324). -/
theorem bitsOf_capability {space perm holder rest len base : Nat} (hs : space < 2 ^ 4) (hp : perm < 2 ^ 8) (hh : holder < 2 ^ 4)
    (hr : rest < 2 ^ 15) (hl : len < 2 ^ 49) (hb : base < 2 ^ 48) :
    let n := space * 2 ^ 124 + perm * 2 ^ 116 + holder * 2 ^ 112 + rest * 2 ^ 97 + len * 2 ^ 48 + base
    n < 2 ^ 128 ∧ bitsOf n 127 124 = space ∧ bitsOf n 123 116 = perm ∧ bitsOf n 115 112 = holder ∧
      bitsOf n 111 108 = rest / 2 ^ 11 ∧ bitsOf n 96 48 = len ∧ bitsOf n 47 0 = base := by
  simp only [bitsOf]
  omega

/-- The fields of a capability whose bits are a number made of them. -/
theorem Cap.fields_of_toNat {r : Cap} {space perm holder rest len base : Nat}
    (is : r.bits.toNat = space * 2 ^ 124 + perm * 2 ^ 116 + holder * 2 ^ 112 + rest * 2 ^ 97 + len * 2 ^ 48 + base)
    (hs : space < 2 ^ 4) (hp : perm < 2 ^ 8) (hh : holder < 2 ^ 4) (hr : rest < 2 ^ 15) (hl : len < 2 ^ 49) (hb : base < 2 ^ 48) :
    r.space = space ∧ r.perm = perm ∧ r.holder = holder ∧ r.kind = rest / 2 ^ 11 ∧ r.length = len ∧ r.base = base := by
  simp only [Cap.space, Cap.perm, Cap.holder, Cap.kind, Cap.length, Cap.base, Cap.field, is]
  exact (bitsOf_capability hs hp hh hr hl hb).2

theorem Cap.kind_eq (c : Cap) : c.kind = c.field 111 97 / 2 ^ 11 := by
  simp only [Cap.kind, Cap.field, bitsOf]
  omega

/-- The bits of a capability are a variable here: at a number the kernel would evaluate them. -/
theorem Cap.tag_withBits (c : Cap) (bits : BitVec 128) : ({ c with bits := bits } : Cap).tag = c.tag := rfl

/-- The fields of a capability of which some have been replaced (17 R324). -/
theorem Cap.withFields_fields (c : Cap) {perm holder len : Nat} (base : Nat) (hp : perm < 2 ^ 8) (hh : holder < 2 ^ 4)
    (hl : len < 2 ^ 49) : let r := c.withFields perm holder len base
    r.tag = c.tag ∧ r.space = c.space ∧ r.perm = perm ∧ r.holder = holder ∧ r.kind = c.kind ∧ r.length = len ∧
      r.base = base % 2 ^ 48 := by
  have space : c.space < 2 ^ 4 := c.field_lt 127 124
  have rest := c.field_lt 111 97
  have base' := Nat.mod_lt base (Nat.two_pow_pos 48)
  obtain ⟨fits, -⟩ := bitsOf_capability space hp hh rest hl base'
  have value : (c.withFields perm holder len base).bits.toNat = _ := (BitVec.toNat_ofNat ..).trans (Nat.mod_eq_of_lt fits)
  rw [c.kind_eq]
  exact ⟨c.tag_withBits _, Cap.fields_of_toNat value space hp hh rest hl base'⟩

/-- The permissions of a root without global. -/
theorem perm_without_global : ∀ perm < 2 ^ 8, (perm &&& pGlobal = pGlobal ↔ perm / 64 % 2 = 1) ∧
    (perm / 64 % 2 = 1 → perm &&& (255 - pGlobal) = perm - 64) := by
  decide +kernel

theorem Cap.isRoot_iff (c : Cap) : c.isRoot = true ↔ c.space = 5 ∧ c.perm / 64 % 2 = 1 := by
  obtain ⟨global, -⟩ := perm_without_global c.perm (c.field_lt 123 116)
  rw [Cap.isRoot, Bool.and_eq_true, beq_iff_eq, hasPerm, beq_iff_eq, global]

/-- What cbound makes of a window root, of an entry capability and of any other (17 R334). -/
theorem cboundOf_eq (s : State) (c : Nat) (cs : Cap) (v : Word) : let len := ((s.core c).inp 3 1).toNat
    (cs.space ≠ 5 → cboundOf s c cs v = cs.withFields cs.perm cs.holder len (cs.base + v.toNat)) ∧
    (cs.space = 5 ∧ cs.perm / 64 % 2 = 1 → cboundOf s c cs v = cs.withFields (cs.perm - 64) cs.holder len (cs.base + v.toNat)) ∧
    (cs.space = 5 → ¬(cs.space = 5 ∧ cs.perm / 64 % 2 = 1) → cboundOf s c cs v = cs.withFields cs.perm cs.holder len cs.base) := by
  obtain ⟨-, drops⟩ := perm_without_global cs.perm (cs.field_lt 123 116)
  refine ⟨fun other => ?_, fun root => ?_, fun entry plain => ?_⟩
  · rw [cboundOf, if_neg (fun root => other (cs.isRoot_iff.1 root).1), if_neg other]
  · rw [cboundOf, if_pos (cs.isRoot_iff.2 root), drops root.2]
  · rw [cboundOf, if_neg (fun root => plain (cs.isRoot_iff.1 root)), if_pos entry]

/-- The fields of what cbound makes (17 R334). -/
theorem cboundOf_fields (s : State) (c : Nat) (cs : Cap) (v : Word) : let len := ((s.core c).inp 3 1).toNat
    let r := cboundOf s c cs v
    let root := cs.space = 5 ∧ cs.perm / 64 % 2 = 1
    len < 2 ^ 49 → r.tag = cs.tag ∧ r.space = cs.space ∧ r.holder = cs.holder ∧ r.kind = cs.kind ∧ r.length = len ∧
      (cs.space ≠ 5 → r.perm = cs.perm ∧ r.base = (cs.base + v.toNat) % 2 ^ 48) ∧
      (root → r.perm = cs.perm - 64 ∧ r.base = (cs.base + v.toNat) % 2 ^ 48) ∧
      (cs.space = 5 → ¬root → r.perm = cs.perm ∧ r.base = cs.base) := by
  intro len r root fits
  have perm : cs.perm < 2 ^ 8 := cs.field_lt 123 116
  have holder : cs.holder < 2 ^ 4 := cs.field_lt 115 112
  have whole : cs.base % 2 ^ 48 = cs.base := Nat.mod_eq_of_lt (cs.field_lt 47 0)
  obtain ⟨other, fromRoot, entry⟩ := cboundOf_eq s c cs v
  have made {perm' base : Nat} (small : perm' < 2 ^ 8) (is : r = cs.withFields perm' cs.holder len base) :
      (r.tag = cs.tag ∧ r.space = cs.space ∧ r.holder = cs.holder ∧ r.kind = cs.kind ∧ r.length = len) ∧
        r.perm = perm' ∧ r.base = base % 2 ^ 48 := by
    obtain ⟨tag, space, perm, holder, kind, length, base⟩ := cs.withFields_fields base small holder fits
    rw [is]
    exact ⟨⟨tag, space, holder, kind, length⟩, perm, base⟩
  by_cases five : cs.space = 5
  · by_cases isRoot : root
    · obtain ⟨⟨tag, space, holder, kind, length⟩, moved⟩ := made (by omega) (fromRoot isRoot)
      exact ⟨tag, space, holder, kind, length, fun no => absurd five no, fun _ => moved, fun _ plain => absurd isRoot plain⟩
    · obtain ⟨⟨tag, space, holder, kind, length⟩, kept⟩ := made perm (entry five isRoot)
      rw [whole] at kept
      exact ⟨tag, space, holder, kind, length, fun no => absurd five no, fun is => absurd is isRoot, fun _ _ => kept⟩
  · obtain ⟨⟨tag, space, holder, kind, length⟩, moved⟩ := made perm (other five)
    exact ⟨tag, space, holder, kind, length, fun _ => moved, fun is => absurd is.1 five, fun is => absurd is five⟩

end Sys2Proof.Machine
end

section
/-! O26. Hand-over (17 R337-R339). -/

namespace Sys2Proof.Machine

/-! What an accepted hand does. -/

theorem Check.and_ok {a b : Check} (ok : a.and b = .ok) : a = .ok ∧ b = .ok := by
  cases a with
  | ok => exact ⟨rfl, ok⟩
  | _ => cases ok

/-- Checks in order are passed only where each of them is. -/
theorem firstFail_ok {l : List Check} (ok : firstFail l = .ok) : ∀ x ∈ l, x = .ok := by
  induction l with
  | nil => exact fun _ h => absurd h List.not_mem_nil
  | cons x l ih =>
    obtain ⟨here, rest⟩ := Check.and_ok ok
    exact List.forall_mem_cons.2 ⟨here, ih rest⟩

theorem failIf_ok {b : Bool} {code reason : Nat} (ok : failIf b code reason = .ok) : b = false := by
  cases b with
  | false => rfl
  | true => cases ok

/-- A hand that its unit accepts is not refused by the table of 17 R339. -/
theorem handStep_of_accepts {s : State} {h : Head} (a : Accepts s h 0x1D7 none) : let k := s.core s.cur
    handStep s s.cur (k.capReg (lsCs k)) (bits (s.operand h) 2 0) ≠ .refuse := by
  obtain ⟨-, ok⟩ := a
  have unit : trigCheck s s.cur s.motorNow 0x1D7 none (s.operand h) = lsCheck s s.cur 23 (s.operand h) := rfl
  rw [unit] at ok
  obtain ⟨-, hand⟩ := Check.and_ok ok
  have last : capFail (handStep s s.cur ((s.core s.cur).capReg (lsCs (s.core s.cur))) (bits (s.operand h) 2 0) == .refuse) rsHand = .ok :=
    firstFail_ok hand _ (by simp)
  exact fun refused => absurd (failIf_ok last) (by simp [refused])

section

variable {s : State} {c h : Nat} {cap : Cap}

/-- To itself a core hands nothing. -/
theorem handStep_self (same : h = c % 8) (ok : handStep s c cap h ≠ .refuse) : handStep s c cap h = .nothing := by
  simp only [handStep, if_pos same] at ok ⊢
  split at ok
  · split at ok
    · next may => exact if_pos may
    · exact absurd rfl ok
  · split at ok
    · exact absurd rfl ok
    · next may => exact if_neg may

/-- What has been handed to the issuer it hands on. -/
theorem handStep_pass (other : h ≠ c % 8) (ok : handStep s c cap h ≠ .refuse) {i : Nat} (found : (s.core (handRange c cap).1).handEqual
    (handRange c cap).2.1 (handRange c cap).2.2 = some i) : handStep s c cap h = .pass i := by
  simp only [handStep, found, if_neg other] at ok ⊢
  split
  · rfl
  · next no => exact absurd (if_neg no) ok

/-- What no one holds its owner hands out, through a free entry. -/
theorem handStep_take (other : h ≠ c % 8) (ok : handStep s c cap h ≠ .refuse) (none : (s.core (handRange c cap).1).handEqual
    (handRange c cap).2.1 (handRange c cap).2.2 = none) : let g := handRange c cap
    g.1 = c ∧ (s.core g.1).handOverlap g.2.1 g.2.2 = false ∧
      ∃ i, (s.core g.1).handFree = some i ∧ handStep s c cap h = .take i := by
  simp only [handStep, none, if_neg other] at ok ⊢
  split at ok
  · exact absurd rfl ok
  · next may =>
    obtain ⟨alone, own⟩ : _ ∧ _ := by simpa using may
    refine ⟨own, alone, ?_⟩
    rw [if_neg may]
    cases free : (s.core (handRange c cap).1).handFree with
    | none => simp [free] at ok
    | some i => exact ⟨i, rfl, rfl⟩

end

section

variable {s : State} {c : Nat} {motor : Bool} {v : Word}

theorem handEff_nothing (step : handStep s c ((s.core c).capReg (lsCs (s.core c))) (bits v 2 0) = .nothing) :
    handEff s c motor v = s := by
  simp only [handEff, step]

theorem handEff_pass {i : Nat} (step : handStep s c ((s.core c).capReg (lsCs (s.core c))) (bits v 2 0) = .pass i) :
    let g := handRange c ((s.core c).capReg (lsCs (s.core c)))
    handEff s c motor v =
      (s.setHand g.1 i { (s.core g.1).handEnt i with transit := true }).schedule c 2 (.handDone g.1 i (bits v 2 0)) := by
  simp only [handEff, step]

theorem handEff_take {i : Nat} (step : handStep s c ((s.core c).capReg (lsCs (s.core c))) (bits v 2 0) = .take i) :
    let g := handRange c ((s.core c).capReg (lsCs (s.core c)))
    handEff s c motor v =
      (s.setHand g.1 i (HandEnt.mk false true g.2.1 g.2.2 (c % 8))).schedule c 2 (.handDone g.1 i (bits v 2 0)) := by
  simp only [handEff, step]

end

/-! The entry changed at T, and at T+2. -/

theorem quiet_setHand (s : State) (owner i : Nat) (x : HandEnt) : Quiet s (s.setHand owner i x) :=
  (Quiet.refl s).modCore owner fun _ => ⟨rfl, rfl⟩

theorem handEnt_setHand (s : State) (owner i : Nat) (x : HandEnt) (j : Nat) :
    ((s.setHand owner i x).core owner).handEnt j = if j = i then x else (s.core owner).handEnt j := by
  rw [State.setHand, State.core_modCore_same]
  exact sget_sput ..

theorem core_setHand_other (s : State) (owner i : Nat) (x : HandEnt) {d : Nat} (other : d ≠ owner) :
    (s.setHand owner i x).core d = s.core d := State.core_modCore_other _ _ _ other

theorem setHand_held (s : State) (owner i : Nat) (x : HandEnt) (d : Nat) :
    ((s.setHand owner i x).core d).regs = (s.core d).regs ∧ ((s.setHand owner i x).core d).mem = (s.core d).mem := by
  rw [State.setHand, State.core_modCore]
  split
  · next same => rw [same]; exact ⟨rfl, rfl⟩
  · exact ⟨rfl, rfl⟩

/-- An entry of a hand table changed at once, and the end of the hand to come. -/
theorem setHand_schedule_spec (s : State) (owner i c n : Nat) (x : HandEnt) (a : Act) : let t := (s.setHand owner i x).schedule c n a
    SameOutsideCores s t ∧
    (∀ d, (t.core d).regs = (s.core d).regs ∧ (t.core d).mem = (s.core d).mem ∧
      (d ≠ owner → (t.core d).hand = (s.core d).hand)) ∧
    (t.core owner).handEnt i = x ∧ (∀ j, j ≠ i → (t.core owner).handEnt j = (s.core owner).handEnt j) ∧ Asks s t c n a := by
  intro t
  have quiet := quiet_setHand s owner i x
  obtain ⟨outside, held⟩ := onlySchedules_schedule (s.setHand owner i x) c n a
  have hand (d : Nat) : (t.core d).hand = ((s.setHand owner i x).core d).hand := by
    obtain ⟨-, -, -, -, -, -, -, -, -, -, -, -, -, hand, -⟩ := held d
    exact hand
  have entry (j : Nat) : (t.core owner).handEnt j = if j = i then x else (s.core owner).handEnt j := by
    rw [← handEnt_setHand s owner i x j, Core.handEnt, hand, Core.handEnt]
  refine ⟨quiet.outside.trans outside, fun d => ?_, (entry i).trans (if_pos rfl), fun j other => (entry j).trans (if_neg other),
    quiet.asks c n a⟩
  obtain ⟨regs, mem, -⟩ := held d
  obtain ⟨regs', mem'⟩ := setHand_held s owner i x d
  exact ⟨regs.trans regs', mem.trans mem', fun other => (hand d).trans (congrArg Core.hand (core_setHand_other s owner i x other))⟩

/-- The end of a hand, for an entry in transit (17 R339). -/
theorem handEnt_handDone {s : State} {owner i : Nat} (transit : ((s.core owner).handEnt i).transit = true) (n : Nat) :
    ((handDone s owner i n).core owner).handEnt i = if n = owner % 8 then HandEnt.free
      else { (s.core owner).handEnt i with holder := n, valid := true, transit := false } := by
  simp only [handDone, transit, if_true, handEnt_setHand]

end Sys2Proof.Machine
end

section
/-! O26. The operations of the ls unit (11 R201, R203, 17 R333-R339). -/

namespace Sys2Proof.Machine

/-- A load reads at T in its own scratchpad, and at T+12 through space 1 (10 R183). -/
theorem exec_load {i : Instr} {s : State} {h : Head} {dst : Nat} {f : Core → LsLoad} {l : LsLoad}
    (meaning : exec i s = slotOp h dst none (loadEff f) s) (names : f (s.core s.cur) = l) (a : Accepts s h dst none) :
    let k := s.core s.cur
    let p := lsPlace s.cur k (s.operand h)
    (lsPeer k = false → exec i s = .next (s.willDo 6 (loadResult s s.cur p.1 p.2 s.tick l))) ∧
    (lsPeer k = true → exec i s = .next (s.willDo 12 (.readLs p.1 p.2 l))) := by
  subst names
  refine ⟨fun own => exec_accepted meaning ?_ a, fun peer => exec_accepted meaning ?_ a⟩
  · simp only [loadEff, own, Bool.false_eq_true, if_false]
    rfl
  · simp only [loadEff, peer, if_true]
    rfl

/-- A capability moved to another register clears the tag of its source at the same boundary (17 R335). -/
theorem cmoveEff_asks (s : State) (c : Nat) (motor : Bool) (v : Word) : let k := s.core c
    let cs := k.capReg (lsCs k)
    let t := cmoveEff s c motor v
    SameOutsideCores s t ∧ SameHeld k (t.core c) ∧ ∃ q rest, (t.core c).pend = k.pend ++ q :: rest ∧ q.due = s.after c 1 ∧
      q.act = .cap (lsCd k) (cs.withFields cs.perm (bits v 2 0) cs.length cs.base) ∧
      (lsCd k = lsCs k → rest = []) ∧
      (lsCd k ≠ lsCs k → ∃ r, rest = [r] ∧ r.due = q.due ∧ r.act = .untag (lsCs k)) := by
  intro k cs t
  obtain ⟨outside, held⟩ := cmoveEff_schedules s c motor v
  refine ⟨outside, held c, ?_⟩
  by_cases same : lsCd k = lsCs k
  · have run : t = _ := if_pos same
    rw [run, State.pend_schedule]
    exact ⟨_, [], rfl, rfl, rfl, fun _ => rfl, fun other => absurd same other⟩
  · have run : t = _ := if_neg same
    rw [run, State.pend_schedule, State.pend_schedule, (onlySchedules_schedule ..).after, List.append_assoc]
    exact ⟨_, _, rfl, rfl, rfl, fun is => absurd is same, fun _ => ⟨_, rfl, rfl, rfl⟩⟩

/-- Settles O26: each operation schedules its access or its result, a load sees the latest of the stores that are still to perform, and
what a hand does is the line of its table. -/
theorem loadStoreAsks : Obligations.LoadStoreAsks := by
  unfold Obligations.LoadStoreAsks
  refine ⟨fun s h => ?asks, fun s c owner addr before a => ?sees, touches_iff, fun s c p o a l due is => ?reads,
    fun cs perm holder len base hp hh hl => cs.withFields_fields base hp hh hl, cboundOf_fields⟩
  case asks =>
    intro k v p cs load store bytes
    refine ⟨exec_load rfl rfl, exec_load rfl rfl, exec_load rfl rfl, exec_load rfl rfl, exec_load rfl rfl, exec_load rfl rfl,
      exec_load rfl rfl, exec_load rfl rfl, exec_load rfl rfl, exec_accepted rfl rfl, exec_accepted rfl rfl, exec_accepted rfl rfl,
      exec_accepted rfl rfl, exec_accepted rfl rfl, exec_accepted rfl rfl, exec_accepted rfl rfl, fun acc => ?cmove,
      exec_accepted rfl rfl, exec_accepted rfl rfl, exec_accepted rfl rfl, exec_accepted rfl rfl, exec_accepted rfl rfl,
      exec_accepted rfl rfl, fun acc => ?hand, fun o i n transit => handEnt_handDone transit n⟩
    case cmove =>
      have asks := cmoveEff_asks s s.cur s.motorNow v
      rw [bits_low] at asks
      exact ⟨_, exec_accepted (eff := cmoveEff) rfl rfl acc, asks⟩
    case hand =>
      intro g o n taken
      have ok := handStep_of_accepts acc
      have run {t : State} (effect : handEff s s.cur s.motorNow v = t) : exec (.lsHand h) s = .next t :=
        exec_accepted (eff := handEff) rfl effect acc
      by_cases self : n = s.cur % 8
      · exact ⟨s, run (handEff_nothing (handStep_self self ok)), rfl, fun _ => ⟨rfl, rfl, fun _ => rfl⟩, fun _ => rfl,
          fun _ other => absurd self other, fun other => absurd self other⟩
      · cases found : o.handEqual g.2.1 g.2.2 with
        | some i =>
          obtain ⟨outside, held, entry⟩ := setHand_schedule_spec s g.1 i s.cur 2 { o.handEnt i with transit := true }
            (.handDone g.1 i n)
          refine ⟨_, run (handEff_pass (handStep_pass self ok found)), outside, held, fun same => absurd same self,
            fun j _ is => ?_, fun _ none => absurd none (Option.some_ne_none i)⟩
          cases is
          exact entry
        | none =>
          obtain ⟨own, alone, i, free, step⟩ := handStep_take self ok found
          obtain ⟨outside, held, entry⟩ := setHand_schedule_spec s g.1 i s.cur 2
            (HandEnt.mk false true g.2.1 g.2.2 (s.cur % 8)) (.handDone g.1 i n)
          exact ⟨_, run (handEff_take step), outside, held, fun same => absurd same self,
            fun _ _ some => absurd some (Option.some_ne_none _).symm, fun _ _ => ⟨own, alone, i, free, entry⟩⟩
  case sees =>
    intro o fs mine last
    have seen {α : Type} {find : StoreW → Option α} {mem got : α} (is : got = lastOf find fs mem) : last find mem got := by
      subst is
      exact lastOf_forwards o c before find mem
    refine ⟨seen (fwdByte_eq ..), seen (fwdLabel_eq ..), seen (fwdTag_eq ..), ?_⟩
    intro val
    have value (n : Nat) : val n = o.fwdNat fs addr n := (fwdNat_eq ..).symm
    refine ⟨fun n size => ?_, ?_, fun cd => ?_⟩
    · rw [value]
      exact loadResult_data s c owner addr before size
    · rw [BitVec.ofNat_toNat]
      rfl
    · rw [value]
      rfl
  case reads =>
    obtain ⟨-, others, core⟩ := addResult_frame (s.modCore c (fun k => k.dropActs s.tick (fun r => r == 9))) c p 8
      (loadResult s c o a p.issue l)
    rw [State.core_modCore_same] at core
    exact ⟨_, exec_timedRead due is, rfl, fun d other => (others d other).trans (State.core_modCore_other _ _ _ other), core⟩

end Sys2Proof.Machine
end

section
/-! O31. What the rk operations ask for (12 R223, R224, R226, R230-R233). -/

namespace Sys2Proof.Machine

/-- The fields of a probe word (12 R230). -/
theorem probeWord_fields {r : Rack} (state : r.state < 16) (outcome : r.outcome < 16) (left : r.left < 2 ^ 31) : let w := probeWord r
    w % 16 = r.state ∧ w / 2 ^ 4 % 16 = (if r.state = 5 then r.outcome else 0) ∧ w / 2 ^ 8 % 2 ^ 31 = r.left ∧ w / 2 ^ 39 % 2 = 0 ∧
      w / 2 ^ 40 = r.astat.toNat := by
  simp only [probeWord]
  split <;> omega

/-- What waitaddr answers, by the monitors of the core (12 R233). -/
theorem waitaddrEff_cases (s : State) (c : Nat) (motor : Bool) (v : Word) : let k := s.core c
    let same := fun (i : Nat) => (k.mon i).sameLine (monOf s c v)
    let t := waitaddrEff s c motor v
    ((∀ i, i < 4 → (k.mon i).state ≠ 0 ∧ same i = false) → t = rkOut s c 1) ∧
    (∀ i, i < 4 → (k.mon i).state = 0 → (∀ j, j < 4 → same j = false) → (∀ j, j < i → (k.mon j).state ≠ 0) →
      t = rkOut (s.schedule c 1 (.monStart i (monOf s c v))) c (i * 2 ^ 16)) ∧
    (∀ i, i < 4 → same i = true → (∀ j, j < i → same j = false) → t = rkOut s c (i * 2 ^ 16)) := by
  intro k same t
  have noSame (other : ∀ j, j < 4 → same j = false) : (List.range 4).find? same = none := by
    simpa [List.find?_range_eq_none] using other
  refine ⟨fun full => ?_, fun i inside free other first => ?_, fun i inside is first => ?_⟩
  · have noFree : (List.range 4).find? (fun i => (k.mon i).state == 0) = none := by
      simpa [List.find?_range_eq_none] using fun i inside => (full i inside).1
    have other := noSame fun j inside => (full j inside).2
    simp only [k, same] at noFree other
    simp only [t, waitaddrEff, other, noFree]
  · have lowest : (List.range 4).find? (fun i => (k.mon i).state == 0) = some i := by
      simpa [List.find?_range_eq_some] using ⟨free, inside, first⟩
    have other := noSame other
    simp only [k, same] at lowest other
    simp only [t, waitaddrEff, other, lowest]
  · have lowest : (List.range 4).find? same = some i := by
      simpa [List.find?_range_eq_some] using ⟨is, inside, first⟩
    simp only [k, same] at lowest
    simp only [t, waitaddrEff, lowest]

/-- A capability of i0 of rk, by the place of its field (12 R223). -/
theorem rkCap_eq (k : Core) (n : Nat) : rkCap k n = k.capReg ((k.inp 8 0).toNat / 2 ^ (4 * n) % 16) := by
  have field : rkReg (k.inp 8 0) n = (k.inp 8 0).toNat / 2 ^ (4 * n) % 16 := by
    rw [rkReg, bits, bitsOf, show 4 * n + 3 + 1 - 4 * n = 4 by omega, show (2 : Nat) ^ 4 = 16 from rfl]
  rw [rkCap, field]

/-- SCALEMAP of the scratchpad side, which is the source where that is a scratchpad (12 R224). -/
theorem rackScalemap_eq (s : State) (c : Nat) (k : Core) :
    let of (cap : Cap) (off : Word) := (s.core (ownerOf c cap.space (cap.base + off.toNat)).1).csr.scalemap
    (isPad (rkCap k 0).space = true → rackScalemap s c k = of (rkCap k 0) (k.inp 8 1)) ∧
    (isPad (rkCap k 0).space = false → isPad (rkCap k 1).space = true → rackScalemap s c k = of (rkCap k 1) (k.inp 8 2)) := by
  refine ⟨fun pad => ?_, fun other pad => ?_⟩
  · simp only [rackScalemap, pad, if_true]
  · simp only [rackScalemap, other, pad, if_true, Bool.false_eq_true, if_false]

/-- A capability that addresses memory without translation (12 R236, 17 R326). -/
theorem untranslated_iff (c : Nat) (cap : Cap) :
    untranslated c cap = true ↔ isTile c = false ∧ (cap.space = 3 ∨ cap.space = 4) ∧ cap.perm / 64 % 2 = 1 := by
  obtain ⟨global, -⟩ := perm_without_global cap.perm (cap.field_lt 123 116)
  simp only [untranslated, hasPerm, Bool.and_eq_true, Bool.or_eq_true, Bool.not_eq_true', beq_iff_eq, global, and_assoc]

/-- Settles O31: each operation asks for what its effect schedules; waitaddr looks for its line first, and then for a free monitor. -/
theorem rackAsks : Obligations.RackAsks := by
  unfold Obligations.RackAsks
  intro s h k v asked
  refine ⟨exec_accepted rfl rfl, exec_accepted rfl rfl, exec_accepted rfl rfl, exec_accepted rfl rfl, exec_accepted rfl rfl,
    exec_accepted rfl rfl, exec_accepted rfl rfl, exec_accepted rfl rfl, exec_accepted (eff := probeEff) rfl ?probe,
    exec_accepted (eff := cancelEff) rfl ?cancel,
    fun acc => ⟨_, exec_accepted (eff := waitaddrEff) rfl rfl acc, waitaddrEff_cases s s.cur s.motorNow v⟩,
    fun op => ?job, fun r => probeWord_fields, ?monitor⟩
  case probe => rw [probeEff, bits_low]; rfl
  case cancel => rw [cancelEff, bits_low]; rfl
  case job =>
    intro j i0 i3 named
    have cap (n : Nat) : rkCap k n = named (4 * n) := rkCap_eq k n
    obtain ⟨source, destination⟩ := rackScalemap_eq s s.cur k
    rw [cap 0] at source destination
    rw [cap 1] at destination
    exact ⟨rfl, rfl, fun n inside => getD_map_range _ _ inside, rfl, congrArg (fun x : Cap => x.base / 4 + bits i3 9 0) (cap 2), cap 0, cap 1,
      cap 3, cap 4, cap 5, source, destination⟩
  case monitor =>
    exact ⟨rfl, rfl, rfl, rfl, rfl, rfl, rfl, rfl, rfl, untranslated_iff ..⟩

end Sys2Proof.Machine
end

section
/-! O45. Combining (12 R229): each 32-bit word of what a reduce leaves. -/

namespace Sys2Proof.Machine

/-! Words of a run of bytes (00 R4). -/

/-- Word i of a run of bytes. -/
def wordAt (l : List Byte) (i : Nat) : Nat := ofBytes ((l.drop (4 * i)).take 4)

theorem wordAt_lt (l : List Byte) (i : Nat) : wordAt l i < 2 ^ 32 := by
  have bound := ofBytes_lt ((l.drop (4 * i)).take 4)
  have few : ((l.drop (4 * i)).take 4).length ≤ 4 := List.length_take_le ..
  exact bound.trans_le (Nat.pow_le_pow_right (by decide) few)

theorem ofBytes_toBytes (n v : Nat) : ofBytes (toBytes n v) = v % 256 ^ n := by
  induction n generalizing v with
  | zero => simp [toBytes, ofBytes, Nat.mod_one]
  | succ n ih =>
    rw [toBytes, ofBytes, ih, BitVec.toNat_ofNat]
    exact (Nat.mod_mul (a := 256)).symm.trans (congrArg (v % ·) (Nat.pow_succ' ..).symm)

theorem length_lt_four {α : Type} {l : List α} (short : ∀ a b c d r, l = a :: b :: c :: d :: r → False) : l.length < 4 := by
  match l, short with
  | [], _ => simp
  | [_], _ => simp
  | [_, _], _ => simp
  | [_, _, _], _ => simp
  | a :: b :: c :: d :: r, short => exact (short a b c d r rfl).elim

theorem length_fours {α : Type} (l : List α) : (fours l).length = l.length / 4 := by
  fun_induction fours l with
  | case1 a b c d r ih => simp only [List.length_cons, ih]; omega
  | case2 l short => rw [List.length_nil, Nat.div_eq_of_lt (length_lt_four short)]

theorem getElem?_fours {α : Type} (l : List α) {i : Nat} (inside : 4 * i + 4 ≤ l.length) :
    (fours l)[i]? = some ((l.drop (4 * i)).take 4) := by
  fun_induction fours l generalizing i with
  | case1 a b c d r ih =>
    cases i with
    | zero => rfl
    | succ i => exact ih (by simpa [Nat.mul_succ] using inside)
  | case2 l short => have few := length_lt_four short; omega

/-- The i-th of four values each, put one after the other. -/
theorem take_drop_flatMap_four {α β : Type} {f : β → List α} (four : ∀ b, (f b).length = 4) {rs : List β} {i : Nat} {r : β}
    (at_ : rs[i]? = some r) : ((rs.flatMap f).drop (4 * i)).take 4 = f r := by
  induction rs generalizing i with
  | nil => cases at_
  | cons x rs ih =>
    rw [List.flatMap_cons]
    cases i with
    | zero =>
      cases at_
      exact List.take_left' (four _)
    | succ i =>
      rw [List.drop_append, List.drop_of_length_le (by rw [four]; omega), List.nil_append, four, Nat.mul_succ, Nat.add_sub_cancel]
      exact ih at_

/-! The combined words. -/

/-- Word i of a combination: the two words i combined (12 R229). -/
theorem wordAt_combineBytes (kind : Nat) {ds xs : List Byte} {i : Nat} (hd : 4 * i + 4 ≤ ds.length) (hx : 4 * i + 4 ≤ xs.length) :
    wordAt (combineBytes kind ds xs).1 i = (combine kind (wordAt ds i) (wordAt xs i)).1 % 2 ^ 32 := by
  have pair : ((fours ds).zip (fours xs))[i]? = some ((ds.drop (4 * i)).take 4, (xs.drop (4 * i)).take 4) := by
    rw [List.getElem?_zip_eq_some]
    exact ⟨getElem?_fours ds hd, getElem?_fours xs hx⟩
  have combined : (((fours ds).zip (fours xs)).map (fun p => combine kind (ofBytes p.1) (ofBytes p.2)))[i]? =
      some (combine kind (wordAt ds i) (wordAt xs i)) := by
    rw [List.getElem?_map, pair]
    rfl
  rw [wordAt, combineBytes]
  dsimp only
  rw [take_drop_flatMap_four (f := fun r : Nat × BitVec 4 => toBytes 4 r.1) (fun r => length_toBytes 4 r.1) combined, ofBytes_toBytes,
    show (256 : Nat) ^ 4 = 2 ^ 32 from rfl]

theorem length_combineBytes (kind : Nat) {ds xs : List Byte} (same : ds.length = xs.length) (whole : ds.length % 4 = 0) :
    (combineBytes kind ds xs).1.length = ds.length := by
  have four : ((fun r : Nat × BitVec 4 => (toBytes 4 r.1).length)) = fun _ => 4 := funext fun r => length_toBytes 4 r.1
  simp only [combineBytes, List.length_flatMap, four, List.map_const', List.sum_replicate_nat, List.length_map, List.length_zip,
    length_fours, same]
  omega

theorem isNan_fmtVal (f : Fmt) (c : Nat) : (fmtVal f c).isNan = fmtIsNan f c := by
  simp only [fmtVal]
  cases nan : fmtIsNan f c with
  | true => rfl
  | false =>
    rw [if_neg Bool.false_ne_true]
    (repeat' split) <;> rfl

/-- The greater of two words of fp32, one NaN delivering the other word (05 R103). -/
theorem minmaxCode_fp32 (a b : Nat) : let canon := fun (x : Nat) => if fmtIsNan fp32 x then fmtNanCode fp32 else x
    minmaxCode (.flt fp32) true a b = (if fmtIsNan fp32 a then canon b else if fmtIsNan fp32 b then a
      else if (fmtVal fp32 a).ltz (fmtVal fp32 b) then b else a) := by
  intro canon
  have run : minmaxCode (.flt fp32) true a b = (if (fmtVal fp32 a).isNan then canon b else if (fmtVal fp32 b).isNan then a
    else if (fmtVal fp32 a).ltz (fmtVal fp32 b) then b else a) := rfl
  rw [run, isNan_fmtVal, isNan_fmtVal]

theorem minmaxCode_fp32_lt {a b : Nat} (ha : a < 2 ^ 32) (hb : b < 2 ^ 32) : minmaxCode (.flt fp32) true a b < 2 ^ 32 := by
  have canonical : fmtNanCode fp32 < 2 ^ 32 := by decide
  rw [minmaxCode_fp32]
  dsimp only
  (repeat' split) <;> assumption

/-- What a reduce combines, word by word (12 R229). -/
theorem combineBytes_spec (kind : Nat) {ds xs : List Byte} {i : Nat} (same : ds.length = xs.length) (whole : ds.length % 4 = 0)
    (inside : 4 * i < ds.length) : let a := wordAt ds i
    let b := wordAt xs i
    let out := wordAt (combineBytes kind ds xs).1 i
    let canon := fun (x : Nat) => if fmtIsNan fp32 x then fmtNanCode fp32 else x
    (kind = 0 → out = (a + b) % 2 ^ 32) ∧
    (kind = 1 → out = (roundFmt fp32 .rne (Val.sum [fmtVal fp32 a, fmtVal fp32 b]).1).1) ∧
    (kind = 2 → out = (if fmtIsNan fp32 a then canon b else if fmtIsNan fp32 b then a
      else if (fmtVal fp32 a).ltz (fmtVal fp32 b) then b else a)) := by
  intro a b out canon
  have word : out = (combine kind a b).1 % 2 ^ 32 := wordAt_combineBytes kind (by omega) (by omega)
  rw [word]
  refine ⟨fun is => ?_, fun is => ?_, fun is => ?_⟩ <;> subst is
  · exact Nat.mod_mod ..
  · exact Nat.mod_eq_of_lt (roundFmt_fp32_rne_lt _)
  · rw [← minmaxCode_fp32]
    exact Nat.mod_eq_of_lt (minmaxCode_fp32_lt (wordAt_lt ds i) (wordAt_lt xs i))

end Sys2Proof.Machine
end

section
/-! O45. What a part of a rack covers (12 R229), byte for byte. -/

namespace Sys2Proof.Machine

/-! The length of a part. -/

theorem partLen_le (op daddr left : Nat) : partLen op daddr left ≤ left := by
  unfold partLen
  split <;> omega

theorem partLen_pos (op daddr : Nat) {left : Nat} (some : 0 < left) : 0 < partLen op daddr left := by
  unfold partLen
  split <;> omega

/-- A part lies in one line of its destination, but for a reduce whose words straddle lines, a rel and an acq. -/
theorem partLen_line {op : Nat} (plain : op ≠ 4 ∧ op ≠ 9 ∧ op ≠ 10) (daddr left : Nat) : partLen op daddr left ≤ 64 := by
  unfold partLen
  split <;> omega

/-! The bytes of a part. -/

/-- The addresses of a list of runs, byte by byte. -/
def runBytes (rs : List Run) : List (Cap × Nat) := rs.flatMap (fun x => (List.range x.2.2).map (fun i => (x.1, x.2.1 + i)))

/-- A part that copies bytes of one capability, the i-th from `src i`, to consecutive bytes of another, at most `left` of them. -/
def Part.Copies (p : Part) (from_ : Cap) (src : Nat → Nat) (cap : Cap) (off left : Nat) : Prop :=
  0 < p.n ∧ p.n ≤ left ∧ p.given = [] ∧ p.dst = (cap, off) ∧ runBytes p.src = (List.range p.n).map (fun i => (from_, src i))

/-- A part that writes given bytes, the i-th of them byte `byte i` of a word. -/
def Part.Gives (p : Part) (v : Word) (byte : Nat → Nat) (cap : Cap) (off left : Nat) : Prop :=
  0 < p.n ∧ p.n ≤ left ∧ p.src = [] ∧ p.dst = (cap, off) ∧
    p.given = (List.range p.n).map (fun i => BitVec.ofNat 8 (v.toNat / 256 ^ byte i))

theorem runBytes_one (cap : Cap) (off n : Nat) : runBytes [(cap, off, n)] = (List.range n).map (fun i => (cap, off + i)) := by
  rw [runBytes, List.flatMap_cons, List.flatMap_nil, List.append_nil]

/-- One run is copied byte by byte. -/
theorem copies_run {from_ cap : Cap} {src : Nat → Nat} {a off n left rem : Nat} (some : 0 < n) (most : n ≤ left)
    (bytes : ∀ i, i < n → a + i = src i) : (Part.mk [(from_, a, n)] [] (cap, off) n rem).Copies from_ src cap off left := by
  refine ⟨some, most, rfl, rfl, ?_⟩
  rw [runBytes_one]
  refine List.map_congr_left fun i inside => ?_
  rw [bytes i (List.mem_range.1 inside)]

/-- Two runs are copied byte by byte, the second after the first. -/
theorem copies_two_runs {from_ cap : Cap} {src : Nat → Nat} {a b off m n left rem : Nat} (some : 0 < m) (more : m ≤ n) (most : n ≤ left)
    (first : ∀ i, i < m → a + i = src i) (second : ∀ i, m ≤ i → i < n → b + (i - m) = src i) :
    (Part.mk [(from_, a, m), (from_, b, n - m)] [] (cap, off) n rem).Copies from_ src cap off left := by
  refine ⟨some.trans_le more, most, rfl, rfl, ?_⟩
  have split : List.range n = List.range m ++ (List.range (n - m)).map (fun i => m + i) := by
    rw [← List.range_add, Nat.add_sub_cancel' more]
  rw [split, List.map_append, List.map_map, runBytes, List.flatMap_cons, ← runBytes, runBytes_one]
  refine congrArg₂ _ (List.map_congr_left fun i inside => ?_) (List.map_congr_left fun i inside => ?_)
  · rw [first i (List.mem_range.1 inside)]
  · have here := second (m + i) (by omega) (by have := List.mem_range.1 inside; omega)
    rw [Nat.add_sub_cancel_left] at here
    rw [Function.comp_apply, ← here]

/-- A fill pattern is given byte by byte, from a phase of it. -/
theorem gives_pattern {v : Word} {byte : Nat → Nat} {phase n left rem : Nat} {cap : Cap} {off : Nat} (some : 0 < n) (most : n ≤ left)
    (bytes : ∀ i, (phase + i) % 8 = byte i) : (Part.mk [] (patternBytes v phase n) (cap, off) n rem).Gives v byte cap off left := by
  refine ⟨some, most, rfl, rfl, ?_⟩
  refine List.map_congr_left fun i _ => ?_
  rw [bytes, show 2 ^ (8 * byte i) = 256 ^ byte i from Nat.pow_mul 2 8 (byte i)]

/-! The part of each operation. -/

section

variable {j : RackJob} {pos : Nat} (list : List Nat)

/-- rack and reduce copy the source in order. -/
theorem part_copies_rack (is : j.op = 0 ∨ j.op = 4) (more : pos < j.len) : (j.part list pos).Copies (j.cap 0)
    (fun i => (j.port 1).toNat + pos + i) (j.cap 1) ((j.port 2).toNat + pos) (j.len - pos) := by
  rcases is with is | is <;> simp only [RackJob.part, is] <;>
    exact copies_run (partLen_pos _ _ (by omega)) (partLen_le ..) fun _ _ => rfl

/-- fill writes its pattern. -/
theorem part_gives_fill (is : j.op = 1) (more : pos < j.len) : (j.part list pos).Gives (j.port 1) (fun i => (pos + i) % 8) (j.cap 1)
    ((j.port 2).toNat + pos) (j.len - pos) := by
  simp only [RackJob.part, is]
  exact gives_pattern (partLen_pos _ _ (by omega)) (partLen_le ..) fun i => by omega

/-- gather copies from the element that its index list names, and from the next where the line holds their seam. -/
theorem part_copies_gather (is : j.op = 2) (line : 6 ≤ bits (j.port 4) 11 8) (more : pos < j.len) :
    let e := 2 ^ bits (j.port 4) 11 8
    (j.part list pos).Copies (j.cap 0) (fun i => (j.port 1).toNat + list.getD ((pos + i) / e) 0 * e + (pos + i) % e) (j.cap 1)
      ((j.port 2).toNat + pos) (j.len - pos) := by
  intro e
  have big : 2 ^ 6 ≤ e := Nat.pow_le_pow_right (by decide) line
  have size : j.esize = e := rfl
  have rest := Nat.mod_lt pos (show 0 < e by omega)
  have whole := Nat.div_add_mod pos e
  simp only [RackJob.part, is, RackJob.gatherPart, size]
  generalize length : partLen 2 ((j.cap 1).base + ((j.port 2).toNat + pos)) (j.len - pos) = n
  have some : 0 < n := length ▸ partLen_pos _ _ (by omega)
  have most : n ≤ j.len - pos := length ▸ partLen_le ..
  have short : n ≤ 64 := length ▸ partLen_line (by decide) ..
  have here (i : Nat) (inside : pos % e + i < e) : (pos + i) / e = pos / e ∧ (pos + i) % e = pos % e + i := by
    have sum : pos + i = pos % e + i + e * (pos / e) := by omega
    rw [sum, Nat.add_mul_div_left _ _ (by omega), Nat.add_mul_mod_self_left, Nat.div_eq_of_lt inside, Nat.mod_eq_of_lt inside]
    omega
  have next (i : Nat) (past : e ≤ pos % e + i) (inside : pos % e + i < e + e) :
      (pos + i) / e = pos / e + 1 ∧ (pos + i) % e = pos % e + i - e := by
    have sum : pos + i = pos % e + i - e + e * (pos / e + 1) := by rw [Nat.mul_succ]; omega
    have small : pos % e + i - e < e := by omega
    rw [sum, Nat.add_mul_div_left _ _ (by omega), Nat.add_mul_mod_self_left, Nat.div_eq_of_lt small, Nat.mod_eq_of_lt small]
    omega
  split
  · refine copies_run (by omega) (by omega) fun i inside => ?_
    obtain ⟨element, byte⟩ := here i (by omega)
    rw [element, byte]
    omega
  · refine copies_two_runs (by omega) (by omega) most (fun i inside => ?_) fun i past inside => ?_
    · obtain ⟨element, byte⟩ := here i (by omega)
      rw [element, byte]
      omega
    · obtain ⟨element, byte⟩ := next i (by omega) (by omega)
      rw [element, byte]
      omega

/-- scatter copies an element to where its index list names. -/
theorem part_copies_scatter (is : j.op = 3) : let e := 2 ^ bits (j.port 4) 11 8
    (j.part list pos).Copies (j.cap 0) (fun i => (j.port 1).toNat + pos + i) (j.cap 1)
      ((j.port 2).toNat + list.getD (pos / e) 0 * e + pos % e) (e - pos % e) := by
  intro e
  have size : j.esize = e := rfl
  have rest := Nat.mod_lt pos (Nat.two_pow_pos (bits (j.port 4) 11 8))
  simp only [RackJob.part, is, size, ← Nat.add_assoc]
  exact copies_run (partLen_pos _ _ (Nat.sub_pos_of_lt rest)) (partLen_le ..) fun _ _ => rfl

/-- mcast copies the source to each replica in turn. -/
theorem part_copies_mcast (is : j.op = 5) (some : 0 < j.len) : let q := pos / j.len
    let i0 := pos % j.len
    (j.part list pos).Copies (j.cap 0) (fun i => (j.port 1).toNat + i0 + i) (if q = 0 then j.cap 1 else j.cap (1 + q))
      ((if q = 0 then (j.port 2).toNat else (j.port (4 + q)).toNat) + i0) (j.len - i0) := by
  intro q i0
  have rest := Nat.mod_lt pos some
  have replica : j.replica q = (if q = 0 then j.cap 1 else j.cap (1 + q), if q = 0 then (j.port 2).toNat else (j.port (4 + q)).toNat) := by
    unfold RackJob.replica
    split <;> rfl
  simp only [RackJob.part, is]
  rw [replica]
  exact copies_run (partLen_pos _ _ (by omega)) (partLen_le ..) fun _ _ => rfl

/-- rel writes its 8 bytes at once. -/
theorem part_gives_rel (is : j.op = 9) (more : pos < 8) : (j.part list pos).Gives (j.port 1) (fun i => (pos + i) % 8) (j.cap 0)
    (j.len + pos) (8 - pos) := by
  simp only [RackJob.part, is]
  exact gives_pattern (partLen_pos _ _ (by omega)) (partLen_le ..) fun _ => rfl

/-- acq copies its 8 bytes at once. -/
theorem part_copies_acq (is : j.op = 10) (more : pos < 8) : (j.part list pos).Copies (j.cap 0) (fun i => j.len + pos + i) (j.cap 1)
    ((j.port 2).toNat + pos) (8 - pos) := by
  simp only [RackJob.part, is]
  exact copies_run (partLen_pos _ _ (by omega)) (partLen_le ..) fun _ _ => rfl

end

/-! The lines of a scratchpad. -/

theorem lineRuns_one {base off n : Nat} (some : 0 < n) (line : (base + off) % 64 + n ≤ 64) (fuel : Nat) :
    lineRuns base (fuel + 2) off n = [(off, n)] := by
  have all : min n (64 - (base + off) % 64) = n := by omega
  simp only [lineRuns, all, Nat.sub_self, if_true]
  rw [if_neg (by omega)]

/-- A run in one line of a scratchpad has one place (12 R237). -/
theorem resolveAll_pad (s : State) (c : Nat) {cap : Cap} (wr : Bool) {off n : Nat} (pad : isPad cap.space = true) (some : 0 < n)
    (line : (cap.base + off) % 64 + n ≤ 64) : let o := ownerOf c cap.space (cap.base + off)
    resolveAll s c cap wr (runsOf cap off n) = (s, .ok [(.pad o.1 o.2, n)]) := by
  rw [runsOf, lineRuns_one some line]
  simp only [resolveAll, resolveAllFor, resolveFor, pad, if_true]

end Sys2Proof.Machine
end

section
/-! O45. What the engine's bookkeeping leaves alone: a debit changes the partitions only, and what follows the write of a part changes
no store (12 R228, R241; 16 R311). -/

namespace Sys2Proof.Machine

/-! Debits. -/

/-- From s to t only partitions differ. -/
def Debited (s t : State) : Prop := ∃ ps, t = { s with parts := ps }

namespace Debited

theorem refl (s : State) : Debited s s := ⟨s.parts, rfl⟩

theorem trans {s t u : State} (a : Debited s t) (b : Debited t u) : Debited s u := by
  obtain ⟨ps, rfl⟩ := a
  obtain ⟨qs, rfl⟩ := b
  exact ⟨qs, rfl⟩

theorem modPart (s : State) (n : Nat) (f : Partition → Partition) : Debited s (s.modPart n f) := by
  unfold State.modPart
  split
  · exact ⟨_, rfl⟩
  · exact refl s

variable {s t : State} (h : Debited s t)
include h

theorem core (d : Nat) : t.core d = s.core d := by
  obtain ⟨ps, rfl⟩ := h
  rfl

theorem tick : t.tick = s.tick := by
  obtain ⟨ps, rfl⟩ := h
  rfl

theorem cellar : t.cellar = s.cellar := by
  obtain ⟨ps, rfl⟩ := h
  rfl

theorem host : t.host = s.host := by
  obtain ⟨ps, rfl⟩ := h
  rfl

theorem readPlace (p : Place) (n : Nat) : readPlace t p n = readPlace s p n := by
  obtain ⟨ps, rfl⟩ := h
  cases p <;> rfl

theorem readPlaces (l : List (Place × Nat)) : readPlaces t l = readPlaces s l := by
  induction l with
  | nil => rfl
  | cons x l ih => simp only [Machine.readPlaces, h.readPlace, ih]

theorem labelAt (p : Place) : labelAt t p = labelAt s p := by
  obtain ⟨ps, rfl⟩ := h
  cases p <;> rfl

end Debited

theorem drawFrom_debited (s : State) (part : Nat) (layby : Bool) (l : List Nat) (n : Nat) : Debited s (drawFrom s part layby l n) := by
  fun_induction drawFrom s part layby l n with
  | case1 s => exact .refl s
  | case2 _ _ _ _ _ ih => exact ih
  | case3 _ _ _ _ _ _ _ _ _ ih => exact .trans ⟨_, rfl⟩ ih
  | case4 _ _ _ _ _ ih => exact ih

theorem payTokens_debited {s t : State} {part d : Nat} {layby : Bool} (paid : payTokens s part layby d = some t) : Debited s t := by
  unfold payTokens at paid
  split at paid
  · cases paid
  · dsimp only at paid
    split at paid
    · cases paid
      exact ⟨_, rfl⟩
    · split at paid
      · cases paid
        exact (drawFrom_debited ..).trans (.modPart ..)
      · cases paid

theorem payHost_debited {s t : State} {c n : Nat} (paid : payHost s c n = some t) : Debited s t := by
  unfold payHost at paid
  split at paid
  · cases paid
    exact .refl s
  · exact payTokens_debited paid

theorem payEach_debited (s : State) (c n k : Nat) : Debited s (payEach s c n k).1 := by
  induction n generalizing s k with
  | zero => exact .refl s
  | succ n ih =>
    unfold payEach
    split
    · next paid => exact (payHost_debited paid).trans (ih ..)
    · exact .refl s

/-- A part whose tokens are paid: the debit has changed the partitions, and the rack only in what it has paid. -/
theorem payPart_paid {s s1 : State} {c id need : Nat} {r r1 : Rack} (paid : payPart s c id r need = (s1, r1, true)) :
    Debited s s1 ∧ ∃ n, r1 = { r with paid := n } := by
  simp only [payPart] at paid
  split at paid
  · simp at paid
  · cases paid
    exact ⟨payEach_debited .., _, rfl⟩

/-- Without a line in hand a source is read as it stands. -/
theorem readSources_none (s : State) (l : List (Place × Nat)) : readSources s none l = readPlaces s l := by
  induction l with
  | nil => rfl
  | cons x l ih =>
    have first : readSource s none x.1 x.2 = readPlace s x.1 x.2 := rfl
    simp only [readSources, readPlaces, first, ih]
    cases readPlace s x.1 x.2 <;> cases readPlaces s l <;> rfl

/-! Stores that stay. -/

/-- The memories of every core, the bytes of the cellar and host memory are the same. -/
structure SameStores (s t : State) : Prop where
  mem : ∀ d, (t.core d).mem = (s.core d).mem
  cellar : t.cellar.bytes = s.cellar.bytes
  host : t.host = s.host

namespace SameStores

theorem refl (s : State) : SameStores s s := ⟨fun _ => rfl, rfl, rfl⟩

theorem trans {s t u : State} (a : SameStores s t) (b : SameStores t u) : SameStores s u :=
  ⟨fun d => (b.mem d).trans (a.mem d), b.cellar.trans a.cellar, b.host.trans a.host⟩

theorem modCore (s : State) (c : Nat) {f : Core → Core} (keeps : ∀ k, (f k).mem = k.mem) : SameStores s (s.modCore c f) := by
  refine ⟨fun d => ?_, rfl, rfl⟩
  rw [State.core_modCore]
  split
  · next same => rw [same, keeps]
  · rfl

theorem foldl {α : Type} {f : State → α → State} (keeps : ∀ s x, SameStores s (f s x)) (l : List α) (s : State) :
    SameStores s (l.foldl f s) := by
  induction l generalizing s with
  | nil => exact refl s
  | cons x l ih => exact (keeps s x).trans (ih _)

end SameStores

theorem cache_sameStores (s : State) (part line : Nat) : SameStores s (s.cache part line) := by
  unfold State.cache
  split <;> exact ⟨fun _ => rfl, rfl, rfl⟩

theorem markPlace_sameStores (s : State) (p : Place) : SameStores s (markPlace s p) := by
  cases p with
  | pad o off => exact SameStores.modCore s o (f := fun k => k.readAt s.tick [off / 64]) fun _ => rfl
  | cellar pa => exact ⟨fun _ => rfl, rfl, rfl⟩
  | host part ga => exact SameStores.trans (t := s.readHost part (ga / 64)) ⟨fun _ => rfl, rfl, rfl⟩ (cache_sameStores ..)

theorem partRead_sameStores (s : State) (r : Rack) (rd : Ready) : SameStores s (partRead s r rd) :=
  SameStores.foldl (f := fun s (x : Place × Nat) => markPlace s x.1) (fun s x => markPlace_sameStores s x.1) _ s

theorem countAccess_sameStores (s : State) (first pa n : Nat) : SameStores s (s.countAccess first pa n) :=
  SameStores.foldl (f := State.countGranule) (fun _ _ => ⟨fun _ => rfl, rfl, rfl⟩) _ s

theorem countPlaces_sameStores (s : State) (first va : Nat) (l : List (Place × Nat)) : SameStores s (countPlaces s first va l) := by
  induction l generalizing s va with
  | nil => exact SameStores.refl s
  | cons x l ih =>
    obtain ⟨p, n⟩ := x
    cases p with
    | cellar pa => exact (countAccess_sameStores ..).trans (ih ..)
    | pad => exact ih ..
    | host => exact ih ..

theorem countPart_sameStores (s : State) (r : Rack) (p : Part) (rd : Ready) : SameStores s (countPart s r p rd) := by
  have source := SameStores.foldl (fun s (x : Nat × Nat × List (Place × Nat)) => countPlaces_sameStores s x.1 x.2.1 x.2.2)
    (sourceRuns r p.src rd.src) s
  have destination := source.trans (countPlaces_sameStores _ (accessStart r p.dstAt) p.dstAt rd.dst)
  simp only [countPart]
  refine .trans ?_ ((countPlaces_sameStores ..).trans (countPlaces_sameStores ..))
  split
  · exact destination.trans (countPlaces_sameStores ..)
  · exact destination

theorem releaseRead_sameStores (s : State) (c id : Nat) (cap : Cap) (off n : Nat) : SameStores s (releaseRead s c id cap off n) := by
  unfold releaseRead
  split
  · exact SameStores.modCore s _ fun _ => by rfl
  · exact SameStores.refl s

theorem releasePart_sameStores (s : State) (c id : Nat) (r : Rack) (p : Part) : SameStores s (releasePart s c id r p) := by
  have runs := SameStores.foldl (fun s (x : Run) => releaseRead_sameStores s c id x.1 x.2.1 x.2.2) p.reads s
  simp only [releasePart]
  split <;> split
  · exact SameStores.modCore s _ fun _ => by rfl
  · exact runs.trans (SameStores.modCore _ _ fun _ => by rfl)
  · exact SameStores.refl s
  · exact runs

/-- The last act of a part changes no store. -/
theorem advanceRack_sameStores (s : State) (c id : Nat) (r : Rack) (p : Part) (rd : Ready) (blk : Held) (st : BitVec 4) :
    SameStores s (advanceRack s c id r p rd blk st) :=
  ((partRead_sameStores s r rd).trans (countPart_sameStores ..)).trans
    ((releasePart_sameStores ..).trans (SameStores.modCore _ c (f := fun k => k.setRack id _) fun _ => rfl))

/-- What the last act of a part leaves in its rack (12 R230). -/
theorem rack_advanceRack (s : State) (c id : Nat) (r : Rack) (p : Part) (rd : Ready) (blk : Held) (st : BitVec 4) :
    ((advanceRack s c id r p rd blk st).core c).rack id = { r with
      state := 2, pos := r.pos + p.n, left := r.job.left (r.pos + p.n), astat := r.astat ||| st, blk := blk, wtick := s.tick } := by
  simp only [advanceRack, State.core_modCore_same, Core.rack_setRack]

end Sys2Proof.Machine
end

section
/-! O45. What a write at a place leaves in the store it names (10 R187, R196; 12 R224; 18 R343). -/

namespace Sys2Proof.Machine

/-! Scratchpads. -/

/-- What the port writes: bytes from an address, and a label where there is one. -/
def portWrite (a : Nat) (bs : List Byte) (label : Option (BitVec 16)) : StoreW :=
  StoreW.mk 0 .vm ((cellsAt a bs).map (fun x => (x.1, x.2, BitVec.allOnes 8))) (label.toList.map (fun l => (a / 64, l))) []

theorem zipIdx_eq_map {α : Type} (l : List α) (d : α) : l.zipIdx = (List.range l.length).map (fun i => (l.getD i d, i)) := by
  refine List.ext_getElem (by simp) fun i inside _ => ?_
  have inside : i < l.length := by simpa using inside
  simp [inside]

theorem byteAt_portWrite (a : Nat) (bs : List Byte) (label : Option (BitVec 16)) (b : Nat) :
    (portWrite a bs label).byteAt b = if a ≤ b ∧ b < a + bs.length then some (bs.getD (b - a) 0, BitVec.allOnes 8) else none := by
  have cells : (portWrite a bs label).cells = (List.range bs.length).map (fun i => (a + i, bs.getD i 0, BitVec.allOnes 8)) := by
    rw [portWrite, cellsAt, zipIdx_eq_map bs 0, List.map_map, List.map_map]
    rfl
  rw [StoreW.byteAt, cells, find?_run a bs.length b (fun i => (bs.getD i 0, BitVec.allOnes 8))]
  split <;> rfl

theorem full_portWrite (a : Nat) (bs : List Byte) (label : Option (BitVec 16)) :
    ∀ x ∈ (portWrite a bs label).cells, x.2.2 = BitVec.allOnes 8 := by
  intro x mem
  obtain ⟨y, -, rfl⟩ := List.mem_map.1 mem
  rfl

theorem labels_putStore_none (k : Core) (tick : Nat) {w : StoreW} (none : w.labels = []) :
    (putStore k tick w).mem.labels = k.mem.labels := by
  rw [putStore_eq, none]
  dsimp only [putLabels, List.foldl_nil]
  rw [putCells_frame]

theorem writePlace_pad (s : State) (c o a : Nat) (bs : List Byte) (label : Option (BitVec 16)) :
    ∃ t, writePlace s c (.pad o a) bs label = .ok t ∧ t.cellar = s.cellar ∧ t.host = s.host ∧
      (t.core o).mem = (putStore (s.core o) s.tick (portWrite a bs label)).mem ∧ ∀ d, d ≠ o → t.core d = s.core d := by
  refine ⟨_, rfl, rfl, rfl, ?_, fun _ other => State.core_modCore_other _ _ _ other⟩
  rw [State.core_modCore_same]
  cases label <;> rfl

/-- A write in a scratchpad where nothing has been written at this boundary: its bytes, its label, and nothing else. -/
theorem writePlace_pad_spec {s t : State} {c o a : Nat} {bs : List Byte} {label : Option (BitVec 16)}
    (write : writePlace s c (.pad o a) bs label = .ok t) (old : (s.core o).fresh.tick ≠ s.tick) :
    (∀ i, i < bs.length → readByte (t.core o).mem.sp (a + i) = bs.getD i 0) ∧
    (∀ x b, (x ≠ o ∨ b < a ∨ a + bs.length ≤ b) → readByte (t.core x).mem.sp b = readByte (s.core x).mem.sp b) ∧
    (label = none → (t.core o).mem.labels = (s.core o).mem.labels) ∧
    (∀ l, label = some l → sget 0 (t.core o).mem.labels (a / 64) = l) ∧ t.cellar = s.cellar ∧ t.host = s.host := by
  obtain ⟨u, is, cellar, host, mem, others⟩ := writePlace_pad s c o a bs label
  rw [is] at write
  cases write
  obtain ⟨outside, inside, labels, -⟩ := putStore_alone old (full_portWrite a bs label)
  refine ⟨fun i here => ?_, fun x b away => ?_, fun none => ?_, fun l is => ?_, cellar, host⟩
  · rw [mem, inside (a + i) (bs.getD i 0, BitVec.allOnes 8) (by rw [byteAt_portWrite, if_pos (by omega), Nat.add_sub_cancel_left])]
  · by_cases same : x = o
    · subst same
      rw [mem]
      exact outside b (by rw [byteAt_portWrite, if_neg (by omega)])
    · rw [others x same]
  · rw [mem]
    exact labels_putStore_none _ _ (by rw [none]; rfl)
  · rw [mem, labels, is]
    simp [portWrite]

/-! The cellar. -/

theorem getD_readBytes (m : Store Byte) (a : Nat) {i n : Nat} (inside : i < n) : (readBytes m a n).getD i 0 = readByte m (a + i) := by
  induction n generalizing a i with
  | zero => omega
  | succ n ih =>
    cases i with
    | zero => rfl
    | succ i =>
      have next := ih (a + 1) (i := i) (by omega)
      rw [Nat.add_assoc, Nat.add_comm 1] at next
      exact next

theorem length_mergeLine (old : List Byte) {off : Nat} {new : List Byte} (inside : off + new.length ≤ old.length) :
    (mergeLine old off new).length = old.length := by
  simp only [mergeLine, List.length_append, List.length_take, List.length_drop]
  omega

/-- A byte of a merged line: the new one where there is one, else the old one (10 R193). -/
theorem getD_mergeLine (old : List Byte) {off : Nat} {new : List Byte} (inside : off + new.length ≤ old.length) (j : Nat) :
    (mergeLine old off new).getD j 0 = if off ≤ j ∧ j < off + new.length then new.getD (j - off) 0 else old.getD j 0 := by
  have lead : (old.take off).length = off := by rw [List.length_take]; omega
  simp only [mergeLine, List.getD_eq_getElem?_getD]
  by_cases before : j < off
  · rw [if_neg (by omega), List.append_assoc, List.getElem?_append_left (by omega), List.getElem?_take_of_lt before]
  · rw [List.append_assoc, List.getElem?_append_right (by omega), lead]
    by_cases new_ : j < off + new.length
    · rw [if_pos (by omega), List.getElem?_append_left (by omega)]
    · rw [if_neg (by omega), List.getElem?_append_right (by omega), List.getElem?_drop]
      congr 3
      omega

/-- A line is stored whole under the next value of its minor counter (18 R343). -/
theorem Cellar.write_plain {k : Cellar} {line : Nat} (room : (k.mdOf line).minor ≠ 127) (phase : Bool) (data : List Byte)
    (label : BitVec 16) : let t := k.write phase line data label
    t.bytes = writeBytes k.bytes (64 * line) data ∧ t.mdOf line = LineMd.mk label ((k.mdOf line).minor + 1) phase 0 := by
  intro t
  have run : t = _ := if_neg room
  rw [run]
  exact ⟨rfl, sget_sput_same ..⟩

/-- A write within a line: its bytes, and no other byte of the cellar; its label, the next minor counter and a matching MAC. -/
theorem Cellar.put_spec {k t : Cellar} {phase : Bool} {pa : Nat} {new : List Byte} {label : Option (BitVec 16)}
    (put : k.put phase pa new label = some t) (line : pa % 64 + new.length ≤ 64) (room : (k.mdOf (pa / 64)).minor ≠ 127) :
    (∀ i, i < new.length → readByte t.bytes (pa + i) = new.getD i 0) ∧
    (∀ b, (b < pa ∨ pa + new.length ≤ b) → readByte t.bytes b = readByte k.bytes b) ∧
    t.mdOf (pa / 64) = LineMd.mk (label.getD (k.mdOf (pa / 64)).label) ((k.mdOf (pa / 64)).minor + 1) phase 0 := by
  unfold Cellar.put at put
  dsimp only at put
  split at put
  · next whole =>
    cases put
    obtain ⟨bytes, md⟩ := Cellar.write_plain
      (k := { k with dirty := k.dirty ||| BitVec.ofNat 8 (2 ^ (pa / 2 ^ 36)) }) room phase new (label.getD (k.mdOf (pa / 64)).label)
    rw [bytes, show 64 * (pa / 64) = pa by omega]
    exact ⟨fun i inside => readByte_writeBytes_same _ _ _ _ inside, fun b out => readByte_writeBytes_other _ _ _ _ out, md⟩
  · split at put
    · cases put
      obtain ⟨bytes, md⟩ := Cellar.write_plain (k := { k with dirty := k.dirty ||| BitVec.ofNat 8 (2 ^ (pa / 2 ^ 36)) }) room phase
        (mergeLine (k.lineBytes (pa / 64)) (pa % 64) new) (label.getD (k.mdOf (pa / 64)).label)
      have size : (k.lineBytes (pa / 64)).length = 64 := readBytes_length ..
      have fits : pa % 64 + new.length ≤ (k.lineBytes (pa / 64)).length := by omega
      have old (j : Nat) (inside : j < 64) : (k.lineBytes (pa / 64)).getD j 0 = readByte k.bytes (64 * (pa / 64) + j) :=
        getD_readBytes k.bytes _ inside
      have merged (j : Nat) (inside : j < 64) := readByte_writeBytes_same k.bytes (64 * (pa / 64))
        (mergeLine (k.lineBytes (pa / 64)) (pa % 64) new) j (by rwa [length_mergeLine _ fits, size])
      refine ⟨fun i inside => ?_, fun b out => ?_, md⟩
      · have here := merged (pa % 64 + i) (by omega)
        rw [getD_mergeLine _ fits, if_pos (by omega), Nat.add_sub_cancel_left] at here
        rw [bytes, ← here]
        congr 1
        omega
      · rw [bytes]
        by_cases sameLine : 64 * (pa / 64) ≤ b ∧ b < 64 * (pa / 64) + 64
        · have here := merged (b - 64 * (pa / 64)) (by omega)
          rw [getD_mergeLine _ fits, if_neg (by omega), old _ (by omega), Nat.add_sub_cancel' sameLine.1] at here
          exact here
        · exact readByte_writeBytes_other _ _ _ _ (by rw [length_mergeLine _ fits, size]; omega)
    · cases put

theorem mem_hitMonitors (s : State) (part by_ space line d : Nat) :
    ((s.hitMonitors part by_ space line).core d).mem = (s.core d).mem := by
  unfold State.hitMonitors
  rw [State.core_mapCores _ _ (fun d => by split <;> rfl)]
  split <;> rfl

theorem hitMonitors_sameStores (s : State) (part by_ space line : Nat) : SameStores s (s.hitMonitors part by_ space line) :=
  ⟨mem_hitMonitors s part by_ space line, rfl, rfl⟩

theorem logLines_eq (s : State) (part : Nat) (lines : List Nat) : ∃ l, s.logLines part lines = { s with logs := l } := by
  unfold State.logLines
  induction lines generalizing s with
  | nil => exact ⟨s.logs, rfl⟩
  | cons x lines ih =>
    rw [List.foldl_cons]
    obtain ⟨l, is⟩ := ih (s.log (0x220 + 64 * x / 2 ^ 36 % 8) evIntegrity 0 0 0 0 part (64 * x))
    exact ⟨l, is⟩

/-- A write to the cellar changes the cellar, the logs, the monitors on its line and the record of a scrub, and no other store. -/
theorem putCellar_spec {s t : State} {by_ pa : Nat} {new : List Byte} {label : Option (BitVec 16)}
    (put : s.putCellar by_ pa new label = some t) :
    s.cellar.put (s.cellarPhase (s.partOfStack (pa / 2 ^ 36))) pa new label = some t.cellar ∧
      (∀ d, (t.core d).mem = (s.core d).mem) ∧ t.host = s.host ∧ ∀ n, (t.part n).isSome = (s.part n).isSome := by
  obtain ⟨k, written, rfl⟩ := Option.map_eq_some_iff.1 put
  obtain ⟨l, logged⟩ := logLines_eq s (s.partOfStack (pa / 2 ^ 36)) (s.cellar.rewriteFails (pa / 64))
  rw [logged]
  refine ⟨?_, fun d => ?_, ?_, fun n => ?_⟩
  · simpa [State.withCellar, State.hitMonitors] using written
  · rw [mem_hitMonitors, State.withCellar, State.core_modPart]
    rfl
  · simp [State.withCellar, State.hitMonitors]
  · rw [State.hitMonitors, State.part_mapCores, State.withCellar]
    by_cases same : n = s.partOfStack (pa / 2 ^ 36)
    · subst same
      rw [State.part_modPart_same, Option.isSome_map]
      rfl
    · rw [State.part_modPart_other _ _ same]
      rfl

theorem writePlace_cellar {s t : State} {c pa : Nat} {bs : List Byte} {label : Option (BitVec 16)}
    (write : writePlace s c (.cellar pa) bs label = .ok t) : s.putCellar c pa bs label = some t := by
  simp only [writePlace] at write
  split at write
  · next is => cases write; exact is
  · cases write

/-! Host memory. -/

theorem hostMem_putHost (s : State) (part by_ ga : Nat) (new : List Byte) : let t := s.putHost part by_ ga new
    (∀ n, t.hostMem n = if n = part then writeBytes (s.hostMem part) ga new else s.hostMem n) ∧
      (∀ d, (t.core d).mem = (s.core d).mem) ∧ t.cellar.bytes = s.cellar.bytes := by
  intro t
  have hits := SameStores.foldl (fun s l => hitMonitors_sameStores s part by_ 4 l) (linesOver ga new.length)
    { s with host := sput [] s.host part (writeBytes (s.hostMem part) ga new) }
  have same : SameStores { s with host := sput [] s.host part (writeBytes (s.hostMem part) ga new) } t := by
    simp only [t, State.putHost]
    split
    · exact ⟨hits.mem, hits.cellar, hits.host⟩
    · exact hits
  refine ⟨fun n => ?_, same.mem, same.cellar⟩
  rw [State.hostMem, same.host]
  exact sget_sput ..

/-- A write in host memory: its bytes, and nothing else of any host memory. -/
theorem writePlace_host_spec {s t : State} {c part ga : Nat} {bs : List Byte} {label : Option (BitVec 16)}
    (write : writePlace s c (.host part ga) bs label = .ok t) :
    (∀ i, i < bs.length → readByte (t.hostMem part) (ga + i) = bs.getD i 0) ∧
    (∀ x b, (x ≠ part ∨ b < ga ∨ ga + bs.length ≤ b) → readByte (t.hostMem x) b = readByte (s.hostMem x) b) ∧
    (∀ d, (t.core d).mem = (s.core d).mem) ∧ t.cellar.bytes = s.cellar.bytes := by
  cases write
  obtain ⟨host, mem, cellar⟩ := hostMem_putHost s part c ga bs
  refine ⟨fun i inside => ?_, fun x b away => ?_, mem, cellar⟩
  · rw [host, if_pos rfl, readByte_writeBytes_same _ _ _ _ inside]
  · rw [host]
    split
    · next same => subst same; exact readByte_writeBytes_other _ _ _ _ (by omega)
    · rfl

end Sys2Proof.Machine
end

section
/-! O45. A part that moves (12 R224, R229): what it writes, and how its rack goes on. -/

namespace Sys2Proof.Machine

/-- A part that moves: its debit, its bytes, its scale slots, its data with the labels, and the rack's progress. -/
theorem movePart_moves {s : State} {c id : Nat} {r : Rack} {p : Part} {rd : Ready} {env : LineEnv}
    (moves : partMoves s c id r p rd env = true) (s0 : State) : ∃ s1 paid bs d s2 s3 blk,
    let r1 := { r with paid := paid }
    Debited s s1 ∧ partBytes s1 r1 p rd = .ok bs ∧ partData s1 r1 rd bs = .ok d ∧ writeSlots s1 c rd = .ok s2 ∧
      writeLabelled s2 c rd.dst (partLabels s1 r1 p rd) d.1 = .ok s3 ∧
      movePart s0 s c id r p rd env = advanceRack s3 c id r1 p rd blk d.2 := by
  simp only [partMoves, Bool.and_eq_true, Bool.not_eq_true'] at moves
  obtain ⟨⟨⟨⟨⟨slotted, noError⟩, intact⟩, free⟩, slotsFree⟩, written⟩ := moves
  split at written
  · next s1 r1 paid =>
    split at written
    · next bs bytes =>
      split at written
      · next d s2 data slots =>
        split at written
        · next s3 labelled =>
          obtain ⟨debited, n, rfl⟩ := payPart_paid paid
          refine ⟨s1, n, bs, d, s2, s3, blockLeft s1 r.blk rd.src (p.rem != 0), debited, bytes, data, slots, labelled, ?_⟩
          simp only [movePart, slotted, noError, intact, free, slotsFree, paid, bytes, data, writePart, slots, labelled, Bool.false_and,
            Bool.not_true, Bool.or_self, Bool.false_eq_true, if_false]
        · cases written
      · cases written
    · cases written
  · cases written

/-- The rack after a part that moves (12 R230). -/
theorem rack_movePart {s : State} {c id : Nat} {r : Rack} {p : Part} {rd : Ready} {env : LineEnv}
    (moves : partMoves s c id r p rd env = true) (s0 : State) : let q := ((movePart s0 s c id r p rd env).core c).rack id
    q.state = 2 ∧ q.pos = r.pos + p.n ∧ q.outcome = r.outcome ∧ q.left = r.job.left (r.pos + p.n) ∧ q.job = r.job := by
  obtain ⟨s1, paid, bs, d, s2, s3, blk, -, -, -, -, -, run⟩ := movePart_moves moves s0
  rw [run, rack_advanceRack]
  exact ⟨rfl, rfl, rfl, rfl, rfl⟩

/-! What a part in one line writes. -/

/-- The bytes of a part whose source is not in hand. -/
theorem partBytes_plain {s : State} {r : Rack} {p : Part} {rd : Ready} {bs : List Byte} (buf : r.buf = none) (blk : r.blk = none)
    (bytes : partBytes s r p rd = .ok bs) : (p.src = [] → bs = p.given) ∧ (p.src ≠ [] → readPlaces s rd.src = .ok bs) := by
  unfold partBytes at bytes
  split at bytes
  · next given => cases bytes; exact ⟨fun _ => rfl, fun some => absurd given some⟩
  · next source =>
    rw [buf] at bytes
    dsimp only at bytes
    rw [blk, readSources_none] at bytes
    exact ⟨fun none => by simp [source] at none, fun _ => bytes⟩

/-- What is written: the bytes, or for a reduce what they combine to with those of the destination (10 R194). -/
theorem partData_plain {s : State} {r : Rack} {rd : Ready} {bs : List Byte} {d : List Byte × BitVec 4} {q : Place} {n : Nat}
    (dst : rd.dst = [(q, n)]) (data : partData s r rd bs = .ok d) : (r.job.op ≠ 4 → d.1 = bs) ∧
    (r.job.op = 4 → ∃ ds, readPlace s q n = .ok ds ∧ d = combineBytes (bits (r.job.port 4) 5 4) ds bs) := by
  unfold partData at data
  split at data
  · next reduce =>
    refine ⟨fun other => absurd reduce other, fun _ => ?_⟩
    rw [dst] at data
    cases read : readPlace s q n with
    | ok ds =>
      simp only [readPlaces, read, List.append_nil] at data
      cases data
      exact ⟨ds, rfl, rfl⟩
    | stop x => simp [readPlaces, read] at data
  · next other => cases data; exact ⟨fun _ => rfl, fun reduce => absurd reduce other⟩

/-- The label that a part writes, where its lines move without labels and where they move with them (12 R224). -/
theorem partLabel_plain {s : State} {r : Rack} {p : Part} {rd : Ready} (buf : r.buf = none) : let l := partLabel s r p rd
    (r.job.lpol = 0 → l = none) ∧
    (r.job.lpol = 1 → (r.job.op = 0 ∨ r.job.op = 5) → ∀ y n rest, rd.src = (y, n) :: rest → l = some (labelAt s y)) := by
  refine ⟨fun drop => if_pos (.inl drop), fun keep op y n rest source => ?_⟩
  rw [partLabel, if_neg (by omega), buf, source]

theorem writeLabelled_one {s t : State} {c n : Nat} {q : Place} {l : Option (BitVec 16)} {bs : List Byte}
    (written : writeLabelled s c [(q, n)] [l] bs = .ok t) : writePlace s c q (bs.take n) l = .ok t := by
  simp only [writeLabelled, List.headD_cons] at written
  split at written
  · next write => cases written; exact write
  · cases written

theorem writeSlots_none {s t : State} {c : Nat} {rd : Ready} (noSource : rd.slotSrc = []) (noSlots : rd.slotDst = [])
    (slots : writeSlots s c rd = .ok t) : t = s := by
  rw [writeSlots, noSource, noSlots] at slots
  cases slots
  rfl

section

variable {s : State} {c id : Nat} {r : Rack} {p : Part} {rd : Ready} {env : LineEnv} {q : Place}

/-- A part without scales that lies in one line, its source not in hand: one write at its place. -/
theorem movePart_plain (moves : partMoves s c id r p rd env = true) (plain : r.job.scales = false) (buf : r.buf = none)
    (blk : r.blk = none) (dst : rd.dst = [(q, p.n)]) (noSource : rd.slotSrc = []) (noSlots : rd.slotDst = []) (s0 : State) :
    ∃ s1 bs d label t, Debited s s1 ∧
    (p.src = [] → bs = p.given) ∧ (p.src ≠ [] → readPlaces s rd.src = .ok bs) ∧ (r.job.op ≠ 4 → d = bs) ∧
    (r.job.op = 4 → ∃ ds, readPlace s q p.n = .ok ds ∧ d = (combineBytes (bits (r.job.port 4) 5 4) ds bs).1 ∧
      (((movePart s0 s c id r p rd env).core c).rack id).astat = r.astat ||| (combineBytes (bits (r.job.port 4) 5 4) ds bs).2) ∧
    (r.job.lpol = 0 → label = none) ∧
    (r.job.lpol = 1 → (r.job.op = 0 ∨ r.job.op = 5) → ∀ y n rest, rd.src = (y, n) :: rest → label = some (labelAt s y)) ∧
    writePlace s1 c q (d.take p.n) label = .ok t ∧ SameStores t (movePart s0 s c id r p rd env) := by
  obtain ⟨s1, paid, bs, d, s2, s3, held, debited, bytes, data, slots, written, run⟩ := movePart_moves moves s0
  obtain ⟨given, read⟩ := partBytes_plain (r := { r with paid := paid }) buf blk bytes
  obtain ⟨copied, combined⟩ := partData_plain (r := { r with paid := paid }) dst data
  obtain ⟨drop, keep⟩ := partLabel_plain (s := s1) (r := { r with paid := paid }) (p := p) (rd := rd) buf
  rw [writeSlots_none noSource noSlots slots, partLabels, if_neg (by simp [plain]), dst] at written
  have write := writeLabelled_one written
  simp only [debited.readPlaces, debited.readPlace, debited.labelAt] at read combined keep
  refine ⟨s1, bs, d.1, _, s3, debited, given, read, copied, fun reduce => ?_, drop, keep, write, run ▸ advanceRack_sameStores ..⟩
  obtain ⟨ds, is, rfl⟩ := combined reduce
  refine ⟨ds, is, rfl, ?_⟩
  rw [run, rack_advanceRack]

end

end Sys2Proof.Machine
end

section
/-! O45. The line transfer (12 R228, R229): the next part of a rack. -/

namespace Sys2Proof.Machine

theorem readyPart_n {s t : State} {c : Nat} {r : Rack} {p : Part} {rd : Ready} (plain : r.job.scales = false)
    (ready : readyPart s c r p = (t, .ok rd)) : rd.n = p.n := by
  unfold readyPart at ready
  rw [if_neg (by simp [plain])] at ready
  split at ready
  · cases ready
  · split at ready
    · cases ready
    · cases ready
      rfl

theorem unit_plain {j : RackJob} (plain : j.scales = false) (c : Nat) (list : List Nat) (pos : Nat) : j.unit c list pos = j.part list pos :=
  if_neg (by simp [plain])

theorem Part.with_n {p : Part} {n : Nat} (all : n = p.n) : { p with n := n } = p := by
  subst all
  rfl

/-- A part that may move now is the next step of its rack (12 R228). -/
theorem rackPart_of_lineMoves {s : State} {c id n : Nat} {env : LineEnv} (moves : lineMoves s c id env = some n) :
    let r := (s.core c).rack id
    let p := r.job.unit c r.entries r.pos
    ∃ s1 rd, readyPart s c r p = (s1, .ok rd) ∧ rd.n = n ∧ partMoves s1 c id r { p with n := rd.n } rd env = true ∧
      rackPart s c id env = movePart s s1 c id r { p with n := rd.n } rd env := by
  intro r p
  simp only [lineMoves] at moves
  split at moves
  · next may =>
    simp only [Bool.and_eq_true, Bool.not_eq_true'] at may
    obtain ⟨⟨⟨⟨fresh, listed⟩, turn⟩, stored⟩, slots⟩ := may
    split at moves
    · next s1 rd ready =>
      split at moves
      · next written =>
        cases moves
        refine ⟨s1, rd, ready, rfl, written, ?_⟩
        rw [Bool.and_or_distrib_left, Bool.or_eq_false_iff] at listed
        obtain ⟨hasList, element⟩ := listed
        simp only [rackPart, fresh, hasList, element, turn, stored, slots, Bool.not_true, Bool.or_self, Bool.false_eq_true, if_false]
        rw [ready]
      · cases moves
    · cases moves
  · cases moves

/-- What a part that moves leaves of its rack, and which write it is where it moves no scales (12 R224, R229). -/
theorem rackPart_spec {s : State} {c id n : Nat} {env : LineEnv} (moves : lineMoves s c id env = some n) :
    let r := (s.core c).rack id
    let u := rackPart s c id env
    ((u.core c).rack id).state = 2 ∧ ((u.core c).rack id).pos = r.pos + n ∧ ((u.core c).rack id).outcome = r.outcome ∧
    ((u.core c).rack id).left = r.job.left (r.pos + n) ∧ ((u.core c).rack id).job = r.job ∧
    (r.job.scales = false → let p := r.job.part r.entries r.pos; n = p.n ∧
      ∃ s1 rd, readyPart s c r p = (s1, .ok rd) ∧ u = movePart s s1 c id r p rd env) := by
  intro r u
  obtain ⟨s1, rd, ready, rfl, written, run⟩ := rackPart_of_lineMoves moves
  obtain ⟨state, pos, outcome, left, job⟩ := rack_movePart written s
  rw [← run] at state pos outcome left job
  refine ⟨state, pos, outcome, left, job, fun plain => ?_⟩
  rw [unit_plain plain] at ready run
  have all := readyPart_n plain ready
  rw [Part.with_n all] at run
  exact ⟨all, s1, rd, ready, run⟩

/-- The engine takes the next part of a rack that may move, after the host's writes and the starts of the racks before it. -/
theorem exec_rackLineTransfer {s : State} {c id : Nat} {env : LineEnv}
    (free : s.hostWritesFree (s.enginePart c) env.hostWrites = true) :
    let s1 := (s.hostWrites (s.enginePart c) env.hostWrites).giveUp (s.enginePart c) env.drops
    ((s1.core c).rack id).moves = true → s1.racksStopped c = false → exec (.rackLineTransfer c id env) s =
      .next (rackPart (readLists (startUpTo s1 c ((s1.core c).rack id).seq) c) c id env) := by
  intro s1 moves runs
  have run : exec (.rackLineTransfer c id env) s = execRackLineTransfer c id env s := rfl
  rw [run, execRackLineTransfer]
  simp only [free, Bool.not_true, Bool.false_eq_true, if_false]
  rw [if_pos (by rw [moves, runs]; rfl)]

end Sys2Proof.Machine
end

section
/-! O45. The ends of racks (12 R227, R231), and monitors (12 R233). -/

namespace Sys2Proof.Machine

theorem Core.cancelled_iff (k : Core) (id : Nat) :
    k.cancelled id = true ↔ (k.rack id).cancel = true ∨ ∃ q, q ∈ k.pend ∧ q.act = .rackCancel id := by
  simp only [Core.cancelled, Bool.or_eq_true, List.any_eq_true, beq_iff_eq]

theorem Core.rack_setFlag (k : Core) (f : Nat) (v : BitVec 32) (id : Nat) : (k.setFlag f v).rack id = k.rack id := rfl

/-- The guards after the end of a rack, and what every core holds beside them. -/
theorem core_dropRackGuards (s : State) (c id d : Nat) :
    let t := dropFaults (dropGuards (dropGuards (dropGuards s c true id) c true (indexGuard id)) c true (slotGuard id)) c false id
    ∃ gs, t.core d = { s.core d with guards := gs } ∧
      ∀ g, g ∈ gs → ¬(g.core = c ∧ g.isRack = true ∧ (g.id = id ∨ g.id = indexGuard id ∨ g.id = slotGuard id)) := by
  intro t
  have core : t.core d = _ := State.core_modPart ..
  rw [core]
  simp only [dropGuards_core]
  refine ⟨_, rfl, fun g mem own => ?_⟩
  simp only [List.mem_filter] at mem
  grind

/-- RACK_COMPLETE ends a rack that has performed its last write (10 R190, 12 R227). -/
theorem exec_rackComplete {s : State} {c id : Nat} (ending : ((s.core c).rack id).ending = true)
    (past : ((s.core c).rack id).wtick < s.tick ∨ ((s.core c).rack id).pos = 0) :
    exec (.rackComplete c id) s = .next (endRack s c id) := by
  have run : exec (.rackComplete c id) s = execRackComplete c id s := rfl
  rw [run, execRackComplete, if_pos (by simpa [ending] using past)]

/-- What the end of a rack leaves (12 R227, R231). -/
theorem endRack_spec (s : State) (c id : Nat) : let r := (s.core c).rack id
    let u := endRack s c id
    ((u.core c).rack id).state = 5 ∧
    ((u.core c).rack id).outcome = (if (s.core c).cancelled id then 1 else r.outcome) ∧
    (u.core c).flag r.job.flag = (s.core c).flag r.job.flag + BitVec.ofNat 32 r.job.inc ∧
    ∀ d g, g ∈ (u.core d).guards → ¬(g.core = c ∧ g.isRack = true ∧ (g.id = id ∨ g.id = indexGuard id ∨ g.id = slotGuard id)) := by
  intro r u
  have dropped := core_dropRackGuards s c id
  simp only [u, endRack]
  generalize dropFaults (dropGuards (dropGuards (dropGuards s c true id) c true (indexGuard id)) c true (slotGuard id)) c false id = t
    at dropped
  obtain ⟨gs, here, -⟩ := dropped c
  refine ⟨?_, ?_, ?_, fun d g mem => ?_⟩
  · rw [State.core_addFlag_same, State.core_modCore_same, Core.rack_setFlag, Core.rack_setRack]
  · rw [State.core_addFlag_same, State.core_modCore_same, Core.rack_setFlag, Core.rack_setRack]
    rfl
  · rw [State.flag_addFlag, if_pos rfl, State.core_modCore_same, here]
    rfl
  · obtain ⟨gs, there, others⟩ := dropped d
    refine others g ?_
    by_cases own : d = c
    · subst own
      rw [State.core_addFlag_same, State.core_modCore_same, there] at mem
      exact mem
    · rw [State.core_addFlag_other _ _ _ _ own, State.core_modCore_other _ _ _ own, there] at mem
      exact mem

/-! Monitors. -/

theorem Core.mon_setFlag (k : Core) (f : Nat) (v : BitVec 32) (i : Nat) : (k.setFlag f v).mon i = k.mon i := rfl

/-- A monitor that ends: free, and its flag added once (12 R233). -/
theorem endMonitor_spec {s : State} {c id : Nat} {m : Monitor} : let u := endMonitor s c id m
    (u.core c).mon id = Monitor.free ∧ (u.core c).flag m.flag = (s.core c).flag m.flag + BitVec.ofNat 32 m.inc := by
  intro u
  refine ⟨?_, ?_⟩
  · simp only [u, endMonitor, State.core_addFlag_same, State.core_modCore_same, Core.mon_setFlag, Core.mon_setMon]
  · simp only [u, endMonitor, State.flag_addFlag, State.core_modCore_same, if_true]
    rfl

/-- The logs before the end of a monitor leave what it ends with. -/
theorem endMonitor_of_core {s t : State} {c : Nat} (same : t.core c = s.core c) (id : Nat) (m : Monitor) :
    ((endMonitor t c id m).core c).mon id = Monitor.free ∧
    ((endMonitor t c id m).core c).flag m.flag = (s.core c).flag m.flag + BitVec.ofNat 32 m.inc := by
  rw [← same]
  exact endMonitor_spec

theorem sameOutsideCores_endMonitor (s : State) (c id : Nat) (m : Monitor) : SameOutsideCores s (endMonitor s c id m) :=
  (sameOutsideCores_modCore ..).trans (sameOutsideCores_modCore ..)

theorem mon_modCore_setMon (s : State) (c i : Nat) (m : Monitor) : ((s.modCore c (fun k => k.setMon i m)).core c).mon i = m := by
  rw [State.core_modCore_same, Core.mon_setMon]

/-- Translation changes no flag. -/
theorem flag_lookup (s : State) (c part space va d j : Nat) : ((lookup s c part space va).1.core d).flag j = (s.core d).flag j := by
  have first (s : State) (tag key e : Nat) : ((s.fillFirst c tag key e).core d).flag j = (s.core d).flag j := by
    rw [State.fillFirst, State.core_modCore]
    split
    · next same => rw [same]; rfl
    · rfl
  have cluster (key e : Nat) : (s.fillCluster c part space key e).core d = s.core d := by
    unfold State.fillCluster
    split <;> rfl
  simp only [lookup]
  split
  · rfl
  · split
    · exact first ..
    · split
      · rw [first, cluster]
      · rfl

theorem flag_translate (s : State) (c part space va : Nat) (wr : Bool) (d j : Nat) :
    ((translate s c part space va wr).1.core d).flag j = (s.core d).flag j := by
  have migration {t u : State} (met : meetMigration t part va wr = some u) : u.core d = t.core d := by
    unfold meetMigration at met
    (repeat' split at met) <;> cases met <;> simp
  simp only [translate]
  split
  · split
    · exact flag_lookup ..
    · split
      · exact flag_lookup ..
      · split
        · next met => rw [migration met, flag_lookup]
        · exact flag_lookup ..
  · exact flag_lookup ..
  · exact flag_lookup ..

/-- Where the line of a monitor lies, as its engine finds it (12 R233, R236). -/
def monitorPlace (s : State) (c : Nat) (m : Monitor) : State × Got Place :=
  if m.direct then (s, directPlace s (s.enginePart c) m.space m.va false) else translate s c m.part m.space m.va false

theorem flag_monitorPlace (s : State) (c : Nat) (m : Monitor) (d j : Nat) :
    ((monitorPlace s c m).1.core d).flag j = (s.core d).flag j := by
  unfold monitorPlace
  split
  · rfl
  · exact flag_translate ..

/-- A monitor that is translating is armed, waits or ends, by where its line lies (12 R233, R237). -/
theorem armMonitor_spec (s : State) (c id : Nat) (m : Monitor) : let got := monitorPlace s c m
    let u := armMonitor s c id m
    (∀ pa, got.2 = .ok (.cellar pa) → (u.core c).mon id = { m with state := 3, pa := pa }) ∧
    (∀ n ga, got.2 = .ok (.host n ga) → (payHost got.1 c (if got.1.cached n (ga / 64) then 0 else 1)).isSome = true →
      (u.core c).mon id = { m with state := 3, pa := ga }) ∧
    (∀ kind space va wr, got.2 = .stop (.page kind space va wr) → (u.core c).mon id = { m with state := 2 }) ∧
    (∀ pa, (got.2 = .stop (.fence pa) ∨ got.2 = .stop (.integrity pa)) → (u.core c).mon id = Monitor.free ∧
      (u.core c).flag m.flag = (s.core c).flag m.flag + BitVec.ofNat 32 m.inc) := by
  intro got u
  have flag : (got.1.core c).flag m.flag = (s.core c).flag m.flag := flag_monitorPlace ..
  have run {s1 : State} {x : Got Place} (is : got.2 = x) (at_ : got.1 = s1) : monitorPlace s c m = (s1, x) := by
    rw [← is, ← at_]
  simp only [monitorPlace] at run
  refine ⟨fun pa is => ?_, fun n ga is paid => ?_, fun kind space va wr is => ?_, fun pa is => ?_⟩
  · simp only [u, armMonitor, run is rfl]
    exact mon_modCore_setMon ..
  · obtain ⟨s2, paid⟩ := Option.isSome_iff_exists.1 paid
    have cached (t : State) (line : Nat) : (t.cache n line).core c = t.core c := by
      unfold State.cache
      split <;> rfl
    simp only [u, armMonitor, run is rfl, paid, cached]
    exact mon_modCore_setMon ..
  · simp only [u, armMonitor, run is rfl]
    exact mon_modCore_setMon ..
  · rw [← flag]
    rcases is with fenced | broken
    · simp only [u, armMonitor, run fenced rfl]
      exact endMonitor_of_core (by rw [State.logFence, State.core_log]) id m
    · simp only [u, armMonitor, run broken rfl]
      exact endMonitor_of_core (by rw [State.logIntegrity, State.core_log, State.core_log]) id m

/-- MONITOR_ARMED, for a monitor that no pre-emption and no bottle keeps disarmed (16 R314, 20 R390). -/
theorem exec_monitorArmed {s : State} {c i : Nat} (asks : ((s.core c).mon i).state = 1)
    (may : ∀ t, s.timetable c = some t → t.pre < 3 ∧ t.bottleHeld = false) :
    exec (.monitorArmed c i) s = .next (armMonitor s c i ((s.core c).mon i)) := by
  have run : exec (.monitorArmed c i) s = execMonitorArmed c i s := rfl
  rw [run, execMonitorArmed]
  cases running : s.timetable c with
  | none => simp [asks]
  | some t =>
    obtain ⟨pre, held⟩ := may t running
    simp [asks, held, pre]

end Sys2Proof.Machine
end

section
/-! O45. Fault replies, TLB invalidations, migrations (12 R236-R238), and host writes over CXL.mem (12 R233, 18 R343). -/

namespace Sys2Proof.Machine

/-! Fault replies. -/

/-- A reply to a record of the running context: the record leaves the queue, and the rack or monitor goes on or ends (12 R237). -/
theorem faultReply_now {s : State} {c idx : Nat} {mon : Bool} {f : PageFault} (record : s.faultRec (s.enginePart c) c mon idx = some f)
    (now : f.ctx = none) (abort : Bool) : ∃ t : State, (∀ d, t.core d = s.core d) ∧
      faultReply s c mon idx abort = replyNow t c mon idx abort := by
  have part : s.faultPart c mon idx = s.enginePart c := by
    rw [State.faultPart, record, Option.isSome_some, if_pos rfl]
  refine ⟨s.modPart (s.enginePart c) (fun p => { p with faultq := p.faultq.erase f }), fun _ => State.core_modPart .., ?_⟩
  simp only [faultReply, part, record, now]

theorem exec_faultReplyResume (s : State) (c : Nat) (mon : Bool) (idx : Nat) :
    exec (.faultReplyResume c mon idx) s = .next (faultReply s c mon idx false) := rfl

theorem exec_faultReplyAbort (s : State) (c : Nat) (mon : Bool) (idx : Nat) :
    exec (.faultReplyAbort c mon idx) s = .next (faultReply s c mon idx true) := rfl

/-- A rack that waits on a reply translates again, or ends with PAGE_ABORT (12 R237). -/
theorem rack_replyNow {s t : State} {c id : Nat} (same : ∀ d, t.core d = s.core d) (waits : ((s.core c).rack id).state = 3) :
    let r := (s.core c).rack id
    ((replyNow t c false id false).core c).rack id = { r with state := 2 } ∧
    ((replyNow t c false id true).core c).rack id = { r with state := 2, outcome := if r.cancel then r.outcome else 2 } := by
  simp only [replyNow, same, waits, ne_eq, not_true_eq_false, Bool.false_eq_true, if_false, if_true, State.core_modCore_same,
    Core.rack_setRack, and_self]

/-- A monitor that waits on a reply translates again, or ends (12 R233, R237). -/
theorem mon_replyNow {s t : State} {c i : Nat} (same : ∀ d, t.core d = s.core d) (waits : ((s.core c).mon i).state = 2) :
    let m := (s.core c).mon i
    ((replyNow t c true i false).core c).mon i = { m with state := 1 } ∧
    ((replyNow t c true i true).core c).mon i = Monitor.free ∧
    ((replyNow t c true i true).core c).flag m.flag = (s.core c).flag m.flag + BitVec.ofNat 32 m.inc := by
  intro m
  have resumed : replyNow t c true i false = t.modCore c (fun k => k.setMon i { m with state := 1 }) := by
    simp only [replyNow, same, waits, ne_eq, not_true_eq_false, Bool.false_eq_true, if_false, if_true, m]
  have aborted : replyNow t c true i true = endMonitor t c i m := by
    simp only [replyNow, same, waits, ne_eq, not_true_eq_false, if_false, if_true, m]
  obtain ⟨free, flag⟩ := endMonitor_spec (s := t) (c := c) (id := i) (m := m)
  rw [resumed, aborted]
  refine ⟨mon_modCore_setMon .., free, ?_⟩
  rw [flag, same]

/-! TLB invalidations (12 R236). -/

theorem tlb_dropTlb (s : State) (part : Nat) (gone : Nat → Nat → Bool) (d : Nat) : ((dropTlb s part gone).core d).tlb =
    (s.core d).tlb.filter (fun x => !(x.1 / 16 == part && gone (x.1 % 16) x.2.1)) := by
  have core := State.core_mapCores s (fun _ k => { k with tlb := k.tlb.filter (fun x => !(x.1 / 16 == part && gone (x.1 % 16) x.2.1)) })
    (fun _ => rfl) d
  exact congrArg Core.tlb core

theorem exec_tlbinvComplete {s : State} {part : Nat} {p : Partition} (configured : s.part part = some p) (busy : p.csr.tlbBusy = true) :
    exec (.tlbinvComplete part) s = .next ((dropTlb s part (fun space key => inScope p.csr.tlbScope p.csr.tlbPage space key)).modPart part
      (fun p => { p with csr := { p.csr with tlbBusy := false } })) := by
  have run : exec (.tlbinvComplete part) s = execTlbinvComplete part s := rfl
  rw [run, execTlbinvComplete]
  simp only [configured, busy, if_true]

/-! Writes that have to be made. -/

theorem isSome_part_putOrLog (s : State) (by_ pa : Nat) (new : List Byte) (label : Option (BitVec 16)) (n : Nat) :
    ((s.putOrLog by_ pa new label).part n).isSome = (s.part n).isSome := by
  unfold State.putOrLog
  cases put : s.putCellar by_ pa new label with
  | none =>
    obtain ⟨l, logged⟩ := logLines_eq s (s.partOfStack (pa / 2 ^ 36)) [pa / 64]
    rw [Option.getD_none, logged]
    rfl
  | some t =>
    obtain ⟨-, -, -, parts⟩ := putCellar_spec put
    exact parts n

/-! Migrations (12 R238). -/

/-- A phase of a migration runs where none is under way, or that of its own page. -/
theorem exec_pageMigration {s : State} {part va frame a : Nat} {p : Partition} (configured : s.part part = some p)
    (entry : s.pageEntry part va = some a) (own : ∀ m, p.migr = some m → m.va = va / 2 ^ 16 * 2 ^ 16) (phase : MigPhase) :
    exec (.pageMigration part va frame phase) s = .next (migrateStep s part va frame a p.migr phase) := by
  have run : exec (.pageMigration part va frame phase) s = execPageMigration part va frame phase s := rfl
  rw [run, execPageMigration]
  simp only [configured, entry]
  cases migr : p.migr with
  | none => rfl
  | some m => simp only [own m migr, if_true]

/-- A migration starts with its page marked and dropped from the TLBs. -/
theorem part_migrateStart {s : State} {part frame : Nat} {p : Partition} (configured : s.part part = some p) (aligned : frame % 2 ^ 16 = 0)
    (owned : s.ownsPa part frame = true) (va a : Nat) : ∃ q, (migrateStep s part va frame a none .start).part part = some q ∧
      q.migr = some (Migration.mk (va / 2 ^ 16 * 2 ^ 16) frame 1 0 0) := by
  have some_ : ((writeEntry s part a (readNat s.cellar.bytes a 8 ||| 16)).part part).isSome = true := by
    rw [writeEntry, isSome_part_putOrLog, configured]
    rfl
  obtain ⟨q, is⟩ := Option.isSome_iff_exists.1 some_
  have dropped : (dropPage (writeEntry s part a (readNat s.cellar.bytes a 8 ||| 16)) part va).part part = some q := is
  refine ⟨{ q with migr := some (Migration.mk (va / 2 ^ 16 * 2 ^ 16) frame 1 0 0) }, ?_, rfl⟩
  simp only [migrateStep, aligned, owned, and_self, if_true, State.part_modPart_same, dropped, Option.map_some]

/-- After eight rounds the page is frozen, whatever is still marked. -/
theorem migrateStep_freeze {s : State} {m : Migration} (copied : m.phase = 3) (last : m.rounds = 8) (part va frame a : Nat) :
    migrateStep s part va frame a (some m) .freeze = s.modPart part (fun p => { p with migr := some { m with phase := 4 } }) := by
  simp only [migrateStep, copied, last, or_true, and_self, if_true]

/-! Host writes of a line. -/

/-- A write of a whole line is never refused (10 R193). -/
theorem Cellar.put_whole {new : List Byte} (whole : new.length = 64) (k : Cellar) (phase : Bool) (pa : Nat) (label : Option (BitVec 16)) :
    ∃ t, k.put phase pa new label = some t := ⟨_, if_pos whole⟩

/-- A host write of one line is one write of the cellar. -/
theorem exec_hostCxlMemWrite_line {s : State} {pa : Nat} {data : List Byte} (whole : data.length = 64) (aligned : pa % 64 = 0)
    (inside : pa + 64 ≤ 2 ^ 39) (stack : s.partOfStack (pa / 2 ^ 36) ≠ 0) :
    exec (.hostCxlMemWrite pa data) s = .next (s.putOrLog noCore pa data none) := by
  have run : exec (.hostCxlMemWrite pa data) s = execHostCxlMemWrite pa data s := rfl
  have line : lineRuns pa (64 / 64 + 2) 0 64 = [(0, 64)] := lineRuns_one (by decide) (by omega) 1
  rw [run, execHostCxlMemWrite, whole, if_pos ⟨stack, inside⟩, line, putRuns, putRuns, List.take_of_length_le whole.le]
  rfl

/-- What a whole line written leaves of the cellar: its bytes, and no other; its next minor counter, and its label (18 R343). -/
theorem putOrLog_line {s : State} {pa : Nat} {data : List Byte} (whole : data.length = 64) (aligned : pa % 64 = 0)
    (room : (s.cellar.mdOf (pa / 64)).minor ≠ 127) (by_ : Nat) : let u := s.putOrLog by_ pa data none
    let md := s.cellar.mdOf (pa / 64)
    (∀ i, i < 64 → readByte u.cellar.bytes (pa + i) = data.getD i 0) ∧
    (∀ a, (a < pa ∨ pa + 64 ≤ a) → readByte u.cellar.bytes a = readByte s.cellar.bytes a) ∧
    (u.cellar.mdOf (pa / 64)).minor = md.minor + 1 ∧ (u.cellar.mdOf (pa / 64)).label = md.label ∧
    (u.cellar.mdOf (pa / 64)).macDiff = 0 := by
  intro u md
  obtain ⟨k, put⟩ := Cellar.put_whole whole s.cellar (s.cellarPhase (s.partOfStack (pa / 2 ^ 36))) pa none
  obtain ⟨t, made⟩ : ∃ t, s.putCellar by_ pa data none = some t := ⟨_, by rw [State.putCellar, put, Option.map_some]⟩
  have is : u = t := by
    simp only [u, State.putOrLog, made, Option.getD_some]
  obtain ⟨written, -⟩ := putCellar_spec made
  obtain ⟨bytes, others, line⟩ := Cellar.put_spec written (by omega) room
  rw [whole] at bytes others
  rw [is, line]
  exact ⟨bytes, others, rfl, rfl, rfl⟩

end Sys2Proof.Machine
end

section
/-! O45. What a part in one line leaves in the store of its destination (12 R224, R229). -/

namespace Sys2Proof.Machine

theorem getD_take {d : List Byte} {n i : Nat} (inside : i < n) : (d.take n).getD i 0 = d.getD i 0 := by
  rw [List.getD_eq_getElem?_getD, List.getD_eq_getElem?_getD, List.getElem?_take_of_lt inside]

section

variable {s s1 t u : State} {c n : Nat} {d : List Byte} {label : Option (BitVec 16)} (debited : Debited s s1) (same : SameStores t u)
include debited same

/-- In a scratchpad. -/
theorem pad_written {o a : Nat} (write : writePlace s1 c (.pad o a) (d.take n) label = .ok t) (old : (s.core o).fresh.tick ≠ s.tick) :
    (∀ i, i < n → i < d.length → readByte (u.core o).mem.sp (a + i) = d.getD i 0) ∧
    (∀ x b, (x ≠ o ∨ b < a ∨ a + n ≤ b) → readByte (u.core x).mem.sp b = readByte (s.core x).mem.sp b) ∧
    (label = none → (u.core o).mem.labels = (s.core o).mem.labels) ∧
    (∀ l, label = some l → sget 0 (u.core o).mem.labels (a / 64) = l) ∧ u.cellar.bytes = s.cellar.bytes ∧ u.host = s.host := by
  have length : (d.take n).length = min n d.length := List.length_take
  obtain ⟨bytes, others, unlabelled, labelled, cellar, host⟩ := writePlace_pad_spec write (by rwa [debited.core, debited.tick])
  simp only [debited.core] at others unlabelled
  refine ⟨fun i inside given => ?_, fun x b away => ?_, fun none => ?_, fun l is => ?_, ?_, ?_⟩
  · rw [same.mem, bytes i (by omega), getD_take inside]
  · rw [same.mem, others x b (by omega)]
  · rw [same.mem, unlabelled none]
  · rw [same.mem, labelled l is]
  · rw [same.cellar, cellar, debited.cellar]
  · rw [same.host, host, debited.host]

/-- In the cellar. -/
theorem cellar_written {pa : Nat} (write : writePlace s1 c (.cellar pa) (d.take n) label = .ok t) (line : pa % 64 + n ≤ 64)
    (room : (s.cellar.mdOf (pa / 64)).minor ≠ 127) :
    (∀ i, i < n → i < d.length → readByte u.cellar.bytes (pa + i) = d.getD i 0) ∧
    (∀ b, (b < pa ∨ pa + n ≤ b) → readByte u.cellar.bytes b = readByte s.cellar.bytes b) ∧
    (∀ x, (u.core x).mem = (s.core x).mem) ∧ u.host = s.host := by
  have length : (d.take n).length = min n d.length := List.length_take
  obtain ⟨put, mem, host, -⟩ := putCellar_spec (writePlace_cellar write)
  obtain ⟨bytes, others, -⟩ := Cellar.put_spec put (by omega) (by rwa [debited.cellar])
  refine ⟨fun i inside given => ?_, fun b away => ?_, fun x => ?_, ?_⟩
  · rw [same.cellar, bytes i (by omega), getD_take inside]
  · rw [same.cellar, others b (by omega), debited.cellar]
  · rw [same.mem, mem, debited.core]
  · rw [same.host, host, debited.host]

/-- In host memory. -/
theorem host_written {part ga : Nat} (write : writePlace s1 c (.host part ga) (d.take n) label = .ok t) :
    (∀ i, i < n → i < d.length → readByte (u.hostMem part) (ga + i) = d.getD i 0) ∧
    (∀ x b, (x ≠ part ∨ b < ga ∨ ga + n ≤ b) → readByte (u.hostMem x) b = readByte (s.hostMem x) b) ∧
    (∀ x, (u.core x).mem = (s.core x).mem) ∧ u.cellar.bytes = s.cellar.bytes := by
  have length : (d.take n).length = min n d.length := List.length_take
  obtain ⟨bytes, others, mem, cellar⟩ := writePlace_host_spec write
  have after (x : Nat) : u.hostMem x = t.hostMem x := by rw [State.hostMem, same.host, State.hostMem]
  have before (x : Nat) : s1.hostMem x = s.hostMem x := by rw [State.hostMem, debited.host, State.hostMem]
  refine ⟨fun i inside given => ?_, fun x b away => ?_, fun x => ?_, ?_⟩
  · rw [after, bytes i (by omega), getD_take inside]
  · rw [after, others x b (by omega), before]
  · rw [same.mem, mem, debited.core]
  · rw [same.cellar, cellar, debited.cellar]

end

/-- Settles O45: each event is the one operation of its arm; a part is one write at its place, and what follows it changes no store. -/
theorem rackEvents : Obligations.RackEvents := by
  unfold Obligations.RackEvents
  intro s c
  refine ⟨fun id env n => ?transfer, fun id => ?complete, fun i => ?arm, fun i => ?fire, fun id f => ?rackReply, fun i f => ?monReply,
    fun part p configured busy => ?tlb,
    fun part va frame p a configured entry => ⟨fun none aligned owned => ?start, fun m migr own copied last => ?freeze⟩,
    fun pa data whole aligned inside stack room => ?hostWrite, fun j list pos => ?parts, fun s0 id r p rd env q => ?written,
    fun cap wr off n pad some line => resolveAll_pad s c wr pad some line, fun kind ds xs i same whole inside => ?combine⟩
  case transfer =>
    intro s1 s2 r free moves runs line
    exact ⟨_, exec_rackLineTransfer free moves runs, rackPart_spec line⟩
  case complete =>
    intro r ending past
    obtain ⟨state, outcome, flag, guards⟩ := endRack_spec s c id
    refine ⟨_, exec_rackComplete ending past, state, fun cancelled => ?_, fun kept none => ?_, flag, guards⟩
    · rw [outcome, if_pos ((Core.cancelled_iff ..).2 cancelled)]
    · rw [outcome, if_neg]
      rw [Core.cancelled_iff]
      rintro (cancelled | ⟨q, pending, is⟩)
      · exact absurd kept (by simp [r, cancelled])
      · exact none q pending is
  case arm =>
    intro m asks may got
    obtain ⟨cellar, host, page, ends⟩ := armMonitor_spec s c i m
    have run := exec_monitorArmed asks may
    exact ⟨fun pa is => ⟨_, run, cellar pa is⟩, fun n ga is paid => ⟨_, run, host n ga is paid⟩,
      fun kind space va wr is => ⟨_, run, page kind space va wr is⟩, fun pa is => ⟨_, run, ends pa is⟩⟩
  case fire =>
    intro m fires past
    have run : exec (.monitorFire c i) s = .next (endMonitor s c i m) := congrArg _ (if_pos ⟨fires, past⟩)
    obtain ⟨free, flag⟩ := endMonitor_spec (s := s) (c := c) (id := i) (m := m)
    refine ⟨_, run, free, flag, fun d other => ?_, sameOutsideCores_endMonitor ..⟩
    rw [endMonitor, State.core_addFlag_other _ _ _ _ other, State.core_modCore_other _ _ _ other]
  case rackReply =>
    intro r record now waits
    obtain ⟨t, same, resumed⟩ := faultReply_now record now false
    obtain ⟨t', same', aborted⟩ := faultReply_now record now true
    refine ⟨⟨_, exec_faultReplyResume .., ?_⟩, ⟨_, exec_faultReplyAbort .., ?_⟩⟩
    · rw [resumed, (rack_replyNow same waits).1]
    · rw [aborted, (rack_replyNow same' waits).2]
  case monReply =>
    intro m record now waits
    obtain ⟨t, same, resumed⟩ := faultReply_now record now false
    obtain ⟨t', same', aborted⟩ := faultReply_now record now true
    refine ⟨⟨_, exec_faultReplyResume .., ?_⟩, ⟨_, exec_faultReplyAbort .., ?_⟩⟩
    · rw [resumed, (mon_replyNow same waits).1]
    · rw [aborted]
      exact (mon_replyNow same' waits).2
  case tlb =>
    have kept : (dropTlb s part (fun space key => inScope p.csr.tlbScope p.csr.tlbPage space key)).part part = some p := configured
    refine ⟨_, { p with csr := { p.csr with tlbBusy := false } }, exec_tlbinvComplete configured busy, ?_, rfl, fun d x mem own => ?_⟩
    · rw [State.part_modPart_same, kept, Option.map_some]
    · rw [State.core_modPart, tlb_dropTlb] at mem
      simpa [own] using (List.mem_filter.1 mem).2
  case start =>
    obtain ⟨q, migrated, is⟩ := part_migrateStart configured aligned owned va a
    refine ⟨_, q, exec_pageMigration configured entry (by simp [none]) .start, ?_, is⟩
    rw [none]
    exact migrated
  case freeze =>
    refine ⟨_, exec_pageMigration configured entry (fun x is => ?_) .freeze, ?_⟩
    · rw [migr] at is
      cases is
      exact own
    · rw [migr, migrateStep_freeze copied last, State.part_modPart_same, configured]
      exact ⟨rfl, State.modPart_cores .., State.modPart_cellar ..⟩
  case hostWrite =>
    exact ⟨_, exec_hostCxlMemWrite_line whole aligned inside stack, putOrLog_line whole aligned room noCore⟩
  case parts =>
    intro p e soff doff copies gives
    exact ⟨part_copies_rack list, part_gives_fill list, part_copies_gather list, fun is _ => part_copies_scatter list is,
      part_copies_mcast list, part_gives_rel list, part_copies_acq list⟩
  case written =>
    intro moves plain buf blk dst noSource noSlots some u
    obtain ⟨s1, bs, d, label, t, debited, given, read, copied, combined, drop, keep, write, same⟩ :=
      movePart_plain moves plain buf blk dst noSource noSlots s0
    obtain ⟨-, pos, -⟩ := rack_movePart moves s0
    refine ⟨bs, d, given, read, copied, combined, pos, fun o a is old => ?_, fun pa is line room => ?_, fun part ga is => ?_⟩
    · subst is
      obtain ⟨bytes, others, unlabelled, labelled, cellar, host⟩ := pad_written debited same write old
      exact ⟨bytes, others, fun none => unlabelled (drop none), fun one op y n rest source => labelled _ (keep one op y n rest source),
        cellar, host⟩
    · subst is
      obtain ⟨bytes, others, mem, host⟩ := cellar_written debited same write line room
      exact ⟨bytes, fun b away _ => others b away, mem, host⟩
    · subst is
      exact host_written debited same write
  case combine =>
    intro word a b out canon
    exact ⟨length_combineBytes kind same whole, combineBytes_spec kind same whole inside⟩

end Sys2Proof.Machine
end

section
/-! O32. Credit and tokens for a relayed send (13 R256, R258, 16 R311), where the table of partitions is out of canonical form. -/

namespace Sys2Proof.Machine

/-- A partition that has its credit with position 2 and no token left, and may borrow one. -/
def borrower : Partition :=
  { Partition.init [0] with
    csr := { PartCsr.init with fshare := [(0, 1)] }
    layby := Meter.mk 1 0 0 0
    bindings := [Binding.mk 0 2 0 0 1 1 0 Keys.none Keys.none]
    tt := some emptyTt }

/-- A partition at pace 2 that has a token to lend. -/
def lender : Partition :=
  { Partition.init [0] with layby := Meter.mk 0 0 0 1, tt := some { emptyTt with pace := 2 } }

/-- A core with a window capability, whose fb ports ask for one flit in slot 1 on port 0 by way of position 2. -/
def relayCore : Core :=
  { Core.init with regs := { Regs.init with c := [(0, Cap.make 5 pRead 0 480 0)], inp := [(127, 1), (128, 0x200), (129, 240)] } }

/-- A table of partitions whose keys do not rise: both partitions hold basin 0, and the borrower is found first. Transmit entry 0 goes to
position 5. -/
def borrowState : State :=
  { State.reset.setCore 0 relayCore with
    ports := [(0, Port.mk 4 0 0 0 none false)]
    windows := writeBytes [] 0 (toBytes 4 1 ++ toBytes 4 5 ++ toBytes 12 0 ++ toBytes 4 4096)
    parts := [(2, some borrower), (1, some lender)] }

/-- A slot without a guard whose source is x0. -/
def plainHead : Head := Head.mk false 0 (.x 0)

theorem accepts_borrowState : Accepts borrowState plainHead 0x341 none :=
  ⟨⟨by decide +kernel, by decide +kernel⟩, by decide +kernel⟩

/-- The sendr after its acceptance. -/
def borrowSent : State := sendEff true borrowState 0 false 0

theorem exec_fbSendr_borrowState : exec (.fbSendr plainHead) borrowState = .next borrowSent :=
  exec_accepted rfl rfl accepts_borrowState

/-- The lender's entry, once debited, stands before the borrower's, so that core 0 counts by the lender's pace. -/
theorem due_borrowSent : (borrowSent.core 0).pend.map Pend.due = [2, 4] := by decide +kernel

/-- Refutes O32: a sendr schedules its start at T+1 and its answer at T+2 after its debit, by the pace that the table of partitions then
gives its core. In borrowState, a table that is not in the canonical form of Machine/Store.lean, the debit of a lender moves an entry,
and the start comes a tick too late. -/
theorem not_fabricAsks : ¬ Obligations.FabricAsks := by
  unfold Obligations.FabricAsks
  intro h
  obtain ⟨-, relayed, -⟩ := h borrowState plainHead
  obtain ⟨t, step, -, -, sent⟩ := relayed accepts_borrowState
  obtain rfl : borrowSent = t := Host.Outcome.next.inj (exec_fbSendr_borrowState.symm.trans step)
  obtain ⟨u, paid⟩ := Option.isSome_iff_exists.1 (show (payRelay borrowState 2 2 1).isSome = true by decide +kernel)
  obtain ⟨-, -, -, -, -, -, q, r, x, pend, -, start, -⟩ := sent 0 u (by decide +kernel) paid
  have kept : (borrowSent.core 0).pend = [q, r] := pend
  have prompt : q.due = 1 := start
  have late := due_borrowSent
  rw [kept, List.map_cons, prompt] at late
  exact absurd (List.head_eq_of_cons_eq late) (by decide)

end Sys2Proof.Machine
end

section
/-! O48. Writes to memory (10 R188, 12 R240): what they leave of the fabric and of the cores. -/

namespace Sys2Proof.Machine

/-- What a write to a scratchpad or to the cellar leaves alone: the time base, the window status, the receipts and the layby, and in every
core its registers and its motor stream. -/
structure SameTransit (s t : State) : Prop where
  tick : t.tick = s.tick
  wstat : t.wstat = s.wstat
  receipts : t.receipts = s.receipts
  layby : t.layby = s.layby
  regs : ∀ d, (t.core d).regs = (s.core d).regs
  motor : ∀ d, (t.core d).motor = (s.core d).motor

namespace SameTransit

theorem refl (s : State) : SameTransit s s := ⟨rfl, rfl, rfl, rfl, fun _ => rfl, fun _ => rfl⟩

theorem trans {s t u : State} (a : SameTransit s t) (b : SameTransit t u) : SameTransit s u :=
  ⟨b.tick.trans a.tick, b.wstat.trans a.wstat, b.receipts.trans a.receipts, b.layby.trans a.layby,
    fun d => (b.regs d).trans (a.regs d), fun d => (b.motor d).trans (a.motor d)⟩

theorem modCore (s : State) (c : Nat) {f : Core → Core} (regs : ∀ k, (f k).regs = k.regs) (motor : ∀ k, (f k).motor = k.motor) :
    SameTransit s (s.modCore c f) := by
  refine ⟨rfl, rfl, rfl, rfl, fun d => ?_, fun d => ?_⟩ <;> rw [State.core_modCore] <;> split
  · next same => rw [same, regs]
  · rfl
  · next same => rw [same, motor]
  · rfl

theorem modPart (s : State) (n : Nat) (f : Partition → Partition) : SameTransit s (s.modPart n f) := by
  obtain ⟨ps, is⟩ := Debited.modPart s n f
  rw [is]
  exact ⟨rfl, rfl, rfl, rfl, fun _ => rfl, fun _ => rfl⟩

theorem foldl {α : Type} {f : State → α → State} (keeps : ∀ s x, SameTransit s (f s x)) (l : List α) (s : State) :
    SameTransit s (l.foldl f s) := by
  induction l generalizing s with
  | nil => exact refl s
  | cons x l ih => exact (keeps s x).trans (ih _)

end SameTransit

/-! The cellar. -/

theorem logLines_sameTransit (s : State) (part : Nat) (lines : List Nat) : SameTransit s (s.logLines part lines) := by
  obtain ⟨l, is⟩ := logLines_eq s part lines
  rw [is]
  exact ⟨rfl, rfl, rfl, rfl, fun _ => rfl, fun _ => rfl⟩

theorem hitMonitors_sameTransit (s : State) (part by_ space line : Nat) : SameTransit s (s.hitMonitors part by_ space line) := by
  have core (d : Nat) := State.core_mapCores s (fun c k =>
    if c = by_ then k else { k with mons := k.mons.map (fun m => (m.1, m.2.hit space part line s.tick)) }) (fun d => by split <;> rfl) d
  refine ⟨rfl, rfl, rfl, rfl, fun d => ?_, fun d => ?_⟩ <;> rw [State.hitMonitors, core] <;> split <;> rfl

theorem withCellar_sameTransit (s : State) (k : Cellar) (part : Nat) : SameTransit s (s.withCellar k part) :=
  SameTransit.trans (t := { s with cellar := k }) ⟨rfl, rfl, rfl, rfl, fun _ => rfl, fun _ => rfl⟩ (.modPart _ _ _)

theorem putOrLog_sameTransit (s : State) (by_ pa : Nat) (new : List Byte) (label : Option (BitVec 16)) :
    SameTransit s (s.putOrLog by_ pa new label) := by
  unfold State.putOrLog
  cases put : s.putCellar by_ pa new label with
  | none => exact logLines_sameTransit ..
  | some t =>
    obtain ⟨k, -, rfl⟩ := Option.map_eq_some_iff.1 put
    exact (logLines_sameTransit ..).trans ((withCellar_sameTransit ..).trans (hitMonitors_sameTransit ..))

theorem mem_putOrLog (s : State) (by_ pa : Nat) (new : List Byte) (label : Option (BitVec 16)) (d : Nat) :
    ((s.putOrLog by_ pa new label).core d).mem = (s.core d).mem := by
  unfold State.putOrLog
  cases put : s.putCellar by_ pa new label with
  | none =>
    obtain ⟨l, is⟩ := logLines_eq s (s.partOfStack (pa / 2 ^ 36)) [pa / 64]
    rw [Option.getD_none, is]
    rfl
  | some t =>
    obtain ⟨-, mem, -⟩ := putCellar_spec put
    exact mem d

theorem countAccess_sameTransit (s : State) (first pa n : Nat) : SameTransit s (s.countAccess first pa n) :=
  SameTransit.foldl (f := State.countGranule) (fun _ _ => ⟨rfl, rfl, rfl, rfl, fun _ => rfl, fun _ => rfl⟩) _ s

/-- What lies down in the layby is written to the cellar alone (13 R258). -/
theorem layDown_sameTransit (s : State) (pa : Nat) (bs : List Byte) (n : Nat) : SameTransit s (layDown s pa bs n) := by
  induction n with
  | zero => exact .refl s
  | succ n ih => exact ih.trans ((putOrLog_sameTransit ..).trans (countAccess_sameTransit ..))

theorem mem_layDown (s : State) (pa : Nat) (bs : List Byte) (n d : Nat) : ((layDown s pa bs n).core d).mem = (s.core d).mem := by
  induction n with
  | zero => rfl
  | succ n ih => rw [layDown, (countAccess_sameStores ..).mem, mem_putOrLog, ih]

/-! Context frames and scratchpads. -/

theorem logSpace_sameTransit (s : State) (part va n : Nat) : SameTransit s (logSpace s part va n) := by
  unfold logSpace
  split
  · exact logLines_sameTransit ..
  · exact .refl s

theorem putSpace_sameTransit (s : State) (part by_ va : Nat) (bs : List Byte) (label : Option (BitVec 16)) :
    SameTransit s (putSpace s part by_ va bs label) := by
  unfold putSpace
  split
  · exact (SameTransit.modPart s _ _).trans (putOrLog_sameTransit ..)
  · exact logSpace_sameTransit ..

theorem frameUntag_sameTransit (s : State) (part by_ va off n : Nat) : SameTransit s (frameUntag s part by_ va off n) := by
  refine SameTransit.foldl (fun s g => ?_) _ s
  split
  · exact putSpace_sameTransit ..
  · exact .refl s

theorem framePad_sameTransit (s : State) (part by_ va off : Nat) (bs : List Byte) (label : Option (BitVec 16)) :
    SameTransit s (framePad s part by_ va off bs label) := by
  have data := (putSpace_sameTransit s part by_ (va + (0x200000 + off)) bs none).trans (frameUntag_sameTransit _ part by_ va off bs.length)
  unfold framePad
  split
  · exact data.trans ((putSpace_sameTransit ..).trans (frameUntag_sameTransit ..))
  · exact data

theorem portStore_frame (k : Core) (tick : Nat) (cells : List (Nat × Byte)) (labels : List (Nat × BitVec 16)) :
    (portStore k tick cells labels).regs = k.regs ∧ (portStore k tick cells labels).motor = k.motor := by
  rw [portStore, putStore_frame]
  exact ⟨rfl, rfl⟩

theorem targetPut_sameTransit (s : State) (part : Nat) (t : Target) (off : Nat) (bs : List Byte) (label : Option (BitVec 16)) :
    SameTransit s (targetPut s part t off bs label) := by
  cases t with
  | core c => exact .modCore s c (fun k => (portStore_frame ..).1) (fun k => (portStore_frame ..).2)
  | frame slot va c => exact framePad_sameTransit ..

/-- The lines of a transfer that land change nothing but what they are written to (13 R262). -/
theorem landLines_sameTransit (s : State) (part kind : Nat) (t : Target) (map : Word) (tr : Transfer) (l : List (Nat × Nat × Nat)) :
    SameTransit s (landLines s part kind t map tr l).1 := by
  induction l generalizing s with
  | nil => exact .refl s
  | cons r l ih =>
    simp only [landLines]
    refine .trans ?_ ((targetPut_sameTransit ..).trans (ih _))
    (repeat' split)
    · exact targetPut_sameTransit ..
    · exact .refl s
    · exact .refl s

end Sys2Proof.Machine
end

section
/-! O48. Departures (13 R250, R251, R256): what a flit that departs, and one that spills, leaves in its send. -/

namespace Sys2Proof.Machine

@[simp] theorem Core.send_setSend_same (k : Core) (i : Nat) (x : Option Send) : (k.setSend i x).send i = x := sget_sput_same ..

theorem sameCoresBut_modCore (s : State) (c : Nat) (f : Core → Core) : SameCoresBut c s (s.modCore c f) :=
  fun _ other => State.core_modCore_other _ _ _ other

theorem SameCoresBut.trans {c : Nat} {s t u : State} (a : SameCoresBut c s t) (b : SameCoresBut c t u) : SameCoresBut c s u :=
  fun d other => (b d other).trans (a d other)

theorem SameOutsideCores.bookings {s t : State} (same : SameOutsideCores s t) : t.bookings = s.bookings :=
  have booked := congrArg State.bookings same
  booked

/-! Reading the source (10 R182). -/

/-- A departure that reads the source marks lines of its core as read at the boundary, and changes nothing else. -/
theorem readFor_frame (s : State) (c : Nat) (x : Send) : let t := readFor s c x
    SameOutsideCores s t ∧ SameCoresBut c s t ∧ ∃ f, t.core c = { s.core c with fresh := f } := by
  simp only [readFor]
  split
  · exact ⟨rfl, fun _ _ => rfl, _, rfl⟩
  · exact ⟨sameOutsideCores_modCore .., sameCoresBut_modCore _ _ _, _, State.core_modCore_same ..⟩

/-- What the source holds does not turn on how far its send has come. -/
theorem Send.read_head (s : State) (c : Nat) (x : Send) (gone : Nat) (st : SendSt) :
    { x with gone := gone, st := st }.read s c = { x.read s c with gone := gone, st := st } := by
  unfold Send.read
  split <;> rfl

theorem Send.read_tail (s : State) (c : Nat) (x : Send) (tail : Nat) (st : SendSt) :
    { x with tail := tail, st := st }.read s c = { x.read s c with tail := tail, st := st } := by
  unfold Send.read
  split <;> rfl

/-! Flits. -/

/-- Flits that depart are sealed under the key of their stream, and their core keeps its memories. -/
theorem departFlits_spec (s : State) (c id : Nat) (x : Send) (f n : Nat) : let u := departFlits s c id x f n
    SameCoresBut c s u ∧ SameOutsideCores { s with freeCtr := u.freeCtr } u ∧ (u.core c).mem = (s.core c).mem ∧
    (u.core c).send id = some { x.read s c with
      wire := x.wire ++ sealFlits s (x.read s c) f n (freeIv s).1
      phase := if x.wire = [] then sendPhase s x else x.phase } := by
  intro u
  obtain ⟨outside, others, fresh, here⟩ := readFor_frame (freeIv s).2 c x
  have taken : u.freeCtr = s.freeCtr + 1 + 1 := congrArg State.freeCtr outside
  refine ⟨others.trans (sameCoresBut_modCore _ _ _), ?_, ?_, ?_⟩
  · rw [taken]
    exact outside
  · simp only [u, departFlits, State.core_modCore_same, Core.setSend_mem, here]
    rfl
  · simp only [u, departFlits, State.core_modCore_same, Core.send_setSend_same]

/-- Flits of a send that spill wait with its tail, and the send is late (13 R251). -/
theorem send_spill {s : State} {c id n : Nat} {x : Send} (is : (s.core c).send id = some x) (lost : n ≠ 0) :
    ((spill s c id n).core c).send id = some
      { x with tail := x.tail + n, late := true, first := s.tick, st := if x.st = .departed then .spilled else x.st } := by
  have core : (spill s c id n).core c = (s.modCore c (fun k => match k.send id with
      | some x => k.setSend id (some
          { x with tail := x.tail + n, late := true, first := s.tick, st := if x.st = .departed then .spilled else x.st })
      | none => k)).core c := by
    rw [spill, if_neg lost]
    rfl
  rw [core, State.core_modCore_same, is]
  exact Core.send_setSend_same ..

/-! The event. -/

theorem booked_of_headDue {s : State} {c id : Nat} {x : Send} (due : headDue s c id x = true) : x.st = .booked := by
  unfold headDue at due
  exact eq_of_beq (Bool.and_eq_true_iff.1 due).1

theorem gone_of_headDue {s : State} {c id : Nat} {x : Send} (due : headDue s c id x = true) (own : x.loopback = false) :
    x.gone < s.headFlits c id := by
  simp only [headDue, own, Bool.false_eq_true, if_false, Bool.and_eq_true, decide_eq_true_eq] at due
  exact due.2.1

theorem exec_sendDeparture_head {s : State} {c id : Nat} {x : Send} (is : (s.core c).send id = some x)
    (due : headDue s c id x = true) : exec (.sendDeparture c id) s = .next (departHead s c id x) := by
  have run : exec (.sendDeparture c id) s = execSendDeparture c id s := rfl
  simp only [run, execSendDeparture, is, due, if_true]

theorem exec_sendDeparture_tail {s : State} {c id : Nat} {x : Send} (is : (s.core c).send id = some x)
    (head : headDue s c id x = false) (due : tailDue s c id x = true) :
    exec (.sendDeparture c id) s = .next (departTail s c id x) := by
  have run : exec (.sendDeparture c id) s = execSendDeparture c id s := rfl
  simp only [run, execSendDeparture, is, head, due, if_true, Bool.false_eq_true, if_false]

/-- A loop-back departs whole: its source has been read (13 R257). -/
theorem departHead_loopback {s : State} {c id : Nat} {x : Send} (loop : x.loopback = true) : let u := departHead s c id x
    SameCoresBut c s u ∧ SameOutsideCores s u ∧
      (u.core c).send id = some { x.read s c with st := if x.tail = 0 then .departed else .spilled } := by
  intro u
  obtain ⟨outside, others, -⟩ := readFor_frame s c x
  simp only [u, departHead, loop, if_true]
  exact ⟨others.trans (sameCoresBut_modCore _ _ _), outside, by rw [State.core_modCore_same, Core.send_setSend_same]⟩

theorem departHead_carried {s : State} {c id : Nat} {x : Send} (own : x.loopback = false) (carried : s.carries x.port x.slot = true)
    (now : s.curSlot = some x.slot) : departHead s c id x = departFlits s c id { x with
      gone := x.gone + 1
      st := if x.gone + 1 = s.headFlits c id then (if x.tail = 0 then .departed else .spilled) else x.st } x.gone 1 := by
  simp [departHead, own, carried, now]

theorem departHead_spilled {s : State} {c id : Nat} {x : Send} (own : x.loopback = false)
    (lost : ¬(s.carries x.port x.slot = true ∧ s.curSlot = some x.slot)) :
    departHead s c id x = spill s c id (s.headFlits c id - x.gone) := by
  have turned : (s.carries x.port x.slot && s.curSlot == some x.slot) = false := by simpa using lost
  simp only [departHead, own, turned, Bool.false_eq_true, if_false]

theorem departTail_takes {s : State} {c id p m n : Nat} {x : Send} (port : tailPort s x = some (p, m))
    (takes : s.reserveTakes p m x.tail = some n) :
    let sent := departFlits s c id { x with tail := x.tail - n, st := if n = x.tail then .departed else .spilled } (x.flits - x.tail) n
    departTail s c id x = { sent with bookings := sent.bookings ++ [Booking.mk p m 0 c id n false] } := by
  simp only [departTail, port, takes]

end Sys2Proof.Machine
end

section
/-! O48. Ports (13 R246-R248): beacons, falls and retraining. -/

namespace Sys2Proof.Machine

theorem State.port_of_ports {s t : State} (same : t.ports = s.ports) (p : Nat) : t.port p = s.port p :=
  congrArg (sget Port.down · p) same

@[simp] theorem State.port_setPort_same (s : State) (p : Nat) (x : Port) : (s.setPort p x).port p = x := sget_sput_same ..

/-! What spills changes sends and bookings, and no port (13 R251). -/

@[simp] theorem spill_ports (s : State) (c id n : Nat) : (spill s c id n).ports = s.ports := by
  unfold spill
  split <;> rfl

@[simp] theorem spillSlot_ports (s : State) (p n : Nat) (l : List Booking) : (spillSlot s p n l).ports = s.ports := by
  induction l generalizing s with
  | nil => rfl
  | cons b l ih =>
    rw [spillSlot, ih]
    split
    · exact spill_ports ..
    · rfl

@[simp] theorem spillShare_ports (s : State) (p n : Nat) (done l : List Booking) : (spillShare s p n done l).ports = s.ports := by
  fun_induction spillShare s p n done l with
  | case1 => rfl
  | case2 _ _ _ _ _ _ ih => rw [ih, spill_ports]
  | case3 _ _ _ _ _ ih => exact ih

@[simp] theorem spillFall_ports (s : State) (p n : Nat) : (spillFall s p n).ports = s.ports := by
  simp only [spillFall, spillShare_ports, spillSlot_ports]

/-! The events. -/

theorem exec_slotBeacon_named {s : State} {port n : Nat} (now : s.curSlot = some n) :
    exec (.slotBeacon port (some (s.slotPeer port n))) s = .next s := by
  have run : exec (.slotBeacon port (some (s.slotPeer port n))) s = execSlotBeacon port (some (s.slotPeer port n)) s := rfl
  rw [run, execSlotBeacon]
  simp only [now, BEq.rfl, Bool.or_true, if_true]

theorem exec_slotBeacon_wrong {s : State} {port n : Nat} {named : Option Nat} (now : s.curSlot = some n) (guarded : s.guardOver = false)
    (up : (s.port port).state ≠ 0) (alive : (s.port port).deadSlot ≠ some n) (wrong : named ≠ some (s.slotPeer port n)) :
    ∃ u, exec (.slotBeacon port named) s = .next u ∧ u.port port = { s.port port with deadSlot := some n } := by
  have run : exec (.slotBeacon port named) s = execSlotBeacon port named s := rfl
  rw [run, execSlotBeacon]
  simp only [now, guarded, beq_eq_false_iff_ne.2 up, beq_eq_false_iff_ne.2 alive, beq_eq_false_iff_ne.2 wrong, Bool.or_false,
    Bool.false_eq_true, if_false]
  refine ⟨_, rfl, ?_⟩
  rw [State.port_of_ports (spillSlot_ports ..)]
  exact State.port_setPort_same ..

theorem exec_portFallback_lower {s : State} {port st : Nat} (inside : port < 32) (lower : st < (s.port port).state)
    (speed : st = 0 ∨ st = 1 ∨ st = 2) : ∃ u, exec (.portFallback port st) s = .next u ∧
      u.port port = { s.port port with
        state := st, fallbacks := (s.port port).fallbacks + 1, resumeSlot := s.curSlot.getD 0 + 2, fell := true } := by
  have run : exec (.portFallback port st) s = execPortFallback port st s := rfl
  have meant : (decide ((s.port port).state ≤ st) || !(st == 0 || st == 1 || st == 2) || decide (32 ≤ port)) = false := by
    simp; omega
  rw [run, execPortFallback]
  simp only [meant, Bool.false_eq_true, if_false]
  refine ⟨_, rfl, ?_⟩
  rw [State.port_of_ports (spillFall_ports ..)]
  exact State.port_setPort_same ..

theorem exec_portRetrain_higher {s : State} {port st : Nat} (inside : port < 32) (higher : (s.port port).state < st)
    (speed : st = 1 ∨ st = 2 ∨ (st = 4 ∧ s.svc.getLsbD 0 = true)) (still : s.parts.any (fun q => match q.2 with
      | some p => p.tt.isSome
      | none => false) = false) :
    exec (.portRetrain port st) s = .next { s.setPort port { s.port port with
      state := st, fell := (s.port port).fell && st != 4 } with svc := svcPort s.svc port st } := by
  have run : exec (.portRetrain port st) s = execPortRetrain port st s := rfl
  have up : ¬st ≤ (s.port port).state := by omega
  have fast : (st == 1 || st == 2 || (st == 4 && s.svc.getLsbD 0)) = true := by simpa [or_assoc] using speed
  have meant : (decide (st ≤ (s.port port).state) || !(st == 1 || st == 2 || (st == 4 && s.svc.getLsbD 0)) ||
      s.parts.any (fun q => match q.2 with
        | some p => p.tt.isSome
        | none => false) || decide (32 ≤ port)) = false := by
    rw [decide_eq_false up, fast, still, decide_eq_false (by omega)]
    rfl
  rw [run, execPortRetrain]
  exact congrArg Host.Outcome.next (if_neg (ne_true_of_eq_false meant))

end Sys2Proof.Machine
end

section
/-! O48. Arrivals from peers (13 R262, R263): what a transfer that lands, and one that is refused, leaves. -/

namespace Sys2Proof.Machine

theorem State.wst_modWst_same (s : State) (e : Nat) (f : WStat → WStat) : (s.modWst e f).wst e = f (s.wst e) := sget_sput_same ..

/-! Landing. -/

theorem laterFlag_sameTransit (s : State) (part : Nat) (t : Target) (f inc : Nat) : SameTransit s (laterFlag s part t f inc) := by
  cases t with
  | core c =>
    exact SameTransit.modCore s c (f := fun k => { k with pend := k.pend ++ [Pend.mk (s.tick + 1) s.tick k.seq (.flagInc f inc)] })
      (fun _ => rfl) (fun _ => rfl)
  | frame slot va c => exact putSpace_sameTransit ..

/-- The flag of a landing on a core is to be added at the next boundary (10 R190). -/
theorem mem_pend_laterFlag (s : State) (part c f inc : Nat) :
    ∃ q, q ∈ ((laterFlag s part (.core c) f inc).core c).pend ∧ q.due = s.tick + 1 ∧ q.act = .flagInc f inc := by
  refine ⟨Pend.mk (s.tick + 1) s.tick (s.core c).seq (.flagInc f inc), ?_, rfl, rfl⟩
  rw [laterFlag, State.core_modCore_same]
  exact List.mem_append_right _ (List.mem_singleton.2 rfl)

/-- A transfer that lands counts, and has its flag added at the next boundary (13 R261, R262). -/
theorem landTransfer_spec (s : State) (p : Partition) (tr : Transfer) : let e := recvIndex p tr
    let u := landTransfer s p tr
    (u.wst e).count = (s.wst e).count + 1 ∧ u.receipts = s.receipts ∧ ∀ c, recvTarget p (s.winCore e) = .core c →
      (∃ q, q ∈ (u.core c).pend ∧ q.due = s.tick + 1 ∧ q.act = .flagInc (s.winFlag e) (s.winInc e)) ∧
      (u.core c).motor = (s.core c).motor ∧ (u.core c).regs = (s.core c).regs := by
  intro e u
  have landed := landLines_sameTransit s tr.dstPart (s.winKind e) (recvTarget p (s.winCore e))
    (targetScalemap s p (recvTarget p (s.winCore e))) tr (transferRuns (s.winBase e) tr)
  have flagged := landed.trans (laterFlag_sameTransit _ tr.dstPart (recvTarget p (s.winCore e)) (s.winFlag e) (s.winInc e))
  refine ⟨?_, flagged.receipts, fun c target => ⟨?_, flagged.motor c, flagged.regs c⟩⟩
  · have count : (u.wst e).count = _ := congrArg WStat.count (State.wst_modWst_same ..)
    rw [count, State.wst, flagged.wstat]
    rfl
  · rw [← landed.tick]
    have core : u.core c = (laterFlag _ tr.dstPart (recvTarget p (s.winCore e)) (s.winFlag e) (s.winInc e)).core c := rfl
    rw [core, target]
    exact mem_pend_laterFlag ..

/-! Refusal. -/

/-- A refused transfer writes nothing but the status of the receive entry that it names (13 R263). -/
theorem refuseTransfer_spec {s : State} {tr : Transfer} {p : Partition} (configured : s.part tr.dstPart = some p) (status : Nat) :
    let e := recvIndex p tr
    let u := refuseTransfer s tr status
    u.cores = s.cores ∧ u.cellar = s.cellar ∧ u.host = s.host ∧
      (tr.window < p.csr.fwinCount → s.winDir e = 2 → (u.wst e).fail = true ∧ (u.wst e).last = status) ∧
      (s.winDir e ≠ 2 → u.wstat = s.wstat) := by
  simp only [refuseTransfer, configured]
  split
  · next named =>
    refine ⟨rfl, rfl, rfl, fun _ _ => ?_, fun other => absurd named.2 other⟩
    have entry := State.wst_modWst_same s (recvIndex p tr) (fun w => { w with fail := true, last := status, late := w.late || tr.late })
    exact ⟨congrArg WStat.fail entry, congrArg WStat.last entry⟩
  · next other => exact ⟨rfl, rfl, rfl, fun window dir => absurd ⟨window, dir⟩ other, fun _ => rfl⟩

/-! The event. -/

theorem receive_lands {s : State} {tr : Transfer} {p : Partition} (configured : s.part tr.dstPart = some p)
    (passes : arrivalStatus s tr = 0) : receive s tr = (landTransfer s p tr, b2n tr.late) := by
  simp only [receive, configured, passes, b2n]

theorem receive_refuses {s : State} {tr : Transfer} (fails : arrivalStatus s tr ≠ 0) :
    receive s tr = (refuseTransfer s tr (arrivalStatus s tr), arrivalStatus s tr) := by
  unfold receive
  split
  · next passes => exact absurd passes fails
  · rfl

theorem promoteRecv_debited (s : State) (tr : Transfer) : Debited s (promoteRecv s tr) := by
  unfold promoteRecv
  split
  · exact .modPart ..
  · exact .refl s

theorem lateAfter_eq (s : State) (tr : Transfer) : ∃ l, lateAfter s tr = { s with latePaths := l } := by
  unfold lateAfter
  split <;> exact ⟨_, rfl⟩

/-- A peer's transfer, once judged, leaves a receipt to be sent; keys and paths may change with it. -/
theorem receivePeer_eq (s : State) (tr : Transfer) : let got := receive s { tr with late := lateBy s tr }
    ∃ ps l, receivePeer s tr = { got.1 with
      parts := ps, latePaths := l, receipts := got.1.receipts ++ [Receipt.mk tr.src tr.srcCore tr.sendId got.2 s.tick] } := by
  intro got
  obtain ⟨ps, promoted⟩ := promoteRecv_debited got.1 { tr with late := lateBy s tr }
  obtain ⟨l, noted⟩ := lateAfter_eq (promoteRecv got.1 { tr with late := lateBy s tr }) { tr with late := lateBy s tr }
  refine ⟨ps, l, ?_⟩
  rw [promoted] at noted
  simp only [receivePeer]
  rw [promoted, noted]

theorem exec_arrival_peer {s : State} {tr : Transfer} (peer : tr.loopback = false) (here : tr.dst = s.position)
    (away : tr.src ≠ s.position) (open_ : holdsArrivals s tr.dstPart = false) (free : arrivalFree s tr = true) :
    exec (.arrival tr) s = .next (receivePeer s tr) := by
  have run : exec (.arrival tr) s = execArrival tr s := rfl
  rw [run, execArrival]
  simp [peer, here, away, open_, free]

end Sys2Proof.Machine
end

section
/-! O48. The layby, receipts and fences (13 R256, R258, R259, R263). -/

namespace Sys2Proof.Machine

/-! The layby. -/

theorem exec_laybyLanding_lies {s : State} {tr : Transfer} {n : Nat} (now : s.curSlot = some n) (on : tr.dst ≠ s.position)
    (away : tr.src ≠ s.position) : let at_ := laybySpace s.layby ((tr.data.length + 63) / 64 * 64)
    let laid := layDown s (Config.laybyBase + at_) tr.data ((tr.data.length + 63) / 64)
    exec (.laybyLanding tr) s = .next { laid with layby := laid.layby ++ [LayItem.mk tr n (flitsOf tr.data.length) at_] } := by
  have run : exec (.laybyLanding tr) s = execLaybyLanding tr s := rfl
  rw [run, execLaybyLanding]
  simp only [now, beq_eq_false_iff_ne.2 on, beq_eq_false_iff_ne.2 away, Bool.or_false, Bool.false_eq_true, if_false]

theorem exec_laybyRelay_here {s : State} {i p m n : Nat} {x : LayItem} (is : s.layby[i]? = some x) (first : laybyFirst s i x = true)
    (port : laybyPort s x = some (p, m)) (takes : s.relayTakes p m x.left = some n) :
    exec (.laybyRelay (.here i)) s = .next { s with
      layby := if n = x.left then s.layby.eraseIdx i else s.layby.set i { x with left := x.left - n }
      bookings := s.bookings ++ [Booking.mk p m 0 noCore 0 n false] } := by
  have run : exec (.laybyRelay (.here i)) s = .next (relayItem s i) := rfl
  rw [run, relayItem]
  simp only [is, first, port, takes, Bool.not_true, Bool.false_eq_true, if_false]

theorem creditBack_debited (s : State) (x : Send) : Debited s (creditBack s x) := by
  unfold creditBack
  (repeat' split)
  · exact .refl s
  · exact .modPart ..
  · exact .refl s

theorem creditBack_via {x : Send} {v : Nat} (via : x.via = some v) (owed : x.relayed = false) (s : State) :
    creditBack s x = s.modPart x.part (fun p => { p with bindings := returnCredit v x.flits p.bindings }) := by
  simp only [creditBack, via, owed, Bool.false_eq_true, if_false]

theorem exec_laybyRelay_away {s : State} {c id v : Nat} {x : Send} (is : (s.core c).send id = some x) (departed : x.st = .departed)
    (whole : x.tail = 0) (owed : x.relayed = false) (via : x.via = some v) :
    exec (.laybyRelay (.away c id)) s =
      .next ((creditBack s x).modCore c (fun k => k.setSend id (some { x with relayed := true }))) := by
  have run : exec (.laybyRelay (.away c id)) s = execLaybyRelay (.away c id) s := rfl
  rw [run, execLaybyRelay]
  simp [is, departed, whole, owed, via]

/-! Receipts. -/

/-- A core without the guards of a send (11 R205). -/
def Core.unguarded (k : Core) (c id : Nat) : Core :=
  { k with guards := k.guards.filter (fun g => !(g.core == c && g.isRack == false && g.id == id)) }

/-- The core of a send that has ended: its id is free, and no fence waits for it any more (13 R259, R263). -/
def Core.ended (k : Core) (id : Nat) (x : Send) : Core :=
  { k.setSend id none with fences := k.fences.map (fun f => { f with waits := f.waits.filter (fun n => n != x.seq) }) }

theorem Core.send_ended (k : Core) (id : Nat) (x : Send) : (k.ended id x).send id = none := Core.send_setSend_same k id none

/-- The end of a send takes its guards from every core, and its id from its own. -/
theorem core_endSend (s : State) (c id : Nat) (x : Send) (status d : Nat) : (endSend s c id x status).core d =
    if d = c then ((s.core c).unguarded c id).ended id x else (s.core d).unguarded c id := by
  have core : (endSend s c id x status).core d = ((dropGuards s c false id).modCore c (fun k => k.ended id x)).core d :=
    (creditBack_debited _ x).core d
  rw [core, State.core_modCore, dropGuards_core, dropGuards_core]
  rfl

theorem guards_endSend {s : State} {c id status d : Nat} {x : Send} {g : Guard}
    (stands : g ∈ ((endSend s c id x status).core d).guards) : ¬(g.core = c ∧ g.isRack = false ∧ g.id = id) := by
  have kept : g ∈ ((s.core d).unguarded c id).guards := by
    rw [core_endSend] at stands
    split at stands
    · next same => rwa [same]
    · exact stands
  have other := (List.mem_filter.1 kept).2
  rintro ⟨core, rack, number⟩
  simp [core, rack, number] at other

@[simp] theorem creditBack_wstat (s : State) (x : Send) : (creditBack s x).wstat = s.wstat := by
  obtain ⟨ps, is⟩ := creditBack_debited s x
  rw [is]

/-- The entry of a send that has ended records its receipt (13 R261). -/
theorem wst_endSend (s : State) (c id : Nat) (x : Send) (status : Nat) :
    (endSend s c id x status).wst x.entry = (s.wst x.entry).receipt status x.late := by
  have recorded : (endSend s c id x status).wstat = (s.modWst x.entry (fun w => w.receipt status x.late)).wstat := creditBack_wstat ..
  exact (congrArg (sget WStat.init · x.entry) recorded).trans (State.wst_modWst_same ..)

theorem exec_receipt_departed {s : State} {c id status : Nat} {x : Send} (is : (s.core c).send id = some x)
    (departed : x.st = .departed) (whole : x.tail = 0) (own : x.loopback = false) (known : status ≤ 5)
    (honest : ¬(x.late = true ∧ status = 0)) : exec (.receipt c id status) s = .next (endSend s c id x status) := by
  have run : exec (.receipt c id status) s = execReceipt c id status s := rfl
  have late : (x.late && status == 0) = false := by simpa using honest
  rw [run, execReceipt]
  simp [is, departed, whole, own, known, late]

/-! Fences. -/

theorem exec_fenceComplete_ready {s : State} {c : Nat} {f : Fence} {fs : List Fence} (ready : fenceReady s c = true)
    (oldest : (s.core c).fences = f :: fs) :
    exec (.fenceComplete c) s = .next ((s.modCore c (fun k => { k with fences := fs })).addFlag c f.flag f.inc) := by
  have run : exec (.fenceComplete c) s = execFenceComplete c s := rfl
  simp only [run, execFenceComplete, ready, oldest, if_true]

end Sys2Proof.Machine
end

section
/-! O48. The events of the fabric put together. -/

namespace Sys2Proof.Machine

/-- A flit of a send departs in its own slot (13 R250). -/
theorem departHead_sends {s : State} {c id : Nat} {x : Send} (own : x.loopback = false) (carried : s.carries x.port x.slot = true)
    (now : s.curSlot = some x.slot) : let u := departHead s c id x
    SameCoresBut c s u ∧ SameOutsideCores { s with freeCtr := u.freeCtr } u ∧ (u.core c).mem = (s.core c).mem ∧
    (u.core c).send id = some { x.read s c with
      gone := x.gone + 1
      st := if x.gone + 1 = s.headFlits c id then (if x.tail = 0 then .departed else .spilled) else x.st
      phase := if x.wire = [] then sendPhase s x else x.phase
      wire := x.wire ++ sealFlits s (x.read s c) x.gone 1 (freeIv s).1 } := by
  have sent := departFlits_spec s c id { x with
    gone := x.gone + 1
    st := if x.gone + 1 = s.headFlits c id then (if x.tail = 0 then .departed else .spilled) else x.st } x.gone 1
  rw [Send.read_head] at sent
  rw [departHead_carried own carried now]
  exact sent

/-- Settles O48: each event by the function that its conditions select. -/
theorem fabricEvents : Obligations.FabricEvents := by
  unfold Obligations.FabricEvents
  intro s
  refine ⟨fun port n named now guarded up alive => ⟨fun right => ?beacon, exec_slotBeacon_wrong now guarded up alive⟩,
    fun c id x is due => ⟨fun loop => ?loop, fun own carried now => ?head, fun own lost => ?spilled⟩,
    fun c id x p m n is head due port takes => ?tail,
    fun port st inside lower speed => exec_portFallback_lower inside lower speed,
    fun port st inside higher speed still => ⟨_, exec_portRetrain_higher inside higher speed still, State.port_setPort_same .., rfl, rfl, rfl⟩,
    fun tr p peer here away configured open_ free => ⟨fun passes => ?lands, fun fails => ?refused⟩,
    fun tr n now on away => ?layby,
    fun i x p m n is first port takes => ?relay,
    fun c id x v is departed whole owed via => ?away,
    fun c id x status is departed whole own known honest => ?receipt,
    fun c f fs ready oldest => ?fence⟩
  case beacon =>
    rw [right]
    exact exec_slotBeacon_named now
  case loop => exact ⟨_, exec_sendDeparture_head is due, departHead_loopback loop⟩
  case head =>
    obtain ⟨others, outside, mem, send⟩ := departHead_sends own carried now
    exact ⟨_, _, exec_sendDeparture_head is due, others, outside, mem, send⟩
  case spilled =>
    have left : s.headFlits c id - x.gone ≠ 0 := Nat.sub_ne_zero_of_lt (gone_of_headDue due own)
    refine ⟨_, exec_sendDeparture_head is due, ?_⟩
    rw [departHead_spilled own lost, send_spill is left, booked_of_headDue due]
    rfl
  case tail =>
    obtain ⟨others, outside, -, send⟩ := departFlits_spec s c id
      { x with tail := x.tail - n, st := if n = x.tail then .departed else .spilled } (x.flits - x.tail) n
    refine ⟨_, (freeIv s).1, exec_sendDeparture_tail is head due, ?_⟩
    rw [Send.read_tail] at send
    rw [departTail_takes port takes]
    exact ⟨others, send, congrArg (· ++ [Booking.mk p m 0 c id n false]) outside.bookings⟩
  case lands =>
    obtain ⟨ps, l, is⟩ := receivePeer_eq s tr
    rw [receive_lands (tr := { tr with late := lateBy s tr }) configured passes] at is
    obtain ⟨count, receipts, target⟩ := landTransfer_spec s p { tr with late := lateBy s tr }
    refine ⟨_, exec_arrival_peer peer here away open_ free, ?_⟩
    rw [is]
    exact ⟨count, ⟨_, congrArg (· ++ [_]) receipts, rfl, rfl, rfl⟩, target⟩
  case refused =>
    obtain ⟨ps, l, is⟩ := receivePeer_eq s tr
    rw [receive_refuses (tr := { tr with late := lateBy s tr }) fails] at is
    refine ⟨_, exec_arrival_peer peer here away open_ free, ?_⟩
    rw [is]
    exact refuseTransfer_spec (tr := { tr with late := lateBy s tr }) configured (arrivalStatus s tr)
  case layby =>
    have laid := layDown_sameTransit s (Config.laybyBase + laybySpace s.layby ((tr.data.length + 63) / 64 * 64)) tr.data
      ((tr.data.length + 63) / 64)
    exact ⟨_, _, exec_laybyLanding_lies now on away, congrArg (· ++ [_]) laid.layby, fun d => ⟨laid.regs d, mem_layDown ..⟩⟩
  case relay => exact ⟨_, exec_laybyRelay_here is first port takes, rfl, fun whole => if_pos whole, fun part => if_neg part, rfl⟩
  case away =>
    refine ⟨_, exec_laybyRelay_away is departed whole owed via, ?_, ?_, ?_⟩
    · exact SameCoresBut.trans (fun d _ => (creditBack_debited s x).core d) (sameCoresBut_modCore _ _ _)
    · rw [State.core_modCore_same, Core.send_setSend_same]
    · rw [State.part_modCore, creditBack_via via owed, State.part_modPart_same]
  case receipt =>
    refine ⟨_, exec_receipt_departed is departed whole own known honest, ?_, wst_endSend .., ?_, ?_, fun d g => guards_endSend⟩ <;>
      rw [core_endSend, if_pos rfl]
    · exact Core.send_ended ..
    · rfl
    · rfl
  case fence =>
    refine ⟨_, exec_fenceComplete_ready ready oldest, ?_, ?_, fun j other => ?_, ?_,
      (sameOutsideCores_modCore ..).trans (sameOutsideCores_modCore ..)⟩
    · rw [State.core_addFlag_same, Core.setFlag_fences, State.core_modCore_same]
    · rw [State.flag_addFlag, if_pos rfl, State.core_modCore_same]
      rfl
    · rw [State.flag_addFlag, if_neg other, State.core_modCore_same]
      rfl
    · exact (sameCoresBut_modCore _ _ _).trans fun d other => State.core_addFlag_other _ _ _ _ other

end Sys2Proof.Machine
end

section
/-! O27. Control operations (15 R290-R301): what each leaves in the latch for the end of its bundle. -/

namespace Sys2Proof.Machine

/-- What an accepted ct operation asks of the end of its bundle stands in the latch. -/
theorem exec_setCtl {i : Instr} {s : State} {h : Head} {dst : Nat} {eff : Eff} {x : Ctl} (meaning : exec i s = slotOp h dst none eff s)
    (effect : eff s s.cur s.motorNow (s.operand h) = s.setCtl s.cur x) (a : Accepts s h dst none) :
    ∃ t, exec i s = .next t ∧ (t.core s.cur).latch.ctl = x :=
  ⟨_, exec_accepted meaning effect a, congrArg (fun k => k.latch.ctl) (State.core_modCore_same ..)⟩

/-- The trip count of a loop in terms of lcount (15 R293). -/
theorem trips_loopArg (t : Stream) (v : Word) : (loopArg t v).trips =
    if t.lcount = 0 then 0 else if bits v 19 17 = 0 then t.lcount.toNat else t.lcount.toNat + bits v 19 17 - 1 :=
  if_congr (toNat_eq_zero_iff _) rfl rfl

/-- The conditions of an arrival are those of the valid ports, in order (15 R298). -/
theorem conds_lockWait (s : State) (c g : Nat) : (lockWait s c g).conds =
    ((List.range 4).filter (fun i => ((s.core c).inp 2 i).getLsbD 31)).map (fun i =>
      Cond.mk (bits ((s.core c).inp 2 i) 9 0) (bits ((s.core c).inp 2 i) 18 16) (bits ((s.core c).inp 2 i) 63 32)) := by
  rw [lockWait, List.filter_map, List.map_map]
  rfl

/-- A patience of the closing reach stands (14 R281). -/
theorem patience_of_reach {s : State} {c : Nat} {r : Reach} (closing : s.reach c = some r) (set : r.patience ≠ 0) (g : Nat) :
    (lockWait s c g).patience = r.patience := by
  simp [lockWait, closing, set]

section
variable {s : State} {c g : Nat} {t : Timetable} (unset : ∀ r, s.reach c = some r → r.patience = 0) (runs : s.timetable c = some t)
include unset runs

/-- Where the reach sets none, a patience of the group stands (14 R281). -/
theorem patience_of_group {x : Group} (found : t.group g = some x) (set : x.patience ≠ 0) : (lockWait s c g).patience = x.patience := by
  cases closing : s.reach c with
  | none => simp [lockWait, closing, runs, found, set]
  | some r => simp [lockWait, closing, unset r closing, runs, found, set]

/-- Where neither sets one, LPATIENCE stands (14 R281). -/
theorem patience_default (neither : ∀ x, t.group g = some x → x.patience = 0) {p : Partition}
    (configured : s.part (s.partId c) = some p) : (lockWait s c g).patience = p.csr.lpatience := by
  cases closing : s.reach c <;> cases found : t.group g <;> simp_all [lockWait]

end

/-- Settles O27: each operation writes its request into the latch of the bundle in flight. -/
theorem controlAsks : Obligations.ControlAsks := by
  unfold Obligations.ControlAsks
  intro s h k v t0
  refine ⟨exec_setCtl (eff := brEff) rfl rfl, exec_setCtl (eff := jumpEff .jump) rfl ?jmp, exec_setCtl (eff := jumpEff .call) rfl ?call,
    fun acc => ?ret, fun acc => ?loop, fun acc => ?rot, fun acc => ?lock, exec_setCtl (eff := endtaskEff) rfl rfl,
    exec_setCtl (eff := trapEff) rfl ?trap, exec_accepted (eff := fun s _ _ _ => s) rfl rfl⟩
  case jmp | call => rw [jumpEff, bits_low]
  case trap => rw [trapEff, bits_low]
  case ret =>
    obtain ⟨t, runs, left⟩ := exec_setCtl (i := .ctRet h) (eff := retEff) rfl rfl acc
    refine ⟨t, runs, _, left, fun f fs top => ?_⟩
    rw [show ((s.core s.cur).stream s.motorNow).frames = f :: fs from top]
    rfl
  case loop =>
    obtain ⟨t, runs, left⟩ := exec_setCtl (i := .ctLoop h) (eff := loopEff) rfl rfl acc
    rw [trips_loopArg] at left
    exact ⟨t, runs, _, left, rfl, bits_low .., rfl, rfl, rfl, rfl⟩
  case rot =>
    have left := State.core_modCore_same s s.cur (fun k => { k with latch := { k.latch with rot := true } })
    exact ⟨_, exec_accepted (eff := rotEff) rfl rfl acc, congrArg (fun k => k.latch.rot) left, congrArg (fun k => k.latch.ctl) left⟩
  case lock =>
    obtain ⟨t, runs, left⟩ := exec_setCtl (i := .ctLock h) (eff := lockEff) rfl rfl acc
    refine ⟨t, runs, fun butty => ?_, fun motor => ⟨lockWait s s.cur (bits v 7 0), ?_, bits_low .., rfl, rfl, rfl, rfl,
      conds_lockWait .., fun r closing set => patience_of_reach closing set _, fun unset tt running =>
        ⟨fun x found set => patience_of_group unset running found set, fun neither p configured =>
          patience_default unset running neither configured⟩⟩⟩
    · rw [left, butty]
      rfl
    · rw [left, motor]
      rfl

end Sys2Proof.Machine
end

section
/-! O40. A table of partitions out of canonical form keeps hand tables at a group 0 lock (14 R280, 17 R338). -/

namespace Sys2Proof.Machine

/-- A group 0 lock of core 0 alone, whose re-base tick is 1. -/
def openedGroup : Group := Group.mk 0 1 1 1 0 0 1 1 [] 1

/-- The timetable that is locked there. -/
def openedTt : Timetable := { emptyTt with groups := [openedGroup] }

/-- The partition of the lock: its context has been re-placed onto its own tiles. -/
def rebasedPart : Partition := { Partition.init [1] with lent := some 1, tt := some openedTt }

/-- A table of partitions whose keys do not rise. Partition 2 is listed first, and its tiles, core 0 among them, are those that the
timetable of partition 1 runs on. Core 0 holds a hand. -/
def relentState : State :=
  { State.reset with
    tick := 1
    cores := [(0, { Core.init with hand := [(0, HandEnt.mk true false 0 1 0)] })]
    parts := [(2, some { Partition.init [0] with lent := some 1 }), (1, some rebasedPart)] }

/-- The lock's generation completed, before its hand tables are freed. -/
def relentCompleted : State :=
  ((rebaseMembers relentState openedTt openedGroup.memberList).modGroup 1 0 Group.complete).modTt 1
    (fun t => { t with dry := t.dry.filter (fun d => d.2 != 0) })

/-- The state after the re-base. -/
def relentRebased : State := (rebaseAll relentCompleted 1 openedTt).modTt 1 (fun t => { t with timedOut := false })

theorem exec_lockRebase_relentState : exec (.lockRebase 1 0) relentState = .next relentRebased := by rfl

/-- Before the re-base, the timetable runs on the cluster of core 0. -/
theorem clustersFor_relentState : (relentState.clustersFor 1 rebasedPart).contains (0 / 8) = true := by decide

/-- The completed generation has put the entry of partition 1 before that of partition 2, so that the hand tables of other clusters are
freed: core 0 keeps its hand. -/
theorem hand_relentRebased : (relentRebased.core 0).hand = [(0, HandEnt.mk true false 0 1 0)] := by decide

/-- Refutes O40: a re-base writes its partition before it looks up the tiles whose hand tables it frees. In relentState, a table of
partitions that is not in the canonical form of Machine/Store.lean, the write moves an entry, and core 0 keeps its hand. (In a table in
that form a write leaves every entry in its place.) -/
theorem not_lockEvents : ¬ Obligations.LockEvents := by
  unfold Obligations.LockEvents
  intro h
  obtain ⟨-, rebase, -⟩ := h relentState 1 0 rebasedPart openedTt openedGroup (by decide) rfl (by decide)
  obtain ⟨u, y, step, -, -, -, -, -, -, member⟩ := rebase (by decide) (by decide) rfl
  obtain rfl : relentRebased = u := Host.Outcome.next.inj (exec_lockRebase_relentState.symm.trans step)
  obtain ⟨-, -, -, -, -, -, -, -, freed⟩ := member 0 (by decide) (by decide)
  have empty := freed rfl clustersFor_relentState
  rw [hand_relentRebased] at empty
  exact absurd empty (List.cons_ne_nil _ _)

end Sys2Proof.Machine
end

section
/-! O47. What the keeper's books hold: its journal, the tokens of its host traffic and who has its tiles on loan (16 R311, R316; 19 R375).
Entries, debits and the moves of islands and windows change nothing else of a partition, and no tile core. -/

namespace Sys2Proof.Machine

/-- A partition without its journal, its tokens and the partition that has its tiles on loan. -/
def Partition.unbooked (p : Partition) : Partition :=
  { p with jseq := 0, soft := [], prepaid := 0, host := Meter.mk 0 0 0 0, layby := Meter.mk 0 0 0 0, lent := none }

/-- From s to t the clock, every tile core and host memory are the same, and so is every partition but for its books. -/
structure BooksOnly (s t : State) : Prop where
  tick : t.tick = s.tick
  tiles : SameTiles s t
  host : t.host = s.host
  part : ∀ n, (t.part n).map Partition.unbooked = (s.part n).map Partition.unbooked

namespace BooksOnly

theorem refl (s : State) : BooksOnly s s := ⟨rfl, fun _ _ => rfl, rfl, fun _ => rfl⟩

theorem trans {s t u : State} (a : BooksOnly s t) (b : BooksOnly t u) : BooksOnly s u :=
  ⟨b.tick.trans a.tick, fun d tile => (b.tiles d tile).trans (a.tiles d tile), b.host.trans a.host,
    fun n => (b.part n).trans (a.part n)⟩

variable {s t : State} (h : BooksOnly s t)
include h

theorem hostMem (n : Nat) : t.hostMem n = s.hostMem n := congrArg (fun m => sget [] m n) h.host

/-- A configured partition stays configured. -/
theorem configured {n : Nat} {p : Partition} (is : s.part n = some p) : ∃ q, t.part n = some q ∧ q.unbooked = p.unbooked :=
  Option.map_eq_some_iff.1 ((h.part n).trans (congrArg _ is))

theorem tt (n : Nat) : t.tt n = s.tt n := by
  have through (u : State) : u.tt n = ((u.part n).map Partition.unbooked).bind (fun p => p.tt) := by
    rw [State.tt]
    cases u.part n <;> rfl
  rw [through t, h.part, through s]

end BooksOnly

theorem part_setPart_unbooked {s : State} {m : Nat} {p q : Partition} (is : s.part m = some p) (same : q.unbooked = p.unbooked) (n : Nat) :
    ((s.setPart m q).part n).map Partition.unbooked = (s.part n).map Partition.unbooked := by
  rw [State.part_setPart]
  split
  · next here => rw [here, is, Option.map_some, Option.map_some, same]
  · rfl

theorem part_modPart_unbooked (s : State) (m : Nat) {f : Partition → Partition} (same : ∀ p, (f p).unbooked = p.unbooked) (n : Nat) :
    ((s.modPart m f).part n).map Partition.unbooked = (s.part n).map Partition.unbooked := by
  unfold State.modPart
  split
  · next p is => exact part_setPart_unbooked is (same p) n
  · rfl

/-! Tokens (16 R310, R311). -/

theorem unbooked_setMeter (p : Partition) (layby : Bool) (m : Meter) : (p.setMeter layby m).unbooked = p.unbooked := by
  cases layby <;> rfl

theorem part_drawFrom_unbooked (s : State) (part : Nat) (layby : Bool) (l : List Nat) (n m : Nat) :
    ((drawFrom s part layby l n).part m).map Partition.unbooked = (s.part m).map Partition.unbooked := by
  fun_induction drawFrom s part layby l n with
  | case1 => rfl
  | case2 _ _ _ _ _ ih => exact ih
  | case3 _ _ _ _ _ is _ _ _ ih => exact ih.trans (part_setPart_unbooked is (unbooked_setMeter ..) m)
  | case4 _ _ _ _ _ ih => exact ih

theorem Debited.booksOnly {s t : State} (d : Debited s t)
    (part : ∀ n, (t.part n).map Partition.unbooked = (s.part n).map Partition.unbooked) : BooksOnly s t :=
  ⟨d.tick, fun c _ => d.core c, d.host, part⟩

theorem payTokens_booksOnly {s t : State} {part d : Nat} {layby : Bool} (paid : payTokens s part layby d = some t) : BooksOnly s t := by
  refine (payTokens_debited paid).booksOnly fun n => ?_
  unfold payTokens at paid
  split at paid
  · cases paid
  · next p is =>
    dsimp only at paid
    split at paid
    · cases paid
      exact part_setPart_unbooked is (unbooked_setMeter ..) n
    · split at paid
      · cases paid
        exact (part_modPart_unbooked _ _ (fun p => unbooked_setMeter p ..) n).trans (part_drawFrom_unbooked ..)
      · cases paid

theorem payGranules_booksOnly (s : State) (part n k : Nat) : BooksOnly s (payGranules s part n k).1 := by
  induction n generalizing s k with
  | zero => exact .refl s
  | succ n ih =>
    unfold payGranules
    split
    · next paid => exact (payTokens_booksOnly paid).trans (ih ..)
    · exact .refl s

theorem BooksOnly.modPart (s : State) (m : Nat) {f : Partition → Partition} (same : ∀ p, (f p).unbooked = p.unbooked) :
    BooksOnly s (s.modPart m f) :=
  (Debited.modPart s m f).booksOnly (part_modPart_unbooked s m same)

theorem payKeeper_booksOnly (s : State) (part n : Nat) : BooksOnly s (payKeeper s part n).1 := by
  unfold payKeeper
  split
  · exact (payGranules_booksOnly ..).trans (.modPart _ _ fun _ => rfl)
  · exact .refl s

theorem whenPaid_paid {s : State} {part n : Nat} (paid : (payKeeper s part n).2 = true) (go : State → State) :
    whenPaid s part n go = go (payKeeper s part n).1 := if_pos paid

/-! The journal (19 R375). -/

/-- The keeper that leads a partition is no tile core. -/
theorem sameTiles_modKeeper (s : State) (b : Nat) (f : Core → Core) : SameTiles s (s.modCore (256 + b) f) := by
  intro d tile
  have : d < 256 := by simpa [isTile] using tile
  exact State.core_modCore_other _ _ _ (by omega)

theorem note_booksOnly (s : State) (part op queue slot status : Nat) (cmd : Option Cmd) :
    BooksOnly s (s.note part op queue slot status cmd) := by
  unfold State.note
  split
  · next p is =>
    split
    · exact .refl s
    · exact ⟨rfl, fun d tile => (State.core_setPart ..).trans (sameTiles_modKeeper s _ _ d tile), rfl,
        part_setPart_unbooked (s := s.modCore _ _) is rfl⟩
  · exact .refl s

/-! Logs, islands, windows. -/

theorem logSpace_eq (s : State) (part va n : Nat) : ∃ l, logSpace s part va n = { s with logs := l } := by
  unfold logSpace
  split
  · exact logLines_eq ..
  · exact ⟨s.logs, rfl⟩

theorem logImage_eq (s : State) (part image : Nat) : ∃ l, logImage s part image = { s with logs := l } := by
  unfold logImage
  split <;> exact logSpace_eq ..

theorem settleIslands_eq (s : State) (pace : Nat) (l : List Nat) : ∃ is, s.settleIslands pace l = { s with islands := is } := by
  induction l generalizing s with
  | nil => exact ⟨s.islands, rfl⟩
  | cons i l ih => exact ih { s with islands := sput 0 s.islands i (s.islandPoint pace i) }

theorem settlePart_eq (s : State) (part pace : Nat) : ∃ is, s.settlePart part pace = { s with islands := is } := by
  unfold State.settlePart
  split
  · exact settleIslands_eq ..
  · exact ⟨s.islands, rfl⟩

theorem freeReceive_eq (s : State) (first n : Nat) : ∃ w, freeReceive s first n = { s with windows := w } := by
  induction n with
  | zero => exact ⟨s.windows, rfl⟩
  | succ n ih =>
    obtain ⟨w, is⟩ := ih
    simp only [freeReceive, is]
    split
    · exact ⟨_, rfl⟩
    · exact ⟨w, rfl⟩

theorem logImage_booksOnly (s : State) (part image : Nat) : BooksOnly s (logImage s part image) := by
  obtain ⟨l, is⟩ := logImage_eq s part image
  rw [is]
  exact ⟨rfl, fun _ _ => rfl, rfl, fun _ => rfl⟩

theorem freeReceive_booksOnly (s : State) (first n : Nat) : BooksOnly s (freeReceive s first n) := by
  obtain ⟨w, is⟩ := freeReceive_eq s first n
  rw [is]
  exact ⟨rfl, fun _ _ => rfl, rfl, fun _ => rfl⟩

/-- A value of a table in which every entry has been changed. -/
theorem sget_mapEntries {α : Type} (m : Store (Option α)) (f : α → α) (k : Nat) :
    sget none (m.map (fun q => (q.1, q.2.map f))) k = (sget none m k).map f := by
  induction m with
  | nil => rfl
  | cons x m ih =>
    simp only [List.map_cons, sget, ih]
    split <;> rfl

theorem leaveTiles_booksOnly (s : State) (part : Nat) (p : Partition) : BooksOnly s (s.leaveTiles part p) := by
  refine ⟨rfl, fun _ _ => rfl, rfl, fun n => ?_⟩
  rw [State.part, State.leaveTiles, sget_mapEntries, Option.map_map]
  congr 1
  funext y
  simp only [Function.comp_apply]
  split <;> rfl

end Sys2Proof.Machine
end

section
/-! O47. Completions (16 R306, 19 R375, R377): what a completion leaves in host memory and in its partition. -/

namespace Sys2Proof.Machine

theorem readBytes_writeBytes (m : Store Byte) (a : Nat) (bs : List Byte) : readBytes (writeBytes m a bs) a bs.length = bs := by
  refine List.ext_getElem (readBytes_length ..) fun i inside here => ?_
  rw [← List.getD_eq_getElem _ 0 inside, ← List.getD_eq_getElem _ 0 here, getD_readBytes _ _ here,
    readByte_writeBytes_same _ _ _ _ here]

theorem length_completionBytes (cmd : Cmd) (cls detail : Nat) : (completionBytes cmd cls detail).length = 16 := by
  simp only [completionBytes, List.length_append, length_toBytes]

theorem part_putHost (s : State) (part by_ ga : Nat) (new : List Byte) (n : Nat) : (s.putHost part by_ ga new).part n = s.part n := by
  have hits (l : List Nat) (t : State) : (l.foldl (fun s x => s.hitMonitors part by_ 4 x) t).part n = t.part n := by
    induction l generalizing t with
    | nil => rfl
    | cons x l ih => exact ih _
  simp only [State.putHost]
  split <;> exact hits ..

/-- A completion that is written stands in host memory; the partition is the same but for the keeper's books. -/
theorem writeCompletion_spec (s : State) (part : Nat) (p : Partition) (cmd : Cmd) (cls detail : Nat) :
    let t := writeCompletion s part p cmd cls detail
    readBytes (t.hostMem part) cmd.compl 16 = completionBytes cmd cls detail ∧
      ∀ n, (t.part n).map Partition.unbooked = (s.part n).map Partition.unbooked := by
  intro t
  have owed := note_booksOnly s part 12 cmd.queue 255 (cls * 2 ^ 24 + detail) (some cmd)
  have written := note_booksOnly ((s.note part 12 cmd.queue 255 (cls * 2 ^ 24 + detail) (some cmd)).putHost part
    ((s.note part 12 cmd.queue 255 (cls * 2 ^ 24 + detail) (some cmd)).activeKeeper (p.basins.headD 0)) cmd.compl
    (completionBytes cmd cls detail)) part 13 cmd.queue 255 (cls * 2 ^ 24 + detail) (some cmd)
  refine ⟨?_, fun n => (written.part n).trans ?_⟩
  · have host := written.hostMem part
    rw [(hostMem_putHost ..).1, if_pos rfl] at host
    rw [show t.hostMem part = _ from host, ← length_completionBytes cmd cls detail]
    exact readBytes_writeBytes ..
  · rw [part_putHost]
    exact owed.part n

theorem Partition.holding_congr {p q : Partition} (same : p.unbooked = q.unbooked) : p.holding = q.holding :=
  (congrArg Partition.holding same :)

/-- A partition that holds a completion back while its keeper is taken over. -/
def Partition.holdItem (p : Partition) (item : Cmd × Nat × Nat) : Partition :=
  { p with heldItems := if p.holding then p.heldItems ++ [item] else p.heldItems }

/-- What completing a command leaves: the record in host memory, or, while the keeper is taken over, an item held back. -/
theorem complete_spec {s : State} {part : Nat} {p : Partition} (is : s.part part = some p) (cmd : Cmd) (cls detail : Nat) :
    let t := complete s part cmd cls detail
    ∃ r, t.part part = some r ∧ r.unbooked = (p.holdItem (cmd, cls, detail)).unbooked ∧
      (p.holding = false → readBytes (t.hostMem part) cmd.compl 16 = completionBytes cmd cls detail) ∧
      (p.holding = true → t.hostMem part = s.hostMem part) := by
  intro t
  have run : t = if p.holding then s.setPart part { p with heldItems := p.heldItems ++ [(cmd, cls, detail)] }
      else writeCompletion s part p cmd cls detail := by
    simp only [t, complete, is]
  rw [run, Partition.holdItem]
  cases p.holding with
  | true => exact ⟨_, State.part_setPart_same .., rfl, fun no => absurd no (by decide), fun _ => rfl⟩
  | false =>
    obtain ⟨written, same⟩ := writeCompletion_spec s part p cmd cls detail
    obtain ⟨r, here, eq⟩ := Option.map_eq_some_iff.1 ((same part).trans (congrArg _ is))
    exact ⟨r, here, eq, fun _ => written, fun no => absurd no (by decide)⟩

/-- A partition that its timetable has left. -/
def Partition.vacated (p : Partition) : Partition :=
  { p with tt := none, bottle := none, csr := { p.csr with botOpen := false, bottling := false } }

/-- What the end of a timetable leaves in its partition, and its completion (15 R299, 19 R374). -/
theorem endTimetable_spec {s : State} {part : Nat} {q : Partition} (is : s.part part = some q) (p : Partition) (t : Timetable)
    (cls detail : Nat) : let u := endTimetable s part p t cls detail
    ∃ r, u.part part = some r ∧ r.unbooked = (q.vacated.holdItem (t.cmd, cls, detail)).unbooked ∧
      (q.holding = false → readBytes (u.hostMem part) t.cmd.compl 16 = completionBytes t.cmd cls detail) ∧
      (q.holding = true → u.hostMem part = s.hostMem part) := by
  intro u
  have left := (freeReceive_booksOnly s p.csr.fwinBase t.windows).trans (leaveTiles_booksOnly _ part p)
  obtain ⟨y, here, same⟩ := left.configured is
  have vacated : (((freeReceive s p.csr.fwinBase t.windows).leaveTiles part p).modPart part Partition.vacated).part part =
      some y.vacated := (State.part_modPart_same ..).trans (congrArg _ here)
  obtain ⟨r, configured, eq, written, held⟩ := complete_spec vacated t.cmd cls detail
  have holding : y.holding = q.holding := Partition.holding_congr same
  have items := congrArg (fun p => (p.vacated.holdItem (t.cmd, cls, detail)).unbooked) same
  refine ⟨r, configured, eq.trans items, fun no => written (holding.trans no), fun yes => (held (holding.trans yes)).trans ?_⟩
  exact (congrArg (fun m => sget [] m part) (Debited.modPart ..).host).trans (left.hostMem part)

/-- The end of a timetable whose completion's token is paid. -/
theorem endTimetable_paid {s : State} {part : Nat} {p : Partition} (is : s.part part = some p) (paid : (payKeeper s part 1).2 = true)
    (t : Timetable) (cls detail : Nat) : let u := whenPaid s part 1 (fun s1 => endTimetable s1 part p t cls detail)
    ∃ r, u.part part = some r ∧ r.unbooked = (p.vacated.holdItem (t.cmd, cls, detail)).unbooked ∧
      (p.holding = false → readBytes (u.hostMem part) t.cmd.compl 16 = completionBytes t.cmd cls detail) ∧
      (p.holding = true → u.hostMem part = s.hostMem part) := by
  intro u
  have run : u = endTimetable (payKeeper s part 1).1 part p t cls detail := whenPaid_paid paid _
  have books := payKeeper_booksOnly s part 1
  obtain ⟨q, here, same⟩ := books.configured is
  obtain ⟨r, configured, eq, written, held⟩ := endTimetable_spec here p t cls detail
  have holding : q.holding = p.holding := Partition.holding_congr same
  rw [run]
  exact ⟨r, configured, eq.trans (congrArg (fun p => (p.vacated.holdItem (t.cmd, cls, detail)).unbooked) same),
    fun no => written (holding.trans no), fun yes => (held (holding.trans yes)).trans (books.hostMem part)⟩

end Sys2Proof.Machine
end

section
/-! O47. What a launch is decided by (14 R265, R266): its start tick, and the first cause for a refusal. -/

namespace Sys2Proof.Machine

/-- A start at once: the first multiple of 4 that is 1200 ticks away (14 R266). -/
theorem launchT0_now {cmd : Cmd} (now : cmd.start = 0) (s : State) (servo : Option Nat) :
    launchT0 s cmd servo % 4 = 0 ∧ s.tick + 1200 ≤ launchT0 s cmd servo ∧ launchT0 s cmd servo < s.tick + 1204 := by
  rw [launchT0, if_pos now, ceilTo]
  omega

/-- The multiple of 4 nearest to a tick, ties to the even quotient (14 R266). -/
theorem nearest4_spec (n : Nat) :
    nearest4 n % 4 = 0 ∧ nearest4 n ≤ n + 2 ∧ n ≤ nearest4 n + 2 ∧ (n % 4 = 2 → nearest4 n % 8 = 0) := by
  unfold nearest4
  dsimp only
  split <;> omega

/-- The status of the first row of a table whose cause holds. -/
def firstCause (rows : List (Bool × Nat)) : Option Nat := (rows.find? (fun r => r.1)).map (fun r => r.2)

theorem firstCause_cons (cause : Bool) (status : Nat) (rows : List (Bool × Nat)) :
    firstCause ((cause, status) :: rows) = if cause = true then some status else firstCause rows := by
  cases cause <;> rfl

theorem firstCause_nil : firstCause [] = none := rfl

/-- A launch is refused with the status of the first row of 14 R265 whose cause holds. -/
theorem launchRefusal_rows (s : State) (p : Partition) (cmd : Cmd) (img : Option Image) (servo : Option Nat) :
    launchRefusal s p cmd img servo = firstCause
      [ (decide (p.tdi ≠ .run), stTdiNotRun),
        (p.basins.any (bitOf s.tripped), stThermal),
        (img.isNone, stImageUnreadable),
        (img.any (fun m => imageBad p (Limits.mk s.unavail (some p.csr.reachlim)) cmd.image m), stTtInvalid),
        (img.any (fun m => rateUnmet s m), stRateClass),
        (img.any (fun m => m.groupTable.any (groupBad p)), stGroupInvalid),
        (img.any (fun m => (List.range m.windows).any (windowBad s p m)), stWindowInvalid),
        (img.any (fun m => decide (m.features &&& featuresOf 0 ≠ m.features)), stFeature),
        (img.any (fun m => !s.svc.getLsbD 0 && (m.pace != 4 || !p.basins.all (fun b => s.svc.getLsbD (4 + b)))), stReduced),
        (img.any (fun m => decide (m.pace = 1) && p.clusters.any (bitOf s.limited)), stPowerLimited),
        (p.basins.any (fun b => !s.cellar.up.getLsbD (2 * b) || !s.cellar.up.getLsbD (2 * b + 1)), stStackUnavail),
        (decide (cmd.start ≠ 0) && s.towpath.tstate != 2, stTimeUnlocked),
        (decide (launchT0 s cmd servo < s.tick + 1200), stLaunchLate) ] := by
  unfold launchRefusal
  simp only [firstCause_cons, firstCause_nil, decide_eq_true_eq]
  cases img with
  | none => rfl
  | some m =>
    simp only [Option.isNone_some, Option.any_some, decide_eq_true_eq]
    rfl

/-- The image of an accepted launch breaks no rule of 03 R72. -/
theorem imageBad_of_accepted {s : State} {p : Partition} {cmd : Cmd} {m : Image} {servo : Option Nat}
    (accepted : launchRefusal s p cmd (some m) servo = none) :
    imageBad p (Limits.mk s.unavail (some p.csr.reachlim)) cmd.image m = false := by
  rw [launchRefusal_rows, firstCause, Option.map_eq_none_iff, List.find?_eq_none] at accepted
  exact Bool.eq_false_iff.2 (accepted (_, stTtInvalid) (.tail _ (.tail _ (.tail _ (.head _)))))

/-- The tasks of an accepted launch lie on different tiles (03 R72). -/
theorem tile_injective {p : Partition} {l : Limits} {image : Nat} {m : Image} (good : imageBad p l image m = false) {j k : Nat}
    (hj : j < m.tasks) (hk : k < m.tasks) (same : m.tile j = m.tile k) : j = k := by
  have distinct : ((List.range m.tasks).map m.tile).Nodup := by
    simp only [imageBad, Bool.or_eq_false_iff, Bool.not_eq_false', decide_eq_true_eq] at good
    obtain ⟨⟨⟨⟨-, distinct⟩, -⟩, -⟩, -⟩ := good
    exact distinct
  exact List.inj_on_of_nodup_map distinct (List.mem_range.2 hj) (List.mem_range.2 hk) same

theorem tile_lt (m : Image) (k : Nat) : m.tile k < 256 := by
  have byte := ofBytes_lt ((m.drop (m.taskOff k)).take 1)
  have short : ((m.drop (m.taskOff k)).take 1).length ≤ 1 := List.length_take_le ..
  exact byte.trans_le (Nat.pow_le_pow_right (by decide) short)

end Sys2Proof.Machine
end

section
/-! O47. Loading and arming (14 R266, R267; 17 R329, R338): what a launch leaves on the cores of its partition. -/

namespace Sys2Proof.Machine

/-! Segments. -/

/-- A core without what the segments of a task load: bundle memory, scratchpad, codes and format registers (03 R69). -/
def Core.unloaded (k : Core) : Core :=
  { k with
    mem := { k.mem with bundles := [], sp := [], labels := [] }
    press := { k.press with codes := [] }
    regs := { k.regs with f := [] } }

theorem unloaded_loadSegment (m : Image) (k : Core) (g : Segment) : (loadSegment m k g).unloaded = k.unloaded := by
  unfold loadSegment
  dsimp only
  split <;> rfl

theorem unloaded_loadSegments (m : Image) (l : List Segment) (k : Core) : (l.foldl (loadSegment m) k).unloaded = k.unloaded := by
  induction l generalizing k with
  | nil => rfl
  | cons g l ih => exact (ih _).trans (unloaded_loadSegment ..)

/-- The core of task k armed, before its segments are loaded. -/
def armedCore (p : Partition) (m : Image) (t0 k : Nat) (old : Core) : Core :=
  { Core.init with
    regs := { Regs.init with c := taskCaps p (m.tile k) }
    csr := { CoreCsr.init with gmemb := m.gmemb k }
    motor := { Stream.init with st := .armed, pc := (m.task t0 k).motorEntry, nextAt := (m.task t0 k).start }
    butty := match m.buttyEntry k with
      | some n => { Stream.init with st := .armed, pc := n, nextAt := (m.task t0 k).start }
      | none => Stream.init
    tlb := old.tlb
    seq := old.seq }

theorem unloaded_taskCore (p : Partition) (m : Image) (t0 k : Nat) (old : Core) :
    (taskCore p m t0 k old).unloaded = (armedCore p m t0 k old).unloaded := unloaded_loadSegments ..

/-- The core of a task as it is armed: its streams, registers, capabilities and flags, whatever its segments hold. -/
theorem taskCore_spec (p : Partition) (m : Image) (t0 k : Nat) (old : Core) : let c := taskCore p m t0 k old
    c.motor.st = .armed ∧ c.motor.pc = m.num (m.taskOff k + 2) 2 ∧ c.motor.nextAt = t0 + m.num (m.taskOff k + 0x10) 8 ∧
      c.regs.c = taskCaps p (m.tile k) ∧ c.regs.x = [] ∧ c.regs.p = 0 ∧ c.csr = { CoreCsr.init with gmemb := m.gmemb k } ∧
      c.mem.flags = [] ∧ c.hand = [] := by
  intro c
  have same := unloaded_taskCore p m t0 k old
  exact ⟨congrArg (fun k => k.motor.st) same, congrArg (fun k => k.motor.pc) same, congrArg (fun k => k.motor.nextAt) same,
    congrArg (fun k => k.regs.c) same, congrArg (fun k => k.regs.x) same, congrArg (fun k => k.regs.p) same,
    congrArg (fun k => k.csr) same, congrArg (fun k => k.mem.flags) same, congrArg (fun k => k.hand) same⟩

/-! Tasks. -/

/-- Each core is as before or is that of a task. -/
theorem core_armTasks (s : State) (p : Partition) (m : Image) (t0 n c : Nat) :
    (armTasks s p m t0 n).core c = s.core c ∨ ∃ k old, (armTasks s p m t0 n).core c = taskCore p m t0 k old := by
  induction n with
  | zero => exact .inl rfl
  | succ n ih =>
    rw [armTasks, State.core_modCore]
    split
    · exact .inr ⟨n, _, rfl⟩
    · exact ih

/-- The tile of a task that shares it with no other is armed for it. -/
theorem core_armTasks_tile (s : State) (p : Partition) {m : Image} (t0 : Nat) {n k : Nat} (task : k < n)
    (alone : ∀ j, j < n → m.tile k = m.tile j → k = j) : ∃ old, (armTasks s p m t0 n).core (m.tile k) = taskCore p m t0 k old := by
  induction n with
  | zero => omega
  | succ n ih =>
    rw [armTasks, State.core_modCore]
    split
    · next here =>
      obtain rfl := alone n (by omega) here
      exact ⟨_, rfl⟩
    · next away =>
      have : k ≠ n := fun same => away (congrArg m.tile same)
      exact ih (by omega) fun j hj => alone j (by omega)

theorem part_armTasks (s : State) (p : Partition) (m : Image) (t0 n i : Nat) : (armTasks s p m t0 n).part i = s.part i := by
  induction n with
  | zero => rfl
  | succ n ih => exact ih

/-! Hand tables and windows. -/

/-- The hand tables of the tile cores that a partition's timetable runs on are freed (17 R338). -/
theorem hand_freePartHands {s : State} {part : Nat} {p : Partition} {c : Nat} (tile : c < 256)
    (runs : (s.clustersFor part p).contains (c / 8) = true) : ((freePartHands s part p).core c).hand = [] := by
  have here : (isTile c && (s.clustersFor part p).contains (c / 8)) = true := Bool.and_eq_true_iff.2 ⟨decide_eq_true tile, runs⟩
  rw [freePartHands, State.core_mapCores _ _ (fun d => by split <;> rfl), if_pos here]
  rfl

theorem loadWindows_eq (s : State) (p : Partition) (m : Image) (n : Nat) :
    ∃ w x, loadWindows s p m n = { s with windows := w, wstat := x } := by
  induction n with
  | zero => exact ⟨s.windows, s.wstat, rfl⟩
  | succ n ih =>
    obtain ⟨w, x, is⟩ := ih
    rw [loadWindows, is]
    exact ⟨_, _, rfl⟩

/-! The launch. -/

/-- The cores of a launch, before its partition takes the timetable. -/
def launchCores (s : State) (part : Nat) (p : Partition) (m : Image) (t0 : Nat) : State :=
  armTasks (freePartHands (loadWindows s p m m.windows) part p) p m t0 m.tasks

theorem part_launchCores (s : State) (part : Nat) (p : Partition) (m : Image) (t0 n : Nat) :
    (launchCores s part p m t0).part n = s.part n := by
  obtain ⟨w, x, is⟩ := loadWindows_eq s p m m.windows
  rw [launchCores, part_armTasks, is]
  rfl

/-- No tile core of a launch's partition keeps a hand (17 R338). -/
theorem hand_launchCores {s : State} {part : Nat} {p : Partition} {c : Nat} (tile : c < 256)
    (runs : (s.clustersFor part p).contains (c / 8) = true) (m : Image) (t0 : Nat) : ((launchCores s part p m t0).core c).hand = [] := by
  obtain ⟨w, x, is⟩ := loadWindows_eq s p m m.windows
  rw [launchCores, is]
  rcases core_armTasks (freePartHands { s with windows := w, wstat := x } part p) p m t0 m.tasks c with same | ⟨k, old, armed⟩
  · rw [same]
    exact hand_freePartHands tile runs
  · obtain ⟨-, -, -, -, -, -, -, -, hand⟩ := taskCore_spec p m t0 k old
    rw [armed, hand]

/-- A partition that takes a launched timetable. -/
def Partition.launched (cmd : Cmd) (cls t0 : Nat) (m : Image) (p : Partition) : Partition :=
  { p with fmts := m.formatTable, tt := some (launchTimetable cmd cls t0 m), taken := none }

/-- A launch leaves its cores as they are loaded and armed, and its partition with its timetable and format table. -/
theorem armLaunch_spec {s : State} {part : Nat} {p : Partition} (is : s.part part = some p) (cmd : Cmd) (m : Image) (t0 : Nat) :
    let u := armLaunch s part p cmd m t0
    (∃ r, u.part part = some r ∧ r.unbooked = (p.launched cmd (p.queue cmd.queue).cls t0 m).unbooked) ∧
      ∀ c, c < 256 → u.core c = (launchCores s part p m t0).core c := by
  intro u
  obtain ⟨islands, settled⟩ := settlePart_eq (launchCores s part p m t0) part m.pace
  have run : u = (({ launchCores s part p m t0 with islands := islands }).modPart part
      (Partition.launched cmd (p.queue cmd.queue).cls t0 m)).note part 3 cmd.queue 255 0 (some cmd) := by
    rw [← settled]
    rfl
  have noted := note_booksOnly (({ launchCores s part p m t0 with islands := islands }).modPart part
    (Partition.launched cmd (p.queue cmd.queue).cls t0 m)) part 3 cmd.queue 255 0 (some cmd)
  rw [← run] at noted
  have configured : ({ launchCores s part p m t0 with islands := islands } : State).part part = some p :=
    (part_launchCores ..).trans is
  refine ⟨noted.configured ?_, fun c tile => (noted.tiles c (decide_eq_true tile)).trans (State.core_modPart ..)⟩
  rw [State.part_modPart_same, configured, Option.map_some]

end Sys2Proof.Machine
end

section
/-! O47. Holds (14 R284, R285): what one leaves when it is placed and when it is released. -/

namespace Sys2Proof.Machine

/-- A hold is placed in the timetable, and journalled. -/
theorem placeHold_spec {s : State} {part : Nat} {t : Timetable} (running : s.tt part = some t) (why : HoldReason) :
    (placeHold s part why).tt part = some { t with hold := some (Hold.mk why s.tick), pre := if why = .preempt then 1 else t.pre } ∧
      SameTiles s (placeHold s part why) := by
  have noted := note_booksOnly
    (s.modTt part (fun t => { t with hold := some (Hold.mk why s.tick), pre := if why = .preempt then 1 else t.pre }))
    part 6 255 255 0 none
  exact ⟨(noted.tt part).trans (State.tt_modTt running _), fun d tile => (noted.tiles d tile).trans (State.core_modTt ..)⟩

/-- A hold is lifted from the timetable, whose deadline takes its time, and journalled. -/
theorem releaseHold_spec {s : State} {part : Nat} {t : Timetable} (running : s.tt part = some t) (h : Hold) :
    (releaseHold s part h).tt part = some { t with hold := none, held := t.held + (s.tick - h.since), pre := 0 } ∧
      SameTiles s (releaseHold s part h) := by
  have noted := note_booksOnly (s.modTt part (fun t => { t with hold := none, held := t.held + (s.tick - h.since), pre := 0 }))
    part 7 255 255 0 none
  exact ⟨(noted.tt part).trans (State.tt_modTt running _), fun d tile => (noted.tiles d tile).trans (State.core_modTt ..)⟩

theorem part_reloadTasks (s : State) (m : Image) (tasks : List Task) (n : Nat) : (reloadTasks s m tasks).part n = s.part n := by
  unfold reloadTasks
  induction tasks.zipIdx generalizing s with
  | nil => rfl
  | cons x l ih => exact ih _

/-- What is done under a hold leaves the partitions. -/
theorem part_holdWork (s : State) (part : Nat) (t : Timetable) (why : HoldReason) (n : Nat) :
    (holdWork s part t why).part n = s.part n := by
  have logged : (logImage s part t.cmd.image).part n = s.part n := by
    obtain ⟨l, is⟩ := logImage_eq s part t.cmd.image
    rw [is]
    rfl
  cases why with
  | voltage =>
    obtain ⟨l, is⟩ := settlePart_eq s part t.pace
    rw [holdWork, is]
    rfl
  | reload =>
    unfold holdWork
    dsimp only
    split
    · split
      · rfl
      · exact part_reloadTasks ..
    · exact logged
  | preempt => rfl
  | bottle => rfl

/-- Only a reload writes the cores (14 R285). -/
theorem core_holdWork (s : State) (part : Nat) (t : Timetable) {why : HoldReason} (other : why ≠ .reload) (d : Nat) :
    (holdWork s part t why).core d = s.core d := by
  cases why with
  | voltage =>
    obtain ⟨l, is⟩ := settlePart_eq s part t.pace
    rw [holdWork, is]
    rfl
  | reload => exact absurd rfl other
  | preempt => rfl
  | bottle => rfl

theorem tick_holdWork (s : State) (part : Nat) (t : Timetable) (why : HoldReason) : (holdWork s part t why).tick = s.tick :=
  (congrArg Prod.snd (holdWork_locus s part t why) :)

end Sys2Proof.Machine
end

section
/-! O47. Stops (19 R373, R374): what reaches the cores of a timetable that stops, and its partition. -/

namespace Sys2Proof.Machine

/-! A core that stops. -/

theorem Stream.haltFor_haltFor (t : Stream) (status : Nat) : (t.haltFor status).haltFor status = t.haltFor status := by
  cases is : t.st <;> simp [Stream.haltFor, is]

/-- A core that has stopped stays as it is. -/
theorem Core.stopped_stopped (k : Core) (status : Nat) : (k.stopped status).stopped status = k.stopped status := by
  have racks (r : Nat × Rack) : (r.1, if r.2.live then { r.2 with cancel := true } else r.2) =
      (fun r : Nat × Rack => (r.1, if r.2.live then { r.2 with cancel := true } else r.2))
        (r.1, if r.2.live then { r.2 with cancel := true } else r.2) := by
    cases live : r.2.live
    · simp [live]
    · have still : Rack.live { r.2 with cancel := true } = true := live
      simp [still]
  simp only [Core.stopped, Stream.haltFor_haltFor, List.map_map, List.filter_filter, Bool.and_self]
  congr 1
  exact List.map_congr_left fun r _ => (racks r).symm

theorem withdrawn_eq (x : Option Send) : withdrawn x = x.any (fun y => decide (y.st = .booked) && decide (y.gone = 0)) := by
  cases x <;> rfl

/-! The cores of the timetable. -/

/-- A core without its guards. -/
def Core.bare (k : Core) : Core := { k with guards := [] }

theorem Core.stopped_bare {k l : Core} (same : k.bare = l.bare) (status : Nat) :
    (k.stopped status).bare = (l.stopped status).bare :=
  congrArg (fun k : Core => k.stopped status) same

theorem core_dropSends (s : State) (c : Nat) (ids : List Nat) (d : Nat) :
    ((ids.foldl (fun s i => dropGuards s c false i) s).core d).bare = (s.core d).bare := by
  induction ids generalizing s with
  | nil => rfl
  | cons i ids ih => exact (ih _).trans (congrArg Core.bare (dropGuards_core s c false i d) :)

theorem core_stopCore (s : State) (c status d : Nat) : ((stopCore s c status).core d).bare =
    (if d = c then (s.core d).stopped status else s.core d).bare := by
  have dropped := core_dropSends s c (s.core c).withdraws d
  refine (congrArg Core.bare (State.core_modCore ((s.core c).withdraws.foldl (fun s i => dropGuards s c false i) s) c
    (fun k => k.stopped status) d)).trans ?_
  split
  · next here =>
    subst here
    exact Core.stopped_bare dropped status
  · exact dropped

/-- A stop reaches every core of the list, and of the others the guards of withdrawn sends alone. -/
theorem core_stopCores (s : State) (status : Nat) (l : List Nat) (d : Nat) : ((stopCores s status l).core d).bare =
    (if d ∈ l then (s.core d).stopped status else s.core d).bare := by
  induction l generalizing s with
  | nil => rfl
  | cons c l ih =>
    have first := core_stopCore s c status d
    refine (ih (stopCore s c status)).trans ?_
    by_cases later : d ∈ l
    · have again := Core.stopped_bare first status
      rw [if_pos later, if_pos (List.mem_cons_of_mem _ later), again]
      split
      · rw [Core.stopped_stopped]
      · rfl
    · rw [if_neg later, first]
      simp only [List.mem_cons, later, or_false]

theorem part_stopCores (s : State) (status : Nat) (l : List Nat) (n : Nat) : (stopCores s status l).part n = s.part n := by
  have drops (c : Nat) (ids : List Nat) (t : State) : (ids.foldl (fun s i => dropGuards s c false i) t).part n = t.part n := by
    induction ids generalizing t with
    | nil => rfl
    | cons i ids ih => exact ih _
  induction l generalizing s with
  | nil => rfl
  | cons c l ih => exact (ih _).trans (drops ..)

end Sys2Proof.Machine
end

section
/-! O47. The events of a timetable: its launch, its start, its holds and its end (14 R264-R269, R284; 15 R299; 19 R374). -/

namespace Sys2Proof.Machine

theorem State.tt_of_part {s : State} {part : Nat} {p : Partition} (configured : s.part part = some p) : s.tt part = p.tt := by
  rw [State.tt, configured]
  rfl

theorem State.tt_modPart (s : State) (part : Nat) {f : Partition → Partition} (keeps : ∀ p, (f p).tt = p.tt) :
    (s.modPart part f).tt part = s.tt part := by
  rw [State.tt, State.tt, State.part_modPart_same]
  cases s.part part with
  | none => rfl
  | some p => exact keeps p

/-- The refusal of a launch, once its token is paid. -/
def refuseLaunch (s : State) (part : Nat) (cmd : Cmd) (st : Nat) : State :=
  complete (((logImage s part cmd.image).modPart part (fun p => { p with taken := none })).note part 4 cmd.queue 255 st (some cmd))
    part cmd clRefused st

/-- A refusal leaves nothing taken, and its completion in host memory. -/
theorem refuseLaunch_spec {s : State} {part : Nat} {q : Partition} (is : s.part part = some q) (free : q.holding = false)
    (cmd : Cmd) (st : Nat) : let u := refuseLaunch s part cmd st
    ∃ r, u.part part = some r ∧ r.taken = none ∧ r.tt = q.tt ∧
      readBytes (u.hostMem part) cmd.compl 16 = completionBytes cmd clRefused st := by
  intro u
  obtain ⟨l, logged⟩ := logImage_eq s part cmd.image
  have emptied : ((logImage s part cmd.image).modPart part (fun p => { p with taken := none })).part part =
      some { q with taken := none } := by
    rw [State.part_modPart_same, logged]
    exact congrArg _ is
  obtain ⟨y, here, same⟩ := (note_booksOnly _ part 4 cmd.queue 255 st (some cmd)).configured emptied
  obtain ⟨r, left, eq, written, -⟩ := complete_spec here cmd clRefused st
  have taken : r.taken = none := (congrArg Partition.taken eq).trans (congrArg Partition.taken same :)
  have tt : r.tt = q.tt := (congrArg Partition.tt eq).trans (congrArg Partition.tt same :)
  exact ⟨r, left, taken, tt, written ((Partition.holding_congr same).trans free)⟩

/-- The end of a timetable, once the token of its completion is paid: what its partition keeps, and the completion. -/
theorem timetable_ends {i : Instr} {s : State} {part : Nat} {p : Partition} {t : Timetable} {cls detail : Nat}
    (run : exec i s = .next (whenPaid s part 1 (fun s1 => endTimetable s1 part p t cls detail))) (configured : s.part part = some p)
    (paid : (payKeeper s part 1).2 = true) : ∃ u r, exec i s = .next u ∧ u.part part = some r ∧ r.tt = none ∧
      r.csr.botOpen = false ∧ r.bottle = none ∧ r.ctxs = p.ctxs ∧ r.queues = p.queues ∧
      (p.holding = false → readBytes (u.hostMem part) t.cmd.compl 16 = completionBytes t.cmd cls detail) ∧
      (p.holding = true → r.heldItems = p.heldItems ++ [(t.cmd, cls, detail)] ∧ u.hostMem part = s.hostMem part) := by
  obtain ⟨r, here, same, written, held⟩ := endTimetable_paid configured paid t cls detail
  have items : r.heldItems = if p.holding then p.heldItems ++ [(t.cmd, cls, detail)] else p.heldItems :=
    congrArg Partition.heldItems same
  exact ⟨_, r, run, here, congrArg Partition.tt same, congrArg (fun p => p.csr.botOpen) same, congrArg Partition.bottle same,
    (congrArg Partition.ctxs same :), (congrArg Partition.queues same :), written, fun yes => ⟨items.trans (if_pos yes), held yes⟩⟩

section
variable {s : State} {part : Nat} {p : Partition} (configured : s.part part = some p)
include configured

/-! LAUNCH_COMMIT. -/

theorem exec_launchCommit_armed {servo : Option Nat} {cmd : Cmd} {m : Image} (free : p.holding = false) (taken : p.taken = some cmd)
    (image : readImage s part cmd.image = some m) (accepted : launchRefusal s p cmd (some m) servo = none) :
    exec (.launchCommit part servo) s = .next (armLaunch s part p cmd m (launchT0 s cmd servo)) := by
  have run : exec (.launchCommit part servo) s = execLaunchCommit part servo s := rfl
  rw [run, execLaunchCommit]
  simp only [configured, free, Bool.false_eq_true, if_false, taken, image, accepted]

theorem exec_launchCommit_refused {servo : Option Nat} {cmd : Cmd} {st : Nat} (free : p.holding = false) (taken : p.taken = some cmd)
    (refused : launchRefusal s p cmd (readImage s part cmd.image) servo = some st) (paid : (payKeeper s part 1).2 = true) :
    exec (.launchCommit part servo) s = .next (refuseLaunch (payKeeper s part 1).1 part cmd st) := by
  have run : exec (.launchCommit part servo) s = execLaunchCommit part servo s := rfl
  rw [run, execLaunchCommit]
  simp only [configured, free, Bool.false_eq_true, if_false, taken, refused]
  exact congrArg _ (whenPaid_paid paid _)

/-! KEEPER_HOLD and KEEPER_HOLD_RELEASE. -/

variable {t : Timetable} (running : p.tt = some t)
include running

theorem exec_keeperHold {why : HoldReason} (may : canHold s part p t why = true) :
    exec (.keeperHold part why) s = .next (placeHold s part why) := by
  have run : exec (.keeperHold part why) s = execKeeperHold part why s := rfl
  rw [run, execKeeperHold]
  simp only [configured, running, may, if_true]

theorem exec_keeperHoldRelease {h : Hold} (held : t.hold = some h) (early : t.pre ≤ 1) (noBottle : p.bottle = none)
    (free : p.holding = false) :
    exec (.keeperHoldRelease part) s = .next (releaseHold (holdWork s part t h.why) part h) := by
  have run : exec (.keeperHoldRelease part) s = execKeeperHoldRelease part s := rfl
  rw [run, execKeeperHoldRelease]
  simp only [configured, running, held, early, noBottle, free, decide_true, Option.isNone_none, Bool.not_false, Bool.and_self, if_true]

/-! TIMETABLE_COMPLETE and TIMETABLE_STOP. -/

theorem exec_timetableComplete (armed : t.armed = true) (going : t.stop = none) (landed : t.incs = [])
    (ended : t.tasks.all (fun k => s.taskOver k.core) = true) :
    exec (.timetableComplete part) s = .next (whenPaid s part 1 (fun s1 =>
      if t.poisoned then endTimetable s1 part p t clStopped stCtxPoisoned else endTimetable s1 part p t clComplete 0)) := by
  have run : exec (.timetableComplete part) s = execTimetableComplete part s := rfl
  rw [run, execTimetableComplete]
  simp only [configured, running, armed, going, landed, ended, Option.isNone_none, List.isEmpty_nil, Bool.and_self, if_true]

theorem exec_timetableStop_halted {status c : Nat} (going : t.stop = none) (halted : haltedWith s t status = some c) :
    exec (.timetableStop part status) s = .next (s.stopTimetable part c false status) := by
  have run : exec (.timetableStop part status) s = execTimetableStop part status s := rfl
  rw [run, execTimetableStop]
  simp only [configured, running, going, halted]

theorem exec_timetableStop_reaches {e : Nat × Nat × Bool × Nat} (stop : t.stop = some e) (first : t.stopped = false) :
    exec (.timetableStop part e.2.2.2) s = .next (haltTimetable s part t e.2.2.2) := by
  have run : exec (.timetableStop part e.2.2.2) s = execTimetableStop part e.2.2.2 s := rfl
  rw [run, execTimetableStop]
  simp only [configured, running, stop, first, ne_eq, not_true_eq_false, if_false, Bool.not_false, if_true]

theorem exec_timetableStop_ends {e : Nat × Nat × Bool × Nat} (stop : t.stop = some e) (stopped : t.stopped = true)
    (still : t.tasks.all (fun k => s.stilled k.core) = true) : exec (.timetableStop part e.2.2.2) s =
      .next (whenPaid s part 1 (fun s1 => endTimetable s1 part p t clStopped e.2.2.2)) := by
  have run : exec (.timetableStop part e.2.2.2) s = execTimetableStop part e.2.2.2 s := rfl
  rw [run, execTimetableStop]
  simp only [configured, running, stop, stopped, still, ne_eq, not_true_eq_false, if_false, Bool.not_true, Bool.false_eq_true, if_true]

/-- The keeper's stop is the first stopping event of a timetable that has none. -/
theorem tt_stopTimetable (going : t.stop = none) (c status : Nat) :
    (s.stopTimetable part c false status).tt part = some { t with stop := some (s.tick, c, false, status) } := by
  have first : t.addStop (s.tick, c, false, status) = { t with stop := some (s.tick, c, false, status) } := by
    simp only [Timetable.addStop, going]
  exact (State.tt_modTt ((State.tt_of_part configured).trans running) _).trans (congrArg some first)

/-- What a stop leaves of its timetable (19 R374). -/
theorem tt_haltTimetable (status : Nat) : ∃ u, (haltTimetable s part t status).tt part = some u ∧
    u.stopped = true ∧ u.hold = none ∧ u.incs = [] := by
  have halted : ((stopCores s status (t.tasks.map (fun k => k.core))).unhold t.heldArr).tt part = some t :=
    (congrArg (fun q => q.bind (fun p : Partition => p.tt)) (part_stopCores ..)).trans ((State.tt_of_part configured).trans running)
  have still := (State.tt_modPart ((stopCores s status (t.tasks.map (fun k => k.core))).unhold t.heldArr) part (f := fun p =>
    { p with bottle := none, csr := { p.csr with botOpen := false, bottling := false } }) fun _ => rfl).trans halted
  exact ⟨_, State.tt_modTt still _, rfl, rfl, rfl⟩

end

/-- What a stop leaves on a core of its timetable (19 R374). -/
theorem core_haltTimetable {s : State} {part : Nat} {t : Timetable} {k : Task} (task : k ∈ t.tasks) (status : Nat) :
    ((haltTimetable s part t status).core k.core).bare = ((s.core k.core).stopped status).bare := by
  have stopped := core_stopCores s status (t.tasks.map (fun k => k.core)) k.core
  rw [if_pos (List.mem_map_of_mem task)] at stopped
  rw [haltTimetable, State.core_modTt, State.core_modPart]
  exact stopped

theorem exec_taskStart {s : State} {c : Nat} (starts : (s.core c).startsNow s.tick = true) : exec (.taskStart c) s =
    .next (s.modCore c (fun k => { k with
      motor := { k.motor with st := .run }
      butty := if k.butty.st = .armed then { k.butty with st := .run } else k.butty
      reachix := 0
      reachtick := k.motor.nextAt })) := congrArg Host.Outcome.next (if_pos starts)

/-- Settles O47: a launch is decided by its rows, its cores are armed in their own tiles, and what the keeper does to a timetable and its
completion leaves everything else of the partition but its books. -/
theorem launchEvents : Obligations.LaunchEvents := by
  unfold Obligations.LaunchEvents
  intro s part p configured record
  refine ⟨fun cmd servo now => launchT0_now now s servo, fun cmd n later => ?nearest, launchRefusal_rows s p,
    fun servo cmd m free taken image accepted => ?armed, fun servo cmd st free taken refused paid => ?refused, fun c starts => ?start,
    fun t running => ⟨fun why may => ?hold, fun h held early noBottle free => ?release, fun armed going landed ended paid => ?complete,
      fun status c going halted => ⟨_, exec_timetableStop_halted configured running going halted,
        tt_stopTimetable configured running going c status, State.modPart_cores ..⟩,
      fun e stop first => ?reaches, fun e stop stopped still paid => ?ends⟩⟩
  case nearest =>
    rw [launchT0, if_neg later]
    exact nearest4_spec n
  case armed =>
    obtain ⟨⟨r, here, same⟩, cores⟩ := armLaunch_spec configured cmd m (launchT0 s cmd servo)
    refine ⟨_, r, _, exec_launchCommit_armed configured free taken image accepted, here, congrArg Partition.taken same,
      congrArg Partition.fmts same, congrArg Partition.tt same, rfl, rfl, fun k task => ?_, fun c tile runs => ?_⟩
    · have distinct (j : Nat) (hj : j < m.tasks) := tile_injective (imageBad_of_accepted accepted) task hj
      obtain ⟨old, loaded⟩ := core_armTasks_tile (freePartHands (loadWindows s p m m.windows) part p) p (launchT0 s cmd servo)
        task distinct
      obtain ⟨st, pc, nextAt, c, x, preds, csr, flags, -⟩ := taskCore_spec p m (launchT0 s cmd servo) k old
      rw [cores _ (tile_lt m k), launchCores, loaded]
      exact ⟨st, pc, nextAt, c, x, preds, csr, flags⟩
    · rw [cores c tile]
      exact hand_launchCores tile runs ..
  case refused =>
    have books := payKeeper_booksOnly s part 1
    obtain ⟨q, here, same⟩ := books.configured configured
    obtain ⟨r, left, nothing, tt, written⟩ := refuseLaunch_spec here ((Partition.holding_congr same).trans free) cmd st
    exact ⟨_, r, exec_launchCommit_refused configured free taken refused paid, left, nothing,
      tt.trans (congrArg Partition.tt same :), written⟩
  case start => exact ⟨_, exec_taskStart starts, rfl, fun _ other => State.core_modCore_other _ _ _ other, State.core_modCore_same ..⟩
  case hold =>
    obtain ⟨tt, tiles⟩ := placeHold_spec ((State.tt_of_part configured).trans running) why
    exact ⟨_, _, exec_keeperHold configured running may, tt, rfl, rfl, tiles⟩
  case release =>
    have same : (holdWork s part t h.why).tt part = some t :=
      (congrArg (fun q => q.bind (fun p : Partition => p.tt)) (part_holdWork ..)).trans ((State.tt_of_part configured).trans running)
    obtain ⟨tt, tiles⟩ := releaseHold_spec same h
    rw [tick_holdWork] at tt
    exact ⟨_, exec_keeperHoldRelease configured running held early noBottle free, tt,
      fun other d tile => (tiles d tile).trans (core_holdWork s part t other d)⟩
  case complete =>
    have run := exec_timetableComplete configured running armed going landed ended
    cases poisoned : t.poisoned <;> rw [poisoned] at run <;> exact timetable_ends run configured paid
  case reaches =>
    obtain ⟨u, tt, stopped, hold, incs⟩ := tt_haltTimetable configured running e.2.2.2
    refine ⟨_, u, exec_timetableStop_reaches configured running stop first, tt, stopped, hold, incs, fun k task => ?_⟩
    have same := core_haltTimetable (s := s) (part := part) task e.2.2.2
    refine ⟨congrArg Core.motor same, congrArg Core.butty same, (congrArg Core.mem same :), congrArg Core.racks same, ?_,
      congrArg Core.fences same, congrArg Core.mons same, congrArg Core.garr same, (congrArg Core.pend same :)⟩
    simp only [← withdrawn_eq]
    exact congrArg Core.sends same
  case ends =>
    obtain ⟨u, r, run, here, tt, -, -, -, -, completion⟩ :=
      timetable_ends (exec_timetableStop_ends configured running stop stopped still) configured paid
    exact ⟨u, r, run, here, tt, completion⟩

end Sys2Proof.Machine
end
